-- ==== Sys2Proof/Word.lean ====
section
/-!
DEFINITION. Word.lean: the word types of the KZ7716 and their plainest arithmetic (bit fields, byte order).
-/
namespace Sys2Proof

/-- A 32-bit word: every word register, every peripheral register (R567). -/
abbrev Word := BitVec 32
/-- A 64-bit doubleword. -/
abbrev DWord := BitVec 64
/-- One byte of memory. -/
abbrev Byte := BitVec 8
/-- A colour of a granule or of a slot (R74). -/
abbrev Colour := BitVec 4
/-- One of the sixteen tiles. -/
abbrev TileId := BitVec 4
/-- One of the 4,096 contexts (R203). -/
abbrev CtxId := BitVec 12

/-- The two worlds of the device. -/
inductive World where
  | trade
  | opn
deriving DecidableEq, Repr

/-- The bit that names a world where 1 is the Trade world (TW, STATUS, CCTL.WORLD …). -/
def World.bit : World → Bool
  | .trade => true
  | .opn => false

/-- The world a bit names where 1 is the Trade world. -/
def World.ofBit (b : Bool) : World := if b then .trade else .opn

/-- The other world. -/
def World.other : World → World
  | .trade => .opn
  | .opn => .trade

/-- 0 for the Trade world, 1 for the Open world: the index of a world's own copy of a world-banked register. -/
def World.idx : World → Nat
  | .trade => 0
  | .opn => 1

end Sys2Proof
end

