-- ==== Sys2Proof/Syntax.lean ====
section
/-!
DEFINITION. Syntax.lean: the commands of the device, one constructor per row of the table of operations and events, with
the operands a command brings from outside (who asks, which unit, the value written, a measurement, a frame).
-/
namespace Sys2Proof

/-- Who makes a register access: its world, level and colour mask, and the tile it comes from, if any (R100). -/
structure Req where
  world : World
  sup : Bool
  cmr : BitVec 16
  tile : Option TileId
deriving DecidableEq, Repr

/-- Where Ferry frames travel (R375): a backbone port, a lane port, a USB port. -/
inductive Carrier where
  | backbone (k : BitVec 1)
  | lane (p : BitVec 4)
  | usb (p : BitVec 1)
deriving DecidableEq, Repr

/-- A peer on a carrier: its IPv4 address and UDP port; on a lane its MAC address, with port 0. -/
structure Peer where
  addr : Nat
  port : Nat
deriving DecidableEq, Repr

/-- A Ferry frame as it arrives: its carrier and peer, the IPv4 address and UDP port it was sent to, whether its datagram is whole and
without IPv4 options, and the bytes of the UDP payload or of the Ethernet payload (R375). -/
structure FerryFrame where
  carrier : Carrier
  peer : Peer
  dstAddr : Word
  dstPort : BitVec 16
  plain : Bool
  bytes : List Byte
deriving DecidableEq, Repr

/-- What a memory read or a line arrival met (R60), or a cache's own check (R148): a corrected error, or an uncorrectable error in
the dirty line that the data cache holds at key 4·set + way. -/
inductive MemErr where
  | ok
  | corrected
  | uncorrectable
  | cacheCorrected
  | cacheDirty (key : Nat)
deriving DecidableEq, Repr

/-- A requester on the mesh: a tile or one of the eight system masters of Table 1-5, with the queue or channel that
makes the access. -/
inductive Requester where
  | tile (t : TileId)
  | lane (p : BitVec 4) (k : BitVec 3) (tx : Bool)
  | backbone (n : BitVec 4)
  | usb (u : BitVec 1) (e : BitVec 5)
  | dma (c : BitVec 5)
  | sweep
  | seal
  | dap
  | engine
  | ledger
deriving DecidableEq, Repr

/-- A target on the mesh, numbered as MSTOTARGET numbers it (Table 1-3a). -/
inductive Target where
  | sram
  | dram
  | emram
  | ember
  | bridge
  | rom
deriving DecidableEq, Repr
/-- What happens at a USB port's lines (Table 13-10d): attach at a speed (0 low, 1 full, 2 high), detach, overcurrent, a bus reset in the
device role, suspend, resume, VBUS seen or gone, the ID land, an address that the host assigns. -/
inductive UsbEvent where
  | attach (speed : BitVec 2)
  | detach
  | overcurrent
  | busReset
  | suspend
  | resume
  | vbus (on : Bool)
  | idLand (high : Bool)
  | address (a : BitVec 7)
deriving DecidableEq, Repr


/-- What the bus die measures (R472, Tables 15-3, 15-8, 15-9): port currents in mA and output voltages in 10 mV by port, NTC temperatures
in °C, VBUS and VSTORE in 10 mV, the bank current in 10 mA, the bus-side current of the converter in mA, the logic supply's output in mW. -/
structure PowerMeas where
  imeas : List (BitVec 16)
  vout : List (BitVec 16)
  ntc : List (BitVec 8)
  vbus : BitVec 16
  vstore : BitVec 16
  scurr : BitVec 16
  conv : BitVec 16
  logicp : BitVec 16
deriving DecidableEq, Repr

/-- One constructor per row of the table of operations and events (opcode_table.json). -/
inductive Instr where
  /-- BUNDLE_ISSUE (R157): A tile decodes and issues one bundle of up to four moves, applying decoding faults, guards and conflicts, and triggering the units it names. -/
  | bundleIssue (t : TileId)
  /-- PENDING_RESULT_VISIBLE (R131): An operation of latency L triggered in bundle n makes its result visible in its result port from bundle n + L. -/
  | pendingResultVisible (t : TileId)
  /-- CONTEXT_FILL_COMPLETE (R211): A fill that has received and checked the whole slot writes the victim bank and the tile resumes. -/
  | contextFillComplete (t : TileId)
  /-- SPILL_COMPLETE (R210): The spill engine finishes writing a queued copy to its slot and the context becomes STORED. -/
  | spillComplete (t : TileId)
  /-- GATE_FENCE_COMPLETE (R115): A gate fence completes after the last awaited access completes or times out. -/
  | gateFenceComplete (t : TileId)
  /-- FENCE_COMPLETE (R146): A memory or instruction fence ends when every earlier access has been performed. -/
  | fenceComplete (t : TileId)
  /-- DWBINV_COMPLETE (R147): The write-back freeze ends when the response to the last write-back arrives. -/
  | dwbinvComplete (t : TileId)
  /-- EXCEPTION_ENTRY (R251): After the drain, the tile pushes a frame and enters the handler of the exception's descriptor. -/
  | exceptionEntry (t : TileId)
  /-- IMPRECISE_REPORT (R266): An imprecise arithmetic condition is reported at the boundary after its completion bundle plus 8. -/
  | impreciseReport (t : TileId)
  /-- PRECISE_FREEZE_END (R268): Under PRECISE a triggering bundle completes or is squashed after its freeze. -/
  | preciseFreezeEnd (t : TileId)
  /-- INTERRUPT_DELIVERY (R296): At a boundary the tile takes the highest-priority deliverable source and commits it at cycle 6. -/
  | interruptDelivery (t : TileId)
  /-- MACHINE_CHECK (R279): A pending machine check is taken through entry and counted in MCCOUNT and the ledger. -/
  | machineCheck (t : TileId)
  /-- CROSS_WORLD_ENTRY (R277): A Trade interrupt on a tile running an Open context switches to the Trade host context and enters. -/
  | crossWorldEntry (t : TileId)
  /-- IDLE_HOST_ENTRY (R295): A tile with no running context switches to a world's host context and enters for a deliverable source. -/
  | idleHostEntry (t : TileId)
  /-- CACHE_LINE_ARRIVAL (R34): A missed line or ownership arrives and the tile's freeze ends. -/
  | cacheLineArrival (t : TileId) (err : MemErr)
  /-- PERIPHERAL_RESPONSE (R31): The response to a non-posted peripheral access arrives, ending the freeze or raising BUS_ERR. -/
  | peripheralResponse (t : TileId)
  /-- TARGET_TIMEOUT (R30): A target's timeout expires; it sends an error response and returns the credit. -/
  | targetTimeout (r : Requester) (target : Target) (bank : BitVec 5)
  /-- WRITE_BUFFER_DRAIN (R18): A write-buffer entry drains when a credit is free and the controller merges and programs its line. -/
  | writeBufferDrain (t : TileId)
  /-- EMRAM_LINE_PROGRAMMED (R17): An eMRAM line finishes programming and read-back, retrying once or reporting failure. -/
  | emramLineProgrammed (bank : BitVec 2) (ok1 : Bool) (ok2 : Bool)
  /-- PAGE_WALK (R318): A micro-TLB miss probes the TLB and walk cache and walks the page tables, freezing the tile. -/
  | pageWalk (t : TileId)
  /-- DVFS_CLOCK_SWITCH_END (R150): The 200 ns clock switch of a DVFS change ends. -/
  | dvfsClockSwitchEnd (t : TileId)
  /-- DVFS_RAMP_END (R150): The voltage ramp of a DVFS change settles and BUSY clears. -/
  | dvfsRampEnd (t : TileId)
  /-- TDVFS_WRITE (R150): A write to TDVFS POINT starts a change of DVFS point. -/
  | tdvfsWrite (q : Req) (t : TileId) (v : Word)
  /-- TFLOOR_WRITE (R151): A Trade supervisor write sets the lowest DVFS point permitted for the tile. -/
  | tfloorWrite (q : Req) (t : TileId) (v : Word)
  /-- RC_GO (R84): A write to RC_GO recolours a granule range and invalidates caches before completing. -/
  | rcGo (q : Req) (v : Word)
  /-- TDR_OPR_WRITE (R83): A write to a Trade DRAM range or Open pool range register, refused to Open supervisors. -/
  | tdrOprWrite (q : Req) (off : BitVec 9) (v : Word)
  /-- SWEEP_PROGRAM_WRITE (R86): A write to a char sweep range or area register, refused for the wrong world or while RUNNING. -/
  | sweepProgramWrite (q : Req) (off : BitVec 16) (v : Word)
  /-- SWEEP_START (R91): A write of START filters every tile's capabilities, fixes N and starts the char sweep. -/
  | sweepStart (q : Req)
  /-- SWEEP_ABORT (R93): A write of ABORT stops the sweep at the end of the current step with FAILED. -/
  | sweepAbort (q : Req)
  /-- SWEEP_STEP_END (R93): A sweep step of STEPKIB finishes and K is incremented. -/
  | sweepStepEnd
  /-- SWEEP_PAUSE_EXPIRY (R93): The pause between sweep steps expires and the next step starts. -/
  | sweepPauseExpiry
  /-- FILL_ENGINE_SLOT_TEST (R91): The fill engine tests one non-resident context-store slot per 24 cycles during a sweep. -/
  | fillEngineSlotTest
  /-- SWEEP_DONE (R94): When every step and the fill walk have finished, the sweep reaches DONE and lifts the quarantine. -/
  | sweepDone
  /-- GATE_WRITE (R98): A write to a target gate word, subject to ownership rules. -/
  | gateWrite (q : Req) (n : BitVec 12) (word : Bool) (v : Word)
  /-- PERIPHERAL_ACCESS (R567): An access reaches the peripheral bridge and is performed on a slot register. -/
  | peripheralAccess (t : TileId)
  /-- CCTL_WRITE (R106): A write to a DMA channel's CCTL sets EN, MODE and the channel's world and CMR. -/
  | cctlWrite (q : Req) (c : BitVec 5) (v : Word)
  /-- CGO (R107): A write to CGO starts a copy or fill transfer on an enabled idle channel. -/
  | cgo (q : Req) (c : BitVec 5) (v : Word)
  /-- DMA_REQUEST_COMPLETE (R107): A DMA channel request completes and the next is issued, or the transfer ends with DONE. -/
  | dmaRequestComplete (c : BitVec 5)
  /-- DMA_WINDOW_WRITE (R104): A write to a DMA channel's DRAM window, permitted only to a supervisor holding its colour. -/
  | dmaWindowWrite (q : Req) (c : BitVec 5) (k : BitVec 2) (v : Word)
  /-- MASTER_REGION_WRITE (R110): A write to a master-side region, discarded with CFGERR if regions would overlap. -/
  | masterRegionWrite (q : Req) (u : BitVec 2) (n : BitVec 3) (word : BitVec 2) (v : Word)
  /-- SCFG_WRITE (R282): A write to a source configuration register, with world claiming and refusal rules. -/
  | scfgWrite (q : Req) (n : BitVec 9) (v : Word)
  /-- IPSET (R286): A write of ones to IPSETk sets pending bits or latches. -/
  | ipset (q : Req) (k : BitVec 4) (v : Word)
  /-- IPCLR (R286): A write of ones to IPCLRk clears pending bits or latches. -/
  | ipclr (q : Req) (k : BitVec 4) (v : Word)
  /-- IESET (R286): A write of ones to IESETk enables sources. -/
  | ieset (q : Req) (k : BitVec 4) (v : Word)
  /-- IECLR (R286): A write of ones to IECLRk disables sources. -/
  | ieclr (q : Req) (k : BitVec 4) (v : Word)
  /-- IOVR_CLEAR (R286): A write of ones to IOVRk clears overrun bits. -/
  | iovrClear (q : Req) (k : BitVec 4) (v : Word)
  /-- IRQ_LINE_EDGE (R284): An interrupt input line changes and the controller sets pending or overrun by its sense. -/
  | irqLineEdge (n : BitVec 9) (level : Bool)
  /-- IHOLDSET (R303): A write of ones to IHOLDSET holds delivery to tiles. -/
  | iholdset (q : Req) (v : Word)
  /-- IHOLDCLR (R303): A write of ones to IHOLDCLR releases delivery holds. -/
  | iholdclr (q : Req) (v : Word)
  /-- TIMER_ENABLE (R305): A write of TCTL EN = 1 loads the count from TLOAD and claims the timer for the world. -/
  | timerEnable (q : Req) (k : BitVec 5) (v : Word)
  /-- TLOAD_WRITE (R305): A write to TLOAD sets the period, refusing zero. -/
  | tloadWrite (q : Req) (k : BitVec 5) (v : Word)
  /-- TIMER_EXPIRY (R305): A timer's count reaches zero, raising its source and reloading or clearing EN. -/
  | timerExpiry (k : BitVec 5)
  /-- BLOCK_REGISTER_WRITE (R310): A write to a block register completes when the new translation is in force on the tile. -/
  | blockRegisterWrite (q : Req) (t : TileId) (k : BitVec 3) (word : BitVec 2) (v : Word)
  /-- XBASE_XCTL_WRITE (R326): A write to XBASE or XCTL empties the tile's translation structures. -/
  | xbaseXctlWrite (q : Req) (t : TileId) (xbase : Bool) (v : Word)
  /-- TLBI (R323): A write to TLBI invalidates a range on all sixteen tiles. -/
  | tlbi (q : Req) (v : Word)
  /-- DRAM_REFRESH_RATE_CHANGE (R20): The DRAM controller raises its refresh rate as the DRAM's report requires. -/
  | dramRefreshRateChange (rate : BitVec 3) (temp : BitVec 8)
  /-- DRAM_BACKGROUND_ZEROING (R514): The DRAM controller zeroes a block in the background and sets zeroing complete at the end. -/
  | dramBackgroundZeroing
  /-- DICT_READ (R343): A read request is checked and answered from the value store or forwarded to its owner. -/
  | dictRead (w : World) (slot : BitVec 5)
  /-- DICT_WRITE (R337): A write request is checked and applied whole, queued for ember-served entries or forwarded. -/
  | dictWrite (w : World) (slot : BitVec 5)
  /-- DESCRIBE (R350): A DESCRIBE request returns an entry's descriptor. -/
  | describe (w : World) (slot : BitVec 5)
  /-- UPDATE (R352): An UPDATE from the owning world sets the value of an ember-served entry. -/
  | update (w : World) (slot : BitVec 5)
  /-- REGISTER (R349): A REGISTER request adds a descriptor to the catalogue after checks. -/
  | register (w : World) (slot : BitVec 5)
  /-- UNREGISTER (R349): An UNREGISTER request removes a descriptor from the catalogue. -/
  | unregister (w : World) (slot : BitVec 5)
  /-- FWD_DONE (R356): A write to FWD_DONE reports a forwarded request answered and the engine sends the response. -/
  | fwdDone (q : Req) (v : Word)
  /-- OWNER_TIMEOUT (R356): A forwarded request's owner timeout expires and it is answered with TIMEOUT. -/
  | ownerTimeout (w : World) (slot : BitVec 5)
  /-- WQ_ACK (R354): A write to WQ_ACK retires the oldest record of the write queue. -/
  | wqAck (q : Req) (v : Word)
  /-- EXPERT_UNLOCK_EXPIRY (R342): An expert unlock ends 600 s after the last Expert write. -/
  | expertUnlockExpiry
  /-- EMBER_DEADLINE_SCAN (R348): The ember sequencer examines deadlines every 32 ember ticks and starts the engine clock when one has passed. -/
  | emberDeadlineScan (recovered : Bool)
  /-- ENGINE_CLOCK_START (R347): The engine clock starts from the recovered backbone clock on frame energy. -/
  | engineClockStart
  /-- COMMAND_START (R365): A start of a long command enters it at the tail of the command queue. -/
  | commandStart (w : World) (slot : BitVec 5)
  /-- COMMAND_ABORT (R367): An abort removes a waiting command or sets ABORTREQ on the running one. -/
  | commandAbort (w : World) (slot : BitVec 5)
  /-- COMMAND_ACKNOWLEDGE (R366): An acknowledge returns a DONE or FAILED command to IDLE. -/
  | commandAcknowledge (w : World) (slot : BitVec 5)
  /-- STEP_GRANT (R369): The step engine grants a step to the running command's owner and raises its NOTIFY source. -/
  | stepGrant
  /-- STEPN (R369): A write to STEPN with the first grant fixes the command's step count. -/
  | stepn (q : Req) (v : Word)
  /-- STEPDONE (R369): A write to STEPDONE ends a step, advancing k, finishing or failing the command. -/
  | stepdone (q : Req) (v : Word)
  /-- STEP_LIMIT_EXPIRY (R370): A step not ended within 10 ms of its grant makes the command FAILED. -/
  | stepLimitExpiry
  /-- DEVICE_RESET_COMMAND (R373): A start of DEVICE_RESET performs a device reset after the current step ends. -/
  | deviceResetCommand
  /-- CHAR_SWEEP_COMMAND (R374): The CHAR_SWEEP command starts a sweep through the named world's supervisor and follows the engine. -/
  | charSweepCommand
  /-- ISLE_ENTRIES_REMOVE (R362): A write to 0x2400:01 removes every entry of an isle. -/
  | isleEntriesRemove (w : World) (slot : BitVec 5)
  /-- HELLO (R394): A HELLO is answered with one HELLO_ACK after a random delay. -/
  | hello (f : FerryFrame)
  /-- HELLO_ACK_DELAY_EXPIRY (R394): The random delay expires and the HELLO_ACK is sent. -/
  | helloAckDelayExpiry
  /-- INIT (R385): An INIT is placed in a handshake slot and handed to the serving world. -/
  | init (f : FerryFrame)
  /-- HS_DONE (R385): A write to HS_DONE sends the REPLY and keeps the session keys, or refuses the handshake. -/
  | hsDone (q : Req) (v : Word)
  /-- CONFIRM (R387): A CONFIRM is checked and the session opens with ACCEPT. -/
  | confirm (f : FerryFrame)
  /-- HANDSHAKE_EXPIRY (R389): A handshake held open 2 s after REPLY is discarded. -/
  | handshakeExpiry (j : BitVec 2)
  /-- FERRY_READ (R395): A READ frame is answered with READ_RSP. -/
  | ferryRead (f : FerryFrame)
  /-- FERRY_WRITE (R395): A WRITE frame is applied and answered with WRITE_RSP. -/
  | ferryWrite (f : FerryFrame)
  /-- SEG_READ (R396): A SEG_READ snapshots the value at segment 0 and returns one segment. -/
  | segRead (f : FerryFrame)
  /-- SEG_WRITE (R397): A SEG_WRITE gathers a segment and applies the whole value with the last. -/
  | segWrite (f : FerryFrame)
  /-- SNAPSHOT_EXPIRY (R396): A segmented-read snapshot is freed 2 s after its latest SEG_READ. -/
  | snapshotExpiry (n : BitVec 16) (x : BitVec 8)
  /-- SEG_WRITE_DISCARD (R397): A segmented write with no segment for 2 s is discarded. -/
  | segWriteDiscard (n : BitVec 16) (x : BitVec 8)
  /-- FERRY_COMMAND (R400): A COMMAND frame writes the argument and control of a command entry. -/
  | ferryCommand (f : FerryFrame)
  /-- SUBSCRIBE (R398): A SUBSCRIBE admits a subscription to an ember-served entry. -/
  | subscribe (f : FerryFrame)
  /-- UNSUBSCRIBE (R398): An UNSUBSCRIBE removes a subscription. -/
  | unsubscribe (f : FerryFrame)
  /-- MININT_EXPIRY (R399): A merged change event is sent MININT after the previous event. -/
  | minintExpiry (n : BitVec 16) (id : BitVec 8)
  /-- PERIOD_EXPIRY (R399): A periodic subscription sends its EVENT every PERIOD. -/
  | periodExpiry (n : BitVec 16) (id : BitVec 8)
  /-- KEEPALIVE (R390): A KEEPALIVE is answered with KEEPALIVE_RSP. -/
  | keepalive (f : FerryFrame)
  /-- CLOSE (R391): A CLOSE ends the session, discarding transfers, subscriptions and unlock. -/
  | close (f : FerryFrame)
  /-- SESSION_IDLE_EXPIRY (R390): A session ends after its idle timeout without a valid frame. -/
  | sessionIdleExpiry (n : BitVec 16)
  /-- SESSION_CLOSE_WRITE (R390): A write to 0x0230:03 closes the named session. -/
  | sessionCloseWrite (w : World) (slot : BitVec 5)
  /-- ISLAND_BLOCK_WRITE (R379): A write to 0x0200:01 changes the node ID and closes every session. -/
  | islandBlockWrite (w : World) (slot : BitVec 5)
  /-- FERRY_UNDEFINED_TYPE (R381): A frame of undefined or wrongly unprotected type is answered with ERROR TYPE. -/
  | ferryUndefinedType (f : FerryFrame)
  /-- NO_SESSION (R402): A protected frame for a session not open is answered with unprotected ERROR. -/
  | noSession (f : FerryFrame)
  /-- LPCTL_WRITE (R406): A write to LPCTL sets a lane port's mode, PLCA parameters and enable. -/
  | lpctlWrite (q : Req) (p : BitVec 4) (v : Word)
  /-- PLCA_CYCLE (R410): A lane port sends a beacon and runs transmit opportunities 0 to NCNT − 1. -/
  | plcaCycle (p : BitVec 4)
  /-- LANE_FRAME_RECEIVE (R413): A received lane frame is checked, classified by enrolment and delivered to a receive queue. -/
  | laneFrameReceive (p : BitVec 4) (k : BitVec 3) (fcs : Bool) (frame : List Byte)
  /-- RECEIVE_DESCRIPTOR_COMPLETE (R417): The lane DMA writes a received frame and completes its descriptor, or drops it. -/
  | receiveDescriptorComplete (p : BitVec 4)
  /-- ENROLMENT_ROW_WRITE (R414): A write of enrolment word 1 applies the whole row in one step. -/
  | enrolmentRowWrite (q : Req) (p : BitVec 4) (k : BitVec 3) (word : Bool) (v : Word)
  /-- QCTL_WRITE (R416): A write to a queue's registers enables, stops or configures a DMA queue. -/
  | qctlWrite (q : Req) (sl : BitVec 12) (n : BitVec 8) (v : Word)
  /-- KICK (R420): A write to KICK starts a transmit-queue examination at once. -/
  | kick (q : Req) (sl : BitVec 12) (n : BitVec 8)
  /-- TX_EXAMINATION (R420): The lane DMA examines transmit queues round-robin every 10 µs or at an opportunity's end and buffers a frame. -/
  | txExamination (p : Option (BitVec 4))
  /-- LANE_FRAME_TRANSMIT (R420): A buffered frame is sent in the device's opportunity and its descriptor completes. -/
  | laneFrameTransmit (p : BitVec 4)
  /-- LANE_UPSET (R422): A link upset takes the lane link to SMOULDERING. -/
  | laneUpset (p : BitVec 4) (kind : BitVec 4) (sending : Bool)
  /-- LANE_BACKOFF_EXPIRY (R423): The lane back-off ends and the PHY line test runs. -/
  | laneBackoffExpiry (p : BitVec 4)
  /-- LANE_LINE_TEST_END (R423): The 2 ms line test ends, returning the link to UP or continuing back-off. -/
  | laneLineTestEnd (p : BitVec 4) (pass : Bool)
  /-- LANE_CLEAR_PERMIT (R425): A Service write of 1 to P:06 opens a 1 s clear permit. -/
  | laneClearPermit (w : World) (slot : BitVec 5)
  /-- ASHCLR (R425): A write to ASHCLR within the permit takes the link to DOWN and clears its record. -/
  | ashclr (q : Req) (p : BitVec 4) (v : Word)
  /-- PERMIT_EXPIRY (R471): A 1 s ash-clear permit expires. -/
  | permitExpiry (k : BitVec 5)
  /-- BACKBONE_FRAME_FORWARD (R426): The backbone switch forwards, learns or floods a frame store-and-forward. -/
  | backboneFrameForward (p : BitVec 1) (fcs : Bool) (frame : List Byte)
  /-- ADDRESS_AGEING (R426): A learnt address ages out after the ageing time. -/
  | addressAgeing
  /-- SWITCH_REGISTER_WRITE (R431): A write to a switch or backbone port register applies to later frames. -/
  | switchRegisterWrite (q : Req) (sl : BitVec 2) (off : BitVec 16) (v : Word)
  /-- BACKBONE_LINK_UPSET (R431): A backbone link upset is recorded in its class 2 record and sets BPEVENT. -/
  | backboneLinkUpset (p : BitVec 1) (kind : BitVec 4)
  /-- HOST_FRAME_IN_SLEEP (R430): In BANKED or DORMANT the engine answers ARP, receives Ferry, or drops a host frame. -/
  | hostFrameInSleep (frame : List Byte)
  /-- TBOFS (R429): A write to TBOFS feeds the time block's lock judgement. -/
  | tbofs (q : Req) (v : Word)
  /-- TBADJ_WRITE (R429): A write to TBADJ sets the frequency adjustment. -/
  | tbadjWrite (q : Req) (v : Word)
  /-- TBSTEP (R429): A write to TBSTEP steps the time and clears LOCKED. -/
  | tbstep (q : Req) (v : Word)
  /-- TBSET (R429): A write to TBSET loads the time and clears LOCKED. -/
  | tbset (q : Req) (v : Word)
  /-- LOCK_LOSS (R429): LOCKED falls when an offset is out of range or none is written for 2 s, entering holdover. -/
  | lockLoss
  /-- PTP_TIMESTAMP (R429): A timestamp unit stamps a PTP event message at its port and raises IRQ259. -/
  | ptpTimestamp (p : BitVec 1) (tx : Bool) (mtype : BitVec 4) (sid : BitVec 16)
  /-- UCTL_WRITE (R434): A write of a USB port's ROLE applies at once when idle or at the next detach. -/
  | uctlWrite (q : Req) (u : BitVec 1) (v : Word)
  /-- UPORT_RESET (R434): A write of UPORT RESET drives a 50 ms bus reset on the root port. -/
  | uportReset (q : Req) (u : BitVec 1)
  /-- UPORT_SUSPEND (R434): A write of UPORT SUSPEND suspends the root port. -/
  | uportSuspend (q : Req) (u : BitVec 1) (on : Bool)
  /-- UPORT_RESUME (R434): A write of UPORT RESUME resumes the root port. -/
  | uportResume (q : Req) (u : BitVec 1)
  /-- USB_PORT_EVENT (R434): Attach, detach, overcurrent, bus reset, suspend or resume sets UEVENT. -/
  | usbPortEvent (u : BitVec 1) (e : UsbEvent)
  /-- USB_TRANSFER_COMPLETE (R433): An endpoint queue transfer completes its descriptor. -/
  | usbTransferComplete (u : BitVec 1) (e : BitVec 5) (inn : Bool) (ep : BitVec 8) (bytes : List Byte)
  /-- JSUBMIT (R439): A write to JSUBMIT enters a seal job into the 8-entry queue. -/
  | jsubmit (q : Req) (v : Word)
  /-- SEAL_JOB_RUN (R440): The seal engine runs the job at the head of its queue, writing the tagged frame. -/
  | sealJobRun
  /-- LOAD_CLEAR (R437): KCMD 1 loads a clear key into the selected slot. -/
  | loadClear (q : Req)
  /-- LOAD_WRAPPED (R437): KCMD 2 unwraps a wrapped record into the selected slot. -/
  | loadWrapped (q : Req)
  /-- WRAP_OUT (R438): KCMD 3 wraps the slot into KDATA and arms it. -/
  | wrapOut (q : Req)
  /-- ERASE (R436): KCMD 4 erases the selected key slot. -/
  | erase (q : Req)
  /-- EXTEND (R438): KCMD 5 extends the slot's LIMIT and disarms it. -/
  | extend (q : Req)
  /-- JLOCK (R449): A write of 1 to JLOCK puts the journal guard in force until device reset. -/
  | jlock (q : Req) (v : Word)
  /-- JEXPSEQ_WRITE (R449): A write to JEXPSEQ advances the export pointer within limits. -/
  | jexpseqWrite (q : Req) (v : Word)
  /-- JOURNAL_LINE_CHECK (R450): When all 64 bytes of the tail line are gathered, the guard programs or refuses it. -/
  | journalLineCheck
  /-- PAIR (R447): A write to 0x8002:01 starts pairing a display. -/
  | pair (target : BitVec 16) (anchors : List (List Byte)) (accept : Option (List Byte)) (done : Option (List Byte))
  /-- PAIRING_TIMEOUT (R447): A pairing not reaching DONE within 10 s ends with ERASE of the slot. -/
  | pairingTimeout
  /-- UNPAIR (R447): A write to 0x8002:02 erases a pairing and appends a KIND 6 record. -/
  | unpair (id : BitVec 16)
  /-- JOURNAL_EXPORT (R453): The JOURNAL_EXPORT command copies and signs up to 128 records into 0x8011. -/
  | journalExport
  /-- EXPORT_ACKNOWLEDGE (R454): A write to 0x8012:01 appends a KIND 11 record and advances JEXPSEQ. -/
  | exportAcknowledge (v : Word)
  /-- BUS_UVLO_RISING (R456): VBUS rising through 17.0 V starts the bus die with every port OFF. -/
  | busUvloRising
  /-- BUS_UVLO_FALLING (R456): VBUS falling through 16.0 V stops the bus die and resets the whole module. -/
  | busUvloFalling
  /-- OVERVOLTAGE_LOCKOUT (R456): VBUS above 84 V for 2 µs turns every port off as SHED and stops the converter. -/
  | overvoltageLockout
  /-- OVERVOLTAGE_RELEASE (R456): VBUS below 82 V for 100 ms restores the ports in ride-through order. -/
  | overvoltageRelease
  /-- LOGIC_SUPPLY_LIMIT (R460): Logic draw above 16 W for 10 ms limits the converter and counts an upset. -/
  | logicSupplyLimit (mw : BitVec 16)
  /-- LOGIC_BROWN_OUT (R460): The logic rail falls into brown-out; the bus die switches every port off and clears EN. -/
  | logicBrownOut
  /-- CAUSEWAY_LOST (R13): No valid causeway frame for 10 ms holds every port and raises the causeway-lost flag. -/
  | causewayLost
  /-- CAUSEWAY_RESUME (R13): When frames resume the bus die reports the causeway-lost flag. -/
  | causewayResume
  /-- CAUSEWAY_REPEAT (R559): The bridge repeats a request whose response has not arrived within 8 µs, up to 3 times. -/
  | causewayRepeat (t : TileId) (response : Bool)
  /-- CAUSEWAY_KEEPALIVE (R560): Each side sends a keep-alive frame at least every 1 ms in BANKED and DORMANT. -/
  | causewayKeepalive
  /-- CWCLR (R462): A write to CWCLR zeroes the causeway discard count. -/
  | cwclr (q : Req) (v : Word)
  /-- PCTL_WRITE (R463): A write to PCTL sets a port's EN, class, limit, curve and sense resistance. -/
  | pctlWrite (q : Req) (p : BitVec 4) (v : Word)
  /-- INRUSH_COMPLETE (R464): The output reaches within 1 V of VBUS and the port becomes ON. -/
  | inrushComplete (p : BitVec 4)
  /-- PORT_UPSET (R467): A port upset turns the FET off and makes the port SMOULDERING or ASHED. -/
  | portUpset (p : BitVec 4) (kind : BitVec 4)
  /-- HARD_SIGNATURE (R467): A hard signature makes the port ASHED at once. -/
  | hardSignature (p : BitVec 4) (kind : BitVec 4)
  /-- PORT_BACKOFF_EXPIRY (R467): A smouldering port's back-off elapses and it retries INRUSH. -/
  | portBackoffExpiry (p : BitVec 4)
  /-- ASHLOAD (R469): A write to ASHLOAD ashes the named ports and permits EN writes. -/
  | ashload (q : Req) (v : Word)
  /-- PORT_CLEAR_PERMIT (R471): A Service write of p to 0x1103:01 opens a 1 s clear permit for port p. -/
  | portClearPermit (w : World) (slot : BitVec 5)
  /-- PASHCLR (R471): A PASHCLR write within the permit takes the port from ASHED to OFF. -/
  | pashclr (q : Req) (p : BitVec 4) (v : Word)
  /-- BUDGET_TICK (R472): Every 100 µs the bus die forms IBUS against the ceiling. -/
  | budgetTick (m : PowerMeas)
  /-- BUDGET_SHED (R472): IBUS above CEIL for BTIME reduces charging, then sheds one port. -/
  | budgetShed
  /-- BUDGET_RESTORE (R473): IBUS at or below 0.9 × CEIL for 1 s restores one budget-shed port. -/
  | budgetRestore
  /-- CEIL_WRITE (R472): A write to CEIL sets the island ceiling within range. -/
  | ceilWrite (q : Req) (v : Word)
  /-- CHARGE_EVALUATION (R474): Every 100 ms the converter chooses its charge row and charges CC or CV. -/
  | chargeEvaluation (own : BitVec 8)
  /-- CHARGE_FULL (R474): The CV current below 5 % for 10 s makes the converter FULL. -/
  | chargeFull
  /-- CONVERTER_UPSET (R475): A storage converter fault counts an upset, ashing the converter at threshold. -/
  | converterUpset
  /-- SWITCH_OVER (R476): VBUS below VRT for 10 µs reverses the converter and starts ride-through. -/
  | switchOver (vbus : BitVec 16)
  /-- CLASS_SHED_DELAY_EXPIRY (R476): A class's shed delay after switch-over expires and its ports are shed. -/
  | classShedDelayExpiry (c : BitVec 2)
  /-- PMAX_SHED (R476): The converter at PMAX for 1 ms during RIDE sheds one port. -/
  | pmaxShed
  /-- FINISH_WINDOW_WARNING (R476): FWARN before the window ends, IRQ294 rises. -/
  | finishWindowWarning
  /-- FINISH_WINDOW_EXPIRY (R476): The finish window ends, class 0 ports are shed and BSTATE becomes EXPIRED. -/
  | finishWindowExpiry
  /-- STORAGE_FLOOR (R476): VSTORE at the floor stops the converter. -/
  | storageFloor (vstore : BitVec 16)
  /-- BUS_RETURN (R476): VBUS at or above VRT + 2 V for 100 ms stops discharge and starts RESTORE. -/
  | busReturn (vbus : BitVec 16)
  /-- RESTORE_STEP (R476): Every RSTEP one shed port is restored to INRUSH; the last ends RESTORE. -/
  | restoreStep
  /-- STORAGE_REGISTER_WRITE (R476): A write to SCTL, RTCTL, SFLOOR or SCAP sets storage settings for the next switch-over. -/
  | storageRegisterWrite (q : Req) (off : BitVec 4) (v : Word)
  /-- TAPPLY (R478): A write to TAPPLY checks a staged sequencer table and puts it in use. -/
  | tapply (q : Req) (v : Word)
  /-- LLOCK_SET (R482): Setting LLOCK loads the valid ledger copy and sets READY. -/
  | llockSet (q : Req) (v : Word)
  /-- LEDGER_UPSET_RECORD (R479): The ledger records an upset against a record's policy and ashes it at threshold. -/
  | ledgerUpsetRecord (bad : BitVec 7)
  /-- LEDGER_COPY_WRITE (R483): The ledger writes its older copy after changes, within 2 ms. -/
  | ledgerCopyWrite (fail : Bool)
  /-- LCLR (R484): A write to LCLR clears a record's counts, or counts and ash. -/
  | lclr (q : Req) (v : Word)
  /-- LEDGER_CLEAR (R484): The LEDGER_CLEAR command clears records in steps and persists them. -/
  | ledgerClear
  /-- LPOL_WRITE (R479): A write to a class policy register sets its threshold, window and retries. -/
  | lpolWrite (q : Req) (c : BitVec 4) (j : BitVec 2) (v : Word)
  /-- EMBER_TICK (R489): Each ember tick adds INC to the RTC. -/
  | emberTick
  /-- EMBER_CLOCK_FAIL (R486): No ember oscillator edge for 2 ms switches the RTC to the RC oscillator and sets CLKFAIL. -/
  | emberClockFail
  /-- EMBER_CLOCK_RETURN (R486): Edges resuming for 100 ms return the RTC to the ember oscillator. -/
  | emberClockReturn
  /-- RTC_FOLLOW (R490): At each whole second of a locked time block the RTC loads its time and sets TRIM. -/
  | rtcFollow (ticks : BitVec 16)
  /-- RTCSET (R491): A write to RTCSET loads the RTC, refused while LOCKED. -/
  | rtcset (q : Req) (v : Word)
  /-- RTC_ALARM (R489): The RTC reaches the alarm time, raising IRQ54 and clearing EN. -/
  | rtcAlarm
  /-- OPEN_WAKE_TIME (R503): The RTC reaches the Open wake time, raising IRQ55 and clearing WTCTL EN. -/
  | openWakeTime
  /-- TGATE (R495): A write to TGATE gates the writing tile's clock at the next boundary. -/
  | tgate (q : Req) (v : Word)
  /-- TILE_GATE_RESTART (R495): A pending enabled source or machine check restarts a gated tile's clock. -/
  | tileGateRestart (t : TileId)
  /-- WPERMIT_WRITE (R496): A write to WPERMIT sets the deepest state a world permits and re-evaluates the target. -/
  | wpermitWrite (q : Req) (v : Word)
  /-- TARGET_EVALUATION (R497): The controller recomputes the target state when a permit or block condition changes. -/
  | targetEvaluation
  /-- IDLE_ENTRY (R492): Every tile in service gated makes the device IDLE. -/
  | idleEntry
  /-- SLEEP_ENTRY (R498): After 100 µs of IDLE the controller enters DOZE, BANKED or DORMANT in steps. -/
  | sleepEntry
  /-- ENTRY_STOP (R499): A wake event during entry stops it and undoes the completed steps. -/
  | entryStop
  /-- WAKE_EVENT (R500): A latched ember-held source with WAKE starts an exit from a low-power state. -/
  | wakeEvent (b : BitVec 5)
  /-- DOZE_EXIT (R294): A pending enabled source with WAKE powers its target tile from DOZE. -/
  | dozeExit (n : BitVec 9)
  /-- BANKED_EXIT (R501): An exit from BANKED restores domains and powers the waking source's tile. -/
  | bankedExit
  /-- DORMANT_EXIT (R506): An exit from DORMANT powers up, restores the dormant save and resumes the boot contexts. -/
  | dormantExit
  /-- TILE_RESUME (R502): A powered tile resumes its recorded running context, or stays idle. -/
  | tileResume (t : TileId)
  /-- EXIT_TO_ASHED_TILE (R501): An exit whose source targets an ashed tile powers none and returns to the target after 100 µs. -/
  | exitToAshedTile (n : BitVec 9)
  /-- WLCLR (R503): A write to WLCLR clears wake latches without an exit. -/
  | wlclr (q : Req) (v : Word)
  /-- SCRUB_LINE (R504): The retention scrubber visits one line, correcting or logging errors. -/
  | scrubLine (ce : Bool) (ue : Option (BitVec 3))
  /-- STORE (R510): The STORE command writes the parameter store bank not in use and its header last. -/
  | store (own : List (Nat × List Byte)) (fail : Bool)
  /-- RESTORE_DEFAULTS (R511): The RESTORE_DEFAULTS command writes defaults to every RW and RWS entry. -/
  | restoreDefaults
  /-- AUTO_STORE (R512): After the auto-store delay without an RWS write, the Open image starts STORE. -/
  | autoStore
  /-- PARAMETER_STORE_LOAD (R509): The Open image loads the bank in use and applies its records. -/
  | parameterStoreLoad (refused : List Nat)
  /-- BUS_POWER_ON_RESET (R515): A bus power-on reset restarts the whole module. -/
  | busPowerOnReset
  /-- RESET_N (R517): RESET_N low for 1 µs or more holds the logic side in reset; the sequence starts at the rising edge. -/
  | resetN (low : Bool)
  /-- TRADE_WATCHDOG_EXPIRY (R536): The Trade watchdog expires and causes a device reset. -/
  | tradeWatchdogExpiry
  /-- OPEN_WATCHDOG_EXPIRY (R536): The Open watchdog expires and causes an Open world reset. -/
  | openWatchdogExpiry
  /-- WATCHDOG_WARNING (R536): WDWARN before expiry the watchdog raises its warning source. -/
  | watchdogWarning (w : World)
  /-- WDKICK (R536): A write to WDKICK advances the kick sequence, reloading or expiring the watchdog. -/
  | wdkick (q : Req) (w : World) (v : Word)
  /-- WATCHDOG_REGISTER_WRITE (R536): A write to WDCTL, WDTIME or WDWARN configures or locks a watchdog. -/
  | watchdogRegisterWrite (q : Req) (w : World) (off : BitVec 4) (v : Word)
  /-- DEVICE_RESET_SEQUENCE (R519): A device reset runs self-test, chooses boot tiles and starts context 0 on tile B. -/
  | deviceResetSequence (bist : List (BitVec 4)) (phy : BitVec 16)
  /-- TINDER_ROM_BOOT (R527): The tinder ROM validates and chooses a kindling copy, copies it and jumps to it. -/
  | tinderRomBoot (rcvry : Bool)
  /-- RECOVERY_TRANSFER (R528): In recovery a received image over USB is checked and run, with a status answer. -/
  | recoveryTransfer (b : List Byte) (complete : Bool)
  /-- DEVRST (R522): A write to DEVRST causes a kindling restart while VECLOCK = 0. -/
  | devrst (q : Req) (v : Word)
  /-- VECLOCK (R522): A write to VECLOCK locks the boot controls and zeroes the try counts. -/
  | veclock (q : Req) (v : Word)
  /-- BOOT_CONTROL_WRITE (R522): A write to TRVEC, ORVEC or TILEEXCL, accepted only while VECLOCK = 0. -/
  | bootControlWrite (q : Req) (k : BitVec 2) (v : Word)
  /-- SVNBURN (R524): A write to SVNBURN burns one anti-rollback cell. -/
  | svnburn (q : Req) (v : Word)
  /-- KEYREVBURN (R524): A write to KEYREVBURN revokes keys, keeping at least one. -/
  | keyrevburn (q : Req) (v : Word)
  /-- WRESET (R533): A write to WRESET resets one world on every tile and restarts its boot context. -/
  | wreset (q : Req) (pdc : Bool) (v : Word)
  /-- TRESET (R534): A write to TRESET resets one tile with self-test. -/
  | treset (q : Req) (v : Word)
  /-- TSTART (R535): A write to TSTART starts a context on an idle tile. -/
  | tstart (q : Req) (pdc : Bool) (v : Word)
  /-- IMAGE_VERIFY (R531): The IMAGE_VERIFY command checks an image under R526 in steps. -/
  | imageVerify
  /-- EXTEST (R538): TAP instruction EXTEST drives the lands from boundary scan while RESET_N is low. -/
  | extest
  /-- SAMPLE_PRELOAD (R537): TAP instruction SAMPLE/PRELOAD selects the boundary-scan register. -/
  | samplePreload
  /-- IDCODE (R537): TAP instruction IDCODE selects the 32-bit identification register. -/
  | idcode
  /-- CLAMP (R538): TAP instruction CLAMP holds the lands while RESET_N is low. -/
  | clamp
  /-- HIGHZ (R538): TAP instruction HIGHZ floats the lands while RESET_N is low. -/
  | highz
  /-- BYPASS (R537): TAP instruction BYPASS selects the 1-bit bypass register. -/
  | bypass
  /-- DAPACC_SET_ADDRESS (R539): DAPACC operation 0b01 sets the debug address. -/
  | dapaccSetAddress (a : BitVec 36)
  /-- DAPACC_READ (R539): DAPACC operation 0b10 reads 32 bits through the debug master-side unit. -/
  | dapaccRead
  /-- DAPACC_WRITE (R539): DAPACC operation 0b11 writes 32 bits, clearing tags. -/
  | dapaccWrite (v : Word)
  /-- HALTREQ (R541): A DAPCTL HALTREQ stops tiles at their next boundary in an Open context. -/
  | haltreq (v : Word)
  /-- RESUME (R541): A DAPCTL RESUME fills and continues a halted tile's context. -/
  | resume (v : Word)
  /-- DRESET (R540): A DAPCTL write of 1 to DRESET causes a debug reset. -/
  | dreset (v : Word)
  /-- TOKEN_APPEND (R543): A DAPCTL TOKEN write appends a word, setting TOKEN at 128 bytes. -/
  | tokenAppend (v : Word)
  /-- TOKCLR (R540): A DAPCTL TOKCLR write empties the token and renews the nonce. -/
  | tokclr
  /-- NONCE_READ (R540): A DAPCTL NONCE read returns the next nonce word. -/
  | nonceRead
  /-- UNLOCK (R543): A write of UNLOCK with bit 31 set opens a Trade debug unlock after checks. -/
  | unlock (q : Req) (v : Word)
  /-- RELOCK (R545): A write of UNLOCK with bit 31 clear ends the unlock. -/
  | relock (q : Req) (v : Word)
  /-- ULEFT_EXPIRY (R545): ULEFT reaches zero and the debug unlock ends. -/
  | uleftExpiry
  /-- REGISTER_WRITE (R8): A write to a register without behaviour of its own sets its writable fields by their access codes. -/
  | registerWrite (q : Req) (sl : BitVec 12) (off : BitVec 16) (v : Word)
  /-- LOGIC_RAIL_RETURN (R460): The logic rail returns to regulation after a logic brown-out and the device reset sequence starts from that moment. -/
  | logicRailReturn
  /-- BACKBONE_LINK_CHANGE (R431): A backbone link comes up after auto-negotiation or goes down briefly, updating BPSTAT and setting BPEVENT bit 0. -/
  | backboneLinkChange (p : BitVec 1) (up : Bool) (speed : BitVec 2) (lpi : Bool) (mdix : Bool)
  /-- LANE_LINK_UP (R561): A 100BASE-T1 lane link comes up, within 100 ms of PEN = 1, taking the port from DOWN to UP and raising subsource 2. -/
  | laneLinkUp (p : BitVec 4)
  /-- WRITE_BACK_RESPONSE (R32): The response to a cache write-back or a posted write-through arrives, returning the credit or raising MC_WB on an error response. -/
  | writeBackResponse (t : TileId) (line : Nat) (err : Bool)
  /-- DRAM_REFRESH (R568): The DRAM controller refreshes a bank, closing its open row and delaying accesses to it. -/
  | dramRefresh (k : BitVec 4)
  /-- TILE_RESET_COMPLETE (R534): The 2 ms self-test of a tile reset ends, FEAT7 BIST is rewritten and the tile restarts its boot context or sets TIDLE. -/
  | tileResetComplete (t : TileId) (bist : BitVec 4)
  /-- SVN_BURN_COMPLETE (R524): An SVNBURN completes 1 ms after its write and OTPSTAT SVN rises by 1. -/
  | svnBurnComplete
  /-- FET_COOLED (R467): After a kind 6 upset and its back-off, the mapped NTC falls to TFET minus 15 °C and the port retries INRUSH. -/
  | fetCooled (p : BitVec 4) (temp : BitVec 8)
  /-- TRST_N (R537): TRST_N falling resets the TAP controller of IEEE 1149.1 and its instruction register. -/
  | trstN
deriving DecidableEq, Repr

end Sys2Proof
end

