-- ==== Sys2Proof/Decode.lean ====
section
/-!
DEFINITION. Decode.lean: the commands that a word spells. No row of the table of operations and events gives any bits, so
no word spells a command.
-/
namespace Sys2Proof

/-- The command that an instruction word spells by the table's bits: the table gives bits to no row. -/
def decodeTableWord (_nbits _w : Nat) : Option Instr := none

end Sys2Proof
end

