-- ==== Sys2Proof/Config.lean ====
section
/-!
DEFINITION. Config.lean: what one part fixes and the spec leaves open (free values: opaque constants with no body),
and the numbers of the spec's tables that several blocks use.
-/
namespace Sys2Proof

/-- The bytes of the 64 KiB tinder ROM: the spec gives the ROM's behaviour (R527), not its bytes. Free. -/
opaque Config.romByte : Nat → Byte
/-- Free word number n: a value the spec leaves open, read with the state's own counter (DESIGN CHOICE, log 3). -/
opaque Config.freeWord : Nat → Word
/-- Free doubleword number n. -/
opaque Config.freeDWord : Nat → DWord
/-- Free byte number n. -/
opaque Config.freeByte : Nat → Byte
/-- What an offset of a populated slot that no register table lists reads as, the identity and status page included. -/
opaque Config.unlisted : Nat → Nat → Word
/-- Identity values that differ from part to part, by dictionary key: order code, serial number, ROM version, certificates. Free. -/
opaque Config.partInfo : Nat → List Byte
/-- Byte i of the NAME field of a built-in entry's descriptor, which the spec does not spell out. Free. -/
opaque Config.builtinName : Nat → Nat → Byte
/-- The NaN an FPU operation on operands a and b gives: IEEE 754 leaves sign and payload open. -/
opaque Config.nanBits : Word → Word → Word
/-- FMIN and FMAX where an operand is a NaN or the operands are zeros of different signs: the spec says only minimum and
maximum. The first argument is true for FMAX. -/
opaque Config.fminmaxOpen : Bool → Word → Word → Word
/-- FCVTWS of a NaN or of a value outside the signed word range. -/
opaque Config.fcvtwsOpen : Word → Word
/-- Whether the FPU detects tininess before rounding: IEEE 754 leaves the choice to the implementer. -/
opaque Config.tininessBefore : Bool
/-- Whether FLT and FLE of a quiet NaN raise the invalid flag: IEEE 754 has a comparison of each kind. -/
opaque Config.orderedInvalid : Bool
/-- Word n of an entropy source: nonces, HELLO delays and generated keys (the spec gives no value). Free. -/
opaque Config.entropy : Nat → Word
/-- The part's own signing key, the one whose certificate is 0x0220:04: any number stands for one. -/
opaque Config.deviceKey : Nat
/-- The secret number of the signature made at free count n. -/
opaque Config.signNonce : Nat → Nat
/-- The Trade image's ephemeral P-256 key drawn at free count n (R446). -/
opaque Config.ephemeralKey : Nat → Nat
/-- Seconds by which the ember RTC's time is ahead of the calendar of a certificate's dates: the spec gives IEEE 1588 time and no relation to UTC. -/
opaque Config.utcOffset : Nat
/-- Byte i of the 256-bit wrap key in the part's one-time cells (R437). -/
opaque Config.wrapKeyByte : Nat → Byte
/-- The SVN cells burned at manufacture, 0–63 (OTPSTAT, per part). -/
opaque Config.svn : BitVec 6
/-- The keys revoked at manufacture (OTPSTAT, per part). -/
opaque Config.keyrev : BitVec 4
/-- KEYHASHk as 32 bytes, per part. -/
opaque Config.keyHash : Nat → List Byte

end Sys2Proof
end

