-- ==== Sys2Proof/Machine/Bits.lean ====
section
/-!
DEFINITION. Machine/Bits.lean: bit fields, sign extension and byte order used by every block.
-/
namespace Sys2Proof.Machine

/-- Bits [hi:lo] of a word, as a natural number. -/
def fld {n : Nat} (w : BitVec n) (hi lo : Nat) : Nat := (w.toNat >>> lo) % 2 ^ (hi - lo + 1)

/-- Bit b of a word. -/
def bit {n : Nat} (w : BitVec n) (b : Nat) : Bool := w.getLsbD b

/-- The word with bits [hi:lo] replaced by v (taken modulo the field's size). -/
def setFld {n : Nat} (w : BitVec n) (hi lo v : Nat) : BitVec n :=
  let m := (2 ^ (hi - lo + 1) - 1) <<< lo
  (w &&& ~~~ (BitVec.ofNat n m)) ||| BitVec.ofNat n ((v % 2 ^ (hi - lo + 1)) <<< lo)

/-- The word with bit b set to v. -/
def setBit {n : Nat} (w : BitVec n) (b : Nat) (v : Bool) : BitVec n :=
  if v then w ||| BitVec.ofNat n (1 <<< b) else w &&& ~~~ (BitVec.ofNat n (1 <<< b))

/-- A Boolean as 0 or 1. -/
def b2n (b : Bool) : Nat := if b then 1 else 0

/-- A Boolean as a word. -/
def b2w (b : Bool) : Word := if b then 1#32 else 0#32

/-- The bytes of a value in little-endian order, lowest address first. -/
def toBytes : Nat → Nat → List Byte
  | 0, _ => []
  | n + 1, v => BitVec.ofNat 8 v :: toBytes n (v / 256)

/-- The value of a little-endian byte list. -/
def ofBytes : List Byte → Nat
  | [] => 0
  | b :: r => b.toNat + 256 * ofBytes r

/-- The value of a big-endian byte list. -/
def ofBytesBE (l : List Byte) : Nat := l.foldl (fun a b => a * 256 + b.toNat) 0

/-- The bytes of a value in big-endian order. -/
def toBytesBE (n v : Nat) : List Byte := (toBytes n v).reverse

/-- The signed reading of the low n bits of a natural number. -/
def sx (n v : Nat) : Int := (BitVec.ofNat n v).toInt

/-- A saturating increment of a counter of the given width. -/
def satInc {n : Nat} (w : BitVec n) : BitVec n := if w = BitVec.allOnes n then w else w + 1

/-- Division rounded up. -/
def cdiv (a b : Nat) : Nat := (a + b - 1) / b

end Sys2Proof.Machine
end

