-- ==== Sys2Proof/Machine/Caps.lean ====
section
/-!
DEFINITION. Machine/Caps.lean: the capability word (R37–R44), its derivations by the CAP unit (R45–R53, R66–R71)
and the capability checks of an access (R64, checks 1 to 8).
-/
namespace Sys2Proof.Machine

/-- A capability: a 64-bit word and its tag (R37). -/
structure Cap where
  bits : DWord
  tag : Bool
deriving DecidableEq, Repr

/-- The null capability (R39). -/
def Cap.null : Cap := ⟨0#64, false⟩
/-- A word delivered into a capability-holding port: bits [63:32] zero, tag 0 (R55). -/
def Cap.ofWord (w : Word) : Cap := ⟨w.setWidth 64, false⟩
/-- An untagged 64-bit value. -/
def Cap.ofDW (d : DWord) : Cap := ⟨d, false⟩
/-- ADDR, the cursor. -/
def Cap.addr (c : Cap) : Word := c.bits.setWidth 32
/-- Bits [63:32]. -/
def Cap.hi (c : Cap) : Word := (c.bits >>> 32).setWidth 32
/-- B, the base mantissa. -/
def Cap.b (c : Cap) : Nat := fld c.bits 40 32
/-- T, the top mantissa. -/
def Cap.t (c : Cap) : Nat := fld c.bits 49 41
/-- E, the exponent. -/
def Cap.e (c : Cap) : Nat := fld c.bits 53 50
/-- PERM as six bits: X S L SC LC GL (Table 2-1). -/
def Cap.perm (c : Cap) : BitVec 6 := (c.bits >>> 54).setWidth 6
/-- X. -/
def Cap.x (c : Cap) : Bool := bit c.bits 59
/-- S. -/
def Cap.s (c : Cap) : Bool := bit c.bits 58
/-- L. -/
def Cap.l (c : Cap) : Bool := bit c.bits 57
/-- SC. -/
def Cap.sc (c : Cap) : Bool := bit c.bits 56
/-- LC. -/
def Cap.lc (c : Cap) : Bool := bit c.bits 55
/-- GL. -/
def Cap.gl (c : Cap) : Bool := bit c.bits 54
/-- OT, the object type. -/
def Cap.ot (c : Cap) : Nat := fld c.bits 62 60
/-- TW as a world. -/
def Cap.tw (c : Cap) : World := World.ofBit (bit c.bits 63)

/-- A capability with a new cursor, its tag unchanged. -/
def Cap.withAddr (c : Cap) (a : Word) : Cap := { c with bits := setFld c.bits 31 0 a.toNat }
/-- A capability with a new object type. -/
def Cap.withOt (c : Cap) (t : Nat) : Cap := { c with bits := setFld c.bits 62 60 t }
/-- A capability with new permissions. -/
def Cap.withPerm (c : Cap) (p : BitVec 6) : Cap := { c with bits := setFld c.bits 59 54 p.toNat }
/-- A capability with its tag cleared. -/
def Cap.untag (c : Cap) : Cap := { c with tag := false }

/-- A tagged whole-space capability with the given world, permissions, type and cursor (E = 15, B = T = 0). -/
def Cap.whole (w : World) (perm : BitVec 6) (ot : Nat) (a : Word) : Cap :=
  { bits := BitVec.ofNat 64 ((b2n w.bit <<< 63) + (ot <<< 60) + (perm.toNat <<< 54) + (15 <<< 50) + a.toNat), tag := true }

/-- The decode of R40: base and top over unbounded integers. -/
def Cap.decode (c : Cap) : Int × Int :=
  if c.e = 15 then (0, 2 ^ 32)
  else
    let s := c.e + 9
    let hi : Int := (c.addr.toNat / 2 ^ s : Nat)
    let mid := (c.addr.toNat / 2 ^ c.e) % 512
    let hi := if mid < c.b then hi - 1 else hi
    let base := hi * 2 ^ s + (c.b * 2 ^ c.e : Nat)
    (base, base + (((c.t + 512 - c.b) % 512) * 2 ^ c.e : Nat))

/-- The base of R40. -/
def Cap.base (c : Cap) : Int := c.decode.1
/-- The top of R40. -/
def Cap.top (c : Cap) : Int := c.decode.2

/-- The well-formedness of R41. -/
def Cap.wellFormed (c : Cap) : Bool :=
  if c.e = 15 then c.b == 0 && c.t == 0
  else decide (0 ≤ c.base) && decide (c.base ≤ c.top) && decide (c.top ≤ 2 ^ 32)

/-- Whether cursor a is representable in c (R42). -/
def Cap.representable (c : Cap) (a : Word) : Bool := (c.withAddr a).decode == c.decode

/-- The program counter capability moved to address a: its bounds stay fixed (R65). An address that is not representable with them
gives a capability of the same permissions whose empty bounds stand at a, so that its fetch fails the bounds check (R66). -/
def Cap.jumpTo (c : Cap) (a : Word) : Cap :=
  if c.representable a then c.withAddr a
  else
    let m := a.toNat % 512
    { (c.withAddr a) with bits := setFld (setFld (setFld (c.withAddr a).bits 53 50 0) 49 41 m) 40 32 m }

/-- The exponents setbounds tries, in order, from e upwards (R43). -/
def setboundsFrom (b l : Nat) : Nat → Nat → Nat × Nat × Nat
  | 0, _ => (15, 0, 2 ^ 32)
  | n + 1, e =>
    let lo := b / 2 ^ e * 2 ^ e
    let hi := cdiv (b + l) (2 ^ e) * 2 ^ e
    if hi - lo ≤ 511 * 2 ^ e then (e, lo, hi) else setboundsFrom b l n (e + 1)

/-- setbounds (R43): the exponent and the rounded base and top for base b and length l. -/
def setbounds (b l : Nat) : Nat × Nat × Nat := setboundsFrom b l 15 0

/-- c with the bounds (e, lo, hi) that setbounds chose. -/
def Cap.withBounds (c : Cap) (r : Nat × Nat × Nat) : Cap :=
  let bb := if r.1 = 15 then 0 else r.2.1 / 2 ^ r.1 % 512
  let tt := if r.1 = 15 then 0 else r.2.2 / 2 ^ r.1 % 512
  { c with bits := setFld (setFld (setFld c.bits 53 50 r.1) 49 41 tt) 40 32 bb }

/-- The smallest exponent that serves length l, and the rounded length (Table 2-10, RLEN and RMASK). -/
def rlenFrom (l : Nat) : Nat → Nat → Option (Nat × Nat)
  | 0, _ => none
  | n + 1, e =>
    let r := cdiv l (2 ^ e) * 2 ^ e
    if r ≤ 511 * 2 ^ e then some (e, r) else rlenFrom l n (e + 1)

/-- CAP.RLEN. -/
def capRlen (l : Word) : Word :=
  match rlenFrom l.toNat 15 0 with
  | some (_, r) => BitVec.ofNat 32 r
  | none => 0
/-- CAP.RMASK. -/
def capRmask (l : Word) : Word :=
  match rlenFrom l.toNat 15 0 with
  | some (e, _) => ~~~ (BitVec.ofNat 32 (2 ^ e - 1))
  | none => 0

/-- p's permissions are a subset of q's. -/
def permSubset (p q : BitVec 6) : Bool := p &&& ~~~ q == 0#6

/-- A capability operation's cause code of Table 2-13. -/
abbrev Code := BitVec 8

/-- The operation a CAP trigger names (Table 2-10). -/
inductive CapOp where
  | setaddr | incaddr | setb | setbx | andp | sentry | seal | unseal | clrtag | build | strait | get | test | rlen | rmask
deriving DecidableEq, Repr

/-- The result of a CAP trigger: a capability into CAP.RC, a word into CAP.RW, or a fault with its code and address. -/
inductive CapRes where
  | rc (c : Cap)
  | rw (w : Word)
  | fault (code : Code) (faddr : Word)
deriving DecidableEq, Repr

/-- CAP.GET (Table 2-11); none for a selector outside the table. -/
def capGet (a : Cap) (sel : Nat) : Option Word :=
  let base := a.base
  let top := a.top
  match sel with
  | 0 => some (BitVec.ofInt 32 base)
  | 1 => some (BitVec.ofInt 32 top)
  | 2 => some (b2w (decide (top = 2 ^ 32)))
  | 3 => some (if top - base = 2 ^ 32 then 0xFFFFFFFF#32 else BitVec.ofInt 32 (top - base))
  | 4 => some (a.perm.setWidth 32)
  | 5 => some (BitVec.ofNat 32 a.ot)
  | 6 => some (b2w a.tag)
  | 7 => some (b2w a.tw.bit)
  | 8 => some (BitVec.ofNat 32 a.e)
  | 9 => some a.hi
  | _ => none

/-- CAP.TEST (Table 2-10). -/
def capTest (a v : Cap) : Bool :=
  v.tag && a.tag && decide (a.base ≤ v.base) && decide (v.top ≤ a.top) && permSubset v.perm a.perm && (v.tw == a.tw)

/-- The BUILD conditions (R68, with the GL rule of R46 at user level). -/
def capBuildOk (sup : Bool) (a v : Cap) : Bool :=
  v.wellFormed && (v.ot == 0) && (v.tw == a.tw) && decide (a.base ≤ v.base) && decide (v.top ≤ a.top)
    && permSubset v.perm a.perm && (sup || v.gl == a.gl)

/-- The operations that need a tagged CAP.A (R69). -/
def CapOp.needsTag : CapOp → Bool
  | .setb | .setbx | .sentry | .seal | .unseal | .build => true
  | _ => false

/-- The operations that do not use CAP.A as a capability (R54): CLRTAG, GET and TEST; RLEN, RMASK and STRAIT take no
CAP.A at all. -/
def CapOp.noUse : CapOp → Bool
  | .clrtag | .get | .test | .rlen | .rmask | .strait => true
  | _ => false

/-- SETB and SETBX (R70). -/
def capSetb (exact : Bool) (a : Cap) (l : Nat) : CapRes :=
  let b := a.addr.toNat
  if b + l > 2 ^ 32 then .fault 0x1B a.addr
  else
    let r := setbounds b l
    if (r.2.1 : Int) < a.base ∨ a.top < (r.2.2 : Int) then .fault 0x1B a.addr
    else if exact ∧ ¬ (r.2.1 = b ∧ r.2.2 = b + l) then .fault 0x1B a.addr
    else .rc (a.withBounds r)

/-- One CAP trigger on CAP.A = a, trigger value v, at level sup, in world w, with seal-key mask skm
(R67–R73). The order is: tag (R69), world (R54), sealed (R50), argument (R71), then the operation's own checks
(DEDUCED from Table 2-9's order, log 27). -/
def capOp (op : CapOp) (w : World) (sup : Bool) (skm : BitVec 4) (a v : Cap) : CapRes :=
  let vw := v.addr
  if op.needsTag && !a.tag then .fault 0x10 a.addr
  else if !op.noUse && a.tag && a.tw != w then .fault 0x11 a.addr
  else if !op.noUse && a.tag && a.ot != 0 && op != .unseal then .fault 0x12 a.addr
  else
    match op with
    | .setaddr => .rc { a.withAddr vw with tag := a.tag && a.representable vw }
    | .incaddr =>
      let n := a.addr + vw
      .rc { a.withAddr n with tag := a.tag && a.representable n }
    | .setb => capSetb false a vw.toNat
    | .setbx => capSetb true a vw.toNat
    | .andp =>
      if fld vw 31 6 ≠ 0 then .fault 0x1E a.addr
      else
        let p := a.perm &&& vw.setWidth 6
        .rc (a.withPerm (if sup then p else setBit p 0 a.gl))
    | .sentry => if a.x then .rc (a.withOt 1) else .fault 0x13 a.addr
    | .seal =>
      if vw.toNat < 4 ∨ vw.toNat > 7 then .fault 0x1E a.addr
      else if skm.getLsbD (vw.toNat - 4) then .rc (a.withOt vw.toNat) else .fault 0x1C a.addr
    | .unseal =>
      if vw.toNat < 4 ∨ vw.toNat > 7 then .fault 0x1E a.addr
      else if a.ot = vw.toNat ∧ skm.getLsbD (vw.toNat - 4) then .rc (a.withOt 0) else .fault 0x1C a.addr
    | .clrtag => .rc a.untag
    | .build => if capBuildOk sup a v then .rc { v with tag := true } else .fault 0x1B v.addr
    | .strait => .rc (Cap.whole w 0b000001#6 3 vw)
    | .get =>
      match capGet a vw.toNat with
      | some r => .rw r
      | none => .fault 0x1E a.addr
    | .test => .rw (b2w (capTest a v))
    | .rlen => .rw (capRlen vw)
    | .rmask => .rw (capRmask vw)

/-- The roots of a boot context (Table 2-8). -/
def rootPcc (w : World) (vec : Word) : Cap := Cap.whole w 0b101011#6 0 vec
/-- C1 of Table 2-8. -/
def rootC1 (w : World) : Cap := Cap.whole w 0b011111#6 0 0
/-- C2 of Table 2-8. -/
def rootC2 (w : World) : Cap := Cap.whole w 0b011110#6 0 0

/-- Checks 1 to 8 of Table 2-9 on an access of n bytes at effective address a: the first failing check's code and
fault address. store says the direction; capAcc a capability access; sv the stored value of a capability store. -/
def capAccessCheck (auth : Cap) (w : World) (store capAcc : Bool) (sv : Cap) (a : Word) (n : Nat) : Option (Code × Word) :=
  let ai : Int := a.toNat
  if !auth.tag then some (0x10, a)
  else if auth.tw != w then some (0x11, a)
  else if auth.ot != 0 then some (0x12, a)
  else if !store && !auth.l then some (0x14, a)
  else if store && !auth.s then some (0x15, a)
  else if ai < auth.base then some (0x18, a)
  else if auth.top < ai + n then some (0x18, if auth.top < ai then a else BitVec.ofInt 32 auth.top)
  else if capAcc && a.toNat % 8 != 0 then some (0x19, a)
  else if store && capAcc && sv.tag && !auth.sc then some (0x16, a)
  else if store && capAcc && sv.tag && !sv.gl && auth.gl then some (0x17, a)
  else none

/-- The fetch checks of R66: tag, world, type, X, then the bounds of every syllable of a bundle of n bytes at the
cursor. -/
def pccFetchCheck (pcc : Cap) (w : World) (n : Nat) : Option (Code × Word) :=
  let a := pcc.addr
  let ai : Int := a.toNat
  if !pcc.tag then some (0x10, a)
  else if pcc.tw != w then some (0x11, a)
  else if pcc.ot != 0 then some (0x12, a)
  else if !pcc.x then some (0x13, a)
  else if ai < pcc.base then some (0x18, a)
  else if pcc.top < ai + n then
    -- the first syllable that does not lie wholly inside the bounds
    some (0x18, BitVec.ofInt 32 (if pcc.top < ai then ai else ai + (pcc.top - ai) / 4 * 4))
  else none

end Sys2Proof.Machine
end

