-- ==== Sys2Proof/Machine/TileState.lean ====
section
/-!
DEFINITION. Machine/TileState.lean: what one tile and one context hold (chapters 4 to 10), as plain data, with reset values.
-/
namespace Sys2Proof.Machine

/-- The answer to a register access: a word, or an error response with its cause code (R31, R101). -/
inductive BusRes where
  | ok (w : Word)
  | err (code : Code)
deriving DecidableEq, Repr

/-- A fault or a machine check waiting to be taken: its cause code and its fault address. -/
structure FaultRec where
  code : Code
  faddr : Word
deriving DecidableEq, Repr

/-- A context (Table 7-1). Index 0 of w and of c is never used: W0 and C0 read as zero and null (R119). -/
structure Ctx where
  w : Vector Word 32
  c : Vector Cap 16
  pcc : Cap
  btgt : Cap
  bsh : Word
  status : Word
  cmr : BitVec 16
  skm : BitVec 4
  pred : BitVec 8
  lstat : Word
  ls : Vector Word 4
  le : Vector Word 4
  lc : Vector Word 4
  li : Vector Word 4
  ident : Word
deriving DecidableEq, Repr

/-- A slot of all zeros with every tag 0: what a release leaves (R206). -/
def Ctx.zero : Ctx :=
  { w := Vector.replicate 32 0, c := Vector.replicate 16 Cap.null, pcc := Cap.null, btgt := Cap.null, bsh := 0,
    status := 0, cmr := 0, skm := 0, pred := 0, lstat := 0, ls := Vector.replicate 4 0, le := Vector.replicate 4 0,
    lc := Vector.replicate 4 0, li := Vector.replicate 4 0, ident := 0 }

/-- IDENT of context n at reset (Table 7-2): contexts 0–7 claimed for Trade, 8–15 for Open, the others unclaimed. -/
def identReset (n : Nat) : Word := if n < 8 then 0xC0000000 else if n < 16 then 0x80000000 else 0
/-- STATUS of context n at reset (Table 8-1). -/
def statusReset (n : Nat) : Word :=
  (if n < 8 then 0x80000000#32 else 0#32) ||| (if n = 0 ∨ n = 8 then 0x40100000#32 else 0#32)
/-- Context n at bus power-on reset (Tables 7-1, 7-2, 8-1). -/
def Ctx.reset (n : Nat) : Ctx := { Ctx.zero with skm := 0xF, ident := identReset n, status := statusReset n }

/-- State of a bank (R209). -/
inductive BankSt where
  | empty
  | clean
  | dirty
  | running
deriving DecidableEq, Repr

/-- One of banks 0–6: its state, the context it holds, when it last ran, and HANDED (R209, R210, R238). -/
structure Bank where
  st : BankSt
  num : CtxId
  ctx : Ctx
  stamp : Nat
  handed : Bool
deriving DecidableEq, Repr

/-- An empty bank. -/
def Bank.reset : Bank := { st := .empty, num := 0, ctx := Ctx.zero, stamp := 0, handed := false }

/-- A copy waiting in a tile's spill queue (R210). -/
structure Spill where
  num : CtxId
  ctx : Ctx
deriving DecidableEq, Repr

/-- The float state of a tile or of a park area: F0–F15, FPU.CSR and the owning context (R126, Table 7-5). -/
structure FloatState where
  f : Vector Word 16
  csr : Word
  ctx : CtxId
deriving DecidableEq, Repr

/-- Cleared float state. -/
def FloatState.reset : FloatState := { f := Vector.replicate 16 0, csr := 0, ctx := 0 }

/-- What an attached-unit operation in flight will write when its result becomes visible (Table 5-10). -/
inductive AttOp where
  | kset (rounds : Nat) (words : List Word)
  | aes (out : List Word)
  | gh (y : List Word)
  | sha (h : List Word)
deriving DecidableEq, Repr

/-- An attached-unit operation in flight: the bundles still to go, as REM counts them, and its result. -/
structure AttPend where
  rem : Nat
  op : AttOp
deriving DecidableEq, Repr

/-- The attached units of a tile: AES-GHASH and SHA-256 (Table 5-10), and CTL.ATTOWN (Table 5-11). -/
structure Att where
  own : Word
  key : Vector Word 8
  rounds : Nat
  sched : List Word
  d : Vector Word 4
  out : Vector Word 4
  h : Vector Word 4
  y : Vector Word 4
  sha : Vector Word 8
  msg : Vector Word 16
  idx : Nat
  pend : List AttPend
deriving DecidableEq, Repr

/-- Cleared attached units with no owner (R174, R175). -/
def Att.reset : Att :=
  { own := 0, key := Vector.replicate 8 0, rounds := 0, sched := [], d := Vector.replicate 4 0, out := Vector.replicate 4 0,
    h := Vector.replicate 4 0, y := Vector.replicate 4 0, sha := Vector.replicate 8 0, msg := Vector.replicate 16 0,
    idx := 0, pend := [] }

/-- An SCE set (Table 8-13): ENTRY, STACK and the word VALID, IE, MLVL, MASK. -/
structure Sce where
  entry : Cap
  stack : Cap
  word : DWord
deriving DecidableEq, Repr

/-- SYSL (Table 8-13): the caller's C15, HELD with CTX and CMR, and the caller's STATUS. -/
structure Sysl where
  c15 : Cap
  word : DWord
  status : DWord
deriving DecidableEq, Repr

/-- A port image or a port-image shadow: 64 slots of 64 bits with a tag (Table 4-7). -/
abbrev Image := Vector Cap 64
/-- A cleared image (R137). -/
def Image.clear : Image := Vector.replicate 64 Cap.null

/-- What a tile keeps once per world: the world's control ports and items (R243, R269), the shadow status and index ports
(R142), the bank window index, its two shadows, its emergency frame and its float park area (Table 7-5). -/
structure WorldCfg where
  wcfg : Word
  mask : Word
  edtb : Cap
  scex : Word
  sce : Vector Sce 4
  sysl : Sysl
  stb : Cap
  eframe : Vector Cap 8
  pstat : Word
  pix : Word
  bwr : Word
  shU : Image
  shS : Image
  park : FloatState
deriving DecidableEq, Repr

/-- A world's items of a tile at reset (Tables 8-2, 8-3, 8-12, 8-13, 4-9, 4-10, 7-9). -/
def WorldCfg.reset : WorldCfg :=
  { wcfg := 0, mask := 0x00100000, edtb := Cap.null, scex := 0,
    sce := Vector.replicate 4 { entry := Cap.null, stack := Cap.null, word := 0 },
    sysl := { c15 := Cap.null, word := 0, status := 0 }, stb := Cap.null, eframe := Vector.replicate 8 Cap.null,
    pstat := 0, pix := 0, bwr := 0, shU := Image.clear, shS := Image.clear, park := FloatState.reset }

/-- The link of a tile (R276): none, a strait link with its caller, callee and strait ADDR, or an interrupt link. -/
inductive Link where
  | none
  | strait (caller callee : CtxId) (addr : Word)
  | interrupt (preempted host : CtxId)
deriving DecidableEq, Repr

/-- Coherence state of a cached line (R143, R145): exclusive, modified or shared; instruction lines are shared. -/
inductive LineSt where
  | exclusive
  | modified
  | shared
deriving DecidableEq, Repr

/-- A cached line: its physical address, the world that filled it, its colour and its state (R80, R143). -/
structure CLine where
  pa : Nat
  world : World
  colour : Colour
  st : LineSt
deriving DecidableEq, Repr

/-- An entry of the four-entry write buffer (R18, R144): target, line address, byte mask, bytes, number, and whether it has
been handed to its target. -/
structure WbEnt where
  ember : Bool
  line : Nat
  mask : BitVec 64
  data : List (Nat × Byte)
  seq : Nat
  sent : Bool
deriving DecidableEq, Repr

/-- The caches of a tile: lines keyed by 4·set + way, the three replacement bits B2 B1 B0 of each set, the write buffer, and
the line addresses of write-backs whose response has not arrived. -/
structure Caches where
  ic : List (Nat × CLine)
  dc : List (Nat × CLine)
  ip : List (Nat × BitVec 3)
  dp : List (Nat × BitVec 3)
  wbuf : List WbEnt
  wbacks : List Nat
deriving DecidableEq, Repr

/-- Empty caches. -/
def Caches.reset : Caches := { ic := [], dc := [], ip := [], dp := [], wbuf := [], wbacks := [] }

/-- A leaf translation held by a TLB (Table 10-7): first virtual address, log2 of the page size, first physical address,
R W X U SE and COLOUR. -/
structure TlbEnt where
  va : Nat
  size : Nat
  pa : Nat
  r : Bool
  w : Bool
  x : Bool
  u : Bool
  se : Bool
  colour : Colour
deriving DecidableEq, Repr

/-- A table entry held by the walk cache: its level, its key and the address of the next table (Table 10-7). -/
structure WalkEnt where
  level : Nat
  key : Nat
  next : Nat
deriving DecidableEq, Repr

/-- The translation structures of a tile, by entry number, with their round-robin pointers (Table 10-7). -/
structure Tlbs where
  iu : List (Nat × TlbEnt)
  du : List (Nat × TlbEnt)
  l2 : List (Nat × TlbEnt)
  wc : List (Nat × WalkEnt)
  iuNext : Nat
  duNext : Nat
  l2Next : List (Nat × Nat)
  wcNext : Nat
deriving DecidableEq, Repr

/-- Empty translation structures. -/
def Tlbs.reset : Tlbs :=
  { iu := [], du := [], l2 := [], wc := [], iuNext := 0, duNext := 0, l2Next := [], wcNext := 0 }

/-- An access of a tile to peripheral space (R31, R567): direction, size in bytes, physical address, value; for one that crosses the causeway,
the attempts that failed and the bus die's stored response (R559). -/
structure PerAcc where
  write : Bool
  size : Nat
  pa : Nat
  v : Word
  ea : Word
  tries : Nat
  stored : Option BusRes
deriving DecidableEq, Repr

/-- What a completed context fill goes on with (R212): the waiting bundle or event is judged again, or the context becomes
the running one of the tile (TSTART, resume, boot), or goes on with its ports as they are after a debug halt. -/
inductive FillCont where
  | again
  | run
  | goOn
deriving DecidableEq, Repr

/-- What freezes a tile (Table 4-6). -/
inductive Freeze where
  | none
  | line (pa : Nat) (fetch own : Bool) (ea : Word)
  | walk (va : Word) (fetch store : Bool)
  | access (a : PerAcc)
  | response (seq : Nat) (r : BusRes) (ea : Word)
  | sePage (pa : Nat) (ea : Word)
  | room (ember : Bool)
  | fill (ctx : CtxId) (cont : FillCont)
  | spill
  | mfence (instr : Bool) (upto : Nat)
  | dwbinv
  | gfence (upto : Nat)
  | precise
deriving DecidableEq, Repr

/-- A pending change of mode under the mode-change shadow (R258). -/
structure ModeSh where
  sup : Bool
  ie : Bool
  mlvl : Nat
deriving DecidableEq, Repr

/-- Units whose operations can raise an imprecise condition or set float flags. -/
inductive ImpUnit where
  | alu
  | mac
  | fpu
  | fdiv
  | div
deriving DecidableEq, Repr

/-- An operation in flight that raises a condition or float flags at its completion bundle (R266): its unit, its bundle's
address, the bundles issued since, the bundles to completion, the condition it raises and the float flags it sets. -/
structure Infl where
  unit : ImpUnit
  trig : Word
  dist : Nat
  comp : Nat
  code : Option Code
  flags : BitVec 5
deriving DecidableEq, Repr

/-- A delivery between its boundary and its commit at cycle 6 (R296): the world entered, whether it is a cross-world entry
and whether the tile was idle. -/
structure Delivery where
  world : World
  cross : Bool
  idle : Bool
deriving DecidableEq, Repr

/-- A checked data access of a bundle: its effective address, the physical address it translated to, and whether the page has side
effects (R310, R328). -/
structure Checked where
  ea : Word
  pa : Nat
  se : Bool
deriving DecidableEq, Repr

/-- The flow of a tile between bundles: freeze, pending fault, mode shadow, arming windows, conditions in flight. -/
structure Flow where
  freeze : Freeze
  issuing : Bool
  presp : List BusRes
  held : Option (List (Word × Nat))
  checked : List Checked
  preciseDone : Bool
  fault : Option FaultRec
  modeSh : Option ModeSh
  armWin : Vector Nat 4
  repSkip : Bool
  infl : List Infl
  impDue : Bool
  noTake : Bool
  deliv : Option Delivery
  mcs : List FaultRec
  enter : Option (World × Nat)
deriving DecidableEq, Repr

/-- No freeze and nothing pending. -/
def Flow.reset : Flow :=
  { freeze := .none, issuing := false, presp := [], held := none, checked := [], preciseDone := false, fault := none, modeSh := none,
    armWin := Vector.replicate 4 0, repSkip := false, infl := [], impDue := false, noTake := false, deliv := none,
    mcs := [], enter := none }

/-- The phase of a change of DVFS point (R150): none, ramping up to a point before the clock switch, the clock switching to a
point (the tile is frozen), ramping down after it. -/
inductive Dvfs where
  | steady
  | rampUp (point : BitVec 2)
  | switching (point : BitVec 2)
  | rampDown
deriving DecidableEq, Repr

/-- What the device keeps of a tile beside its program: power, clock, reset and halt state, a gating (R495) and a debug halt (R541) that
wait for the next bundle boundary, whether that halt reaches Trade contexts, the recorded running context, FEAT7, isle copies. -/
structure TileSys where
  powered : Bool
  gated : Bool
  ashed : Bool
  excluded : Bool
  resetting : Bool
  halted : Bool
  gateReq : Bool
  haltReq : Bool
  haltAny : Bool
  recorded : Option CtxId
  mccount : BitVec 8
  bist : BitVec 4
  isles : List (World × Nat)
  dvfs : Dvfs
deriving DecidableEq, Repr

/-- A tile at bus power-on reset, before its self-test. -/
def TileSys.reset : TileSys :=
  { powered := true, gated := false, ashed := false, excluded := false, resetting := false, halted := false, gateReq := false, haltReq := false, haltAny := false,
    recorded := none, mccount := 0, bist := 0xF, isles := [], dvfs := .steady }

/-- One tile. run is the number of the RUNNING bank, if any. -/
structure Tile where
  run : Option Nat
  banks : Vector Bank 7
  spill : List Spill
  ports : Image
  float : FloatState
  fpown : Word
  att : Att
  cfg : Vector WorldCfg 2
  link : Link
  caches : Caches
  tlbs : Tlbs
  flow : Flow
  sys : TileSys
deriving DecidableEq, Repr

/-- A tile at bus power-on reset. -/
def Tile.reset : Tile :=
  { run := none, banks := Vector.replicate 7 Bank.reset, spill := [], ports := Image.clear, float := FloatState.reset,
    fpown := 0, att := Att.reset, cfg := Vector.replicate 2 WorldCfg.reset, link := .none, caches := Caches.reset,
    tlbs := Tlbs.reset, flow := Flow.reset, sys := TileSys.reset }

end Sys2Proof.Machine
end

