-- ==== Sys2Proof/Machine/BlockState.lean ====
section
/-!
DEFINITION. Machine/BlockState.lean: what the blocks outside the tiles hold beside their peripheral registers, as plain
data, with reset values.
-/
namespace Sys2Proof.Machine

/-- A line programming in progress in an eMRAM bank (R17, R18, R451): its line, the byte mask, who gets the credit back, the line's former
bytes. -/
structure Prog where
  line : Nat
  mask : BitVec 64
  who : Requester
  old : List Byte
deriving DecidableEq, Repr

/-- Memory and its controllers: bytes and tags by physical address, colours by granule address, check units that hold an
uncorrectable error, open DRAM rows (row + 1 by 8·channel + bank), line programmings by bank. The credits a requester
holds in use (R28) follow from its unanswered requests and are no separate state. -/
structure Mem where
  bytes : List Host.Cell
  tags : List (Nat × Bool)
  colours : List (Nat × Colour)
  damaged : List (Nat × Bool)
  rows : List (Nat × Nat)
  progs : Vector (Option Prog) 4
deriving DecidableEq, Repr

/-- Memory at bus power-on reset: nothing listed. -/
def Mem.reset : Mem :=
  { bytes := [], tags := [], colours := [], damaged := [], rows := [], progs := Vector.replicate 4 none }

/-- Interrupt state by source: pending bits (edge sources) or latches (level and software sources), enables, overruns, lines
(R284–R286). -/
structure Irq where
  pend : BitVec 512
  en : BitVec 512
  ovr : BitVec 512
  line : BitVec 512
deriving DecidableEq, Repr

/-- No source pending or enabled. -/
def Irq.reset : Irq := { pend := 0, en := 0, ovr := 0, line := 0 }

/-- What the char sweep engine holds beside its registers: a pending abort, the end of a pause, the next slot of the fill
walk, the ranges this sweep covers, the world that wrote START (R91–R94). -/
structure Sweep where
  abort : Bool
  pause : Option Nat
  slot : Nat
  world : World
deriving DecidableEq, Repr

/-- An idle engine. -/
def Sweep.reset : Sweep := { abort := false, pause := none, slot := 0, world := .trade }

/-- An isle descriptor (Table 7-12): ROOT and doubleword 1. -/
structure Isle where
  root : Cap
  word : DWord
deriving DecidableEq, Repr

/-- An isle descriptor at reset. -/
def Isle.reset : Isle := { root := Cap.null, word := 0 }

/-- An upset that a block has reported and the fault ledger has not yet recorded (R479): its class, the instance within the
class, its kind (none where the spec gives the block no coding of kinds), the physical address it concerns, whether it was
uncorrectable or a self-test failure. -/
structure Upset where
  cls : Nat
  num : Nat
  kind : Option Nat
  pa : Nat
  hard : Bool
deriving DecidableEq, Repr

/-- What waits to be recorded: an upset; the outcome of an upset that a port or a lane link judged itself (class 0 or 1; upsets in the
window, back-off entry, whether it became ASHED); a record to be cleared by its block. -/
inductive LedgerMsg where
  | upset (u : Upset)
  | outcome (rid kind upsets retry : Nat) (ashed : Bool)
  | clear (rid : Nat)
deriving DecidableEq, Repr

/-- A row of the error records of Table 11-12 (R359): time, kind, tile, world, cause code and the last word. -/
structure ErrRow where
  time : Nat
  kind : Nat
  tile : Nat
  world : World
  code : Code
  info : Word
deriving DecidableEq, Repr

/-- The device states of R492. -/
inductive DevSt where
  | run
  | idle
  | doze
  | banked
  | dormant
deriving DecidableEq, Repr

/-- What the device keeps of itself: its state, the time, code and number of its device resets, whether each world has been started
(R520), and the open clear permits: the end of each by port number, lane p as 16 + p (R425, R471). -/
structure Dev where
  st : DevSt
  resetAt : Nat
  resetCode : Nat
  resets : Nat
  started : Vector Bool 2
  permits : List (Nat × Nat)
deriving DecidableEq, Repr

/-- The device at bus power-on reset. -/
def Dev.reset : Dev := { st := .run, resetAt := 0, resetCode := 0, resets := 0, started := Vector.replicate 2 false, permits := [] }

/-- The context store: slots by context number, doublewords holding an uncorrectable error (by 48·context + index), isle
descriptors, and the isle maps (by 4,096·world + region). -/
structure CtxStore where
  slots : List (Nat × Ctx)
  damaged : List (Nat × Bool)
  isles : List (Nat × Isle)
  maps : List (Nat × Word)
deriving DecidableEq, Repr

/-- The context store at reset. -/
def CtxStore.reset : CtxStore := { slots := [], damaged := [], isles := [], maps := [] }

end Sys2Proof.Machine
end

