-- ==== Sys2Proof/Machine/DictState.lean ====
section
/-!
DEFINITION. Machine/DictState.lean: what the dictionary engine of slot 0x028 and the step engine of slot 0x02C hold beside their
registers (chapters 11 and 12), as plain data.
-/
namespace Sys2Proof.Machine

/-- A descriptor of the catalogue (Table 11-6); roles and codes are coded as there. -/
structure DictDesc where
  index : Nat
  sub : Nat
  type : Nat
  access : Nat
  rrole : Nat
  wrole : Nat
  expert : Bool
  ember : Bool
  owner : Nat
  maxlen : Nat
  min : Nat
  max : Nat
  dflt : Nat
  name : List Byte
deriving DecidableEq, Repr

/-- How a Ferry request is to be answered (Table 12-7). -/
inductive RspKind where
  | read
  | write
  | segRead (xfer : Nat)
  | segWrite (xfer : Nat)
  | command (notify : Bool)
deriving DecidableEq, Repr

/-- Where a dictionary request comes from: a slot of a world's mailbox, or a Ferry session. -/
inductive DSrc where
  | mailbox (w : World) (slot : Nat)
  | ferry (session : Nat) (kind : RspKind)
deriving DecidableEq, Repr

/-- A request in the engine: op as Table 11-8 codes it (1 READ to 6 UNREGISTER; 21 for a Ferry COMMAND, its control in the place of the subindex), its entry as key = 256 · index + subindex. -/
structure DReq where
  src : DSrc
  op : Nat
  key : Nat
  value : List Byte
  tag : Nat
deriving DecidableEq, Repr

/-- A request in a forward slot of an owner's mailbox (R356, R357): its slot 0–31 (slots 32–63 of the mailbox), whether it uses the
value area, its number, and when its owner timeout started. -/
structure Fwd where
  slot : Nat
  world : World
  req : DReq
  area : Bool
  num : Nat
  start : Option Nat
deriving DecidableEq, Repr

/-- A command entry (Table 11-16). -/
structure Cmd where
  st : Nat
  k : Nat
  n : Nat
  reason : Nat
  arg : List Byte
  result : List Byte
deriving DecidableEq, Repr

/-- A command in IDLE. -/
def Cmd.reset : Cmd := { st := 0, k := 0, n := 0, reason := 0, arg := [], result := [] }

/-- A granted step (Table 11-18): FIRST, ABORTREQ, the time of the grant. -/
structure Grant where
  first : Bool
  abort : Bool
  since : Nat
deriving DecidableEq, Repr

/-- The clock of the engine (R347, R348): its PLL, stopped, the recovered backbone clock, or the RC oscillator. -/
inductive EngClk where
  | pll
  | stopped
  | recovered
  | rc
deriving DecidableEq, Repr

/-- A handshake slot (R385, R389): who serves it, where the INIT came from, its payload and header DST, the assigned session number,
and after HS_DONE the REPLY, the keys, the granted role and the deadline. words holds what the world wrote through HS_DATA. -/
structure Hs where
  world : World
  carrier : Carrier
  peer : Peer
  node : Nat
  session : Nat
  init : List Byte
  words : List (Nat × Word)
  reply : Option (List Byte)
  role : Nat
  comm : Bool
  deadline : Nat
deriving DecidableEq, Repr

/-- A segmented transfer (R396, R397): a snapshot being read, or a value being gathered. -/
structure Xfer where
  id : Nat
  write : Bool
  key : Nat
  total : Nat
  data : List Byte
  next : Nat
  last : Nat
deriving DecidableEq, Repr

/-- A subscription (R398, R399). -/
structure Subn where
  id : Nat
  key : Nat
  periodic : Bool
  period : Nat
  minint : Nat
  last : Option Nat
  waiting : Bool
  gap : Bool
deriving DecidableEq, Repr

/-- A session (R384–R391, R401): keys are k_ir, k_ri, s_ir and s_ri in turn; window bit i says that SEQ hi − i was received. -/
structure Session where
  num : Nat
  role : Nat
  carrier : Carrier
  peer : Peer
  node : Nat
  keys : List Byte
  out : Nat
  hi : Nat
  window : BitVec 64
  unlock : Option Nat
  comm : Bool
  last : Nat
  frames : Nat
  answered : List (Nat × Nat × List Byte)
  pendTags : List Nat
  xfers : List Xfer
  subs : List Subn
  evseq : Nat
  notes : List (Nat × Nat)
deriving DecidableEq, Repr

/-- A HELLO_ACK that waits for its random delay (R394). -/
structure HelloWait where
  carrier : Carrier
  peer : Peer
  node : Nat
  due : Nat
deriving DecidableEq, Repr

/-- The dictionary and step engines. vals holds values by entry, where they differ from their defaults; wq the entries of the queued
writes, oldest first, and wqHead the record number of the oldest; unlock the expert unlocks of the local sessions; rws the time of the latest RWS
write applied since STORE gathered. -/
structure Dict where
  cat : List DictDesc
  vals : List (Nat × List Byte)
  unlock : Vector (Option Nat) 2
  fwds : List Fwd
  waiting : List DReq
  wqHead : Vector Nat 2
  wq : Vector (List Nat) 2
  cmds : Vector Cmd 7
  queue : List Nat
  grant : Option Grant
  started : Bool
  follow : Bool
  lastDone : Nat
  barrier : Nat
  devReset : Option Nat
  clk : EngClk
  hs : Vector (Option Hs) 4
  sess : List Session
  hello : List HelloWait
  unprot : List Nat
  rws : Option Nat
deriving DecidableEq, Repr

/-- The engines at bus power-on reset. -/
def Dict.reset : Dict :=
  { cat := [], vals := [], unlock := Vector.replicate 2 none, fwds := [], waiting := [], wqHead := Vector.replicate 2 0
    wq := Vector.replicate 2 [], cmds := Vector.replicate 7 Cmd.reset, queue := [], grant := none, started := false, follow := false, lastDone := 0
    barrier := 0, devReset := none, clk := .pll, hs := Vector.replicate 4 none, sess := [], hello := [], unprot := [], rws := none }

/-- What the device sends on a carrier, newest last: a Ferry frame with its peer, or a frame on a port. -/
inductive OutMsg where
  | ferry (c : Carrier) (p : Peer) (bytes : List Byte)
  | lane (p : BitVec 4) (frame : List Byte)
  | backbone (p : BitVec 1) (frame : List Byte)
  | usb (p : BitVec 1) (ep : BitVec 4) (bytes : List Byte)
deriving DecidableEq, Repr

end Sys2Proof.Machine
end

