-- ==== Sys2Proof/Machine/PeriphState.lean ====
section
/-!
DEFINITION. Machine/PeriphState.lean: what the blocks of chapters 13 to 18 hold beside their registers, as plain data, with reset
values.
-/
namespace Sys2Proof.Machine

/-- A frame in a lane's receive FIFO (R413, R418): its queue, its STAT, its opportunity tag, the time at its SFD, its bytes. -/
structure LaneRx where
  queue : Nat
  stat : Nat
  tag : Nat
  time : Nat
  frame : List Byte
deriving DecidableEq, Repr

/-- The frame in a lane's transmit buffer (R420): its queue k, its bytes. -/
structure LaneTx where
  queue : Nat
  frame : List Byte
deriving DecidableEq, Repr

/-- A lane port (R406–R425): the BURST in force, whether the device's opportunity may send what is buffered, burst frames left, the end of
the latest frame, the FIFO, the transmit buffer, the queue that last sent, a held word 0 by enrolment row, the times of upsets and of FCS
errors, the end of the back-off and of the line test, failed line tests in a row, the link's policy (R424). -/
structure Lane where
  burst : Nat
  armed : Bool
  burstLeft : Nat
  lastEnd : Nat
  fifo : List LaneRx
  tx : Option LaneTx
  lastQ : Nat
  held : List (Nat × Word)
  ups : List Nat
  fcs : List Nat
  due : Option Nat
  test : Option Nat
  fails : Nat
  thresh : Nat
  window : Nat
  retry : List Nat
deriving DecidableEq, Repr

/-- A lane at reset; the policy is the default of Table 13-13. -/
def Lane.reset : Lane :=
  { burst := 0, armed := false, burstLeft := 0, lastEnd := 0, fifo := [], tx := none, lastQ := 0, held := [], ups := [], fcs := [], due := none
    test := none, fails := 0, thresh := 5, window := 60, retry := [50, 500, 5000, 30000] }

/-- A learnt address of the backbone switch (R426): the address, its port, when it was last seen. -/
structure Learnt where
  mac : Nat
  port : Nat
  seen : Nat
deriving DecidableEq, Repr

/-- The backbone switch and its external ports: the address table, the times of FCS errors, until when each link is held down. -/
structure Backbone where
  addrs : List Learnt
  fcs : Vector (List Nat) 2
  hold : Vector Nat 2
  txLast : Nat
deriving DecidableEq, Repr

/-- The switch at reset. -/
def Backbone.reset : Backbone := { addrs := [], fcs := Vector.replicate 2 [], hold := Vector.replicate 2 0, txLast := 0 }

/-- The IEEE 1588 time block (R429): LOCKED, HOLDOVER and since when, the latest offsets with the time of each write, newest first, and the
fraction of a ns in parts of 10⁶. The time itself is the state's ptp. -/
structure TimeBlk where
  locked : Bool
  holdover : Option Nat
  ofs : List (Int × Nat)
  frac : Int
deriving DecidableEq, Repr

/-- The time block at reset. -/
def TimeBlk.reset : TimeBlk := { locked := false, holdover := none, ofs := [], frac := 0 }

/-- A USB port (R432–R434): whether something is attached, its speed, the lands, the address assigned, the role in use, whether it waits
out an upset, and the end of a bus reset. -/
structure Usb where
  attached : Bool
  speed : Nat
  vbus : Bool
  idHigh : Bool
  addr : Nat
  role : Nat
  hold : Option Nat
  resetEnd : Option Nat
deriving DecidableEq, Repr

/-- A USB port at reset with its role. The ID lands have pull-ups (R555). -/
def Usb.reset (role : Nat) : Usb :=
  { attached := false, speed := 0, vbus := false, idHigh := true, addr := 0, role := role, hold := none, resetEnd := none }

/-- A key slot of the seal engine (R436). -/
structure KeySlot where
  key : List Byte
  pairid : Nat
  seq : Nat
  limit : Nat
  valid : Bool
  armed : Bool
deriving DecidableEq, Repr

/-- An empty key slot. -/
def KeySlot.reset : KeySlot := { key := [], pairid := 0, seq := 0, limit := 0, valid := false, armed := false }

/-- A pairing in progress (R447). -/
structure Pairing where
  lane : Nat
  node : Nat
  slot : Nat
  pairid : Nat
  since : Nat
deriving DecidableEq, Repr

/-- The latest export of the journal (R453): first SEQ, count, records, signature. -/
structure Export where
  first : Nat
  count : Nat
  records : List Byte
  sig : List Byte
deriving DecidableEq, Repr

/-- The seal engine and the journal guard (chapter 14): key slots by number, whether KDATA shows a wrapped record, the job queue, the
gathered bytes of the tail line, whether its line is programming; what the Trade image keeps of pairings and exports. -/
structure Seal where
  slots : List (Nat × KeySlot)
  shown : Bool
  jobs : List Nat
  gather : List (Nat × Byte)
  busy : Bool
  pairing : Option Pairing
  pairResult : Nat
  pairings : List (Nat × Pairing)
  exported : Option Export
deriving DecidableEq, Repr

/-- The seal engine at reset. -/
def Seal.reset : Seal :=
  { slots := [], shown := false, jobs := [], gather := [], busy := false, pairing := none, pairResult := 0, pairings := [], exported := none }

/-- A port's hot-swap controller (R463–R471): the times of its upsets, the end of its back-off, whether the retry waits for its FET to
cool, when INRUSH began. -/
structure Hot where
  ups : List Nat
  due : Option Nat
  hot : Bool
  inrush : Option Nat
deriving DecidableEq, Repr

/-- A controller at bus power-on reset. -/
def Hot.reset : Hot := { ups := [], due := none, hot := false, inrush := none }

/-- A ride-through in progress (R476): when it started, the threshold, the window, the warning lead, the floor and the shed delays it
started with, the classes shed so far and whether the warning was given. -/
structure Ride where
  start : Nat
  vrt : Nat
  fwin : Nat
  fwarn : Nat
  floor : Nat
  delays : List Nat
  shed : List Nat
  warned : Bool
deriving DecidableEq, Repr

/-- The bus die beside its registers: whether it runs, whether ASHLOAD was written, the causeway, the hot-swap controllers, the tables in
use where they differ from their defaults, the budget's times, the limit on the charging current while the budget reduces it, the charge
row, since when the bank draws little, the ride-through, the next restore and the port restored last, the latest causeway frame. -/
structure BusDie where
  started : Bool
  ashloaded : Bool
  cwLost : Bool
  hots : Vector Hot 16
  tabs : List (Nat × Word)
  overSince : Option Nat
  lowSince : Option Nat
  charge : Option Nat
  row : Option Nat
  fullSince : Option Nat
  ride : Option Ride
  nextRestore : Option Nat
  restored : Option Nat
  convAshed : Bool
  cwLast : Nat
deriving DecidableEq, Repr

/-- The bus die at bus power-on reset. -/
def BusDie.reset : BusDie :=
  { started := true, ashloaded := false, cwLost := false, hots := Vector.replicate 16 Hot.reset, tabs := [], overSince := none
    lowSince := none, charge := none, row := none, fullSince := none, ride := none, nextRestore := none, restored := none
    convAshed := false, cwLast := 0 }

/-- A record of the fault ledger (Table 15-16) beside its RID and CLASS; times are those of the upsets in the window, not persisted. -/
structure LRec where
  st : Nat
  upsets : Nat
  kind : Nat
  retry : Nat
  total : Nat
  addr : Nat
  first : Nat
  last : Nat
  times : List Nat
deriving DecidableEq, Repr

/-- A record in service with no upsets. -/
def LRec.reset : LRec := { st := 0, upsets := 0, kind := 0, retry := 0, total := 0, addr := 0, first := 0, last := 0, times := [] }

/-- The fault ledger: its records by RID where they differ from one without upsets, whether a copy has to be written and since when, the
copy and the SEQ of the latest write. -/
structure Ledger where
  recs : List (Nat × LRec)
  dirty : Option Nat
  copy : Nat
  seq : Nat
deriving DecidableEq, Repr

/-- The ledger before it is loaded. -/
def Ledger.reset : Ledger := { recs := [], dirty := none, copy := 1, seq := 0 }

/-- The RTC (R489–R491): IEEE 1588 time in ns with 32 fraction bits, TRIM in ppb, VALID, whether software set it, CLKFAIL, since when it
holds over, how many seconds it has followed. -/
structure Rtc where
  time : Nat
  trim : Int
  valid : Bool
  wasSet : Bool
  fail : Bool
  hold : Option Nat
deriving DecidableEq, Repr

/-- The RTC at bus power-on reset. -/
def Rtc.reset : Rtc := { time := 0, trim := 0, valid := false, wasSet := false, fail := false, hold := none }

/-- A row of the retention log (R504): the line's number among the scrubbed lines, whether the error was uncorrectable. -/
structure ScrubRow where
  line : Nat
  hard : Bool
deriving DecidableEq, Repr

/-- The power domain controller and the wake logic (R495–R506): since when the device is idle, the entry in progress as the steps done and
the state being entered, the mirror of SCFG by source, the source that started an exit, the dormant key and sequence, the scrubber's next
line and its log. -/
structure Pdc where
  idleSince : Option Nat
  entry : Option (Nat × Nat)
  mirror : List (Nat × Word)
  waking : Option Nat
  dkey : List Byte
  dseq : Nat
  scrubAt : Nat
  log : List ScrubRow
deriving DecidableEq, Repr

/-- The controller at bus power-on reset. -/
def Pdc.reset : Pdc := { idleSince := none, entry := none, mirror := [], waking := none, dkey := [], dseq := 0, scrubAt := 0, log := [] }

/-- A STORE in progress (R510): the payload it gathered, the bank it writes, SEQ. -/
structure StoreJob where
  payload : List Byte
  bank : Nat
  seq : Nat
deriving DecidableEq, Repr

/-- No STORE has run. -/
def StoreJob.reset : StoreJob := { payload := [], bank := 0, seq := 0 }

/-- A device reset under way: held while RESET_N is low, or running its sequence. -/
inductive ResetSt where
  | off
  | held
  | running
deriving DecidableEq, Repr

/-- The tinder ROM: not started, waiting to choose, in recovery, done. -/
inductive TinderSt where
  | off
  | ready
  | recovery
  | done
deriving DecidableEq, Repr

/-- Resets and boot (chapter 17): the reset under way, the tinder ROM, the SVN cells burned and the keys revoked on this part since manufacture,
since when an SVN burn runs, and of each watchdog whether its kick sequence has begun, the µs to its expiry and whether it has warned; tile
resets in their self-test, with their start and the boot context that restarts there; whether an Open world reset waits (R533). -/
structure Boot where
  rst : ResetSt
  tinder : TinderSt
  burned : Nat
  revoked : BitVec 4
  burn : Option Nat
  primed : Vector Bool 2
  left : Vector Nat 2
  warned : Vector Bool 2
  selfTest : List (Nat × Nat × Option CtxId)
  waitOpen : Bool
deriving DecidableEq, Repr

/-- Boot state at bus power-on reset: the sequence is due. -/
def Boot.reset : Boot :=
  { rst := .running, tinder := .off, burned := 0, revoked := 0, burn := none, primed := Vector.replicate 2 false
    left := Vector.replicate 2 5000000, warned := Vector.replicate 2 false, selfTest := [], waitOpen := false }

/-- The TAP and the debug access port (R537–R545): the instruction, whether the lands are taken and how (the instruction's code), the address,
the data and status of the previous operation, the tiles asked to halt, the token words, the next nonce word, the nonce, the unlock's scope
and end, the time of TAP activity. -/
structure Dap where
  ir : Nat
  lands : Option Nat
  addr : Nat
  data : Word
  status : Nat
  haltreq : BitVec 16
  token : List Word
  nonceAt : Nat
  nonce : List Word
  scope : Nat
  unlockEnd : Option Nat
  deferred : Nat
  active : Option Nat
deriving DecidableEq, Repr

/-- The port at reset; IDCODE is the instruction that IEEE 1149.1 selects at reset. -/
def Dap.reset : Dap :=
  { ir := 2, lands := none, addr := 0, data := 0, status := 0, haltreq := 0, token := [], nonceAt := 0, nonce := [], scope := 0, unlockEnd := none
    deferred := 0, active := none }

end Sys2Proof.Machine
end

