-- ==== Sys2Proof/Machine/Sparse.lean ====
section
/-!
DEFINITION. Machine/Sparse.lean: sparse maps from numbers to values, as lists of pairs in one canonical form
(keys strictly rising, no entry equal to what an unlisted key reads as). Memory, tags, colours, the peripheral
register file and every large table of the device are held so.
-/
namespace Sys2Proof.Machine

/-- What key k reads as: the listed value, or d where k is not listed. -/
def Sparse.get {V : Type} (d : V) (k : Nat) : List (Nat × V) → V
  | [] => d
  | (a, v) :: r => if a = k then v else Sparse.get d k r

/-- The listed value of key k, if any. -/
def Sparse.find? {V : Type} (k : Nat) : List (Nat × V) → Option V
  | [] => none
  | (a, v) :: r => if a = k then some v else Sparse.find? k r

/-- The map with key k listed with value v, in its place by key. -/
def Sparse.put {V : Type} (k : Nat) (v : V) : List (Nat × V) → List (Nat × V)
  | [] => [(k, v)]
  | (a, w) :: r =>
    if k < a then (k, v) :: (a, w) :: r
    else if k = a then (k, v) :: r
    else (a, w) :: Sparse.put k v r

/-- The map with key k no longer listed. -/
def Sparse.erase {V : Type} (k : Nat) (m : List (Nat × V)) : List (Nat × V) :=
  m.filter (fun p => !(p.1 == k))

/-- The map after writing v at key k, where an unlisted k reads as d: the canonical form is kept. -/
def Sparse.write {V : Type} [DecidableEq V] (d : V) (k : Nat) (v : V) (m : List (Nat × V)) : List (Nat × V) :=
  if v = d then Sparse.erase k m else Sparse.put k v m

/-- The canonical form of a map whose unlisted key k reads as d k: the keys rise strictly, and no entry holds what its key reads as
unlisted. -/
def Sparse.wf {V : Type} [DecidableEq V] (d : Nat → V) (m : List (Nat × V)) : Bool :=
  decide ((m.map Prod.fst).Pairwise (· < ·)) && m.all (fun p => decide (p.2 ≠ d p.1))

end Sys2Proof.Machine
end

