-- ==== Sys2Proof/Machine/State.lean ====
section
/-!
DEFINITION. Machine/State.lean: the whole state of the device, the reasons a step can stop, and the state after reset.
-/
namespace Sys2Proof.Machine

/-- The reasons a step stops with a fault. The device has none: every fault of the spec is taken by the device itself. No
constructor; nobody raises it; safe. -/
inductive Fault where
deriving DecidableEq, Repr

/-- The reasons a step is refused. -/
inductive Refusal where
  /-- Raised by exec's arm of a command that has no meaning yet. Safe: nothing can be proved of its effect. -/
  | notModelled (mnemonic : String)
deriving DecidableEq, Repr

/-- The state of the device. -/
structure State where
  pending : List Instr
  now : Nat
  seq : Nat
  free : Nat
  resp : Option BusRes
  regs : List (Nat × Word)
  mem : Mem
  irq : Irq
  sweep : Sweep
  upsets : List LedgerMsg
  store : CtxStore
  ptp : Nat
  errCount : Word
  errRows : List ErrRow
  dict : Dict
  dev : Dev
  out : List OutMsg
  lanes : Vector Lane 16
  bb : Backbone
  tb : TimeBlk
  usb : Vector Usb 2
  sealEng : Seal
  bus : BusDie
  ledger : Ledger
  rtc : Rtc
  pdc : Pdc
  job : StoreJob
  boot : Boot
  dap : Dap
  tiles : Vector Tile 16
deriving DecidableEq, Repr

/-- The machine right after bus power-on reset, before the device reset sequence (R515, R520). -/
def State.reset : State :=
  { pending := [], now := 0, seq := 0, free := 0, resp := none, regs := [], mem := Mem.reset, irq := Irq.reset,
    sweep := Sweep.reset, upsets := [], store := CtxStore.reset, ptp := 0, errCount := 0,
    errRows := [], dict := Dict.reset, dev := Dev.reset, out := [], lanes := Vector.replicate 16 Lane.reset,
    bb := Backbone.reset, tb := TimeBlk.reset, usb := #v[Usb.reset 2, Usb.reset 1], sealEng := Seal.reset, bus := BusDie.reset,
    ledger := Ledger.reset, rtc := Rtc.reset, pdc := Pdc.reset, job := StoreJob.reset, boot := Boot.reset, dap := Dap.reset, tiles := Vector.replicate 16 Tile.reset }

end Sys2Proof.Machine
end

