-- ==== Sys2Proof/Machine/RegFile.lean ====
section
/-!
DEFINITION. Machine/RegFile.lean: the peripheral register file. Every register of the spec's register tables that holds a
value has one row here with its reset value and its writable bits; a world-banked register has one value per world (R9, R567).
-/
namespace Sys2Proof.Machine

/-- The interrupt sources of Table 9-6: world at reset, fixed, level-sensed at reset, software, driving slot. -/
structure IrqInfo where
  world : World
  fixed : Bool
  level : Bool
  soft : Bool
  slot : Nat
deriving DecidableEq, Repr

/-- Table 9-6 and Table 9-7; none for a reserved source. -/
def irqInfo (s : Nat) : Option IrqInfo :=
  let o (slot : Nat) : Option IrqInfo := some ⟨.opn, false, false, false, slot⟩
  let l (slot : Nat) : Option IrqInfo := some ⟨.opn, false, true, false, slot⟩
  let f (w : World) (slot : Nat) : Option IrqInfo := some ⟨w, true, false, false, slot⟩
  if s < 32 then o 0x00C
  else if s < 64 then
    match s with
    | 32 => f .trade 0x00D
    | 33 => f .opn 0x00E
    | 34 => f .trade 0
    | 35 => f .opn 0
    | 36 => f .trade 0
    | 37 => f .opn 0
    | 38 => l 0x00F
    | 40 => f .trade 0x002
    | 41 => f .trade 0x003
    | 42 => f .trade 0x004
    | 43 => f .trade 0x005
    | 44 => f .trade 0x020
    | 45 => f .trade 0x031
    | 46 => f .trade 0x038
    | 47 => f .trade 0x030
    | 48 => f .trade 0x021
    | 49 => f .opn 0x021
    | 50 => l 0x022
    | 51 => l 0x023
    | 52 => l 0x024
    | 53 => l 0x028
    | 54 => some ⟨.trade, false, false, false, 0x029⟩
    | 55 => o 0x02A
    | 56 => l 0x02B
    | 57 => o 0x02C
    | _ => none
  else if s < 128 then o (0x040 + (s - 64) / 2)
  else if s < 256 then
    let p := (s - 128) / 8
    match (s - 128) % 8 with
    | 2 => l (0x060 + p)
    | 4 => o 0x070
    | 6 => none
    | 7 => none
    | _ => o (0x060 + p)
  else if s < 288 then
    match s with
    | 256 => o 0x078
    | 257 => o 0x079
    | 258 => o 0x07A
    | 259 => o 0x07B
    | 260 => o 0x07C
    | 261 => o 0x07D
    | _ => none
  else if s < 304 then
    match s with
    | 288 => l 0x080
    | 289 => l 0x081
    | 290 => o 0x082
    | 291 => l 0x083
    | 292 => f .trade 0x083
    | 293 => f .opn 0x083
    | 294 => f .trade 0x083
    | _ => none
  else if s < 320 then o (0x090 + (s - 304))
  else if 384 ≤ s ∧ s < 448 then some ⟨.opn, false, false, true, 0⟩
  else none

/-- The reset value of SCFGs: WORLD and SENSE of Table 9-6, every other field zero (Table 9-1). -/
def scfgReset (s : Nat) : Word :=
  match irqInfo s with
  | none => 0
  | some i => BitVec.ofNat 32 ((b2n i.world.bit <<< 18) + ((if i.level then 0 else 1) <<< 16))

/-- SINFOs (Table 9-2). -/
def sinfo (s : Nat) : Word :=
  match irqInfo s with
  | none => 0
  | some i => BitVec.ofNat 32 ((1 <<< 31) + (b2n i.fixed <<< 30) + (b2n i.soft <<< 29) + i.slot)

/-- How a slot is owned at reset (Table 3-8). -/
inductive SlotKind where
  | empty
  | fixed
  | trade
  | opn
deriving DecidableEq, Repr

/-- Table 3-8. -/
def slotKind (n : Nat) : SlotKind :=
  if n = 0 ∨ n = 1 ∨ n = 0x21 then .fixed
  else if (2 ≤ n ∧ n ≤ 5) ∨ n = 0x00D ∨ n = 0x020 ∨ n = 0x029 ∨ n = 0x030 ∨ n = 0x031 ∨ n = 0x038 then .trade
  else if (0x008 ≤ n ∧ n ≤ 0x00C) ∨ n = 0x00E ∨ n = 0x00F ∨ (0x010 ≤ n ∧ n ≤ 0x01F) ∨ (0x022 ≤ n ∧ n ≤ 0x024) ∨ n = 0x028
      ∨ (0x02A ≤ n ∧ n ≤ 0x02C) ∨ (0x040 ≤ n ∧ n ≤ 0x05F) ∨ (0x060 ≤ n ∧ n ≤ 0x070) ∨ (0x078 ≤ n ∧ n ≤ 0x07D)
      ∨ (0x080 ≤ n ∧ n ≤ 0x083) ∨ (0x090 ≤ n ∧ n ≤ 0x09F) then .opn
  else .empty

/-- The slots with SH = 1 at reset (Table 3-10a). -/
def slotShared (n : Nat) : Bool :=
  decide (0x008 ≤ n ∧ n ≤ 0x00C) || n == 0x00F || decide (0x010 ≤ n ∧ n ≤ 0x01F) || n == 0x022 || n == 0x028 || n == 0x02B
    || n == 0x02C || decide (0x060 ≤ n ∧ n ≤ 0x06F) || n == 0x070 || n == 0x07B || n == 0x081 || n == 0x083

/-- The reset value of gate word 0 (Table 3-9) and word 1 (Table 3-10) of slot n; a fixed gate reads as R97 says. -/
def gateReset (n : Nat) (word1 : Bool) : Word :=
  let k := slotKind n
  let t := k == .trade
  if word1 then (if t then 0xF0000000 else 0)
  else
    BitVec.ofNat 32 ((b2n (k != .empty) <<< 9) + (b2n t <<< 8) + (1 <<< 4) + (b2n (!t) <<< 3) + (b2n (slotShared n) <<< 2))

/-- One row of the register tables: its slots, its offsets, its reset value, the bits a write sets, the bits a one clears, and
whether each world has its own copy. -/
structure RegRow where
  slot : Nat
  slots : Nat
  off : Nat
  count : Nat
  stride : Nat
  reset : Word
  rw : Word
  w1c : Word
  banked : Bool
deriving DecidableEq, Repr

/-- A row of one register. -/
def reg1 (slot off : Nat) (reset rw w1c : Word) : RegRow := ⟨slot, 1, off, 1, 4, reset, rw, w1c, false⟩
/-- A row of one register in several slots. -/
def regS (slot slots off : Nat) (reset rw w1c : Word) : RegRow := ⟨slot, slots, off, 1, 4, reset, rw, w1c, false⟩
/-- A row of several registers of one slot. -/
def regN (slot off count stride : Nat) (reset rw w1c : Word) : RegRow := ⟨slot, 1, off, count, stride, reset, rw, w1c, false⟩
/-- A world-banked register. -/
def regB (slot off : Nat) (reset rw w1c : Word) : RegRow := ⟨slot, 1, off, 1, 4, reset, rw, w1c, true⟩

/-- Registers of chapters 1 and 3 (Tables 1-3a to 1-3c, 3-3, 3-5 to 3-7, 3-11a, 3-12). -/
def regRowsA : List RegRow :=
  [ reg1 0x022 0x1000 0 0 0xF, reg1 0x022 0x1004 0 0 0, reg1 0x022 0x1008 0 0 0, reg1 0x022 0x100C 0 0 0,
    reg1 0x022 0x1010 0 0 0, regN 0x022 0x1100 32 4 0 0 0, reg1 0x022 0x1800 0 0 0, reg1 0x022 0x1804 0 0 0,
    reg1 0x023 0x1000 0 0 0, reg1 0x023 0x1004 0 0 0xF, reg1 0x023 0x1008 0 0 0, reg1 0x023 0x100C 0 0 0,
    reg1 0x023 0x1010 0 0 0, reg1 0x023 0x1014 0 0 0, reg1 0x023 0x1018 2048 0 0,
    reg1 0x024 0x1000 0 0 0, reg1 0x024 0x1004 0 0 7, reg1 0x024 0x1008 0 0 0, reg1 0x024 0x100C 0 0 0,
    reg1 0x024 0x1010 0 0 0,
    reg1 0x001 0x1000 0 0xFFFFFFFF 0, reg1 0x001 0x1004 0 0xFFFFFFFF 0, reg1 0x001 0x1008 0 0xF 0, reg1 0x001 0x100C 0 0xF 0,
    reg1 0x001 0x1010 0 0 0, reg1 0x001 0x1014 0 0 0, reg1 0x001 0x1018 0 0 0,
    regN 0x001 0x1100 4 8 0 0x800FFFFF 0, regN 0x001 0x1104 4 8 0 0x000FFFFF 0,
    regN 0x001 0x1200 4 8 0 0x8FFFFFFF 0, regN 0x001 0x1204 4 8 0 0x0FFFFFFF 0,
    regN 0x021 0x1000 4 16 0 0xFFFFFFFF 0, regN 0x021 0x1004 4 16 0 0xFFFFFFFF 0, regN 0x021 0x1008 4 16 0 0xFFFFFFFF 0,
    regN 0x021 0x100C 4 16 0 0xC000000F 0, regN 0x021 0x1100 16 16 0 0xFFFFFFFF 0, regN 0x021 0x1104 16 16 0 0xFFFFFFFF 0,
    regN 0x021 0x1108 16 16 0 0x8000FFFF 0, reg1 0x021 0x1200 0 0 0, reg1 0x021 0x1204 0x40 0xFFFFFFFF 0,
    reg1 0x021 0x1208 0 0 0, reg1 0x021 0x120C 0 0 0, reg1 0x021 0x1210 0 0 0, reg1 0x021 0x1214 0 0 0,
    regS 0x040 32 0x1000 0 0x9300FFFF 0, regS 0x040 32 0x1004 0 0xFFFFFFFF 0, regS 0x040 32 0x1008 0 0xFFFFFFFF 0,
    regS 0x040 32 0x100C 0 0x00FFFFFF 0, regS 0x040 32 0x1010 0 0xFFFFFFFF 0, regS 0x040 32 0x1014 0 0 0x40000000,
    regS 0x040 32 0x1018 0 0 0, regS 0x040 32 0x1020 0 0x800FFFFF 0, regS 0x040 32 0x1024 0 0xF00FFFFF 0,
    regS 0x040 32 0x1028 0 0x800FFFFF 0, regS 0x040 32 0x102C 0 0xF00FFFFF 0,
    ⟨2, 4, 0x1000, 8, 16, 0, 0x0FFFFFFF, 0, false⟩, ⟨2, 4, 0x1004, 8, 16, 0, 0x0FFFFFFF, 0, false⟩,
    ⟨2, 4, 0x1008, 8, 16, 0, 0xFFFF0007, 0, false⟩, regS 2 4 0x1100 0 0 0, regS 2 4 0x1104 0 0 0 ]

/-- Registers of chapters 4, 9 and 10 (Tables 4-13, 9-5, 9-7a, 10-1 to 10-3, 10-11, 10-12). -/
def regRowsB : List RegRow :=
  [ regS 0x010 16 0x1000 5 0 0, regS 0x010 16 0x1004 0 3 0, regS 0x010 16 0x1008 0 0 0, regS 0x010 16 0x100C 0 0 0,
    regS 0x010 16 0x1010 0 0 0, regS 0x010 16 0x1014 0 0 0,
    ⟨0x010, 16, 0x1104, 1, 16, 0xFFFF0000, 0xFFFF0000, 0, true⟩, ⟨0x010, 16, 0x110C, 1, 16, 0x8000001C, 0x80000F7C, 0, true⟩,
    ⟨0x010, 16, 0x1100, 8, 16, 0, 0xFFFF0000, 0, true⟩, ⟨0x010, 16, 0x1104, 8, 16, 0, 0xFFFF0000, 0, true⟩,
    ⟨0x010, 16, 0x1108, 8, 16, 0, 0x000FFFFF, 0, true⟩, ⟨0x010, 16, 0x110C, 8, 16, 0, 0x80000F7C, 0, true⟩,
    ⟨0x010, 16, 0x1180, 1, 4, 0, 0x80000000, 0, true⟩, ⟨0x010, 16, 0x1184, 1, 4, 0, 0x01FFFFFF, 0, true⟩,
    ⟨0x010, 16, 0x1188, 1, 4, 0, 0, 0x80000000, true⟩, ⟨0x010, 16, 0x118C, 1, 4, 0, 0, 0, true⟩,
    regB 0x00A 0x1000 0 0 0, regB 0x00A 0x1004 0 0 0, regB 0x00A 0x1008 0 0 0,
    ⟨0x00A, 1, 0x1100, 16, 16, 0, 0, 0, true⟩, ⟨0x00A, 1, 0x1104, 16, 16, 0, 0, 0, true⟩, ⟨0x00A, 1, 0x1108, 16, 16, 0, 0, 0, true⟩,
    regN 0x00C 0x1000 32 16 0 0xC0000000 0, regN 0x00C 0x1004 32 16 0 0xFFFFFFFF 0, regN 0x00C 0x1008 32 16 0 0 0,
    regN 0x00C 0x100C 32 16 0 0 0 ]

/-- Registers of chapters 11 and 12 that hold a value (Tables 11-9, 11-18, 12-6). -/
def regRowsC : List RegRow :=
  [ regB 0x028 0x1008 0 0 0xFFFFFFFF, regB 0x028 0x1020 0 0x800001FF 0, regB 0x028 0x1104 0 0x80000FFF 0,
    regB 0x02C 0x1010 0 0x800001FF 0, regB 0x02C 0x1014 0 0 0 ]

/-- Registers of chapter 13 (Tables 13-2 to 13-7, 13-10b to 13-10d). -/
def regRowsD : List RegRow :=
  [ regS 0x060 16 0x1000 0x20200800 0xF0FF0F07 0, regS 0x060 16 0x1004 0 0 0, regS 0x060 16 0x1008 0 0 0xFF, regS 0x060 16 0x100C 0 0 0xFF,
    regS 0x060 16 0x1010 0 0 0xFE, ⟨0x060, 16, 0x1028, 7, 8, 0, 0xFFFFFFFF, 0, false⟩, ⟨0x060, 16, 0x102C, 7, 8, 0, 0xC000FFFF, 0, false⟩,
    ⟨0x060, 16, 0x1060, 7, 4, 0, 0, 0, false⟩,
    regN 0x070 0x1000 256 64 0 0x9000FFFF 0, regN 0x070 0x1004 256 64 0 0xFFFFFFFF 0, regN 0x070 0x1008 256 64 0 0x1FFF 0,
    regN 0x070 0x100C 256 64 0 0 0, regN 0x070 0x1010 256 64 0 0x800FFFFF 0, regN 0x070 0x1014 256 64 0 0xF00FFFFF 0,
    regN 0x070 0x1018 256 64 0 0 0,
    regN 0x078 0x2000 16 64 0 0x9000FFFF 0, regN 0x078 0x2004 16 64 0 0xFFFFFFFF 0, regN 0x078 0x2008 16 64 0 0x1FFF 0,
    regN 0x078 0x200C 16 64 0 0 0, regN 0x078 0x2010 16 64 0 0x800FFFFF 0, regN 0x078 0x2014 16 64 0 0xF00FFFFF 0,
    regN 0x078 0x2018 16 64 0 0 0,
    reg1 0x078 0x1000 0x80000000 0x80000000 0, reg1 0x078 0x1004 0x12C 0xFFFFFFFF 0, reg1 0x078 0x1008 0 0 0,
    reg1 0x078 0x100C 0xFA50 0xFFFF 0, reg1 0x078 0x1010 1 0xFFF 0, regN 0x078 0x1100 64 4 0 0x87700FFF 0, reg1 0x078 0x1200 0 0 3,
    regS 0x079 2 0x1000 0xC0070001 0xC0070FFF 0, ⟨0x079, 2, 0x1004, 5, 4, 0, 0, 0, false⟩, regS 0x079 2 0x1018 0 0 3,
    reg1 0x07B 0x1004 0 0 0, reg1 0x07B 0x100C 0 0xFFFFFFFF 0, reg1 0x07B 0x1018 0 0xFFFFFFFF 0, reg1 0x07B 0x101C 0 0xFFFFFFFF 0,
    regN 0x07B 0x1100 2 32 0 0 0, regN 0x07B 0x1104 2 32 0 0 0, regN 0x07B 0x1108 2 32 0 0 0x80000000,
    regN 0x07B 0x1110 2 32 0 0 0, regN 0x07B 0x1114 2 32 0 0 0, regN 0x07B 0x1118 2 32 0 0 0x80000000,
    regS 0x07C 2 0x0800 0 3 0, regS 0x07C 2 0x0808 0 2 0, regS 0x07C 2 0x080C 0 0 0x3F,
    ⟨0x07C, 2, 0x1000, 32, 64, 0, 0x9000FFFF, 0, false⟩, ⟨0x07C, 2, 0x1004, 32, 64, 0, 0xFFFFFFFF, 0, false⟩,
    ⟨0x07C, 2, 0x1008, 32, 64, 0, 0x1FFF, 0, false⟩, ⟨0x07C, 2, 0x100C, 32, 64, 0, 0, 0, false⟩,
    ⟨0x07C, 2, 0x1010, 32, 64, 0, 0x800FFFFF, 0, false⟩, ⟨0x07C, 2, 0x1014, 32, 64, 0, 0xF00FFFFF, 0, false⟩,
    ⟨0x07C, 2, 0x1018, 32, 64, 0, 0, 0, false⟩, ⟨0x07C, 2, 0x1020, 32, 64, 0, 0xFFFF7F7F, 0, false⟩ ]

/-- Registers of chapters 14 and 15 (Tables 14-1, 15-2 to 15-9, 15-13, 15-17). -/
def regRowsE : List RegRow :=
  [ reg1 0x030 0x1000 0x80000000 0 0, reg1 0x030 0x1008 0 0 0, reg1 0x030 0x100C 0 0 0, reg1 0x030 0x1100 0 0x1F 0,
    regN 0x030 0x1120 10 4 0 0xFFFFFFFF 0, reg1 0x030 0x1200 0 0xFFFF 0, reg1 0x030 0x1204 0 0 0, reg1 0x030 0x1208 0 0xFFFFFFFF 0,
    reg1 0x030 0x120C 0 0xFFFFFFFF 0, reg1 0x030 0x1210 0 0 1, reg1 0x030 0x1214 0 0 0,
    reg1 0x080 0x1000 0 0 0,
    regS 0x090 16 0x1000 0x40320014 0xE0FFE0FF 0, regS 0x090 16 0x1004 0 0 0, regS 0x090 16 0x1008 0 0 0, regS 0x090 16 0x100C 0 0 0,
    regS 0x090 16 0x1010 0x80 0 0, regS 0x090 16 0x1014 0 0 0, regS 0x090 16 0x101C 0 0 0x1F,
    reg1 0x081 0x1000 0 0 0, reg1 0x081 0x1004 0 0 0, reg1 0x081 0x1008 0xFA0 0xFFFF 0, reg1 0x081 0x100C 0 0 0, reg1 0x081 0x1010 0 0 0,
    reg1 0x081 0x1014 0 0 0, reg1 0x081 0x1018 0 0 0xFF,
    reg1 0x082 0x1000 0 0 0, regN 0x082 0x1100 72 4 0 0xFFFFFFFF 0, regN 0x082 0x1300 4 4 0 0xFFFFFFFF 0, reg1 0x082 0x1310 0x007D0A05 0xFFFFFF 0,
    reg1 0x082 0x1314 0x0205003C 0xFFFFFFFF 0, regN 0x082 0x1320 4 4 0 0xFFFFFFFF 0, reg1 0x082 0x1330 0x64 0xFFFF 0,
    regN 0x082 0x1340 8 4 0 0x1FFFF 0, regN 0x082 0x1400 16 4 0 0xFFFFFFFF 0,
    reg1 0x083 0x1000 0xC000012C 0xE000FFFF 0, reg1 0x083 0x1004 0x00140FA0 0xFFFFFFFF 0, reg1 0x083 0x1008 0x384 0xFFFF 0,
    reg1 0x083 0x100C 0xFA 0xFFFF 0, reg1 0x083 0x1010 0 0 0, reg1 0x083 0x1014 0 0 0, reg1 0x083 0x1020 0x80 0 0, reg1 0x083 0x1024 0 0 0xF,
    reg1 0x00F 0x1000 0 0xFFFFFF 0, reg1 0x00F 0x1004 0 0 0, reg1 0x00F 0x1008 0 0xFF 0, regN 0x00F 0x1120 8 16 0 0xFFFFFFFF 0,
    regN 0x00F 0x1124 8 16 0 0xFFFFFFFF 0, regN 0x00F 0x1128 8 16 0 0xFFFFFFFF 0, reg1 0x00F 0x1200 0 0 0xF ]

/-- Registers of chapters 16 and 17 (Tables 16-2, 16-6a, 16-8, 17-3, 17-8). -/
def regRowsF : List RegRow :=
  [ reg1 0x029 0x1004 0 0 0, reg1 0x029 0x1010 0 0xFFFFFFFF 0, reg1 0x029 0x1014 0 0xFFFFFFFF 0, reg1 0x029 0x1020 0 0xFFFFFFFF 0,
    reg1 0x029 0x1024 0 0xFFFFFFFF 0, reg1 0x029 0x1028 0 1 0,
    reg1 0x02A 0x1000 0 0 0, reg1 0x02A 0x100C 0 0 0, reg1 0x02A 0x1010 0 0 0, reg1 0x02A 0x1014 0 0 7,
    reg1 0x02B 0x1000 1 0 0, regB 0x02B 0x1004 1 7 0, reg1 0x02B 0x1020 0 0x8000FFFF 0, reg1 0x02B 0x1024 1 0x1F 0, reg1 0x02B 0x1028 0 0 0,
    reg1 0x02B 0x1030 0x40 0xFFFF 0, reg1 0x02B 0x1034 0 0 0, reg1 0x02B 0x1038 0 0 0, reg1 0x02B 0x1040 0 0xFFFFFFFF 0,
    reg1 0x02B 0x1044 0 0xFFFFFFFF 0, reg1 0x02B 0x1048 0 1 0,
    regS 0x00D 2 0x1000 0 0xC0000000 0, regS 0x00D 2 0x1004 0x1388 0xFFFFF 0, regS 0x00D 2 0x1008 0 0xFFFFF 0, regS 0x00D 2 0x1010 0x1388 0 0,
    regS 0x00D 2 0x1014 0 0 0,
    reg1 0x00D 0x1110 0 0xFFFFFFFC 0, reg1 0x00D 0x1114 0 0xFFFFFFFC 0, reg1 0x00D 0x1118 0 0 0, reg1 0x00D 0x111C 0 0 0,
    reg1 0x00D 0x1120 0 0xFFFF 0, reg1 0x00D 0x1124 0 0 0 ]

/-- Reset values that differ along one row: the first VLAN row, the USB roles, the sequencer tables (Tables 15-10, 15-13, 15-14), the ledger
policies (Table 15-15), the Trade watchdog. -/
def regSpecial (slot off : Nat) : Option Word :=
  if slot = 0x078 ∧ off = 0x1100 then some 0x87700001
  else if slot = 0x07C ∧ off = 0x0800 then some 2
  else if slot = 0x07D ∧ off = 0x0800 then some 1
  else if slot = 0x00D ∧ off = 0x1000 then some 0x80000000
  else if slot = 0x082 then
    if 0x1100 ≤ off ∧ off < 0x1220 then
      match (off - 0x1100) % 36 with
      | 0 => some 100
      | 4 => some 0x000A0032
      | 8 => some 0x006400C8
      | _ => some 0
    else
      match off with
      | 0x1300 => some 50
      | 0x1304 => some 500
      | 0x1308 => some 5000
      | 0x130C => some 30000
      | 0x1320 => some 0xFFFFFFFF
      | 0x1400 => some 0x01F400EC
      | 0x1404 => some 0x1518
      | 0x1408 => some 0x07D0002D
      | 0x140C => some 0x1518
      | 0x1410 => some 0x03E80041
      | 0x1414 => some 0x13EC
      | 0x1418 => some 0x01F4004B
      | 0x141C => some 0x12C0
      | _ => if 0x1340 ≤ off ∧ off < 0x1360 then some (BitVec.ofNat 32 (3 <<< (2 * ((off - 0x1340) / 4)))) else none
  else if slot = 0x00F then
    match off with
    | 0x1120 => some 0x00003C05
    | 0x1124 => some 0x00320005
    | 0x1128 => some 0x0BB801F4
    | 0x1130 => some 0x00003C05
    | 0x1134 => some 0x00320005
    | 0x1138 => some 0x0BB801F4
    | 0x1140 => some 3
    | 0x1150 => some 0x01518003
    | 0x1170 => some 0x000E1003
    | 0x1180 => some 0x01518003
    | 0x1190 => some 1
    | _ => none
  else none

/-- Whether a row names an offset of a slot. -/
def RegRow.covers (r : RegRow) (slot off : Nat) : Bool :=
  decide (r.slot ≤ slot) && decide (slot < r.slot + r.slots) && decide (r.off ≤ off)
    && ((off - r.off) % r.stride == 0) && decide ((off - r.off) / r.stride < r.count)

/-- All rows. -/
def regRows : List RegRow := regRowsA ++ regRowsB ++ regRowsC ++ regRowsD ++ regRowsE ++ regRowsF

/-- The row of a register, if any row names it. -/
def findReg (slot off : Nat) : Option RegRow := regRows.find? (fun r => r.covers slot off)

/-- The reset value of world w's copy of a register, the gates and the source configuration included. -/
def regReset (w : World) (slot off : Nat) : Word :=
  if w = .opn ∧ slot = 0x028 ∧ off = 0x1020 then 0x80000035
  else if w = .opn ∧ slot = 0x02C ∧ off = 0x1010 then 0x80000039
  else if slot = 0 ∧ 0x1000 ≤ off then gateReset ((off - 0x1000) / 8) ((off - 0x1000) / 4 % 2 == 1)
  else if slot = 0x008 ∧ 0x1000 ≤ off then scfgReset ((off - 0x1000) / 4)
  else
    match regSpecial slot off with
    | some v => v
    | none =>
      match findReg slot off with
      | some r => r.reset
      | none => 0

/-- The key of a register in the register file. -/
def regKey (w : World) (slot off : Nat) : Nat := (w.idx * 0x1000 + slot) * 0x10000 + off

/-- The copy of a register that world w reaches: its own where the register is world-banked, else the one copy. -/
def regBank (slot off : Nat) (w : World) : World :=
  match findReg slot off with
  | some r => if r.banked then w else .trade
  | none => .trade

/-- The reset value of the register a key names. -/
def keyReset (k : Nat) : Word := regReset (if k / 0x10000000 % 2 = 0 then .trade else .opn) (k / 0x10000 % 0x1000) (k % 0x10000)

/-- The value of world w's copy of a register (of the one copy, for a register that is not world-banked, with w = trade). -/
def State.regW (s : State) (w : World) (slot off : Nat) : Word :=
  Sparse.get (keyReset (regKey w slot off)) (regKey w slot off) s.regs

/-- The value of a register that is not world-banked. -/
def State.reg (s : State) (slot off : Nat) : Word := s.regW .trade slot off

/-- The state with world w's copy of a register set. -/
def State.setRegW (s : State) (w : World) (slot off : Nat) (v : Word) : State :=
  { s with regs := Sparse.write (keyReset (regKey w slot off)) (regKey w slot off) v s.regs }

/-- The state with a register that is not world-banked set. -/
def State.setReg (s : State) (slot off : Nat) (v : Word) : State := s.setRegW .trade slot off v

/-- A register changed by a function of its value. -/
def State.modReg (s : State) (slot off : Nat) (f : Word → Word) : State := s.setReg slot off (f (s.reg slot off))

/-- What a write of v leaves in a register that holds old, by its row's access codes (R8). -/
def RegRow.written (r : RegRow) (old v : Word) : Word :=
  ((old &&& ~~~ r.rw) ||| (v &&& r.rw)) &&& ~~~ (v &&& r.w1c)

/-- A write by the access codes alone (R8); a register no row names is unchanged. -/
def State.plainWrite (s : State) (w : World) (slot off : Nat) (v : Word) : State :=
  match findReg slot off with
  | none => s
  | some r =>
    let b := if r.banked then w else .trade
    s.setRegW b slot off (r.written (s.regW b slot off) v)

/-- A read by the access codes alone: the register's value; what an unlisted offset reads as is open (DESIGN CHOICE, log 8). -/
def State.plainRead (s : State) (w : World) (slot off : Nat) : Word :=
  match findReg slot off with
  | none => Config.unlisted slot off
  | some r => s.regW (if r.banked then w else .trade) slot off

end Sys2Proof.Machine
end

