-- ==== Sys2Proof/Machine/Irq.lean ====
section
/-!
DEFINITION. Machine/Irq.lean: the interrupt controller (chapter 9): sources, lines, pending, enable and overrun state, world
rules, deliverable sources, timers.
-/
namespace Sys2Proof.Machine

/-- BUS_ERR, the cause code of an error response (Table 8-15). -/
def busErr : Code := 0x74

/-- SCFGs. -/
def State.scfg (s : State) (i : Nat) : Word := s.reg 0x008 (0x1000 + 4 * i)
/-- The world of a source. -/
def State.irqWorld (s : State) (i : Nat) : World := World.ofBit (bit (s.scfg i) 18)
/-- SENSE of a source. -/
def State.irqSense (s : State) (i : Nat) : Nat := fld (s.scfg i) 17 16
/-- LEVEL of a source. -/
def State.irqLevel (s : State) (i : Nat) : Nat := fld (s.scfg i) 11 8
/-- The target tile of a source. -/
def State.irqTile (s : State) (i : Nat) : TileId := BitVec.ofNat 4 (fld (s.scfg i) 3 0)
/-- Whether a source is a software source. -/
def irqSoft (i : Nat) : Bool := match irqInfo i with | some x => x.soft | none => false
/-- Whether a source exists (SINFO PRESENT). -/
def irqPresent (i : Nat) : Bool := (irqInfo i).isSome
/-- Whether WORLD of a source is fixed. -/
def irqFixed (i : Nat) : Bool := match irqInfo i with | some x => x.fixed | none => false

/-- Whether a source is pending (R284, R285): a level source while its line is high or its latch set; a software source
by its latch; an edge source by its pending bit. -/
def State.irqPending (s : State) (i : Nat) : Bool :=
  s.irq.pend.getLsbD i || (s.irqSense i == 0 && !irqSoft i && s.irq.line.getLsbD i)

/-- A 512-bit vector with one bit set to v. -/
def setIrqBit (w : BitVec 512) (i : Nat) (v : Bool) : BitVec 512 :=
  let m : BitVec 512 := BitVec.ofNat 512 (1 <<< i)
  if v then w ||| m else w &&& ~~~ m

/-- An edge of the selected kind at source i (R284): pending becomes 1, or overrun where it is 1 already. -/
def State.irqEdge (s : State) (i : Nat) : State :=
  if s.irq.pend.getLsbD i then { s with irq := { s.irq with ovr := setIrqBit s.irq.ovr i true } }
  else { s with irq := { s.irq with pend := setIrqBit s.irq.pend i true } }

/-- A block raises a source that Table 9-6 marks edge: one controller cycle high (R284). -/
def State.raise (s : State) (i : Nat) : State :=
  match s.irqSense i with
  | 0 => s
  | 3 => (s.irqEdge i).irqEdge i
  | _ => s.irqEdge i

/-- The input line of source i takes level b (R284). -/
def State.setLine (s : State) (i : Nat) (b : Bool) : State :=
  let old := s.irq.line.getLsbD i
  let s1 : State := { s with irq := { s.irq with line := setIrqBit s.irq.line i b } }
  if old = b then s
  else if (b && (s.irqSense i == 1 || s.irqSense i == 3)) || (!b && (s.irqSense i == 2 || s.irqSense i == 3)) then s1.irqEdge i
  else s1

/-- The sources of a world, as a 512-bit mask. -/
def irqMaskFrom (s : State) (w : World) : Nat → BitVec 512
  | 0 => 0
  | n + 1 => setIrqBit (irqMaskFrom s w n) n (s.irqWorld n == w)

/-- The 32 sources of word k that belong to world w, as a word (R282). -/
def State.ownMask (s : State) (w : World) (k : Nat) : Word :=
  (List.range 32).foldl (fun m j => setBit m j (s.irqWorld (32 * k + j) == w)) 0

/-- Word k of a 512-bit vector. -/
def irqWord (v : BitVec 512) (k : Nat) : Word := (v >>> (32 * k)).setWidth 32
/-- A word placed as word k of a 512-bit vector. -/
def irqPlace (v : Word) (k : Nat) : BitVec 512 := (v.setWidth 512) <<< (32 * k)

/-- The pending bits of word k. -/
def State.pendWord (s : State) (k : Nat) : Word :=
  (List.range 32).foldl (fun m j => setBit m j (s.irqPending (32 * k + j))) 0

/-- The sources of word k that exist. -/
def presentWord (k : Nat) : Word := (List.range 32).foldl (fun m j => setBit m j (irqPresent (32 * k + j))) 0

/-- IPSETk: ones set pending bits or latches of the writer's own, existing sources (R286, R304). -/
def State.ipset (s : State) (w : World) (k : Nat) (v : Word) : State :=
  { s with irq := { s.irq with pend := s.irq.pend ||| irqPlace (v &&& s.ownMask w k &&& presentWord k) k } }
/-- IPCLRk. -/
def State.ipclr (s : State) (w : World) (k : Nat) (v : Word) : State :=
  { s with irq := { s.irq with pend := s.irq.pend &&& ~~~ irqPlace (v &&& s.ownMask w k) k } }
/-- IESETk. -/
def State.ieset (s : State) (w : World) (k : Nat) (v : Word) : State :=
  { s with irq := { s.irq with en := s.irq.en ||| irqPlace (v &&& s.ownMask w k) k } }
/-- IECLRk. -/
def State.ieclr (s : State) (w : World) (k : Nat) (v : Word) : State :=
  { s with irq := { s.irq with en := s.irq.en &&& ~~~ irqPlace (v &&& s.ownMask w k) k } }
/-- IOVRk. -/
def State.iovr (s : State) (w : World) (k : Nat) (v : Word) : State :=
  { s with irq := { s.irq with ovr := s.irq.ovr &&& ~~~ irqPlace (v &&& s.ownMask w k) k } }

/-- SCFG fields that a write sets (Table 9-1): WAKE, WORLD, SENSE, LEVEL, TILE. -/
def scfgBits : Word := 0x000F0F0F

/-- A write to SCFGi (R282, R283). -/
def State.scfgWrite (s : State) (q : Req) (i : Nat) (v : Word) : State × BusRes :=
  let cur := s.scfg i
  let curW := s.irqWorld i
  let newW := World.ofBit (bit v 18)
  if !irqPresent i then (s, .err busErr)
  else if curW != q.world then
    -- another world's source: a claim by a Trade supervisor, or a write that is ignored
    if q.world == .trade && q.sup && newW == .trade then
      if irqFixed i then (s, .err busErr) else (apply s i cur v, .ok 0)
    else (s, .ok 0)
  else if newW != curW then
    if irqFixed i then (s, .err busErr)
    else if q.world == .trade && q.sup then (apply s i cur v, .ok 0)
    else (s, .err busErr)
  else (apply s i cur v, .ok 0)
where
  apply (s : State) (i : Nat) (cur v : Word) : State :=
    let nv := v &&& scfgBits
    let s1 := s.setReg 0x008 (0x1000 + 4 * i) nv
    let wch := bit cur 18 != bit nv 18
    let sch := fld cur 17 16 != fld nv 17 16
    let irq := s1.irq
    { s1 with irq := { irq with
        pend := if wch || sch then setIrqBit irq.pend i false else irq.pend
        en := if wch then setIrqBit irq.en i false else irq.en
        ovr := if wch || sch then setIrqBit irq.ovr i false else irq.ovr } }

/-- IHOLD of a world. -/
def State.ihold (s : State) (w : World) : Word := s.regW w 0x00A 0x1000
/-- IHOLDSET: ones set hold bits 0–15 (R303). -/
def State.iholdSet (s : State) (w : World) (v : Word) : State :=
  s.setRegW w 0x00A 0x1000 (s.ihold w ||| (v &&& 0xFFFF))
/-- IHOLDCLR. -/
def State.iholdClr (s : State) (w : World) (v : Word) : State :=
  s.setRegW w 0x00A 0x1000 (s.ihold w &&& ~~~ (v &&& 0xFFFF))

/-- Whether source i is pending, enabled, of world w and aimed at tile t (R290, before hold and mask). -/
def State.aimed (s : State) (t : TileId) (w : World) (i : Nat) : Bool :=
  s.irq.en.getLsbD i && s.irqPending i && (s.irqTile i == t) && (s.irqWorld i == w)

/-- Of two candidates the one with priority: the higher level, then the lower number (R292). -/
def better (s : State) (a : Option Nat) (i : Nat) : Option Nat :=
  match a with
  | none => some i
  | some j => if s.irqLevel j < s.irqLevel i then some i else some j

/-- The source of highest priority among those a test accepts. -/
def State.best (s : State) (p : Nat → Bool) : Option Nat :=
  (List.range 512).foldl (fun a i => if p i then better s a i else a) none

/-- The deliverable source of highest priority for tile t and world w under a mask test on levels (R290, R292). -/
def State.deliverable (s : State) (t : TileId) (w : World) (passes : Nat → Bool) : Option Nat :=
  if (s.ihold w).getLsbD t.toNat then none
  else s.best (fun i => s.aimed t w i && passes (s.irqLevel i))

/-- TOPn (Table 9-5): the highest-priority pending, enabled source aimed at tile n, mask and hold ignored. -/
def State.top (s : State) (w : World) (n : Nat) : Word :=
  match s.best (fun i => s.aimed (BitVec.ofNat 4 n) w i) with
  | none => 0
  | some i => BitVec.ofNat 32 ((1 <<< 31) + (s.irqLevel i <<< 12) + i)

/-- Reads of slots 0x008 to 0x00B (Tables 9-1 to 9-5) by world w. -/
def State.irqRead (s : State) (w : World) (slot off : Nat) : Word :=
  if off < 0x1000 then Config.unlisted slot off
  else if slot = 0x008 ∧ off < 0x1800 then
    let i := (off - 0x1000) / 4
    if s.irqWorld i == w then s.scfg i else 0
  else if slot = 0x00B ∧ off < 0x1800 then sinfo ((off - 0x1000) / 4)
  else if slot = 0x009 ∧ off < 0x1600 then
    let k := off / 4 % 64
    if k < 16 then
      let own := s.ownMask w k
      match (off - 0x1000) / 0x100 with
      | 0 => s.pendWord k &&& own
      | 1 => s.pendWord k &&& own
      | 2 => irqWord s.irq.en k &&& own
      | 3 => irqWord s.irq.en k &&& own
      | 4 => irqWord s.irq.ovr k &&& own
      | _ => irqWord s.irq.line k &&& own
    else Config.unlisted slot off
  else if slot = 0x00A then
    if off = 0x1000 ∨ off = 0x1004 ∨ off = 0x1008 then s.ihold w
    else if 0x1100 ≤ off ∧ off < 0x1200 ∧ off % 16 = 0 then s.top w ((off - 0x1100) / 16)
    else s.plainRead w slot off
  else Config.unlisted slot off

/-- Writes to slots 0x008 to 0x00B. -/
def State.irqWrite (s : State) (q : Req) (slot off : Nat) (v : Word) : State × BusRes :=
  if off < 0x1000 then (s, .ok 0)
  else if slot = 0x008 ∧ off < 0x1800 then s.scfgWrite q ((off - 0x1000) / 4) v
  else if slot = 0x009 ∧ off < 0x1600 then
    let k := off / 4 % 64
    if k < 16 then
      match (off - 0x1000) / 0x100 with
      | 0 => (s.ipset q.world k v, .ok 0)
      | 1 => (s.ipclr q.world k v, .ok 0)
      | 2 => (s.ieset q.world k v, .ok 0)
      | 3 => (s.ieclr q.world k v, .ok 0)
      | 4 => (s.iovr q.world k v, .ok 0)
      | _ => (s, .ok 0)
    else (s, .ok 0)
  else if slot = 0x00A ∧ off = 0x1004 then (s.iholdSet q.world v, .ok 0)
  else if slot = 0x00A ∧ off = 0x1008 then (s.iholdClr q.world v, .ok 0)
  else (s, .ok 0)

/-- The offset of timer k's registers. -/
def timOff (k : Nat) : Nat := 0x1000 + 16 * k

/-- Whether a requester reaches timer k: no other world's timer while it is enabled (R305). -/
def State.timerOwn (s : State) (w : World) (k : Nat) : Bool :=
  let c := s.reg 0x00C (timOff k)
  !bit c 31 || (World.ofBit (bit c 29) == w)

/-- A write to TCTL of timer k (R305). -/
def State.tctlWrite (s : State) (q : Req) (k : Nat) (v : Word) : State × BusRes :=
  let off := timOff k
  let c := s.reg 0x00C off
  if !s.timerOwn q.world k then (s, .ok 0)
  else if bit v 31 then
    if s.reg 0x00C (off + 4) = 0 then (s, .err busErr)
    else
      let w := if bit c 31 then bit c 29 else q.world.bit
      let nv := setBit (v &&& 0xC0000000) 29 w
      ((s.setReg 0x00C off nv).setReg 0x00C (off + 8) (s.reg 0x00C (off + 4)), .ok 0)
  else (s.setReg 0x00C off (setBit (v &&& 0x40000000) 29 (bit c 29)), .ok 0)

/-- A write to TLOAD of timer k (R305). -/
def State.tloadWrite (s : State) (q : Req) (k : Nat) (v : Word) : State × BusRes :=
  if !s.timerOwn q.world k then (s, .ok 0)
  else if v = 0 then (s, .err busErr)
  else (s.setReg 0x00C (timOff k + 4) v, .ok 0)

/-- A read of timer k: zero for the other world while it is enabled (R305). -/
def State.timerRead (s : State) (w : World) (off : Nat) : Word :=
  if 0x1000 ≤ off ∧ off < 0x1200 then
    if s.timerOwn w ((off - 0x1000) / 16) then s.plainRead w 0x00C off else 0
  else Config.unlisted 0x00C off

/-- A write to slot 0x00C. -/
def State.timerWrite (s : State) (q : Req) (off : Nat) (v : Word) : State × BusRes :=
  if 0x1000 ≤ off ∧ off < 0x1200 then
    let k := (off - 0x1000) / 16
    match off % 16 with
    | 0 => s.tctlWrite q k v
    | 4 => s.tloadWrite q k v
    | _ => (s, .ok 0)
  else (s, .ok 0)

/-- Timer k's count reaches zero (R305): its source rises; PER reloads, else EN clears. -/
def State.timerExpire (s : State) (k : Nat) : State :=
  let off := timOff k
  let c := s.reg 0x00C off
  if bit c 31 && s.reg 0x00C (off + 8) == 0 then
    let s1 := s.raise k
    if bit c 30 then s1.setReg 0x00C (off + 8) (s.reg 0x00C (off + 4)) else s1.setReg 0x00C off (setBit c 31 false)
  else s

/-- One microsecond of timer k: an enabled count above zero falls by one. -/
def State.timerTick (s : State) (k : Nat) : State :=
  let off := timOff k
  let n := s.reg 0x00C (off + 8)
  if bit (s.reg 0x00C off) 31 && n != 0 then s.setReg 0x00C (off + 8) (n - 1) else s

end Sys2Proof.Machine
end

