-- ==== Sys2Proof/Machine/Memory.lean ====
section
/-!
DEFINITION. Machine/Memory.lean: the physical address map (R22), bytes, tags, colours and check units of memory (R38, R56–R61,
R74, R566), and the event registers of the memory controllers (R19–R21).
-/
namespace Sys2Proof.Machine

/-- What a physical address names (Table 1-4); emberPrivate is the part of ember SRAM that refuses every mesh access (R346,
Table 16-1). -/
inductive Place where
  | rom
  | sram
  | ctxStore
  | ember
  | emberPrivate
  | emram
  | periph (slot off : Nat)
  | dram
  | reserved
deriving DecidableEq, Repr

/-- The first DRAM address. -/
def dramBase : Nat := 0x100000000
/-- The usable DRAM in bytes: fifteen sixteenths of what DRSIZE says is fitted (R2, R18). -/
def State.dramUsable (s : State) : Nat := fld (s.reg 0x023 0x1018) 15 0 * 0x100000 / 16 * 15

/-- Table 1-4. -/
def State.place (s : State) (pa : Nat) : Place :=
  if pa < 0x10000 then .rom
  else if 0x1000000 ≤ pa ∧ pa < 0x1800000 then .sram
  else if 0x4000000 ≤ pa ∧ pa < 0x4180000 then .ctxStore
  else if 0x6000000 ≤ pa ∧ pa < 0x6030000 then .emberPrivate
  else if 0x6038000 ≤ pa ∧ pa < 0x603A000 then .emberPrivate
  else if 0x6000000 ≤ pa ∧ pa < 0x6040000 then .ember
  else if 0x8000000 ≤ pa ∧ pa < 0x8400000 then .emram
  else if 0x10000000 ≤ pa ∧ pa < 0x20000000 then .periph ((pa - 0x10000000) / 0x10000) (pa % 0x10000)
  else if dramBase ≤ pa ∧ pa < dramBase + s.dramUsable then .dram
  else .reserved

/-- Whether a place keeps tags (R59; the context store is not reached by ordinary accesses). -/
def Place.tagged : Place → Bool
  | .sram | .dram => true
  | _ => false
/-- The tagless targets (R61). -/
def Place.tagless : Place → Bool
  | .rom | .ember | .emram | .periph _ _ => true
  | _ => false

/-- The byte at a physical address; the ROM's bytes are open, and a byte nothing has written reads as 0 (DESIGN CHOICE, log 5). -/
def Mem.byte (m : Mem) (pa : Nat) : Byte :=
  if pa < 0x10000 then Config.romByte pa else Sparse.get 0 pa m.bytes

/-- Memory with one byte written. -/
def Mem.setByte (m : Mem) (pa : Nat) (b : Byte) : Mem := { m with bytes := Sparse.write 0 pa b m.bytes }

/-- n bytes from a physical address. -/
def Mem.read (m : Mem) (pa n : Nat) : List Byte := (List.range n).map (fun i => m.byte (pa + i))

/-- The little-endian value of n bytes. -/
def Mem.val (m : Mem) (pa n : Nat) : Nat := ofBytes (m.read pa n)

/-- The tag of the aligned doubleword at a physical address (R38). -/
def Mem.tagAt (m : Mem) (pa : Nat) : Bool := Sparse.get false (pa / 8 * 8) m.tags

/-- Memory with the tag of the aligned doubleword at pa set. -/
def Mem.setTag (m : Mem) (pa : Nat) (b : Bool) : Mem := { m with tags := Sparse.write false (pa / 8 * 8) b m.tags }

/-- Bytes written one after another from a physical address, tags untouched. -/
def Mem.putBytes (m : Mem) (pa : Nat) : List Byte → Mem
  | [] => m
  | b :: r => (m.setByte pa b).putBytes (pa + 1) r

/-- The tags of every aligned doubleword that n bytes from pa touch, cleared (R56). -/
def Mem.clearTags (m : Mem) (pa n : Nat) : Mem :=
  { m with tags := m.tags.filter (fun p => !(decide (pa / 8 * 8 ≤ p.1) && decide (p.1 < pa + n))) }

/-- The check unit of a place: its size in bytes (Table 2-7a). -/
def Place.unit : Place → Nat
  | .dram | .emram => 64
  | _ => 8

/-- Whether any check unit under n bytes from pa holds an uncorrectable error. -/
def State.isDamaged (s : State) (pa n : Nat) : Bool :=
  let u := (s.place pa).unit
  (List.range ((n + u - 1) / u + 1)).any (fun i =>
    decide (pa / u * u + i * u < pa + n) && Sparse.get false (pa / u * u + i * u) s.mem.damaged)

/-- The capability at an aligned doubleword: its tag only where the place keeps tags, and never from a damaged unit (R60). -/
def State.capAt (s : State) (pa : Nat) : Cap :=
  { bits := BitVec.ofNat 64 (s.mem.val pa 8),
    tag := (s.place pa).tagged && s.mem.tagAt pa && !s.isDamaged pa 8 }

/-- The check units under n bytes from pa: their addresses. -/
def State.units (s : State) (pa n : Nat) : List Nat :=
  let u := (s.place pa).unit
  ((List.range ((n + u - 1) / u + 1)).map (fun i => pa / u * u + i * u)).filter (fun a => decide (a < pa + n))

/-- Write the bytes of one check unit (R566): a whole unit is written afresh; a part is merged, unless the unit holds an
uncorrectable error, when the bytes are discarded. bs are the bytes from pa. -/
def State.writeUnit (s : State) (u : Nat) (pa : Nat) (bs : List Byte) (a : Nat) : State :=
  let lo := max pa a
  let hi := min (pa + bs.length) (a + u)
  let part := (bs.drop (lo - pa)).take (hi - lo)
  if lo = a ∧ hi = a + u then
    { s with mem := { (s.mem.putBytes lo part).clearTags lo (hi - lo) with damaged := Sparse.erase a s.mem.damaged } }
  else if Sparse.get false a s.mem.damaged then s
  else { s with mem := (s.mem.putBytes lo part).clearTags lo (hi - lo) }

/-- An ordinary write of bytes: unit by unit, clearing the tags of every doubleword touched (R56, R566). -/
def State.memWrite (s : State) (pa : Nat) (bs : List Byte) : State :=
  (s.units pa bs.length).foldl (fun s a => s.writeUnit (s.place pa).unit pa bs a) s

/-- Whether a write of n bytes from pa meets an uncorrectable error in a merging read (R566). -/
def State.mergeFails (s : State) (pa n : Nat) : Bool :=
  (s.units pa n).any (fun a =>
    Sparse.get false a s.mem.damaged && !(decide (pa ≤ a) && decide (a + (s.place pa).unit ≤ pa + n)))

/-- A capability store: the doubleword and its tag in one step (R57); a tagless place keeps no tag. -/
def State.capStore (s : State) (pa : Nat) (c : Cap) : State :=
  let s1 := s.memWrite pa (toBytes 8 c.bits.toNat)
  if c.tag && (s.place pa).tagged && !s.mergeFails pa 8 then { s1 with mem := s1.mem.setTag pa true } else s1

/-- The granule of a coloured memory: its base address, if pa lies in one (Table 3-1). -/
def State.granule (s : State) (pa : Nat) : Option Nat :=
  match s.place pa with
  | .sram => some (pa / 256 * 256)
  | .emram => some (pa / 4096 * 4096)
  | .ember => some (pa / 4096 * 4096)
  | .emberPrivate => some (pa / 4096 * 4096)
  | _ => none

/-- The colour an unlisted granule carries: 0 in shared SRAM; 15 in eMRAM; in ember SRAM the colours that R346 and R488 give
its mailbox and scratch granules at reset, and 15 elsewhere (DEDUCED, log 9). -/
def granuleReset (g : Nat) : Colour :=
  if g < 0x6000000 then 0
  else if 0x6034000 ≤ g ∧ g < 0x6038000 then 14
  else if 0x603C000 ≤ g ∧ g < 0x6040000 then 14
  else 15

/-- The canonical form of memory: every sparse map of it is canonical. -/
def Mem.wf (m : Mem) : Bool :=
  Sparse.wf (fun _ => (0 : Byte)) m.bytes && Sparse.wf (fun _ => false) m.tags && Sparse.wf granuleReset m.colours
    && Sparse.wf (fun _ => false) m.damaged && Sparse.wf (fun _ => (0 : Nat)) m.rows

/-- The colour of the granule at a physical address. -/
def Mem.colourOf (m : Mem) (g : Nat) : Colour := Sparse.get (granuleReset g) g m.colours

/-- The colour that the target gives for a physical address: a granule's colour, 15 for the ROM; none for DRAM (its colour
comes from the translation), peripheral slots and places without a colour (R80, R320). -/
def State.targetColour (s : State) (pa : Nat) : Option Colour :=
  match s.place pa with
  | .rom => some 15
  | _ => (s.granule pa).map s.mem.colourOf

/-- Whether colour c passes the check of R79 for a world, level and mask. -/
def colourPasses (w : World) (sup : Bool) (cmr : BitVec 16) (c : Colour) : Bool :=
  if c = 0 then (w == .trade) && sup && cmr.getLsbD 0
  else cmr.getLsbD c.toNat

/-- The fault of a failed colour check (R79). -/
def colourFault (c : Colour) : Code := if c = 0 then 0x21 else 0x20

/-- Whether a physical address lies in an enabled Trade DRAM range (R82, Table 3-3). -/
def State.inTdr (s : State) (pa : Nat) : Bool :=
  (List.range 4).any (fun k =>
    let b := s.reg 0x001 (0x1100 + 8 * k)
    let l := s.reg 0x001 (0x1104 + 8 * k)
    bit b 31 && decide (fld b 19 0 ≤ pa / 0x10000) && decide (pa / 0x10000 ≤ fld l 19 0))

/-- Whether a physical address lies in an enabled Open pool range (Table 3-3). -/
def State.inOpr (s : State) (pa : Nat) : Bool :=
  (List.range 4).any (fun k =>
    let b := s.reg 0x001 (0x1200 + 8 * k)
    let l := s.reg 0x001 (0x1204 + 8 * k)
    bit b 31 && decide (fld b 27 0 ≤ pa / 256) && decide (pa / 256 ≤ fld l 27 0))

/-- Bits [35:4] of a physical address, as the event registers report them. -/
def paWord (pa : Nat) : Word := BitVec.ofNat 32 (pa / 16)

/-- Bits set in an event register and its level source driven (R19–R21). -/
def State.event (s : State) (slot off irq : Nat) (bits : Word) : State :=
  (s.modReg slot off (· ||| bits)).setLine irq true

/-- A write-one-to-clear of an event register: its level source stays high while any bit is 1. -/
def State.eventClear (s : State) (slot off irq : Nat) (v : Word) : State :=
  let s1 := s.plainWrite .trade slot off v
  s1.setLine irq (s1.reg slot off != 0)

/-- The shared SRAM bank of an address (R15). -/
def sramBank (pa : Nat) : Nat := pa / 64 % 32

/-- An SRAM, DRAM or eMRAM error recorded in its controller's registers (R19–R21): the address, the counters and the event.
Ember SRAM has no event register. -/
def State.recordMemError (s : State) (pa : Nat) (ue : Bool) : State :=
  match s.place pa with
  | .sram =>
    let b := sramBank pa
    let s1 := (s.setReg 0x022 0x1004 (paWord pa)).setReg 0x022 0x1008
      (BitVec.ofNat 32 ((b2n ue <<< 31) + (b <<< 16)) ||| (Config.freeWord s.free &&& 0xFF))
    let s2 : State := { s1 with free := s1.free + 1 }
    let s3 := if ue then s2 else s2.modReg 0x022 (0x1100 + 4 * b) satInc
    s3.event 0x022 0x1000 50 (if ue then 2 else 1)
  | .dram =>
    let s1 := s.setReg 0x023 0x1008 (paWord pa)
    let s2 := if ue then s1.modReg 0x023 0x1010 (· + 1) else s1.modReg 0x023 0x100C (· + 1)
    s2.event 0x023 0x1004 51 (if ue then 2 else 1)
  | .emram => if ue then (s.setReg 0x024 0x1008 (paWord pa)).event 0x024 0x1004 52 2 else s
  | _ => s

/-- An upset reported to the fault ledger (R479). -/
def State.report (s : State) (u : Upset) : State := { s with upsets := s.upsets ++ [.upset u] }

/-- A memory error at a physical address: recorded in the controller's registers and reported to the ledger (R19–R21, R60):
class 5 for a shared SRAM bank, 8 for a DRAM page, 9 for an eMRAM sector. -/
def State.memError (s : State) (pa : Nat) (ue : Bool) : State :=
  let s1 := s.recordMemError pa ue
  match s.place pa with
  | .sram => s1.report { cls := 5, num := sramBank pa, kind := none, pa := pa / 8 * 8, hard := ue }
  | .dram => s1.report { cls := 8, num := 0, kind := none, pa := pa / 8 * 8, hard := ue }
  | .emram => if ue then s1.report { cls := 9, num := 0, kind := none, pa := pa / 4096 * 4096, hard := true } else s1
  | _ => s1

end Sys2Proof.Machine
end

