-- ==== Sys2Proof/Machine/CacheOps.lean ====
section
/-!
DEFINITION. Machine/CacheOps.lean: tiles as parts of the state, and their caches: lookup, fill, replacement and coherence
(R143–R145, R147).
-/
namespace Sys2Proof.Machine

/-- A value of a vector, or a default outside it. -/
def vget {α : Type} {n : Nat} (v : Vector α n) (i : Nat) (d : α) : α := v.getD i d
/-- A vector with one value set; unchanged outside it. -/
def vset {α : Type} {n : Nat} (v : Vector α n) (i : Nat) (x : α) : Vector α n := v.setIfInBounds i x

/-- Tile t. -/
def State.tile (s : State) (t : TileId) : Tile := vget s.tiles t.toNat Tile.reset
/-- The state with tile t replaced. -/
def State.setTile (s : State) (t : TileId) (x : Tile) : State := { s with tiles := vset s.tiles t.toNat x }
/-- Tile t changed by a function. -/
def State.modTile (s : State) (t : TileId) (f : Tile → Tile) : State := s.setTile t (f (s.tile t))
/-- Every tile changed by a function. -/
def State.mapTiles (s : State) (f : Tile → Tile) : State := { s with tiles := s.tiles.map f }
/-- The sixteen tile numbers. -/
def allTiles : List TileId := (List.range 16).map (BitVec.ofNat 4)

/-- A tile with its flow changed. -/
def Tile.modFlow (x : Tile) (f : Flow → Flow) : Tile := { x with flow := f x.flow }
/-- A tile with its caches changed. -/
def Tile.modCaches (x : Tile) (f : Caches → Caches) : Tile := { x with caches := f x.caches }
/-- A tile with its device-side state changed. -/
def Tile.modSys (x : Tile) (f : TileSys → TileSys) : Tile := { x with sys := f x.sys }

/-- The 64-byte line of an address. -/
def lineOf (pa : Nat) : Nat := pa / 64 * 64
/-- The set of a line (R143). -/
def setOf (pa : Nat) : Nat := pa / 64 % 128

/-- The key (4·set + way) at which a cache holds the line of pa for world w. -/
def cacheFind (l : List (Nat × CLine)) (w : World) (pa : Nat) : Option Nat :=
  ((List.range 4).map (4 * setOf pa + ·)).find? (fun k =>
    match Sparse.find? k l with
    | some x => x.pa == lineOf pa && x.world == w
    | none => false)

/-- The replacement bits of a set after way w is used: they point away from it (R143). Bit 0 is B0, bit 1 B1, bit 2 B2. -/
def plruUse (b : BitVec 3) (way : Nat) : BitVec 3 :=
  match way with
  | 0 => setBit (setBit b 0 true) 1 true
  | 1 => setBit (setBit b 0 true) 1 false
  | 2 => setBit (setBit b 0 false) 2 true
  | _ => setBit (setBit b 0 false) 2 false

/-- The way that the replacement bits choose (R143). -/
def plruVictim (b : BitVec 3) : Nat :=
  if !bit b 0 then (if bit b 1 then 1 else 0) else (if bit b 2 then 3 else 2)

/-- The replacement bits of a cache after a hit or a fill at a key. -/
def plruTouch (p : List (Nat × BitVec 3)) (k : Nat) : List (Nat × BitVec 3) :=
  Sparse.write 0#3 (k / 4) (plruUse (Sparse.get 0#3 (k / 4) p) (k % 4)) p

/-- The key a fill of pa takes: the lowest-numbered invalid way, else the way the bits choose (R143). -/
def fillKey (l : List (Nat × CLine)) (p : List (Nat × BitVec 3)) (pa : Nat) : Nat :=
  match ((List.range 4).map (4 * setOf pa + ·)).find? (fun k => (Sparse.find? k l).isNone) with
  | some k => k
  | none => 4 * setOf pa + plruVictim (Sparse.get 0#3 (setOf pa) p)

/-- Whether any cache of any tile holds a copy of the line, other than world w's data-cache copy on tile t (R145). -/
def State.otherCopy (s : State) (t : TileId) (w : World) (pa : Nat) : Bool :=
  allTiles.any (fun u =>
    (s.tile u).caches.ic.any (fun p => p.2.pa == lineOf pa)
    || (s.tile u).caches.dc.any (fun p => p.2.pa == lineOf pa && !(u == t && p.2.world == w)))

/-- A cache without the lines a test names. -/
def dropLines (l : List (Nat × CLine)) (f : CLine → Bool) : List (Nat × CLine) := l.filter (fun p => !f p.2)

/-- Write-backs of the dirty lines that a test names: their addresses. -/
def dirtyAddrs (l : List (Nat × CLine)) (f : CLine → Bool) : List Nat :=
  (l.filter (fun p => f p.2 && p.2.st == .modified)).map (·.2.pa)

/-- A tile's caches without the lines a test names; dirty ones are written back. -/
def Caches.invalidate (c : Caches) (f : CLine → Bool) : Caches :=
  { c with ic := dropLines c.ic f, dc := dropLines c.dc f, wbacks := c.wbacks ++ dirtyAddrs c.dc f }

/-- Every cached copy of the line but world w's data-cache copy on tile t is invalidated before a write is performed
(R145). -/
def State.ownLine (s : State) (t : TileId) (w : World) (pa : Nat) : State :=
  allTiles.foldl (fun s u => s.modTile u (·.modCaches (fun c =>
    { c with
      ic := dropLines c.ic (fun x => x.pa == lineOf pa)
      dc := dropLines c.dc (fun x => x.pa == lineOf pa && !(u == t && x.world == w)) }))) s

/-- A system master's write invalidates every cached copy of the lines it touches (R145). -/
def State.dropCopies (s : State) (pa n : Nat) : State :=
  s.mapTiles (·.modCaches (fun c => c.invalidate (fun x => decide (lineOf pa ≤ x.pa) && decide (x.pa < pa + n))))

/-- A read of a line that another tile holds exclusive or modified leaves it shared there (R145). -/
def State.shareLine (s : State) (t : TileId) (w : World) (pa : Nat) : State :=
  allTiles.foldl (fun s u => s.modTile u (·.modCaches (fun c =>
    { c with dc := c.dc.map (fun p =>
        if p.2.pa = lineOf pa ∧ ¬ (u = t ∧ p.2.world = w) then (p.1, { p.2 with st := .shared }) else p) }))) s

/-- The colour a filled line keeps: its granule's colour, or 0 where the target gives none (DRAM's comes from the TLB). -/
def State.lineColour (s : State) (pa : Nat) : Colour := (s.targetColour pa).getD 0

/-- A line fill into tile t's data cache for world w, with the state R145 gives it; own says the tile asked for ownership.
A dirty victim is written back. -/
def State.fillData (s : State) (t : TileId) (w : World) (pa : Nat) (own : Bool) : State :=
  let other := s.otherCopy t w pa
  let s1 := if own then s.ownLine t w pa else s.shareLine t w pa
  let st : LineSt := if own then .exclusive else if other then .shared else .exclusive
  let line : CLine := { pa := lineOf pa, world := w, colour := s1.lineColour pa, st := st }
  s1.modTile t (·.modCaches (fun c =>
    let k := (cacheFind c.dc w pa).getD (fillKey c.dc c.dp pa)
    let wb := match Sparse.find? k c.dc with
      | some v => if v.st = .modified ∧ v.pa ≠ lineOf pa then [v.pa] else []
      | none => []
    { c with dc := Sparse.put k line c.dc, dp := plruTouch c.dp k, wbacks := c.wbacks ++ wb }))

/-- A line fill into tile t's instruction cache. A line modified in a data cache becomes shared there. -/
def State.fillInstr (s : State) (t : TileId) (w : World) (pa : Nat) : State :=
  let s1 := s.mapTiles (·.modCaches (fun c =>
    { c with dc := c.dc.map (fun p => if p.2.pa = lineOf pa then (p.1, { p.2 with st := .shared }) else p) }))
  let line : CLine := { pa := lineOf pa, world := w, colour := s1.lineColour pa, st := .shared }
  s1.modTile t (·.modCaches (fun c =>
    let k := (cacheFind c.ic w pa).getD (fillKey c.ic c.ip pa)
    { c with ic := Sparse.put k line c.ic, ip := plruTouch c.ip k }))

/-- Whether tile t's data cache holds the line of pa for world w, and whether it may be stored to without a request. -/
def Tile.dataHit (x : Tile) (w : World) (pa : Nat) : Option LineSt :=
  match cacheFind x.caches.dc w pa with
  | some k => (Sparse.find? k x.caches.dc).map (·.st)
  | none => none

/-- A data-cache hit recorded in the replacement bits. -/
def Tile.touchData (x : Tile) (w : World) (pa : Nat) : Tile :=
  match cacheFind x.caches.dc w pa with
  | some k => x.modCaches (fun c => { c with dp := plruTouch c.dp k })
  | none => x

/-- A store to a line held exclusively makes it modified (R145). -/
def Tile.dirtyLine (x : Tile) (w : World) (pa : Nat) : Tile :=
  match cacheFind x.caches.dc w pa with
  | some k => x.modCaches (fun c =>
      { c with dc := c.dc.map (fun p => if p.1 = k then (p.1, { p.2 with st := .modified }) else p), dp := plruTouch c.dp k })
  | none => x

/-- An instruction-cache hit recorded in the replacement bits. -/
def Tile.touchInstr (x : Tile) (w : World) (pa : Nat) : Tile :=
  match cacheFind x.caches.ic w pa with
  | some k => x.modCaches (fun c => { c with ip := plruTouch c.ip k })
  | none => x

/-- DWBINV: every dirty data line written back, both caches invalidated, the replacement bits cleared (R143, R147). -/
def Tile.dwbinv (x : Tile) : Tile :=
  x.modCaches (fun c => { c with ic := [], dc := [], ip := [], dp := [], wbacks := c.wbacks ++ dirtyAddrs c.dc (fun _ => true) })

/-- How many credits tile t holds in use for the target a test on addresses names (R28): its unanswered write-backs and
posted writes. -/
def Tile.creditsUsed (x : Tile) (p : Nat → Bool) : Nat :=
  (x.caches.wbacks.filter p).length + ((x.caches.wbuf.filter (·.sent)).filter (fun e => p e.line)).length

end Sys2Proof.Machine
end

