-- ==== Sys2Proof/Machine/Gates.lean ====
section
/-!
DEFINITION. Machine/Gates.lean: target gates (R95–R101), the colour controller (R82–R85), master-side units (R108–R112).
-/
namespace Sys2Proof.Machine

/-- COL_OP. -/
def colOp : Code := 0x24
/-- GATE_USER. -/
def gateUser : Code := 0x27
/-- GATE_OWNER. -/
def gateOwner : Code := 0x2A
/-- GATE_WORLD. -/
def gateWorld : Code := 0x26

/-- Gate word 0 of slot n (Table 3-9). -/
def State.gate0 (s : State) (n : Nat) : Word := s.reg 0 (0x1000 + 8 * n)
/-- Gate word 1 of slot n (Table 3-10). -/
def State.gate1 (s : State) (n : Nat) : Word := s.reg 0 (0x1004 + 8 * n)
/-- The slot colour. -/
def State.gateColour (s : State) (n : Nat) : Colour := BitVec.ofNat 4 (fld (s.gate1 n) 31 28)

/-- The gate's decision (Table 3-11): none where the access passes, else the failing step's cause code. A fixed gate's own
block replaces the colour check (R97). -/
def State.gateDecide (s : State) (q : Req) (slot off : Nat) (write : Bool) : Option Code :=
  let g := s.gate0 slot
  if slotKind slot == .empty then some 0x25
  else if !(bit g (if q.world == .trade then 4 else 3)) then some 0x26
  else if !(q.sup || bit g 5) then some 0x27
  else if slotKind slot == .fixed then none
  else
    let c : Colour := if bit g 2 && q.world == .trade then 15 else s.gateColour slot
    if colourPasses q.world q.sup q.cmr c then none
    else if !q.sup then some 0x28
    else
      let dm := fld g 7 6
      if !write && ((dm == 0 && decide (off < 0x1000)) || (dm == 1 && decide (off < 0x1100))) then none
      else some 0x29

/-- A refusal counted in the gate's REFUSED, saturating (R101). -/
def State.countRefused (s : State) (slot : Nat) : State :=
  let g := s.gate1 slot
  let n := fld g 15 0
  s.setReg 0 (0x1004 + 8 * slot) (setFld g 15 0 (if n = 0xFFFF then n else n + 1))

/-- A write to word 0 or 1 of slot n's gate (R97, R98). REFUSED clears where 0xFFFF is written (Table 3-10); a write of
other ones clears those bits (W1C). -/
def State.gateWrite (s : State) (q : Req) (n : Nat) (word1 : Bool) (v : Word) : State × BusRes :=
  let g := s.gate0 n
  if !q.sup then (s, .err gateUser)
  else if slotKind n == .fixed then (s, .err gateOwner)
  else if !word1 && fld v 7 6 == 3 then (s, .err gateOwner)
  else
    let allowed :=
      (q.world == .trade)
      || (!bit g 8 && !bit g 2
          && (if word1 then fld v 31 28 != 15 else (!bit v 8 && !bit v 2 && !bit v 4)))
    if !allowed then (s, .err gateOwner)
    else if word1 then
      let old := s.gate1 n
      let w := (setFld old 31 28 (fld v 31 28)) &&& ~~~ (v &&& 0xFFFF)
      (s.setReg 0 (0x1004 + 8 * n) w, .ok 0)
    else
      let old := s.gate0 n
      (s.setReg 0 (0x1000 + 8 * n) ((old &&& ~~~ 0x1FC) ||| (v &&& 0x1FC)), .ok 0)

/-- Whether a physical range overlaps the backing memory of an enabled revocation range: the quarantine of R88. -/
def State.quarantined (s : State) (lo hi : Nat) : Bool :=
  (List.range 4).any (fun k =>
    let w3 := s.reg 0x021 (0x100C + 16 * k)
    let vb := (s.reg 0x021 (0x1000 + 16 * k)).toNat
    let vl := (s.reg 0x021 (0x1004 + 16 * k)).toNat
    let pb := (s.reg 0x021 (0x1008 + 16 * k)).toNat * 16
    bit w3 31 && decide (vb ≤ vl) && decide (lo < pb + (vl - vb + 1)) && decide (pb < hi))

/-- The granule size of the coloured memory an address lies in (Table 3-1). -/
def State.granuleSize (s : State) (pa : Nat) : Option Nat :=
  match s.place pa with
  | .sram => some 256
  | .emram => some 4096
  | .ember => some 4096
  | .emberPrivate => some 4096
  | _ => none

/-- The end of the coloured memory an address lies in. -/
def colouredEnd (pa : Nat) : Nat := if pa < 0x1800000 then 0x1800000 else if pa < 0x6040000 then 0x6040000 else 0x8400000

/-- Whether a recolour of the given range and colours is permitted (R84, R88, Table 3-4). -/
def State.recolourOk (s : State) (q : Req) (base count : Nat) (old new : Colour) : Bool :=
  match s.granuleSize base with
  | none => false
  | some g =>
    let hi := base + count * g
    let shape := decide (base % g = 0) && decide (0 < count) && decide (count ≤ 32768) && decide (hi ≤ colouredEnd base)
    let quar := s.quarantined base hi
    let inCmr (c : Colour) : Bool := c != 0 && c != 15 && q.cmr.getLsbD c.toNat
    let perm :=
      match q.world with
      | .trade => !(old == 0 && quar)
      | .opn =>
        if old == 0 then
          inCmr new && !quar && (List.range count).all (fun i =>
            -- every 256-byte block of the granule lies in an enabled pool range
            (List.range (g / 256)).all (fun j => s.inOpr (base + i * g + j * 256)))
        else inCmr old && (new == 0 || inCmr new)
    shape && q.sup && perm

/-- The recolour of count granules of size g from base: each granule of colour old takes colour new; the numbers changed and
skipped (R84). -/
def recolourLoop (g : Nat) (old new : Colour) : Nat → Nat → Mem → Nat → Nat → Mem × Nat × Nat
  | 0, _, m, ch, sk => (m, ch, sk)
  | n + 1, a, m, ch, sk =>
    if m.colourOf a = old then
      recolourLoop g old new n (a + g) { m with colours := Sparse.write (granuleReset a) a new m.colours } (ch + 1) sk
    else recolourLoop g old new n (a + g) m ch (sk + 1)

/-- A write to RC_GO (R84, R85): the recolour, then the range invalidation of every tile's caches. -/
def State.rcGo (s : State) (q : Req) : State × BusRes :=
  let base := (s.reg 0x001 0x1000).toNat * 16
  let count := (s.reg 0x001 0x1004).toNat
  let old : Colour := BitVec.ofNat 4 (fld (s.reg 0x001 0x1008) 3 0)
  let new : Colour := BitVec.ofNat 4 (fld (s.reg 0x001 0x100C) 3 0)
  if s.recolourOk q base count old new then
    let g := (s.granuleSize base).getD 256
    let r := recolourLoop g old new count base s.mem 0 0
    let s1 := { s with mem := r.1 }
    let s2 := s1.mapTiles (·.modCaches (·.invalidate (fun x => decide (base ≤ x.pa) && decide (x.pa < base + count * g))))
    ((s2.setReg 0x001 0x1014 (BitVec.ofNat 32 r.2.1)).setReg 0x001 0x1018 (BitVec.ofNat 32 r.2.2), .ok 0)
  else (s, .err colOp)

/-- A write to slot 0x001 (R83, R84). -/
def State.colourWrite (s : State) (q : Req) (off : Nat) (v : Word) : State × BusRes :=
  if off = 0x1010 then s.rcGo q
  else if 0x1100 ≤ off ∧ off < 0x1220 then
    if q.world == .trade && q.sup then (s.plainWrite .trade 0x001 off v, .ok 0) else (s, .err colOp)
  else (s.plainWrite .trade 0x001 off v, .ok 0)

/-- A master-side region: base, limit, colour mask, W, R, EN (Table 3-12). -/
structure MRegion where
  base : Nat
  limit : Nat
  cmask : BitVec 16
  w : Bool
  r : Bool
  en : Bool
deriving DecidableEq, Repr

/-- Region n of the unit in slot 2 + u. -/
def State.mregion (s : State) (u n : Nat) : MRegion :=
  let w2 := s.reg (2 + u) (0x1008 + 16 * n)
  { base := fld (s.reg (2 + u) (0x1000 + 16 * n)) 27 0 * 256
    limit := fld (s.reg (2 + u) (0x1004 + 16 * n)) 27 0 * 256 + 255
    cmask := BitVec.ofNat 16 (fld w2 31 16), w := bit w2 2, r := bit w2 1, en := bit w2 0 }

/-- Whether two regions share a byte. -/
def MRegion.overlaps (a b : MRegion) : Bool := decide (a.base ≤ b.limit) && decide (b.base ≤ a.limit)

/-- Whether two enabled regions of unit u overlap. -/
def State.regionsClash (s : State) (u : Nat) : Bool :=
  (List.range 8).any (fun i => (List.range 8).any (fun j =>
    decide (i < j) && (s.mregion u i).en && (s.mregion u j).en && (s.mregion u i).overlaps (s.mregion u j)))

/-- A write to the master-side unit in slot 2 + u (R110): only a Trade supervisor writes it; a write that leaves two enabled
regions overlapping is discarded and sets CFGERR with the unit's interrupt. -/
def State.masterWrite (s : State) (q : Req) (u off : Nat) (v : Word) : State × BusRes :=
  if !(q.world == .trade && q.sup) then (s, .err gateWorld)
  else if 0x1000 ≤ off ∧ off < 0x1080 then
    let s1 := s.plainWrite .trade (2 + u) off v
    if s1.regionsClash u then ((s.modReg (2 + u) 0x1100 (· ||| 1)).raise (40 + u), .ok 0) else (s1, .ok 0)
  else (s, .ok 0)

/-- The colour that a master-side region's mask must hold for an address: its granule's, or its slot's; none for DRAM and the
context store (R108). -/
def State.masterColour (s : State) (pa : Nat) : Option Colour :=
  match s.place pa with
  | .periph slot _ => some (s.gateColour slot)
  | .rom => none
  | _ => (s.granule pa).map s.mem.colourOf

/-- Whether the master-side unit u allows an access of n bytes at pa (R108, R109). -/
def State.masterAllows (s : State) (u pa n : Nat) (write : Bool) : Bool :=
  (List.range 8).any (fun k =>
    let r := s.mregion u k
    r.en && decide (r.base ≤ pa) && decide (pa + n ≤ r.limit + 1) && (if write then r.w else r.r)
    && (match s.masterColour pa with
        | some c => r.cmask.getLsbD c.toNat
        | none => true))

/-- What the debug access port's unit refuses without a Trade debug unlock (R111). -/
def State.dapTrade (s : State) (pa : Nat) : Bool :=
  match s.place pa with
  | .periph slot _ => bit (s.gate0 slot) 8 || s.gateColour slot == 15
  | .dram => s.inTdr pa
  | _ => s.targetColour pa == some 15

end Sys2Proof.Machine
end

