-- ==== Sys2Proof/Machine/Contexts.lean ====
section
/-!
DEFINITION. Machine/Contexts.lean: contexts (Table 7-1), their doublewords, the directory, banks, fills and spills (R202–R212),
isle descriptors and maps (R231–R236), and the running context of a tile.
-/
namespace Sys2Proof.Machine

/-- IDENT CLAIMED. -/
def Ctx.claimed (c : Ctx) : Bool := bit c.ident 31
/-- The context's world (IDENT WORLD). -/
def Ctx.world (c : Ctx) : World := World.ofBit (bit c.ident 30)
/-- IDENT PARK. -/
def Ctx.parked (c : Ctx) : Bool := bit c.ident 29
/-- STATUS SUP. -/
def Ctx.sup (c : Ctx) : Bool := bit c.status 30
/-- STATUS IE. -/
def Ctx.ie (c : Ctx) : Bool := bit c.status 29
/-- STATUS MLVL. -/
def Ctx.mlvl (c : Ctx) : Nat := fld c.status 20 16
/-- BSH DLEFT. -/
def Ctx.dleft (c : Ctx) : Nat := fld c.bsh 1 0
/-- LSTAT REPC. -/
def Ctx.repc (c : Ctx) : Nat := fld c.lstat 31 16
/-- LSTAT ACT bit n. -/
def Ctx.act (c : Ctx) (n : Nat) : Bool := bit c.lstat n
/-- LSTAT PEND bit n. -/
def Ctx.pendLv (c : Ctx) (n : Nat) : Bool := bit c.lstat (8 + n)

/-- W register n; W0 reads as zero (R119). -/
def Ctx.getW (c : Ctx) (n : Nat) : Word := if n = 0 then 0 else vget c.w n 0
/-- W register n written; a write to W0 is discarded (R119). -/
def Ctx.setW (c : Ctx) (n : Nat) (v : Word) : Ctx := if n = 0 then c else { c with w := vset c.w n v }
/-- C register n; C0 reads as the null capability (R39). -/
def Ctx.getC (c : Ctx) (n : Nat) : Cap := if n = 0 then Cap.null else vget c.c n Cap.null
/-- C register n written; a write to C0 is discarded (R39). -/
def Ctx.setC (c : Ctx) (n : Nat) (v : Cap) : Ctx := if n = 0 then c else { c with c := vset c.c n v }

/-- Two words as a doubleword, the first in bits [31:0]. -/
def dw (lo hi : Word) : DWord := BitVec.ofNat 64 (lo.toNat + hi.toNat * 2 ^ 32)
/-- Bits [31:0] of a doubleword. -/
def dlo (d : DWord) : Word := d.setWidth 32
/-- Bits [63:32] of a doubleword. -/
def dhi (d : DWord) : Word := (d >>> 32).setWidth 32

/-- The word of a context slot at byte offset 4·k, for the untagged part of Table 7-1. -/
def Ctx.word (c : Ctx) (k : Nat) : Word :=
  if k < 32 then c.getW k
  else if k = 68 then c.bsh
  else if k = 69 then c.status
  else if k = 70 then c.cmr.setWidth 32
  else if k = 71 then c.skm.setWidth 32
  else if k = 72 then c.pred.setWidth 32
  else if k = 73 then c.lstat
  else if 74 ≤ k ∧ k < 78 then vget c.ls (k - 74) 0
  else if 78 ≤ k ∧ k < 82 then vget c.le (k - 78) 0
  else if 82 ≤ k ∧ k < 86 then vget c.lc (k - 82) 0
  else if 86 ≤ k ∧ k < 90 then vget c.li (k - 86) 0
  else if k = 90 then c.ident
  else 0

/-- A context with the word at byte offset 4·k set; reserved and read-only bits stay as they are (R224 governs IDENT, which
its own rule writes). -/
def Ctx.setWord (c : Ctx) (k : Nat) (v : Word) : Ctx :=
  if k < 32 then c.setW k v
  else if k = 68 then { c with bsh := v &&& 3 }
  else if k = 69 then { c with status := (c.status &&& 0x80000000) ||| (v &&& 0x601F0000) }
  else if k = 70 then { c with cmr := v.setWidth 16 }
  else if k = 71 then { c with skm := v.setWidth 4 }
  else if k = 72 then { c with pred := v.setWidth 8 &&& 0xFE }
  else if k = 73 then { c with lstat := v &&& 0xFFFF0F0F }
  else if 74 ≤ k ∧ k < 78 then { c with ls := vset c.ls (k - 74) v }
  else if 78 ≤ k ∧ k < 82 then { c with le := vset c.le (k - 78) v }
  else if 82 ≤ k ∧ k < 86 then { c with lc := vset c.lc (k - 82) v }
  else if 86 ≤ k ∧ k < 90 then { c with li := vset c.li (k - 86) v }
  else c

/-- Doubleword i (0–47) of a context slot, with its tag where it is a capability field (R204). -/
def Ctx.dword (c : Ctx) (i : Nat) : Cap :=
  if 16 ≤ i ∧ i < 32 then c.getC (i - 16)
  else if i = 32 then c.pcc
  else if i = 33 then c.btgt
  else Cap.ofDW (dw (c.word (2 * i)) (c.word (2 * i + 1)))

/-- A context with doubleword i set; a tagged doubleword keeps the moved tag, another ignores it (R221). -/
def Ctx.setDword (c : Ctx) (i : Nat) (v : Cap) : Ctx :=
  if 16 ≤ i ∧ i < 32 then c.setC (i - 16) v
  else if i = 32 then { c with pcc := v }
  else if i = 33 then { c with btgt := v }
  else (c.setWord (2 * i) (dlo v.bits)).setWord (2 * i + 1) (dhi v.bits)

/-- Every capability of a context changed by a function. -/
def Ctx.mapCaps (c : Ctx) (f : Cap → Cap) : Ctx := { c with c := c.c.map f, pcc := f c.pcc, btgt := f c.btgt }

/-- A context marked DAMAGED and PARK with every tag cleared (R220, R238). -/
def Ctx.damage (c : Ctx) : Ctx := { c.mapCaps Cap.untag with ident := c.ident ||| 0x30000000 }

/-- The slot of context n in the context store. -/
def CtxStore.slot (x : CtxStore) (n : CtxId) : Ctx := Sparse.get (Ctx.reset n.toNat) n.toNat x.slots
/-- The context store with a slot written. -/
def CtxStore.setSlot (x : CtxStore) (n : CtxId) (c : Ctx) : CtxStore :=
  { x with slots := Sparse.write (Ctx.reset n.toNat) n.toNat c x.slots }
/-- Whether any doubleword of a slot holds an uncorrectable error (R220, R566). -/
def CtxStore.slotBad (x : CtxStore) (n : CtxId) : Bool :=
  (List.range 48).any (fun i => Sparse.get false (48 * n.toNat + i) x.damaged)

/-- Where a context's current state is (Table 7-4). recorded is a RUNNING context of a tile whose power domain is off: its state
is in its slot until the tile resumes it (R493, R502). -/
inductive Where where
  | free
  | stored
  | resident (t : TileId) (b : Nat)
  | running (t : TileId) (b : Nat)
  | recorded (t : TileId)
  | spilling (t : TileId)
deriving DecidableEq, Repr

/-- The bank of a tile that holds context n, if any: an occupied bank whose context was not handed over (R238). -/
def Tile.bankOf (x : Tile) (n : CtxId) : Option Nat :=
  (List.range 7).find? (fun b =>
    let k := vget x.banks b Bank.reset
    k.st != .empty && !k.handed && k.num == n)

/-- The caller of the tile's open link (R276). -/
def Link.caller : Link → Option CtxId
  | .none => Option.none
  | .strait c _ _ => some c
  | .interrupt c _ => some c

/-- The directory entry of context n (R207): it follows from the banks, the spill queues, the open links, the record of a
switched-off tile, and IDENT. A linked caller and a recorded running context count as RUNNING (R276, R493). -/
def State.dir (s : State) (n : CtxId) : Where :=
  match allTiles.find? (fun t => ((s.tile t).bankOf n).isSome) with
  | some t =>
    let x := s.tile t
    let b := (x.bankOf n).getD 0
    if x.run = some b ∨ x.link.caller = some n then .running t b else .resident t b
  | none =>
    match allTiles.find? (fun t => (s.tile t).spill.any (·.num == n)) with
    | some t => .spilling t
    | none =>
      match allTiles.find? (fun t => (s.tile t).sys.recorded == some n) with
      | some t => .recorded t
      | none => if (s.store.slot n).claimed then .stored else .free

/-- The current state of context n, wherever it is. -/
def State.ctx (s : State) (n : CtxId) : Ctx :=
  match s.dir n with
  | .resident t b | .running t b => (vget (s.tile t).banks b Bank.reset).ctx
  | .spilling t =>
    match (s.tile t).spill.find? (·.num == n) with
    | some c => c.ctx
    | none => s.store.slot n
  | _ => s.store.slot n

/-- A tile with bank b changed. -/
def Tile.modBank (x : Tile) (b : Nat) (f : Bank → Bank) : Tile := { x with banks := vset x.banks b (f (vget x.banks b Bank.reset)) }

/-- The context store of the state changed. -/
def State.modStore (s : State) (f : CtxStore → CtxStore) : State := { s with store := f s.store }

/-- The state with the current copy of context n changed, wherever it is; a resident bank becomes DIRTY (R223). -/
def State.modCtx (s : State) (n : CtxId) (f : Ctx → Ctx) : State :=
  match s.dir n with
  | .resident t b => s.modTile t (·.modBank b (fun k => { k with ctx := f k.ctx, st := if k.st = .clean then .dirty else k.st }))
  | .running t b => s.modTile t (·.modBank b (fun k => { k with ctx := f k.ctx }))
  | .spilling t => s.modTile t (fun x =>
      { x with spill := x.spill.map (fun c => if c.num = n then { c with ctx := f c.ctx } else c) })
  | _ => s.modStore (·.setSlot n (f (s.store.slot n)))

/-- The bank a tile runs, with a default where it runs none. -/
def Tile.runBank (x : Tile) : Bank := vget x.banks (x.run.getD 7) Bank.reset
/-- The running context of a tile (its state in the RUNNING bank). -/
def Tile.ctx (x : Tile) : Ctx := x.runBank.ctx
/-- The number of the running context; 0 where none runs. -/
def Tile.ctxNum (x : Tile) : CtxId := x.runBank.num
/-- A tile with its running context changed. -/
def Tile.modCtx (x : Tile) (f : Ctx → Ctx) : Tile :=
  match x.run with
  | some b => x.modBank b (fun k => { k with ctx := f k.ctx })
  | none => x
/-- The world of the running context. -/
def Tile.world (x : Tile) : World := x.ctx.world
/-- Whether the running context is at supervisor level. -/
def Tile.sup (x : Tile) : Bool := x.ctx.sup
/-- World w's items of a tile. -/
def Tile.wcfgOf (x : Tile) (w : World) : WorldCfg := vget x.cfg w.idx WorldCfg.reset
/-- A tile with world w's items changed. -/
def Tile.modCfg (x : Tile) (w : World) (f : WorldCfg → WorldCfg) : Tile := { x with cfg := vset x.cfg w.idx (f (x.wcfgOf w)) }

/-- HALT. -/
def Tile.haltBit (x : Tile) (w : World) : Bool := bit (x.wcfgOf w).wcfg 27

/-- The widest mask that R76 permits a world. -/
def widestMask : World → BitVec 16
  | .trade => 0x8001
  | .opn => 0x7FFE
/-- Whether a mask meets R76 for a world. -/
def maskOk (w : World) (m : BitVec 16) : Bool := m &&& ~~~ widestMask w == 0

/-- The victim bank of a fill (R210): an EMPTY bank, else the least recently run CLEAN bank, else the least recently run DIRTY
bank; never the RUNNING bank and never the bank of a linked caller (R276). -/
def Tile.victim (x : Tile) : Option Nat :=
  let ok (b : Nat) : Bool := x.run != some b && (x.link.caller != some (vget x.banks b Bank.reset).num || (vget x.banks b Bank.reset).st == .empty)
  let oldest (st : BankSt) : Option Nat :=
    (List.range 7).foldl (fun a b =>
      if ok b && (vget x.banks b Bank.reset).st == st then
        match a with
        | none => some b
        | some c => if (vget x.banks b Bank.reset).stamp < (vget x.banks c Bank.reset).stamp then some b else a
      else a) none
  match (List.range 7).find? (fun b => ok b && (vget x.banks b Bank.reset).st == .empty) with
  | some b => some b
  | none =>
    match oldest .clean with
    | some b => some b
    | none => oldest .dirty

/-- What bringing a context into a bank of a tile needs (R210, Table 7-7). -/
inductive Bring where
  | bank (s : State) (b : Nat)
  | fill
  | wait

/-- A bank loaded with a context. -/
def Bank.load (n : CtxId) (c : Ctx) (st : BankSt) : Bank := { st := st, num := n, ctx := c, stamp := 0, handed := false }

/-- The capability filter of R87 and R90: whether an enabled revocation range condemns a capability for a mask. -/
def State.condemned (s : State) (mask : BitVec 16) (c : Cap) : Bool :=
  c.tag && (List.range 4).any (fun k =>
    let w3 := s.reg 0x021 (0x100C + 16 * k)
    bit w3 31 && (bit w3 30 == c.tw.bit)
      && decide (c.base ≤ ((s.reg 0x021 (0x1004 + 16 * k)).toNat : Int))
      && decide (((s.reg 0x021 (0x1000 + 16 * k)).toNat : Int) < c.top)
      && !mask.getLsbD (fld w3 3 0))

/-- Whether the char sweep engine is RUNNING (Table 3-7). -/
def State.sweeping (s : State) : Bool := fld (s.reg 0x021 0x1208) 1 0 == 1

/-- A capability after the load filter of R90 for a mask. -/
def State.filterCap (s : State) (mask : BitVec 16) (c : Cap) : Cap :=
  if s.sweeping && s.condemned mask c then c.untag else c

/-- A context after the fill filter of R90: each capability register tested against the context's own CMR. -/
def State.filterCtx (s : State) (c : Ctx) : Ctx := c.mapCaps (s.filterCap c.cmr)

/-- Context n brought into a bank of tile t without a fill, where it is resident there or in its spill queue; otherwise what it
waits for. A victim that is DIRTY moves to the spill queue (R210). -/
def State.bring (s : State) (t : TileId) (n : CtxId) : Bring :=
  let x := s.tile t
  match s.dir n with
  | .resident u b => if u = t then .bank s b else .fill
  | .running u b => if u = t then .bank s b else .wait
  | .spilling u =>
    if u = t then
      match x.spill.find? (·.num == n), x.victim with
      | some c, some v =>
        let vb := vget x.banks v Bank.reset
        let rest := x.spill.filter (fun e => !(e.num == n))
        let spill := if vb.st = .dirty then rest ++ [{ num := vb.num, ctx := vb.ctx }] else rest
        .bank (s.setTile t { x.modBank v (fun _ => Bank.load n c.ctx .dirty) with spill := spill }) v
      | _, _ => .wait
    else .wait
  | _ => .fill

/-- The fill of context n into tile t (R210, R211, R220): the victim is chosen, a DIRTY victim goes to the spill queue, and the
slot, or the copy in another tile's bank, is loaded CLEAN under the filter of R90. none where the spill queue has no room for
a DIRTY victim. -/
def State.fillInto (s : State) (t : TileId) (n : CtxId) : Option State :=
  let x := s.tile t
  match x.victim with
  | none => none
  | some v =>
    let vb := vget x.banks v Bank.reset
    if vb.st = .dirty ∧ 2 ≤ x.spill.length then none
    else
      let c := s.filterCtx (s.ctx n)
      -- a copy resident on another tile is written to its slot first; that bank becomes EMPTY (Table 7-7)
      let s0 := match s.dir n with
        | .resident u b => (s.modStore (·.setSlot n c)).modTile u (·.modBank b (fun _ => Bank.reset))
        | _ => s
      let x0 := s0.tile t
      let spill := if vb.st = .dirty then x0.spill ++ [{ num := vb.num, ctx := vb.ctx }] else x0.spill
      some (s0.setTile t { x0.modBank v (fun _ => Bank.load n c .clean) with spill := spill })

/-- Bank b of tile t becomes the running bank; the bank that ran becomes DIRTY (R209). -/
def State.runBank (s : State) (t : TileId) (b : Nat) : State :=
  let x := s.tile t
  let x1 := match x.run with
    | some o => x.modBank o (fun k => { k with st := .dirty, stamp := s.seq })
    | none => x
  { s.setTile t { x1.modBank b (fun k => { k with st := .running, handed := false, stamp := s.seq + 1 }) with run := some b } with
    seq := s.seq + 2 }

/-- Every capability in the tile's image changed by a function. -/
def mapImage (f : Cap → Cap) (i : Image) : Image := i.map f

/-- Isle descriptor i. -/
def State.isle (s : State) (i : Nat) : Isle := Sparse.get Isle.reset i s.store.isles
/-- Isle map entry of a region of a world. -/
def State.isleMap (s : State) (w : World) (r : Nat) : Word := Sparse.get 0 (4096 * w.idx + r) s.store.maps
/-- VALID of an isle descriptor. -/
def Isle.valid (i : Isle) : Bool := bit i.word 31
/-- The world of an isle. -/
def Isle.world (i : Isle) : World := World.ofBit (bit i.word 30)
/-- PARK of an isle. -/
def Isle.parked (i : Isle) : Bool := bit i.word 29
/-- MASK of an isle. -/
def Isle.mask (i : Isle) : BitVec 16 := i.word.setWidth 16

end Sys2Proof.Machine
end

