-- ==== Sys2Proof/Machine/Crypto.lean ====
section
/-!
DEFINITION. Machine/Crypto.lean: the ciphers and hashes that the spec names by their standards: AES-128 and AES-256 (FIPS 197),
GHASH and GCM (NIST SP 800-38D), CMAC (SP 800-38B), key wrap (RFC 3394), SHA-256 (FIPS 180-4), CRC-32C.
-/
namespace Sys2Proof.Machine

/-- Multiplication in GF(2^8) modulo x^8 + x^4 + x^3 + x + 1, over n remaining bits of b. -/
def gf8Mul : Nat → Byte → Byte → Byte
  | 0, _, _ => 0
  | n + 1, a, b =>
    let a2 := (a <<< 1) ^^^ (if a.getLsbD 7 then 0x1B#8 else 0#8)
    (if b.getLsbD 0 then a else 0#8) ^^^ gf8Mul n a2 (b >>> 1)
/-- The product of two field elements. -/
def gmul (a b : Byte) : Byte := gf8Mul 8 a b
/-- The inverse of a field element, x^254, with 0 for 0. -/
def ginv (a : Byte) : Byte :=
  let a2 := gmul a a
  let a3 := gmul a2 a
  let a6 := gmul a3 a3
  let a7 := gmul a6 a
  let a14 := gmul a7 a7
  let a15 := gmul a14 a
  let a30 := gmul a15 a15
  let a31 := gmul a30 a
  let a62 := gmul a31 a31
  let a63 := gmul a62 a
  let a126 := gmul a63 a63
  let a127 := gmul a126 a
  gmul a127 a127
/-- The S-box of FIPS 197. -/
def sbox (a : Byte) : Byte :=
  let b := ginv a
  b ^^^ b.rotateLeft 1 ^^^ b.rotateLeft 2 ^^^ b.rotateLeft 3 ^^^ b.rotateLeft 4 ^^^ 0x63#8
/-- The inverse S-box. -/
def invSbox (a : Byte) : Byte :=
  ginv (a.rotateLeft 1 ^^^ a.rotateLeft 3 ^^^ a.rotateLeft 6 ^^^ 0x05#8)

/-- Bytes combined by exclusive or. -/
def xorBytes (a b : List Byte) : List Byte := List.zipWith (· ^^^ ·) a b

/-- The round constant after n doublings. -/
def rcon : Nat → Byte
  | 0 => 1
  | n + 1 => gmul 2 (rcon n)

/-- Word i of a key schedule given the words before it, newest first (FIPS 197 key expansion). -/
def keyWord (nk i : Nat) (prev : List (List Byte)) : List Byte :=
  let t := prev.headD []
  let t1 :=
    if i % nk = 0 then
      let r := (t.drop 1 ++ t.take 1).map sbox
      xorBytes r [rcon (i / nk - 1), 0, 0, 0]
    else if 6 < nk ∧ i % nk = 4 then t.map sbox
    else t
  xorBytes ((prev.drop (nk - 1)).headD []) t1

/-- A key schedule extended by n words. -/
def keyExpandN (nk : Nat) : Nat → Nat → List (List Byte) → List (List Byte)
  | 0, _, acc => acc
  | n + 1, i, acc => keyExpandN nk n (i + 1) (keyWord nk i acc :: acc)

/-- Groups of k elements. -/
def chunks {α : Type} (k : Nat) : Nat → List α → List (List α)
  | 0, _ => []
  | n + 1, l => if l.isEmpty then [] else l.take k :: chunks k n (l.drop k)

/-- The round keys of a 16-byte or 32-byte key, sixteen bytes each. -/
def roundKeys (key : List Byte) : List (List Byte) :=
  let nk := key.length / 4
  let rounds := nk + 6
  let w0 := (chunks 4 nk key).reverse
  let ws := (keyExpandN nk (4 * (rounds + 1) - nk) nk w0).reverse
  (chunks 4 (rounds + 1) ws).map List.flatten

/-- Byte (r, c) of a block is byte r + 4c: the rows shifted left by their number. -/
def shiftRows (b : List Byte) : List Byte := (List.range 16).map (fun i => b.getD ((i + 4 * (i % 4)) % 16) 0)
/-- The rows shifted right by their number. -/
def invShiftRows (b : List Byte) : List Byte := (List.range 16).map (fun i => b.getD ((i + 16 - 4 * (i % 4)) % 16) 0)
/-- One column multiplied by the matrix with first row m. -/
def mixColumn (m c : List Byte) : List Byte :=
  (List.range 4).map (fun r => (List.range 4).foldl (fun a k => a ^^^ gmul (m.getD ((k + 4 - r) % 4) 0) (c.getD k 0)) 0)
/-- MixColumns. -/
def mixColumns (m b : List Byte) : List Byte := ((chunks 4 4 b).map (mixColumn m)).flatten

/-- The rounds of an encryption after the first key addition. -/
def encRounds : List (List Byte) → List Byte → List Byte
  | [], b => b
  | [k], b => xorBytes (shiftRows (b.map sbox)) k
  | k :: r, b => encRounds r (xorBytes (mixColumns [2, 3, 1, 1] (shiftRows (b.map sbox))) k)
/-- The rounds of a decryption after the first key addition, keys last to first. -/
def decRounds : List (List Byte) → List Byte → List Byte
  | [], b => b
  | [k], b => xorBytes ((invShiftRows b).map invSbox) k
  | k :: r, b => decRounds r (mixColumns [14, 11, 13, 9] (xorBytes ((invShiftRows b).map invSbox) k))

/-- AES encryption of a block under round keys. -/
def aesEncKeys (ks : List (List Byte)) (b : List Byte) : List Byte :=
  match ks with
  | [] => b
  | k :: r => encRounds r (xorBytes b k)
/-- AES decryption of a block under round keys. -/
def aesDecKeys (ks : List (List Byte)) (b : List Byte) : List Byte :=
  match ks.reverse with
  | [] => b
  | k :: r => decRounds r (xorBytes b k)
/-- AES encryption of a block under a key. -/
def aesEnc (key b : List Byte) : List Byte := aesEncKeys (roundKeys key) b
/-- AES decryption of a block under a key. -/
def aesDec (key b : List Byte) : List Byte := aesDecKeys (roundKeys key) b

/-- Multiplication in GF(2^128) with the bit order of SP 800-38D: bit 127 of the number is the first bit. -/
def ghMulLoop : Nat → Nat → Nat → Nat → Nat
  | 0, _, _, z => z
  | n + 1, x, v, z =>
    let z1 := if x.testBit n then z ^^^ v else z
    let v1 := if v % 2 = 1 then (v / 2) ^^^ (0xE1 * 2 ^ 120) else v / 2
    ghMulLoop n x v1 z1
/-- X • Y. -/
def ghMul (x y : Nat) : Nat := ghMulLoop 128 x y 0
/-- A block as a number, byte 0 first. -/
def blockNat (b : List Byte) : Nat := ofBytesBE b
/-- A number as a block. -/
def natBlock (n : Nat) : List Byte := toBytesBE 16 n
/-- Bytes padded with zeros to a whole number of blocks. -/
def padBlock (b : List Byte) : List Byte := b ++ List.replicate ((16 - b.length % 16) % 16) 0
/-- GHASH of whole blocks. -/
def ghash (h : Nat) (b : List Byte) : Nat :=
  (chunks 16 (b.length / 16) b).foldl (fun y x => ghMul (y ^^^ blockNat x) h) 0
/-- Counter mode from a counter block, n blocks. -/
def gctr (ks : List (List Byte)) : Nat → Nat → List Byte → List Byte
  | 0, _, _ => []
  | n + 1, ctr, b =>
    if b.isEmpty then []
    else
      let next := ctr / 2 ^ 32 * 2 ^ 32 + (ctr + 1) % 2 ^ 32
      xorBytes (b.take 16) (aesEncKeys ks (natBlock ctr)) ++ gctr ks n next (b.drop 16)
/-- AES-GCM with a 12-byte nonce: the ciphertext and the 16-byte tag. -/
def gcmSeal (key iv aad pt : List Byte) : List Byte × List Byte :=
  let ks := roundKeys key
  let h := blockNat (aesEncKeys ks (List.replicate 16 0))
  let j0 := blockNat (iv ++ [0, 0, 0, 1])
  let ct := gctr ks (pt.length / 16 + 1) (j0 / 2 ^ 32 * 2 ^ 32 + (j0 + 1) % 2 ^ 32) pt
  (ct, tagOf ks h j0 aad ct)
where
  tagOf (ks : List (List Byte)) (h j0 : Nat) (aad ct : List Byte) : List Byte :=
    let lens := toBytesBE 8 (8 * aad.length) ++ toBytesBE 8 (8 * ct.length)
    let s := ghash h (padBlock aad ++ padBlock ct ++ lens)
    xorBytes (natBlock s) (aesEncKeys ks (natBlock j0))
/-- AES-GCM opened: the plaintext where the first n bytes of the tag agree. -/
def gcmOpen (key iv aad ct tag : List Byte) : Option (List Byte) :=
  let ks := roundKeys key
  let h := blockNat (aesEncKeys ks (List.replicate 16 0))
  let j0 := blockNat (iv ++ [0, 0, 0, 1])
  if (gcmSeal.tagOf ks h j0 aad ct).take tag.length = tag then
    some (gctr ks (ct.length / 16 + 1) (j0 / 2 ^ 32 * 2 ^ 32 + (j0 + 1) % 2 ^ 32) ct)
  else none

/-- Doubling in GF(2^128) for CMAC. -/
def cmacDouble (n : Nat) : Nat := if n.testBit 127 then ((n * 2) % 2 ^ 128) ^^^ 0x87 else n * 2
/-- AES-CMAC of a message. -/
def cmac (key msg : List Byte) : List Byte :=
  let ks := roundKeys key
  let k1 := cmacDouble (blockNat (aesEncKeys ks (List.replicate 16 0)))
  let k2 := cmacDouble k1
  let full := decide (msg.length % 16 = 0) && decide (0 < msg.length)
  let m := if full then msg else padBlock (msg ++ [0x80])
  let bs := chunks 16 (m.length / 16) m
  let last := xorBytes (bs.getLastD []) (natBlock (if full then k1 else k2))
  (bs.dropLast ++ [last]).foldl (fun c b => aesEncKeys ks (xorBytes c b)) (List.replicate 16 0)

/-- One step of key wrap over the 8-byte registers (RFC 3394): A, the registers done, the counter t. -/
def wrapPass (ks : List (List Byte)) (n j : Nat) : Nat → List Byte → List (List Byte) → List Byte × List (List Byte)
  | _, a, [] => (a, [])
  | i, a, r :: rs =>
    let b := aesEncKeys ks (a ++ r)
    let a1 := xorBytes (b.take 8) (toBytesBE 8 (n * j + i))
    let (a2, rest) := wrapPass ks n j (i + 1) a1 rs
    (a2, b.drop 8 :: rest)
/-- Key wrap (RFC 3394) of a multiple of eight bytes: eight bytes longer. -/
def keyWrap (kek p : List Byte) : List Byte :=
  let ks := roundKeys kek
  let rs := chunks 8 (p.length / 8) p
  let n := rs.length
  let (a, r) := (List.range 6).foldl (fun x j => wrapPass ks n j 1 x.1 x.2) (List.replicate 8 0xA6, rs)
  a ++ r.flatten
/-- One pass of key unwrap, registers last to first. -/
def unwrapPass (ks : List (List Byte)) (n j : Nat) : Nat → List Byte → List (List Byte) → List Byte × List (List Byte)
  | _, a, [] => (a, [])
  | i, a, r :: rs =>
    let b := aesDecKeys ks (xorBytes a (toBytesBE 8 (n * j + i)) ++ r)
    let (a2, rest) := unwrapPass ks n j (i - 1) (b.take 8) rs
    (a2, b.drop 8 :: rest)
/-- Key unwrap: the plain bytes where the integrity value agrees. -/
def keyUnwrap (kek c : List Byte) : Option (List Byte) :=
  let ks := roundKeys kek
  let rs := (chunks 8 (c.length / 8 - 1) (c.drop 8)).reverse
  let n := rs.length
  let (a, r) := [5, 4, 3, 2, 1, 0].foldl (fun x j => unwrapPass ks n j n x.1 x.2) (c.take 8, rs)
  if a = List.replicate 8 0xA6 then some r.reverse.flatten else none

/-- The initial hash value of SHA-256. -/
def shaInit : List Word :=
  [0x6a09e667, 0xbb67ae85, 0x3c6ef372, 0xa54ff53a, 0x510e527f, 0x9b05688c, 0x1f83d9ab, 0x5be0cd19]
/-- The round constants of SHA-256, rounds 0 to 15. -/
def shaK0 : List Word :=
  [0x428a2f98, 0x71374491, 0xb5c0fbcf, 0xe9b5dba5, 0x3956c25b, 0x59f111f1, 0x923f82a4, 0xab1c5ed5,
   0xd807aa98, 0x12835b01, 0x243185be, 0x550c7dc3, 0x72be5d74, 0x80deb1fe, 0x9bdc06a7, 0xc19bf174]
/-- Rounds 16 to 31. -/
def shaK1 : List Word :=
  [0xe49b69c1, 0xefbe4786, 0x0fc19dc6, 0x240ca1cc, 0x2de92c6f, 0x4a7484aa, 0x5cb0a9dc, 0x76f988da,
   0x983e5152, 0xa831c66d, 0xb00327c8, 0xbf597fc7, 0xc6e00bf3, 0xd5a79147, 0x06ca6351, 0x14292967]
/-- Rounds 32 to 47. -/
def shaK2 : List Word :=
  [0x27b70a85, 0x2e1b2138, 0x4d2c6dfc, 0x53380d13, 0x650a7354, 0x766a0abb, 0x81c2c92e, 0x92722c85,
   0xa2bfe8a1, 0xa81a664b, 0xc24b8b70, 0xc76c51a3, 0xd192e819, 0xd6990624, 0xf40e3585, 0x106aa070]
/-- Rounds 48 to 63. -/
def shaK3 : List Word :=
  [0x19a4c116, 0x1e376c08, 0x2748774c, 0x34b0bcb5, 0x391c0cb3, 0x4ed8aa4a, 0x5b9cca4f, 0x682e6ff3,
   0x748f82ee, 0x78a5636f, 0x84c87814, 0x8cc70208, 0x90befffa, 0xa4506ceb, 0xbef9a3f7, 0xc67178f2]
/-- The 64 round constants. -/
def shaK : List Word := shaK0 ++ shaK1 ++ shaK2 ++ shaK3

/-- The message schedule extended by n words; the window of the last sixteen words, oldest first. -/
def shaSched : Nat → List Word → List Word
  | 0, _ => []
  | n + 1, w =>
    let g (i : Nat) : Word := w.getD i 0
    let s0 := (g 1).rotateRight 7 ^^^ (g 1).rotateRight 18 ^^^ (g 1 >>> 3)
    let s1 := (g 14).rotateRight 17 ^^^ (g 14).rotateRight 19 ^^^ (g 14 >>> 10)
    let x := g 0 + s0 + g 9 + s1
    x :: shaSched n (w.drop 1 ++ [x])

/-- One round of SHA-256 on the working variables. -/
def shaRound (h : List Word) (kw : Word × Word) : List Word :=
  match h with
  | [a, b, c, d, e, f, g, hh] =>
    let s1 := e.rotateRight 6 ^^^ e.rotateRight 11 ^^^ e.rotateRight 25
    let ch := (e &&& f) ^^^ (~~~ e &&& g)
    let t1 := hh + s1 + ch + kw.1 + kw.2
    let s0 := a.rotateRight 2 ^^^ a.rotateRight 13 ^^^ a.rotateRight 22
    let maj := (a &&& b) ^^^ (a &&& c) ^^^ (b &&& c)
    [t1 + (s0 + maj), a, b, c, d + t1, e, f, g]
  | l => l

/-- The compression of sixteen message words into a hash state. -/
def shaCompress (h m : List Word) : List Word :=
  let w := m ++ shaSched 48 m
  List.zipWith (· + ·) h ((List.zip shaK w).foldl shaRound h)

/-- SHA-256 of a byte string. -/
def sha256 (b : List Byte) : List Byte :=
  let padLen := (119 - b.length % 64) % 64
  let p := b ++ [0x80] ++ List.replicate padLen 0 ++ toBytesBE 8 (8 * b.length)
  let ws := (chunks 4 (p.length / 4) p).map (fun x => BitVec.ofNat 32 (ofBytesBE x))
  let h := (chunks 16 (ws.length / 16) ws).foldl shaCompress shaInit
  (h.map (fun w => toBytesBE 4 w.toNat)).flatten

/-- HMAC-SHA-256 of a message (RFC 2104). -/
def hmac256 (key msg : List Byte) : List Byte :=
  let k0 := if 64 < key.length then sha256 key else key
  let k := k0 ++ List.replicate (64 - k0.length) 0
  sha256 (k.map (· ^^^ 0x5C#8) ++ sha256 (k.map (· ^^^ 0x36#8) ++ msg))
/-- HKDF-SHA-256 of at most 32 bytes (RFC 5869). -/
def hkdf256 (salt ikm info : List Byte) (n : Nat) : List Byte := (hmac256 (hmac256 salt ikm) (info ++ [1])).take n

/-- One byte into a CRC-32C remainder (reflected, polynomial 0x82F63B78), n bits to go. -/
def crcBits : Nat → BitVec 32 → BitVec 32
  | 0, c => c
  | n + 1, c => crcBits n (if c.getLsbD 0 then (c >>> 1) ^^^ 0x82F63B78#32 else c >>> 1)
/-- CRC-32C of a byte string. -/
def crc32c (b : List Byte) : BitVec 32 :=
  ~~~ (b.foldl (fun c x => crcBits 8 (c ^^^ x.setWidth 32)) 0xFFFFFFFF#32)

end Sys2Proof.Machine
end

