-- ==== Sys2Proof/Machine/DictBase.lean ====
section
/-!
DEFINITION. Machine/DictBase.lean: entries of the object dictionary, their types, values and defaults (R334–R336, Tables 11-10 to
11-16, 12-11 to 12-14), the sending of Ferry frames, and the answers to requests.
-/
namespace Sys2Proof.Machine

/-- The dictionary engine of the state changed. -/
def State.modDict (s : State) (f : Dict → Dict) : State := { s with dict := f s.dict }

/-- The size of a scalar type (Table 11-1). -/
def typeSize (ty : Nat) : Option Nat :=
  match ty with
  | 1 | 2 => some 1
  | 3 => some 2
  | 4 | 5 | 7 => some 4
  | 6 => some 8
  | _ => none

/-- A built-in scalar entry; built-in entries report OWNER 0 (R350). -/
def mkEnt (key ty acc rr wr : Nat) (ex : Bool) (n lo hi df : Nat) : DictDesc :=
  { index := key / 256, sub := key % 256, type := ty, access := acc, rrole := rr, wrole := wr, expert := ex, ember := true, owner := 0
    maxlen := n, min := lo, max := hi, dflt := df
    name := (List.range 24).map (Config.builtinName key) }

/-- A read-only number every Observer may read. -/
def roEnt (key ty df : Nat) : DictDesc :=
  let n := (typeSize ty).getD 0
  mkEnt key ty 0 1 0 false n 0 (256 ^ n - 1) df

/-- A read-only string, octet string or table. -/
def roBytes (key ty n : Nat) : DictDesc := mkEnt key ty 0 1 0 false n 0 0 0

/-- Tables 11-10 to 11-13, 11-15, 16-13 and the built-in entries of 0x9000. -/
def builtinA : List DictDesc :=
  [ roEnt 0x010000 2 0x0D, roBytes 0x010001 9 19, roBytes 0x010002 9 13, roBytes 0x010003 9 24, roBytes 0x010004 9 1,
    roBytes 0x010005 8 8, roEnt 0x010006 4 0, roEnt 0x010007 4 0, roEnt 0x010008 4 0x771643F1, roEnt 0x010009 4 0,
    roEnt 0x01000A 4 0, roEnt 0x01000B 4 0, roBytes 0x01000C 8 32, roEnt 0x01000D 4 0,
    roEnt 0x011000 2 9, roEnt 0x011001 2 0, roEnt 0x011002 4 0, roEnt 0x011003 2 0, roEnt 0x011004 4 0, roEnt 0x011005 2 0,
    roEnt 0x011006 2 0, roEnt 0x011007 3 0, roEnt 0x011008 3 0, roEnt 0x011009 7 0,
    roEnt 0x012000 2 3, roEnt 0x012001 4 0, roBytes 0x012002 10 516, mkEnt 0x012003 2 2 0 3 false 1 0 255 0,
    roEnt 0x015000 2 4, mkEnt 0x015001 3 5 1 4 true 2 10 1000 50, roEnt 0x015002 4 0, roEnt 0x015003 4 0, roEnt 0x015004 3 0,
    roEnt 0x016000 2 4, roEnt 0x016001 3 0, roEnt 0x016002 3 1024, roEnt 0x016003 3 0, mkEnt 0x016004 3 5 1 3 false 2 1 1000 20,
    roEnt 0x01F000 2 2, mkEnt 0x01F001 4 2 0 4 false 4 0 0xFFFFFFFF 0, roEnt 0x01F002 1 0,
    roEnt 0x140000 2 2, roEnt 0x140001 3 0, roEnt 0x140002 3 0,
    { roEnt 0x240000 2 1 with expert := true }, mkEnt 0x240001 2 2 0 4 true 1 0 255 0,
    roEnt 0x170000 2 5, roEnt 0x170001 1 0, roEnt 0x170002 2 0, roEnt 0x170003 6 0, roEnt 0x170004 4 0,
    { mkEnt 0x170005 6 2 0 3 false 8 0 0xFFFFFFFFFFFFFFFF 0 with ember := false, owner := 1 },
    roEnt 0x900000 2 2, roEnt 0x900001 2 8, roEnt 0x900002 2 0 ]

/-- Tables 12-11 to 12-14. -/
def builtinB : List DictDesc :=
  [ roEnt 0x020000 2 5, mkEnt 0x020001 2 5 1 3 false 1 0 127 0, roEnt 0x020002 3 0, mkEnt 0x020003 3 5 1 4 true 2 1024 65535 5816,
    mkEnt 0x020004 3 5 1 3 false 2 10 3600 300, mkEnt 0x020005 1 5 1 3 false 1 0 1 1,
    roEnt 0x021000 2 5, mkEnt 0x021001 2 5 1 3 false 1 0 1 1, mkEnt 0x021002 4 5 1 3 false 4 0 0xFFFFFFFF 0,
    mkEnt 0x021003 4 5 1 3 false 4 0 0xFFFFFFFF 0, mkEnt 0x021004 4 5 1 3 false 4 0 0xFFFFFFFF 0, roEnt 0x021005 4 0,
    roEnt 0x022000 2 5, mkEnt 0x022001 10 5 1 3 false 1092 0 0 0, roBytes 0x022002 10 1092, roBytes 0x022003 8 1024,
    roBytes 0x022004 8 1024, roEnt 0x022005 1 1,
    roEnt 0x023000 2 3, roEnt 0x023001 2 0, roBytes 0x023002 10 516, mkEnt 0x023003 3 2 0 3 false 2 0 65535 0,
    roEnt 0x024000 2 6, roEnt 0x024001 4 0, roEnt 0x024002 4 0, roEnt 0x024003 4 0, roEnt 0x024004 4 0, roEnt 0x024005 4 0,
    roEnt 0x024006 4 0 ]

/-- The indices of the commands (Table 11-17), in order. -/
def cmdIndices : List Nat := [0x9010, 0x9011, 0x9012, 0x9013, 0x9014, 0x9015, 0x9020]

/-- The number of a command by its index. -/
def cmdOf (index : Nat) : Option Nat := cmdIndices.findIdx? (· == index)

/-- A subindex of a command entry (Table 11-16). -/
def cmdEntry (index sub : Nat) : Option DictDesc :=
  let k := index * 256 + sub
  match sub with
  | 0 => some (roEnt k 2 8)
  | 1 => some (mkEnt k 2 2 0 3 false 1 1 3 0)
  | 2 => some (roEnt k 2 0)
  | 3 => some (roEnt k 4 0)
  | 4 => some (roEnt k 4 0)
  | 5 => some (roEnt k 2 0)
  | 6 => some (roEnt k 3 0)
  | 7 => some (mkEnt k 8 1 1 3 false 32 0 0 0)
  | 8 => some (roBytes k 8 32)
  | _ => none

/-- A subindex of isle i's header (Table 11-14). -/
def headerEntry (key : Nat) : Option DictDesc :=
  match key % 256 with
  | 0 => some (roEnt key 2 5)
  | 1 => some (roEnt key 2 ((key / 256 - 0x4000) / 64))
  | 2 => some (roBytes key 9 16)
  | 3 => some (roBytes key 9 16)
  | 4 => some (roEnt key 4 0)
  | 5 => some (roEnt key 2 0)
  | _ => none

/-- The isle an index belongs to, if it lies in the isle range (R360). -/
def isleOf (index : Nat) : Option Nat := if 0x4000 ≤ index ∧ index < 0x8000 then some ((index - 0x4000) / 64) else none

/-- The entries registered for isle i. -/
def Dict.isleEntries (d : Dict) (i : Nat) : List DictDesc := d.cat.filter (fun e => isleOf e.index == some i)

/-- The key of a descriptor. -/
def DictDesc.key (d : DictDesc) : Nat := d.index * 256 + d.sub

/-- A built-in entry (R358, R361, R363, R405). -/
def Dict.builtin (d : Dict) (key : Nat) : Option DictDesc :=
  match cmdOf (key / 256) with
  | some _ => cmdEntry (key / 256) (key % 256)
  | none =>
    match isleOf (key / 256) with
    | some i => if key / 256 % 64 = 0 ∧ (d.isleEntries i).isEmpty = false then headerEntry key else none
    | none => (builtinA ++ builtinB).find? (fun e => e.key == key)

/-- An entry of the dictionary: built in or registered. -/
def Dict.entry (d : Dict) (key : Nat) : Option DictDesc :=
  match d.builtin key with
  | some e => some e
  | none => d.cat.find? (fun e => e.key == key)

/-- The bytes of an ASCII string. -/
def asciiBytes (t : String) : List Byte := t.toList.map (fun c => BitVec.ofNat 8 c.toNat)

/-- The default of an entry: the descriptor's for a scalar, the table's text, the part's own value, a table of no rows, or empty. -/
def DictDesc.defaultBytes (e : DictDesc) : List Byte :=
  match typeSize e.type with
  | some n => if e.key = 0x010009 then Config.partInfo e.key else toBytes n e.dflt
  | none =>
    if e.key = 0x010001 then asciiBytes "Berulo Microsystems"
    else if e.key = 0x010002 then asciiBytes "Kazlon KZ7716"
    else if e.key = 0x010004 then asciiBytes "C"
    else if e.key = 0x010003 ∨ e.key = 0x010005 ∨ e.key = 0x022003 ∨ e.key = 0x022004 then Config.partInfo e.key
    else if e.type = 10 then [0, 0, 0, 0]
    else []

/-- The stored value of an entry: what the value store holds, else its default. -/
def Dict.val (d : Dict) (e : DictDesc) : List Byte := (Sparse.find? e.key d.vals).getD e.defaultBytes
/-- The stored value of a built-in or registered scalar by key, as a number. -/
def Dict.num (d : Dict) (key : Nat) : Nat :=
  match d.entry key with
  | some e => ofBytes (d.val e)
  | none => 0
/-- The value store with the value of a key set. -/
def Dict.setVal (d : Dict) (key : Nat) (v : List Byte) : Dict := { d with vals := Sparse.put key v d.vals }
/-- A 32-bit counter of the value store raised by one, wrapping. -/
def Dict.count (d : Dict) (key : Nat) : Dict := d.setVal key (toBytes 4 (d.num key + 1))

/-- UTF-8 read byte by byte: how many continuation bytes are due, and the range of the next. -/
def utf8Run : Nat → Nat → Nat → List Byte → Bool
  | need, _, _, [] => need == 0
  | 0, _, _, b :: r =>
    let n := b.toNat
    if n < 0x80 then utf8Run 0 0 0 r
    else if 0xC2 ≤ n ∧ n ≤ 0xDF then utf8Run 1 0x80 0xBF r
    else if n = 0xE0 then utf8Run 2 0xA0 0xBF r
    else if n = 0xED then utf8Run 2 0x80 0x9F r
    else if 0xE1 ≤ n ∧ n ≤ 0xEF then utf8Run 2 0x80 0xBF r
    else if n = 0xF0 then utf8Run 3 0x90 0xBF r
    else if n = 0xF4 then utf8Run 3 0x80 0x8F r
    else if 0xF1 ≤ n ∧ n ≤ 0xF3 then utf8Run 3 0x80 0xBF r
    else false
  | m + 1, lo, hi, b :: r => decide (lo ≤ b.toNat) && decide (b.toNat ≤ hi) && utf8Run m 0x80 0xBF r

/-- The type and length check (Table 11-2 step 5). -/
def DictDesc.typeOk (e : DictDesc) (v : List Byte) : Bool :=
  match typeSize e.type with
  | some n => v.length == n
  | none =>
    decide (v.length ≤ e.maxlen)
      && (e.type != 9 || utf8Run 0 0 0 v)
      && (e.type != 10 || (decide (4 ≤ v.length) && v.length == 4 + ofBytes (v.take 2) * ofBytes ((v.drop 2).take 2)))

/-- Whether a 32-bit pattern is a NaN. -/
def isNan32 (n : Nat) : Bool := n / 2 ^ 23 % 256 == 255 && n % 2 ^ 23 != 0
/-- The order of a scalar value: signed for I32, by real value for F32. -/
def scalarOrd (ty n : Nat) : Int :=
  if ty = 5 then sx 32 n
  else if ty = 7 then (if n / 2 ^ 31 % 2 = 1 then -((n % 2 ^ 31 : Nat) : Int) else ((n % 2 ^ 31 : Nat) : Int))
  else (n : Int)

/-- The range check (Table 11-2 step 6): F32 ranges with both bounds zero are taken as no bound on a built-in entry only. -/
def DictDesc.rangeOk (e : DictDesc) (v : List Byte) : Bool :=
  match typeSize e.type with
  | none => true
  | some _ =>
    let n := ofBytes v
    if e.type = 1 then decide (n ≤ 1)
    else if e.type = 7 ∧ isNan32 n = true then false
    else decide (scalarOrd e.type e.min ≤ scalarOrd e.type n) && decide (scalarOrd e.type n ≤ scalarOrd e.type e.max)

/-- A command's state in the queue: its position (Table 11-16 X:05). -/
def Dict.cmdPos (d : Dict) (i : Nat) : Nat := (d.queue.findIdx? (· == i)).getD 0
/-- Command i. -/
def Dict.cmd (d : Dict) (i : Nat) : Cmd := vget d.cmds i Cmd.reset
/-- Command i changed. -/
def Dict.setCmd (d : Dict) (i : Nat) (c : Cmd) : Dict := { d with cmds := vset d.cmds i c }

/-- The value of a command's status subindices. -/
def Dict.cmdVal (d : Dict) (i sub : Nat) : Option (List Byte) :=
  let c := d.cmd i
  match sub with
  | 2 => some (toBytes 1 c.st)
  | 3 => some (toBytes 4 c.k)
  | 4 => some (toBytes 4 c.n)
  | 5 => some (toBytes 1 (d.cmdPos i))
  | 6 => some (toBytes 2 c.reason)
  | 7 => some c.arg
  | 8 => some c.result
  | _ => none

/-- Whether each world has started, has booted, or has halted on some tile: 0x0110:05 and :06 (Table 11-11). Trade is running once
the boot controls are locked, Open once it has been started (DESIGN CHOICE, log 46). -/
def State.worldState (s : State) (w : World) : Nat :=
  if !vget s.dev.started w.idx false then 0
  else if allTiles.any (fun t => (s.tile t).haltBit w) then 3
  else if w == .opn || bit (s.reg 0x00D 0x1118) 0 then 2
  else 1

/-- The device state as 0x0110:01 codes it. -/
def DevSt.code : DevSt → Nat
  | .run => 0
  | .idle => 1
  | .doze => 2
  | .banked => 3
  | .dormant => 4

/-- A bit for each tile that a test accepts. -/
def State.tileBits (s : State) (p : Tile → Bool) : Nat := (allTiles.map (fun t => if p (s.tile t) then 2 ^ t.toNat else 0)).sum

/-- Whether a tile is in service: neither ashed nor excluded, its self-test passed. -/
def Tile.inService (x : Tile) : Bool := !x.sys.ashed && !x.sys.excluded

/-- A row of the error records as 0x0120:02 lays it out (R359). -/
def ErrRow.bytes (r : ErrRow) : List Byte :=
  toBytes 8 r.time ++ toBytes 1 r.kind ++ toBytes 1 r.tile ++ toBytes 1 (b2n r.world.bit) ++ toBytes 1 r.code.toNat ++ toBytes 4 r.info.toNat

/-- A table of rows of one size. -/
def tableBytes (size : Nat) (rows : List (List Byte)) : List Byte := toBytes 2 rows.length ++ toBytes 2 size ++ rows.flatten

/-- The code of a carrier in 0x0230:02. -/
def carrierCode : Carrier → Nat
  | .backbone _ => 0
  | .lane _ => 1
  | .usb _ => 2

/-- A row of the session list 0x0230:02. -/
def State.sessionRow (s : State) (x : Session) : List Byte :=
  toBytes 2 x.num ++ toBytes 2 x.node ++ toBytes 1 x.role ++ toBytes 1 (carrierCode x.carrier)
    ++ toBytes 1 (b2n x.comm + 2 * b2n (x.unlock.any (fun e => decide (s.now < e)))) ++ [0]
    ++ toBytes 2 ((s.now - x.last) / 1000000) ++ [0, 0] ++ toBytes 4 x.frames

/-- The link-local address of the backbone (RFC 3927): one of 169.254.1.0 to 169.254.254.255, an open choice. -/
def linkLocal : Nat := 0xA9FE0100 + (Config.entropy 0).toNat % 0xFE00

/-- The IPv4 address in use on the backbone (0x0210:05). -/
def Dict.address (d : Dict) : Nat := if d.num 0x021001 = 0 then d.num 0x021002 else linkLocal

/-- Whether the anchors of 0x0220:01 hold no row (R392). -/
def Dict.noAnchors (d : Dict) : Bool :=
  match d.entry 0x022001 with
  | some e => ofBytes ((d.val e).take 2) == 0
  | none => true

/-- The RTC's time in ns (R489). -/
def State.rtcNs (s : State) : Nat := s.rtc.time / 2 ^ 32 % 2 ^ 64
/-- LOCKED of the RTC: it follows the time block (R490). -/
def State.rtcLocked (s : State) : Bool := s.tb.locked && (s.dev.st == .run || s.dev.st == .idle || s.dev.st == .doze)
/-- VALID of the RTC (R491). -/
def State.rtcValid (s : State) : Bool := s.rtc.valid || s.rtcLocked
/-- The seconds of holdover (R490). -/
def State.rtcHoldover (s : State) : Nat := if s.rtcLocked then 0 else ((s.rtc.hold.map (fun t => (s.now - t) / 1000000)).getD 0) % 2 ^ 32
/-- The source of the time (Table 16-13): 0 none, 1 following, 2 holdover, 3 set. -/
def State.rtcSource (s : State) : Nat :=
  if s.rtcLocked then 1 else if s.rtc.hold.isSome then 2 else if s.rtc.wasSet then 3 else 0

/-- The built-in values that the engine computes at each read (R358, Tables 11-10 to 11-15, 12-11 to 12-14); unlocked says whether the
reading session's expert unlock is set. -/
def State.computed (s : State) (unlocked : Bool) (key : Nat) : Option (List Byte) :=
  let d := s.dict
  match cmdOf (key / 256) with
  | some i =>
    -- a sweep that the command follows shows the sweep engine's K and N (R374)
    if i = 4 ∧ d.follow = true ∧ key % 256 = 3 then some (toBytes 4 (s.reg 0x021 0x120C).toNat)
    else if i = 4 ∧ d.follow = true ∧ key % 256 = 4 then some (toBytes 4 (s.reg 0x021 0x1210).toNat)
    else d.cmdVal i (key % 256)
  | none =>
    match key with
    | 0x010006 => some (toBytes 4 (fld (s.reg 0x023 0x1018) 15 0))
    | 0x010007 => some (toBytes 4 (fld (s.reg 0x023 0x1018) 15 0 / 16 * 15))
    | 0x011001 => some (toBytes 1 s.dev.st.code)
    | 0x011002 => some (toBytes 4 ((s.now - s.dev.resetAt) / 1000000))
    | 0x011003 => some (toBytes 1 s.dev.resetCode)
    | 0x011004 => some (toBytes 4 s.dev.resets)
    | 0x011005 => some (toBytes 1 (s.worldState .trade))
    | 0x011006 => some (toBytes 1 (s.worldState .opn))
    | 0x011007 => some (toBytes 2 (s.tileBits (·.inService)))
    | 0x011008 => some (toBytes 2 (s.tileBits (·.sys.ashed)))
    | 0x011009 => some (toBytes 4 (Config.freeWord s.free).toNat)
    | 0x012001 => some (toBytes 4 s.errCount.toNat)
    | 0x012002 => some (tableBytes 16 (s.errRows.map ErrRow.bytes))
    | 0x016001 => some (toBytes 2 d.cat.length)
    | 0x016003 => some (toBytes 2 ((vget d.wq 0 []).length + (vget d.wq 1 []).length))
    | 0x170001 => some (toBytes 1 (b2n s.rtcValid))
    | 0x170002 => some (toBytes 1 s.rtcSource)
    | 0x170003 => some (toBytes 8 s.rtcNs)
    | 0x170004 => some (toBytes 4 s.rtcHoldover)
    | 0x01F002 => some (toBytes 1 (b2n unlocked))
    | 0x140002 => some (toBytes 2 ((List.range 256).filter (fun i => !(d.isleEntries i).isEmpty)).length)
    | 0x900002 => some (toBytes 1 d.queue.length)
    | 0x020002 => some (toBytes 2 (128 * d.num 0x020001))
    | 0x021005 => some (toBytes 4 d.address)
    | 0x022005 => some (toBytes 1 (b2n d.noAnchors))
    | 0x023001 => some (toBytes 1 d.sess.length)
    | 0x023002 => some (tableBytes 16 (d.sess.map s.sessionRow))
    | _ =>
      match isleOf (key / 256) with
      | some i => if key / 256 % 64 = 0 ∧ key % 256 = 5 then some (toBytes 1 (d.isleEntries i).length) else none
      | none => none

/-- The value that a read of an ember-served entry returns. -/
def State.dictVal (s : State) (unlocked : Bool) (e : DictDesc) : List Byte := (s.computed unlocked e.key).getD (s.dict.val e)

/-- The device's node ID (R379). -/
def Dict.node (d : Dict) : Nat := 128 * d.num 0x020001

/-- The header of a Ferry frame (Table 12-1). -/
def ferryHeader (type dst src session seq len : Nat) : List Byte :=
  [1] ++ toBytes 1 type ++ toBytes 2 dst ++ toBytes 2 src ++ toBytes 2 session ++ toBytes 4 seq ++ toBytes 2 len ++ [0, 0]

/-- A message sent. -/
def State.send (s : State) (m : OutMsg) : State := { s with out := s.out ++ [m] }

/-- An unprotected frame sent (Table 12-3). -/
def State.ferryPlain (s : State) (c : Carrier) (p : Peer) (node session type : Nat) (payload : List Byte) : State :=
  s.send (.ferry c p (ferryHeader type node s.dict.node session 0 payload.length ++ payload))

/-- ERROR for a frame that cannot be answered inside a session (R402, Table 12-7). -/
def State.ferryError (s : State) (c : Carrier) (p : Peer) (node fstatus type tag : Nat) : State :=
  s.ferryPlain c p node 0 0x08 (toBytes 1 fstatus ++ toBytes 1 type ++ toBytes 2 tag)

/-- The nonce of a protected frame (R387): the salt of its direction and SEQ. -/
def ferryNonce (salt : List Byte) (seq : Nat) : List Byte := salt ++ toBytes 4 seq

/-- A session by its number. -/
def Dict.session (d : Dict) (n : Nat) : Option Session := d.sess.find? (fun x => x.num == n)
/-- A session changed. -/
def State.modSess (s : State) (n : Nat) (f : Session → Session) : State :=
  s.modDict (fun d => { d with sess := d.sess.map (fun x => if x.num = n then f x else x) })

/-- A protected frame sent in a session under the next SEQ (R387, R388); a session that has used its last SEQ ends instead (DEDUCED, log 47). -/
def State.ferrySend (s : State) (n type : Nat) (payload : List Byte) : State :=
  match s.dict.session n with
  | none => s
  | some x =>
    if 0xFFFFFFFF < x.out then s.modDict (fun d => { d with sess := d.sess.filter (fun y => y.num != n) })
    else
      let h := ferryHeader type x.node s.dict.node n x.out payload.length
      let (ct, tag) := gcmSeal ((x.keys.drop 16).take 16) (ferryNonce ((x.keys.drop 40).take 8) x.out) h payload
      (s.send (.ferry x.carrier x.peer (h ++ ct ++ tag))).modSess n (fun y => { y with out := y.out + 1 })

/-- A response of a session: sent, and kept with its TAG among the last eight (R393, R401). -/
def State.ferryAnswer (s : State) (n tag type : Nat) (payload : List Byte) : State :=
  (s.ferrySend n type payload).modSess n (fun y =>
    { y with answered := ((tag, type, payload) :: y.answered).take 8, pendTags := y.pendTags.filter (· != tag) })

/-- The four bytes that begin every response (R393). -/
def rspHead (tag status fstatus : Nat) : List Byte := toBytes 2 tag ++ toBytes 1 status ++ toBytes 1 fstatus

/-- An EVENT of a session (Table 12-7), numbered by EVSEQ (R399). -/
def State.ferryEvent (s : State) (n subid flags key : Nat) (v : List Byte) : State :=
  match s.dict.session n with
  | none => s
  | some x =>
    let pay := toBytes 1 subid ++ toBytes 1 flags ++ toBytes 2 (key / 256) ++ toBytes 1 (key % 256) ++ toBytes 1 v.length ++ [0, 0]
      ++ toBytes 4 x.evseq ++ [0, 0, 0, 0] ++ toBytes 8 s.ptp ++ v
    (s.ferrySend n 0x34 pay).modSess n (fun y => { y with evseq := y.evseq + 1 })

/-- One change event to a subscription (R399): sent at once, or merged until MININT after the previous event. -/
def State.notifySub (s : State) (n : Nat) (b : Subn) (v : List Byte) : State :=
  let upd (f : Subn → Subn) (s : State) : State :=
    s.modSess n (fun y => { y with subs := y.subs.map (fun c => if c.id = b.id then f c else c) })
  let early := match b.last with
    | some l => decide (s.now < l + b.minint * 1000)
    | none => false
  if early then upd (fun c => { c with waiting := true }) s
  else upd (fun c => { c with last := some s.now, waiting := false }) (s.ferryEvent n b.id 0 b.key (v.take 48))

/-- The change of an entry told to every subscription on change (R399). -/
def State.publish (s : State) (key : Nat) (v : List Byte) : State :=
  s.dict.sess.foldl (fun s x =>
    (x.subs.filter (fun b => b.key == key && !b.periodic)).foldl (fun s b => s.notifySub x.num b v) s) s

/-- The mailbox of a world (Table 11-5). -/
def mailboxOf : World → Nat
  | .trade => 0x6030000
  | .opn => 0x6034000

/-- The engine's writes to ember SRAM: cached copies go, as for every system master (R145). -/
def State.emberWrite (s : State) (pa : Nat) (bs : List Byte) : State := (s.dropCopies pa bs.length).memWrite pa bs

/-- A local request answered (Tables 11-7, 11-8, 11-9): STATUS, LENGTH and the value, inline or in the value area; then LDONE. -/
def State.localAnswer (s : State) (w : World) (slot status : Nat) (v : List Byte) : State :=
  let a := mailboxOf w + 64 * slot
  let s1 := if v.isEmpty then s
    else
      let voff := if v.length ≤ 48 then 0 else 0x1000
      let s2 := (s.emberWrite (a + 8) (toBytes 2 v.length)).emberWrite (a + 10) (toBytes 2 voff)
      if v.length ≤ 48 then s2.emberWrite (a + 16) v else s2.emberWrite (mailboxOf w + 0x1000) v
  let s3 := s1.emberWrite (a + 5) (toBytes 1 status)
  s3.setRegW w 0x028 0x1008 (setBit (s3.regW w 0x028 0x1008) slot true)

/-- Bytes 1,024·j on of a value: one segment (R396). -/
def segment (v : List Byte) (j : Nat) : List Byte := (v.drop (1024 * j)).take 1024

/-- The first segment of a segmented read, its snapshot kept under its XFER (R396). -/
def State.segStart (s : State) (n x tag : Nat) (key : Nat) (status : Nat) (v : List Byte) : State :=
  let seg := segment v 0
  let s1 := s.ferryAnswer n tag 0x25
    (rspHead tag status 0 ++ toBytes 2 v.length ++ [0, 0] ++ toBytes 2 seg.length ++ [0, 0] ++ seg)
  let last := decide (v.length ≤ 1024)
  s1.modSess n (fun y =>
    let rest := y.xfers.filter (fun e => e.id != x)
    { y with xfers := if status = 0 ∧ last = false then
        { id := x, write := false, key := key, total := v.length, data := v, next := 1, last := s.now } :: rest else rest })

/-- The answer to a request (R344, R393, R395). -/
def State.answer (s : State) (r : DReq) (status : Nat) (v : List Byte) : State :=
  match r.src with
  | .mailbox w slot => s.localAnswer w slot status v
  | .ferry n .read =>
    if status = 0 ∧ 1024 < v.length then s.ferryAnswer n r.tag 0x21 (rspHead r.tag 0 8 ++ toBytes 2 v.length ++ [0, 0])
    else s.ferryAnswer n r.tag 0x21 (rspHead r.tag status 0 ++ toBytes 2 v.length ++ [0, 0] ++ v)
  | .ferry n .write => s.ferryAnswer n r.tag 0x23 (rspHead r.tag status 0)
  | .ferry n (.segRead x) => s.segStart n x r.tag r.key status v
  | .ferry n (.command _) =>
    match cmdOf (r.key / 256) with
    | some i => s.ferryAnswer n r.tag 0x29 (rspHead r.tag status 0 ++ toBytes 1 (s.dict.cmd i).st ++ toBytes 1 (s.dict.cmdPos i))
    | none => s.ferryAnswer n r.tag 0x29 (rspHead r.tag 0 0x0D ++ [0, 0])
  | .ferry n (.segWrite x) =>
    (s.ferryAnswer n r.tag 0x27 (rspHead r.tag status 0)).modSess n (fun y => { y with xfers := y.xfers.filter (fun e => e.id != x) })

/-- A row of the error records (R359): at most 32 rows, newest first. -/
def State.errRow (s : State) (kind : Nat) (t : TileId) (w : World) (c : Code) (info : Word) : State :=
  { s with errCount := s.errCount + 1
           errRows := ({ time := s.ptp, kind := kind, tile := t.toNat, world := w, code := c, info := info } :: s.errRows).take 32 }

/-- A notification source raised (R355, R369, R385): a software source and a source sensed by level take their latch (DEDUCED, log 49), another an
edge. -/
def State.raiseNotify (s : State) (i : Nat) : State :=
  if irqSoft i || s.irqSense i == 0 then { s with irq := { s.irq with pend := setIrqBit s.irq.pend i true } } else s.raise i

/-- A world's NOTIFY of the dictionary engine (slot 0x028) or the step engine (slot 0x02C) raised where EN. -/
def State.notifyWorld (s : State) (slot : Nat) (w : World) : State :=
  let v := s.regW w slot (if slot = 0x028 then 0x1020 else 0x1010)
  if bit v 31 then s.raiseNotify (fld v 8 0) else s

/-- The world that owns a command's steps (R364, R374, R453, R510, R531): Trade for IMAGE_VERIFY, JOURNAL_EXPORT and a CHAR_SWEEP of the
Trade world. -/
def Dict.cmdWorld (d : Dict) (i : Nat) : World :=
  if i = 2 ∨ i = 3 then .trade
  else if i = 4 ∧ (d.cmd 4).arg.getD 0 0 = 1 then .trade
  else .opn

/-- A command's notices to the sessions that asked for them (R400): its state at each change, k at most every 100 ms; back in IDLE they
end. -/
def State.cmdNotices (s : State) (i : Nat) (old new : Cmd) : State :=
  let x := cmdIndices.getD i 0
  s.dict.sess.foldl (fun s y =>
    match y.notes.find? (fun e => e.1 == i) with
    | none => s
    | some e =>
      let s1 := if old.st = new.st then s else s.ferryEvent y.num 0 2 (x * 256 + 2) (toBytes 1 new.st)
      let s2 := if old.k ≠ new.k ∧ e.2 + 100000 ≤ s.now then
          (s1.ferryEvent y.num 0 2 (x * 256 + 3) (toBytes 4 new.k)).modSess y.num (fun z =>
            { z with notes := z.notes.map (fun f => if f.1 = i then (i, s.now) else f) })
        else s1
      if new.st = 0 then s2.modSess y.num (fun z => { z with notes := z.notes.filter (fun f => f.1 != i) }) else s2) s

/-- Command i takes a new value, with its notices. -/
def State.putCmd (s : State) (i : Nat) (c : Cmd) : State :=
  (s.modDict (·.setCmd i c)).cmdNotices i (s.dict.cmd i) c

/-- Command i ends DONE (2) or FAILED (3) with a reason, and leaves the queue (R368, R369). -/
def State.cmdEnd (s : State) (i st reason : Nat) : State :=
  let head := s.dict.queue.head? == some i
  let s1 := s.modDict (fun d =>
    { d with queue := d.queue.filter (· != i), grant := if head then none else d.grant
             started := if head then false else d.started, follow := if head then false else d.follow })
  s1.putCmd i { s1.dict.cmd i with st := st, reason := reason }

/-- A halt of a world on the tile that its step source targets, while a step of that world is granted (R372). -/
def State.stepHalt (s : State) (t : TileId) (w : World) : State :=
  match s.dict.queue.head?, s.dict.grant with
  | some i, some _ =>
    if s.dict.cmdWorld i == w && s.irqTile (fld (s.regW w 0x02C 0x1010) 8 0) == t then s.cmdEnd i 3 0x8003 else s
  | _, _ => s

/-- A world reset fails every queued or running command of the world (R372). -/
def State.cmdsWorldReset (s : State) (w : World) : State :=
  (s.dict.queue.filter (fun i => s.dict.cmdWorld i == w)).foldl (fun s i => s.cmdEnd i 3 0x8004) s

/-- The tile that a world's NOTIFY source of the dictionary engine targets, where EN. -/
def State.notifyTile (s : State) (w : World) : Option TileId :=
  let v := s.regW w 0x028 0x1020
  if bit v 31 then some (s.irqTile (fld v 8 0)) else none

end Sys2Proof.Machine
end

