-- ==== Sys2Proof/Machine/Flags.lean ====
section
/-!
DEFINITION. Machine/Flags.lean: the arithmetic units' results and the conditions and flags they raise: ALU, shifter, compare,
multiplier, divider (R120–R125), multiply-accumulate (R195, R196) and the binary32 FPU (R126, Table 4-3).
-/
namespace Sys2Proof.Machine

/-- ALU triggers (Table 4-2). -/
inductive AluOp where
  | add | sub | rsub | addv | subv | and | or | xor | andn | min | max | minu | maxu | sexb | sexh | zexb | zexh | pass
deriving DecidableEq, Repr

/-- The result of an ALU trigger on operand a and value v. -/
def aluResult (op : AluOp) (a v : Word) : Word :=
  match op with
  | .add | .addv => a + v
  | .sub | .subv => a - v
  | .rsub => v - a
  | .and => a &&& v
  | .or => a ||| v
  | .xor => a ^^^ v
  | .andn => a &&& ~~~ v
  | .min => if a.toInt ≤ v.toInt then a else v
  | .max => if a.toInt ≤ v.toInt then v else a
  | .minu => if a.toNat ≤ v.toNat then a else v
  | .maxu => if a.toNat ≤ v.toNat then v else a
  | .sexb => (v.setWidth 8).signExtend 32
  | .sexh => (v.setWidth 16).signExtend 32
  | .zexb => v &&& 0xFF
  | .zexh => v &&& 0xFFFF
  | .pass => v

/-- Whether ADDV or SUBV overflows: the exact signed result differs from the narrowed one. -/
def aluOverflow (op : AluOp) (a v : Word) : Bool :=
  match op with
  | .addv => (a + v).toInt != a.toInt + v.toInt
  | .subv => (a - v).toInt != a.toInt - v.toInt
  | _ => false

/-- Shifter triggers. -/
inductive ShfOp where
  | sll | srl | sra | ror
deriving DecidableEq, Repr

/-- The result of a shift of a by v[4:0]. -/
def shfResult (op : ShfOp) (a v : Word) : Word :=
  let n := fld v 4 0
  match op with
  | .sll => a <<< n
  | .srl => a >>> n
  | .sra => a.sshiftRight n
  | .ror => a.rotateRight n

/-- Compare triggers. -/
inductive CmpOp where
  | eq | ne | lt | ge | ltu | geu | tst
deriving DecidableEq, Repr

/-- The result of a compare of a with v. -/
def cmpResult (op : CmpOp) (a v : Word) : Bool :=
  match op with
  | .eq => a == v
  | .ne => a != v
  | .lt => decide (a.toInt < v.toInt)
  | .ge => decide (v.toInt ≤ a.toInt)
  | .ltu => decide (a.toNat < v.toNat)
  | .geu => decide (v.toNat ≤ a.toNat)
  | .tst => (a &&& v) != 0

/-- Multiplier triggers. -/
inductive MulOp where
  | mul | mulh | mulhu
deriving DecidableEq, Repr

/-- The result of a multiply. -/
def mulResult (op : MulOp) (a v : Word) : Word :=
  match op with
  | .mul => a * v
  | .mulh => BitVec.ofInt 32 (a.toInt * v.toInt / 2 ^ 32)
  | .mulhu => BitVec.ofNat 32 (a.toNat * v.toNat / 2 ^ 32)

/-- Divider triggers. -/
inductive DivOp where
  | div | divu | rem | remu
deriving DecidableEq, Repr

/-- The result of a divide (R125): by zero, all ones or A; 0x8000_0000 ÷ −1 wraps. -/
def divResult (op : DivOp) (a v : Word) : Word :=
  if v = 0 then
    match op with
    | .div | .divu => 0xFFFFFFFF
    | .rem | .remu => a
  else
    match op with
    | .div => BitVec.ofInt 32 (Int.tdiv a.toInt v.toInt)
    | .divu => a / v
    | .rem => BitVec.ofInt 32 (Int.tmod a.toInt v.toInt)
    | .remu => a % v

/-- MAC product triggers. -/
inductive MacOp where
  | full | dual
deriving DecidableEq, Repr

/-- The exact product p of Table 6-4, signed or unsigned according to U. -/
def macProduct (op : MacOp) (u : Bool) (a v : Word) : Int :=
  let val (n x : Nat) : Int := if u then (x : Int) else sx n x
  match op with
  | .full => val 32 a.toNat * val 32 v.toNat
  | .dual => val 16 (a.toNat % 65536) * val 16 (v.toNat % 65536) + val 16 (a.toNat / 65536) * val 16 (v.toNat / 65536)

/-- The accumulator and its sticky flags. -/
structure Acc where
  acc : DWord
  ovf : Bool
  satf : Bool
deriving DecidableEq, Repr

/-- The accumulator after a product p under MAC.CFG cfg, and whether it wrapped (R195). -/
def macStep (cfg : Word) (p : Int) (x : Acc) : Acc × Bool :=
  let u := bit cfg 0
  let acc : Int := if u then (x.acc.toNat : Int) else x.acc.toInt
  let sum := if bit cfg 2 then acc - p else acc + p
  let lo : Int := if u then 0 else -(2 ^ 63)
  let hi : Int := if u then 2 ^ 64 - 1 else 2 ^ 63 - 1
  if lo ≤ sum ∧ sum ≤ hi then ({ x with acc := BitVec.ofInt 64 sum }, false)
  else if bit cfg 1 then ({ x with acc := BitVec.ofInt 64 (if sum < lo then lo else hi), satf := true }, false)
  else ({ x with acc := BitVec.ofInt 64 sum, ovf := true }, true)

/-- What MAC.ACCL reads (R196). -/
def macRead (cfg : Word) (acc : DWord) : Word :=
  let u := bit cfg 0
  let osh := fld cfg 10 6
  let shifted : DWord := if u then acc >>> osh else acc.sshiftRight osh
  if bit cfg 1 then
    if u then (if shifted.toNat > 0xFFFFFFFF then 0xFFFFFFFF else shifted.setWidth 32)
    else if shifted.toInt > 2 ^ 31 - 1 then 0x7FFFFFFF
    else if shifted.toInt < -(2 ^ 31) then 0x80000000
    else shifted.setWidth 32
  else shifted.setWidth 32

/-- Float flags, invalid to inexact from bit 4 to bit 0 (Table 4-3). -/
abbrev FFlags := BitVec 5
/-- Invalid. -/
def fNV : FFlags := 0b10000
/-- Division by zero. -/
def fDZ : FFlags := 0b01000
/-- Overflow with inexact. -/
def fOFNX : FFlags := 0b00101
/-- Underflow. -/
def fUF : FFlags := 0b00010
/-- Inexact. -/
def fNX : FFlags := 0b00001

/-- A binary32 number taken apart. -/
inductive Fp where
  | nan (signaling : Bool)
  | inf (neg : Bool)
  | fin (neg : Bool) (m : Nat) (e : Int)
deriving DecidableEq, Repr

/-- The parts of a binary32 word: a finite value is m × 2^e. -/
def fpUnpack (x : Word) : Fp :=
  let neg := bit x 31
  let ex := fld x 30 23
  let fr := fld x 22 0
  if ex = 255 then (if fr = 0 then .inf neg else .nan (!bit x 22))
  else if ex = 0 then .fin neg fr (-149)
  else .fin neg (fr + 2 ^ 23) ((ex : Int) - 150)

/-- A binary32 word from its sign, biased exponent and fraction. -/
def fpPack (neg : Bool) (ex fr : Nat) : Word := BitVec.ofNat 32 ((b2n neg <<< 31) + (ex <<< 23) + fr)

/-- Whether a value with remainder rem of 2^d (and more below, if sticky) rounds away from zero. -/
def fpRoundUp (rm : Nat) (neg : Bool) (odd : Bool) (rem d : Nat) (sticky : Bool) : Bool :=
  let inexact := rem != 0 || sticky
  match rm with
  | 0 => decide (rem * 2 > 2 ^ d) || (rem * 2 == 2 ^ d && (sticky || odd))
  | 1 => false
  | 2 => neg && inexact
  | _ => !neg && inexact

/-- m × 2^e (and a little more, if sticky) rounded to binary32 under rounding mode rm: the word and its flags. -/
def fpRound (rm : Nat) (neg : Bool) (m : Nat) (e : Int) (sticky : Bool) : Word × FFlags :=
  if m = 0 then (fpPack neg 0 0, if sticky then fNX else 0)
  else
    let n := Nat.log2 m + 1
    let msb : Int := e + n - 1
    let q : Int := max (msb - 23) (-149)
    let d : Int := q - e
    if d ≤ 0 then
      let mant := m * 2 ^ (-d).toNat
      finish rm neg mant q false msb false
    else
      let dn := d.toNat
      let mant := m / 2 ^ dn
      let rem := m % 2 ^ dn
      let up := fpRoundUp rm neg (mant % 2 == 1) rem dn sticky
      -- the carry of a rounding to 24 bits with an unbounded exponent, for tininess after rounding
      let d2 := (msb - 23 - e).toNat
      let mant2 := m / 2 ^ d2
      let carry := decide (msb - 23 - e > 0) && mant2 == 2 ^ 24 - 1 && fpRoundUp rm neg true (m % 2 ^ d2) d2 sticky
      finish rm neg (mant + b2n up) q (rem != 0 || sticky) msb carry
where
  finish (rm : Nat) (neg : Bool) (mant : Nat) (q : Int) (inexact : Bool) (msb : Int) (carry : Bool) : Word × FFlags :=
    let (mant, q) := if mant = 2 ^ 24 then (2 ^ 23, q + 1) else (mant, q)
    if mant < 2 ^ 23 then
      (fpPack neg 0 mant, if inexact then fNX ||| fUF else 0)
    else
      let ex : Int := q + 150
      if ex ≥ 255 then
        let toInf := rm == 0 || (rm == 2 && neg) || (rm == 3 && !neg)
        (if toInf then fpPack neg 255 0 else fpPack neg 254 (2 ^ 23 - 1), fOFNX)
      else
        let before := decide (msb < -126)
        let tiny := if before && carry then Config.tininessBefore else before
        (fpPack neg ex.toNat (mant - 2 ^ 23), if inexact then (if tiny then fNX ||| fUF else fNX) else 0)

/-- FPU triggers (Table 4-2). -/
inductive FpuOp where
  | fadd | fsub | fmul | fdiv | fmin | fmax | feq | flt | fle | fcvtsw | fcvtws
deriving DecidableEq, Repr

/-- Whether a number is a signaling NaN. -/
def Fp.isSnan : Fp → Bool
  | .nan b => b
  | _ => false
/-- Whether a number is a NaN. -/
def Fp.isNan : Fp → Bool
  | .nan _ => true
  | _ => false

/-- A quiet NaN whose sign and payload are open. -/
def openNan (a b : Word) : Word := (Config.nanBits a b &&& 0x803FFFFF) ||| 0x7FC00000

/-- The exact sum of two finite numbers: sign, magnitude and exponent. -/
def fpSum (n1 : Bool) (m1 : Nat) (e1 : Int) (n2 : Bool) (m2 : Nat) (e2 : Int) : Int × Int :=
  let e := min e1 e2
  let v1 : Int := (m1 * 2 ^ (e1 - e).toNat : Nat)
  let v2 : Int := (m2 * 2 ^ (e2 - e).toNat : Nat)
  ((if n1 then -v1 else v1) + (if n2 then -v2 else v2), e)

/-- FADD of two numbers taken apart. -/
def fpAdd (rm : Nat) (a b : Word) (x y : Fp) : Word × FFlags :=
  match x, y with
  | .nan s, _ => (openNan a b, if s || y.isSnan then fNV else 0)
  | _, .nan s => (openNan a b, if s then fNV else 0)
  | .inf n1, .inf n2 => if n1 = n2 then (fpPack n1 255 0, 0) else (openNan a b, fNV)
  | .inf n, .fin _ _ _ => (fpPack n 255 0, 0)
  | .fin _ _ _, .inf n => (fpPack n 255 0, 0)
  | .fin n1 m1 e1, .fin n2 m2 e2 =>
    let (v, e) := fpSum n1 m1 e1 n2 m2 e2
    if v = 0 then
      (fpPack (if m1 = 0 ∧ m2 = 0 ∧ n1 = n2 then n1 else rm == 2) 0 0, 0)
    else fpRound rm (decide (v < 0)) v.natAbs e false

/-- A number with its sign reversed. -/
def Fp.neg : Fp → Fp
  | .nan s => .nan s
  | .inf n => .inf (!n)
  | .fin n m e => .fin (!n) m e

/-- FMUL. -/
def fpMul (rm : Nat) (a b : Word) (x y : Fp) : Word × FFlags :=
  match x, y with
  | .nan s, _ => (openNan a b, if s || y.isSnan then fNV else 0)
  | _, .nan s => (openNan a b, if s then fNV else 0)
  | .inf n1, .inf n2 => (fpPack (n1 != n2) 255 0, 0)
  | .inf n1, .fin n2 m _ => if m = 0 then (openNan a b, fNV) else (fpPack (n1 != n2) 255 0, 0)
  | .fin n1 m _, .inf n2 => if m = 0 then (openNan a b, fNV) else (fpPack (n1 != n2) 255 0, 0)
  | .fin n1 m1 e1, .fin n2 m2 e2 => fpRound rm (n1 != n2) (m1 * m2) (e1 + e2) false

/-- FDIV. -/
def fpDiv (rm : Nat) (a b : Word) (x y : Fp) : Word × FFlags :=
  match x, y with
  | .nan s, _ => (openNan a b, if s || y.isSnan then fNV else 0)
  | _, .nan s => (openNan a b, if s then fNV else 0)
  | .inf _, .inf _ => (openNan a b, fNV)
  | .inf n1, .fin n2 _ _ => (fpPack (n1 != n2) 255 0, 0)
  | .fin n1 _ _, .inf n2 => (fpPack (n1 != n2) 0 0, 0)
  | .fin n1 m1 e1, .fin n2 m2 e2 =>
    if m2 = 0 then (if m1 = 0 then (openNan a b, fNV) else (fpPack (n1 != n2) 255 0, fDZ))
    else if m1 = 0 then (fpPack (n1 != n2) 0 0, 0)
    else
      let p := m1 * 2 ^ 60
      fpRound rm (n1 != n2) (p / m2) (e1 - e2 - 60) (p % m2 != 0)

/-- x < y, or x = y, of two numbers that are no NaN. -/
def fpCmp (x y : Fp) : Ordering :=
  match x, y with
  | .inf n1, .inf n2 => if n1 = n2 then .eq else if n1 then .lt else .gt
  | .inf n, _ => if n then .lt else .gt
  | _, .inf n => if n then .gt else .lt
  | .fin n1 m1 e1, .fin n2 m2 e2 =>
    let (v, _) := fpSum n1 m1 e1 (!n2) m2 e2
    if v < 0 then .lt else if v = 0 then .eq else .gt
  | _, _ => .eq

/-- FMIN and FMAX: the order decides; NaNs and zeros of different signs are open. -/
def fpMinMax (mx : Bool) (a b : Word) (x y : Fp) : Word × FFlags :=
  if x.isNan || y.isNan then (Config.fminmaxOpen mx a b, if x.isSnan || y.isSnan then fNV else 0)
  else
    match fpCmp x y with
    | .lt => (if mx then b else a, 0)
    | .gt => (if mx then a else b, 0)
    | .eq => if a = b then (a, 0) else (if bit (Config.fminmaxOpen mx a b) 0 then a else b, 0)

/-- FCVTWS: rounded toward zero; a NaN or a value outside the signed words is invalid and its result open. -/
def fpToWord (v : Word) : Word × FFlags :=
  match fpUnpack v with
  | .fin n m e =>
    let mag := if 0 ≤ e then m * 2 ^ e.toNat else m / 2 ^ (-e).toNat
    let exact := decide (0 ≤ e) || m % 2 ^ (-e).toNat == 0
    let i : Int := if n then -(mag : Int) else mag
    if -(2 ^ 31) ≤ i ∧ i < 2 ^ 31 then (BitVec.ofInt 32 i, if exact then 0 else fNX)
    else (Config.fcvtwsOpen v, fNV)
  | _ => (Config.fcvtwsOpen v, fNV)

/-- The result and flags of an FPU trigger on operand a and value v under rounding mode rm. -/
def fpuResult (op : FpuOp) (rm : Nat) (a v : Word) : Word × FFlags :=
  let x := fpUnpack a
  let y := fpUnpack v
  let nan := x.isNan || y.isNan
  let snan := x.isSnan || y.isSnan
  let ordFlag : FFlags := if snan || (nan && Config.orderedInvalid) then fNV else 0
  match op with
  | .fadd => fpAdd rm a v x y
  | .fsub => fpAdd rm a v x y.neg
  | .fmul => fpMul rm a v x y
  | .fdiv => fpDiv rm a v x y
  | .fmin => fpMinMax false a v x y
  | .fmax => fpMinMax true a v x y
  | .feq => (b2w (!nan && fpCmp x y == .eq), if snan then fNV else 0)
  | .flt => if nan then (0, ordFlag) else (b2w (fpCmp x y == .lt), 0)
  | .fle => if nan then (0, ordFlag) else (b2w (fpCmp x y != .gt), 0)
  | .fcvtsw => fpRound rm (decide (v.toInt < 0)) v.toInt.natAbs 0 false
  | .fcvtws => fpToWord v

/-- Whether flags raise FPU_TRAP under FPU.CSR (Table 4-3): TNV, TDZ, TOF. -/
def fpuTraps (csr : Word) (f : FFlags) : Bool :=
  (bit csr 7 && bit f 4) || (bit csr 8 && bit f 3) || (bit csr 9 && bit f 2)

/-- FPU.CSR with flags made sticky. -/
def csrFlags (csr : Word) (f : FFlags) : Word := csr ||| (f.setWidth 32 <<< 2)

end Sys2Proof.Machine
end

