-- ==== Sys2Proof/Machine/Xlate.lean ====
section
/-!
DEFINITION. Machine/Xlate.lean: address translation (chapter 10): block registers, the Open page walk, the translation
structures, broadcast invalidation, and the checks of Table 10-6 with the Trade DRAM and colour checks behind them.
-/
namespace Sys2Proof.Machine

/-- The kind of an access (Table 10-6). -/
inductive AccKind where
  | load
  | store
  | fetch
deriving DecidableEq, Repr

/-- A translation: physical address, permissions, SE and the colour it gives DRAM. -/
structure Xl where
  pa : Nat
  r : Bool
  w : Bool
  x : Bool
  u : Bool
  se : Bool
  colour : Colour
deriving DecidableEq, Repr

/-- The slot of a tile's control registers. -/
def tileSlot (t : TileId) : Nat := 0x010 + t.toNat

/-- Word j of block register k of tile t and world w (Table 10-1). -/
def State.blk (s : State) (t : TileId) (w : World) (k j : Nat) : Word := s.regW w (tileSlot t) (0x1100 + 16 * k + 4 * j)

/-- The translation of block register k, where it matches the address (R307). -/
def State.blkMatch (s : State) (t : TileId) (w : World) (va : Nat) (k : Nat) : Option Xl :=
  let w3 := s.blk t w k 3
  let vb := fld (s.blk t w k 0) 31 16
  let vl := fld (s.blk t w k 1) 31 16
  if bit w3 31 && decide (vb ≤ va / 0x10000) && decide (va / 0x10000 ≤ vl) then
    some { pa := (fld (s.blk t w k 2) 19 0 * 0x10000 + (va - vb * 0x10000)) % 2 ^ 36
           r := bit w3 2, w := bit w3 3, x := bit w3 4, u := bit w3 5, se := bit w3 6
           colour := BitVec.ofNat 4 (fld w3 11 8) }
  else none

/-- The lowest-numbered matching block register decides (R308). -/
def State.blkXlate (s : State) (t : TileId) (w : World) (va : Nat) : Option Xl :=
  (List.range 8).findSome? (s.blkMatch t w va)

/-- A TLB entry as a translation of an address in its page. -/
def TlbEnt.xl (e : TlbEnt) (va : Nat) : Xl :=
  { pa := e.pa + va % 2 ^ e.size, r := e.r, w := e.w, x := e.x, u := e.u, se := e.se, colour := e.colour }
/-- Whether a TLB entry's page holds an address. -/
def TlbEnt.hits (e : TlbEnt) (va : Nat) : Bool := va / 2 ^ e.size * 2 ^ e.size == e.va

/-- The micro-TLB entry that holds an address. -/
def tlbFind (l : List (Nat × TlbEnt)) (va : Nat) : Option TlbEnt := (l.find? (fun p => p.2.hits va)).map (·.2)

/-- What a translation needs or gives. -/
inductive XlRes where
  | ok (x : Xl)
  | fault (code : Code)
  | walk

/-- PGEN of a tile (the Trade copy reads 0, R311). -/
def State.pgen (s : State) (t : TileId) (w : World) : Bool := w == .opn && bit (s.regW .opn (tileSlot t) 0x1180) 31

/-- The translation of an address on tile t (R308, R311, R312): block registers, then the micro-TLB of its kind. -/
def State.lookup (s : State) (t : TileId) (w : World) (va : Nat) (k : AccKind) : XlRes :=
  match s.blkXlate t w va with
  | some x => .ok x
  | none =>
    if s.pgen t w then
      let l := (s.tile t).tlbs
      match tlbFind (if k == .fetch then l.iu else l.du) va with
      | some e => .ok (e.xl va)
      | none => .walk
    else .fault 0x60

/-- Steps 2 to 4 of Table 10-6. -/
def Xl.check (x : Xl) (sup : Bool) (k : AccKind) : Option Code :=
  if !sup && !x.u then some 0x65
  else
    match k with
    | .load => if x.r then none else some 0x62
    | .store => if x.w then none else some 0x63
    | .fetch => if !x.x then some 0x64 else if x.se then some 0x66 else none

/-- The Trade DRAM check and the colour check on a translated address (R79–R82, R320); places that answer with an error and
peripheral slots have no colour to check here. -/
def State.colourCheck (s : State) (w : World) (sup : Bool) (cmr : BitVec 16) (x : Xl) : Option Code :=
  match s.place x.pa with
  | .dram =>
    if w == .opn && s.inTdr x.pa then some 0x22
    else if colourPasses w sup cmr x.colour then none else some (colourFault x.colour)
  | .periph _ _ | .reserved | .ctxStore | .emberPrivate => none
  | _ =>
    match s.targetColour x.pa with
    | some c => if colourPasses w sup cmr c then none else some (colourFault c)
    | none => none

/-- Position 9 of Table 2-9: translation, Trade DRAM, colour. -/
def State.access9 (s : State) (t : TileId) (w : World) (sup : Bool) (cmr : BitVec 16) (va : Nat) (k : AccKind) : XlRes :=
  match s.lookup t w va k with
  | .ok x =>
    match x.check sup k with
    | some c => .fault c
    | none =>
      match s.colourCheck w sup cmr x with
      | some c => .fault c
      | none => .ok x
  | r => r

/-- A page entry taken apart (Table 10-5): reserved fields of a leaf and of a table entry, and the PADDR alignment. -/
def entryWellFormed (e : DWord) (lvl : Nat) : Bool :=
  if bit e 1 then lvl != 3 && fld e 63 36 == 0 && fld e 8 2 == 0
  else
    fld e 63 40 == 0 && fld e 11 7 == 0
      && (if lvl = 1 then fld e 23 12 == 0 else if lvl = 2 then fld e 17 12 == 0 else true)

/-- The check of a table read (R314). -/
def State.tableCheck (s : State) (ea : Nat) : Option Code :=
  match s.place ea with
  | .periph _ _ => some 0x69
  | .sram =>
    let c := s.mem.colourOf (ea / 256 * 256)
    if c = 0 then some 0x6A else if c = 15 then some 0x6C else none
  | .dram => if s.inTdr ea then some 0x6C else none
  | _ => some 0x6B

/-- The end of a walk: a leaf with the table entries read, or a fault with its level and entry address. -/
inductive WalkRes where
  | leaf (e : TlbEnt) (tables : List WalkEnt)
  | fault (code : Code) (lvl ea : Nat)
deriving DecidableEq, Repr

/-- The index bits of a level (Table 10-4). -/
def walkIndex (va lvl : Nat) : Nat :=
  if lvl = 1 then va / 2 ^ 24 % 256 else if lvl = 2 then va / 2 ^ 18 % 64 else va / 2 ^ 12 % 64
/-- The log2 page size of a leaf at a level. -/
def walkSize (lvl : Nat) : Nat := if lvl = 1 then 24 else if lvl = 2 then 18 else 12
/-- The walk-cache key of a table entry read at a level (Table 10-7). -/
def walkKey (va lvl : Nat) : Nat := if lvl = 1 then va / 2 ^ 24 else va / 2 ^ 18

/-- The walk of R313 from a level with a table base; n levels are left. -/
def State.walkFrom (s : State) (va : Nat) : Nat → Nat → Nat → List WalkEnt → WalkRes
  | 0, lvl, tb, _ => .fault 0x68 lvl tb
  | n + 1, lvl, tb, acc =>
    let ea := tb + 8 * walkIndex va lvl
    match s.tableCheck ea with
    | some c => .fault c lvl ea
    | none =>
      if s.isDamaged ea 8 then .fault 0x6D lvl ea
      else
        let e : DWord := BitVec.ofNat 64 (s.mem.val ea 8)
        if !bit e 0 then .fault 0x61 lvl ea
        else if !entryWellFormed e lvl then .fault 0x68 lvl ea
        else if bit e 1 then
          let next := fld e 35 9 * 2 ^ 9
          s.walkFrom va n (lvl + 1) next (acc ++ [{ level := lvl, key := walkKey va lvl, next := next }])
        else
          let sz := walkSize lvl
          .leaf { va := va / 2 ^ sz * 2 ^ sz, size := sz, pa := fld e 35 12 * 2 ^ 12, r := bit e 2, w := bit e 3
                  x := bit e 4, u := bit e 5, se := bit e 6, colour := BitVec.ofNat 4 (fld e 39 36) } acc

/-- Where the walk starts: the deepest level the walk cache covers (R318). -/
def State.walkStart (s : State) (t : TileId) (va : Nat) : Nat × Nat × Nat :=
  let wc := (s.tile t).tlbs.wc
  match wc.find? (fun p => p.2.level == 2 && p.2.key == walkKey va 2) with
  | some p => (1, 3, p.2.next)
  | none =>
    match wc.find? (fun p => p.2.level == 1 && p.2.key == walkKey va 1) with
    | some p => (2, 2, p.2.next)
    | none => (3, 1, fld (s.regW .opn (tileSlot t) 0x1184) 24 0 * 2 ^ 11)

/-- A leaf installed in the micro-TLB of a kind, round-robin (Table 10-7). -/
def Tlbs.installMicro (l : Tlbs) (fetch : Bool) (e : TlbEnt) : Tlbs :=
  if fetch then { l with iu := Sparse.put l.iuNext e l.iu, iuNext := (l.iuNext + 1) % 16 }
  else { l with du := Sparse.put l.duNext e l.du, duNext := (l.duNext + 1) % 16 }

/-- The set of a page in the second-level TLB: the six address bits above its offset. -/
def l2Set (va size : Nat) : Nat := va / 2 ^ size % 64

/-- A leaf installed in the second-level TLB, round-robin within its set. -/
def Tlbs.installL2 (l : Tlbs) (e : TlbEnt) : Tlbs :=
  let st := l2Set e.va e.size
  let way := Sparse.get 0 st l.l2Next
  { l with l2 := Sparse.put (4 * st + way) e l.l2, l2Next := Sparse.write 0 st ((way + 1) % 4) l.l2Next }

/-- A table entry installed in the walk cache. -/
def Tlbs.installWalk (l : Tlbs) (e : WalkEnt) : Tlbs :=
  { l with wc := Sparse.put l.wcNext e l.wc, wcNext := (l.wcNext + 1) % 32 }

/-- A TLB list without the entries whose page meets [lo, hi). -/
def tlbDrop (l : List (Nat × TlbEnt)) (lo hi : Nat) : List (Nat × TlbEnt) :=
  l.filter (fun p => !(decide (p.2.va < hi) && decide (lo < p.2.va + 2 ^ p.2.size)))

/-- The span of a walk-cache entry. -/
def WalkEnt.span (e : WalkEnt) : Nat := if e.level = 1 then 2 ^ 24 else 2 ^ 18

/-- The structures of a tile after an invalidation of [lo, hi) (R323). -/
def Tlbs.drop (l : Tlbs) (lo hi : Nat) : Tlbs :=
  { l with
    iu := tlbDrop l.iu lo hi
    du := tlbDrop l.du lo hi
    l2 := tlbDrop l.l2 lo hi
    wc := l.wc.filter (fun p => !(decide (p.2.key * p.2.span < hi) && decide (lo < p.2.key * p.2.span + p.2.span))) }

/-- Every translation structure of a tile emptied (R326); the round-robin pointers stand. -/
def Tlbs.empty (l : Tlbs) : Tlbs := { l with iu := [], du := [], l2 := [], wc := [] }
/-- Both micro-TLBs emptied (R326). -/
def Tlbs.emptyMicro (l : Tlbs) : Tlbs := { l with iu := [], du := [] }

/-- A walk fault recorded in XFSTAT and XFENT of the tile's Open copy (R332). -/
def State.recordWalk (s : State) (t : TileId) (code : Code) (lvl ea : Nat) : State :=
  let st := BitVec.ofNat 32 ((1 <<< 31) + (lvl <<< 10) + (b2n (ea.testBit 3) <<< 9) + code.toNat)
  (s.setRegW .opn (tileSlot t) 0x1188 st).setRegW .opn (tileSlot t) 0x118C (paWord ea)

/-- The translation of an address brought into tile t's micro-TLB (R318): a second-level hit fills it; otherwise the walk runs and
installs its leaf and the table entries it read, or fails with a code (R316, R332). -/
def State.fillXlate (s : State) (t : TileId) (va : Word) (fetch : Bool) : State × Option Code :=
  let x := s.tile t
  let a := va.toNat
  match tlbFind x.tlbs.l2 a with
  | some e => (s.setTile t { x with tlbs := x.tlbs.installMicro fetch e }, none)
  | none =>
    let (n, lvl, tb) := s.walkStart t a
    match s.walkFrom a n lvl tb [] with
    | .leaf e tabs =>
      (s.setTile t { x with tlbs := tabs.foldl Tlbs.installWalk ((x.tlbs.installL2 e).installMicro fetch e) }, none)
    | .fault c lv ea =>
      -- an uncorrectable error is also recorded and reported to the ledger (R315)
      let s1 := if c = 0x6D then s.memError ea true else s
      (s1.recordWalk t c lv ea, some c)

/-- The walk of a frozen tile (R318): the freeze ends, or the walk's fault is reported on the bundle that waits. -/
def State.pageWalk (s : State) (t : TileId) : State :=
  match (s.tile t).flow.freeze with
  | .walk va fetch _ =>
    match s.fillXlate t va fetch with
    | (s1, none) => s1.modTile t (·.modFlow (fun f => { f with freeze := .none }))
    | (s1, some c) =>
      s1.modTile t (·.modFlow (fun f => { f with freeze := .none, fault := some ⟨c, va⟩, issuing := false, presp := [], held := none, checked := [] }))
  | _ => s

/-- Position 9 of Table 2-9 for an access the tile makes on its own (a descriptor, a frame): a missing translation is fetched at
once. -/
def State.access9Now (s : State) (t : TileId) (w : World) (sup : Bool) (cmr : BitVec 16) (va : Word) (k : AccKind) :
    State × Except Code Xl :=
  match s.access9 t w sup cmr va.toNat k with
  | .ok x => (s, .ok x)
  | .fault c => (s, .error c)
  | .walk =>
    match s.fillXlate t va (k == .fetch) with
    | (s1, some c) => (s1, .error c)
    | (s1, none) =>
      match s1.access9 t w sup cmr va.toNat k with
      | .ok x => (s1, .ok x)
      | .fault c => (s1, .error c)
      | .walk => (s1, .error 0x60)

/-- The range that a TLBI word names (Table 10-8, R323). -/
def tlbiRange (v : Word) : Nat × Nat :=
  let a := fld v 31 12 * 2 ^ 12
  match fld v 1 0 with
  | 0 => (a, a + 2 ^ 12)
  | 1 => (a / 2 ^ 18 * 2 ^ 18, a / 2 ^ 18 * 2 ^ 18 + 2 ^ 18)
  | 2 => (a / 2 ^ 24 * 2 ^ 24, a / 2 ^ 24 * 2 ^ 24 + 2 ^ 24)
  | _ => (0, 2 ^ 32)

/-- A write to TLBI (R322, R323): every tile removes the range's entries, and TLBICNT rises. -/
def State.tlbi (s : State) (q : Req) (v : Word) : State × BusRes :=
  if !q.sup then (s, .err gateUser)
  else
    let (lo, hi) := tlbiRange v
    ((s.mapTiles (fun x => { x with tlbs := x.tlbs.drop lo hi })).modReg 0x022 0x1804 (· + 1), .ok 0)

/-- A write to the translation registers of tile t by a requester's world: a block register, XCTL, XBASE, XFSTAT or XFENT
(R306, R310, R311, R326). XBASE and XCTL empty the tile's structures. -/
def State.xlateWrite (s : State) (q : Req) (t : TileId) (off : Nat) (v : Word) : State × BusRes :=
  let slot := tileSlot t
  if off = 0x1180 then
    let s1 := if q.world == .opn then s.plainWrite q.world slot off v else s
    (s1.modTile t (fun x => { x with tlbs := x.tlbs.empty }), .ok 0)
  else if off = 0x1184 then
    ((s.plainWrite q.world slot off v).modTile t (fun x => { x with tlbs := x.tlbs.empty }), .ok 0)
  else (s.plainWrite q.world slot off v, .ok 0)

end Sys2Proof.Machine
end

