-- ==== Sys2Proof/Machine/Operands.lean ====
section
/-!
DEFINITION. Machine/Operands.lean: syllables and port IDs (chapter 5), the port image and its pending results (R131, R141,
Table 4-7), and what a move reads from its source.
-/
namespace Sys2Proof.Machine

/-- LSU triggers (Table 4-2). -/
inductive LsuOp where
  | ldb | ldbu | ldh | ldhu | ldw | ldc | stb | sth | stw | stc
deriving DecidableEq, Repr

/-- The size of an access in bytes. -/
def LsuOp.size : LsuOp → Nat
  | .ldb | .ldbu | .stb => 1
  | .ldh | .ldhu | .sth => 2
  | .ldw | .stw => 4
  | .ldc | .stc => 8
/-- Whether the access stores. -/
def LsuOp.store : LsuOp → Bool
  | .stb | .sth | .stw | .stc => true
  | _ => false
/-- Whether the access is a capability access. -/
def LsuOp.isCap : LsuOp → Bool
  | .ldc | .stc => true
  | _ => false

/-- BRU triggers (Table 5-4). -/
inductive BruOp where
  | br | call | jc | callc | ret | scall | sret | sys | eret
deriving DecidableEq, Repr

/-- MAC triggers. -/
inductive MacTrig where
  | rmac | rmac2 | dmac | dmac2 | clr
deriving DecidableEq, Repr

/-- Control ports (Table 5-6). -/
inductive Ctl where
  | sw | mode | cmr | gfence | mfence | ifence | dwbinv | pstat | pix | pimg | bwr | bwd | edtb | scex | sced | wcfg | mask
  | attown | id | ctx
deriving DecidableEq, Repr

/-- Destination ports. u is false for unit 0 and true for unit 1. -/
inductive Dst where
  | w (n : Nat) | c (n : Nat) | f (n : Nat) | p (n : Nat)
  | ls (n : Nat) | le (n : Nat) | lc (n : Nat) | rep
  | capA | capB | skm | cap (op : CapOp)
  | ctl (x : Ctl)
  | aluA (u : Bool) | alu (u : Bool) (op : AluOp)
  | lsuCA (u : Bool) | lsuSD (u : Bool) | lsuSC (u : Bool) | lsu (u : Bool) (op : LsuOp)
  | shfA | shf (op : ShfOp) | divA | div (op : DivOp)
  | cmpA | cmpPD | cmp (op : CmpOp) | fpuA | fpuCsr | fpu (op : FpuOp)
  | mulA | mul (op : MulOp) | bru (op : BruOp)
  | macA | macCfg | accl | acch | mac (op : MacTrig)
  | aesKey | aesKset | aesEnc | aesDec | aesD (n : Nat) | ghH (n : Nat) | ghY (n : Nat) | ghMul
  | shaM | shaInit | shaRun | shaH (n : Nat)
  | absent
deriving DecidableEq, Repr

/-- Source ports. -/
inductive Src where
  | w (n : Nat) | c (n : Nat) | f (n : Nat) | p (n : Nat)
  | ls (n : Nat) | le (n : Nat) | lc (n : Nat)
  | capRC | capRW | skm | ctl (x : Ctl)
  | aluRes (u : Bool) | lsuRes (u : Bool) | lsuRC (u : Bool)
  | shfRes | cmpRes | mulRes | divRes | fpuRes | fpuCsr
  | accl | acch | macStat | feat (k : Nat)
  | aesOut (n : Nat) | ghY (n : Nat) | shaH (n : Nat)
  | absent
  | imm (v : Word)
deriving DecidableEq, Repr

/-- The element of a list at an index. -/
def pick {α : Type} (l : List α) (i : Nat) : Option α := l[i]?

/-- CAP triggers in the order of Table 2-10. -/
def capOps : List CapOp :=
  [.setaddr, .incaddr, .setb, .setbx, .andp, .sentry, .seal, .unseal, .clrtag, .build, .strait, .get, .test, .rlen, .rmask]
/-- ALU triggers in the order of Table 5-4. -/
def aluOps : List AluOp :=
  [.add, .sub, .rsub, .addv, .subv, .and, .or, .xor, .andn, .min, .max, .minu, .maxu, .sexb, .sexh, .zexb, .zexh, .pass]
/-- LSU triggers in the order of Table 5-4. -/
def lsuOps : List LsuOp := [.ldb, .ldbu, .ldh, .ldhu, .ldw, .ldc, .stb, .sth, .stw, .stc]
/-- Control ports in the order of Table 5-6. -/
def ctlPorts : List Ctl :=
  [.sw, .mode, .cmr, .gfence, .mfence, .ifence, .dwbinv, .pstat, .pix, .pimg, .bwr, .bwd, .edtb, .scex, .sced, .wcfg, .mask,
   .attown, .id, .ctx]
/-- BRU triggers in the order of Table 5-4. -/
def bruOps : List BruOp := [.br, .call, .jc, .callc, .ret, .scall, .sret, .sys, .eret]

/-- The low half of the paired region (Table 5-4). -/
def decodeLow (id : Nat) : Option Dst :=
  if id = 0x7D then some (.aluA false)
  else if id < 0x90 then (pick aluOps (id - 0x7E)).map (.alu false)
  else if id = 0x90 then some (.lsuCA false)
  else if id = 0x91 then some (.lsuSD false)
  else if id = 0x92 then some (.lsuSC false)
  else if id < 0x9D then (pick lsuOps (id - 0x93)).map (.lsu false)
  else if id = 0x9D then some .shfA
  else if id < 0xA2 then (pick [ShfOp.sll, .srl, .sra, .ror] (id - 0x9E)).map .shf
  else if id = 0xA2 then some .cmpA
  else if id = 0xA3 then some .cmpPD
  else if id < 0xAB then (pick [CmpOp.eq, .ne, .lt, .ge, .ltu, .geu, .tst] (id - 0xA4)).map .cmp
  else if id = 0xAB then some .mulA
  else if id < 0xAF then (pick [MulOp.mul, .mulh, .mulhu] (id - 0xAC)).map .mul
  else (pick bruOps (id - 0xAF)).map .bru

/-- The high half of the paired region (Table 5-4). -/
def decodeHigh (id : Nat) : Option Dst :=
  if id = 0x7D then some (.aluA true)
  else if id < 0x90 then (pick aluOps (id - 0x7E)).map (.alu true)
  else if id = 0x90 then some (.lsuCA true)
  else if id = 0x91 then some (.lsuSD true)
  else if id = 0x92 then some (.lsuSC true)
  else if id < 0x9D then (pick lsuOps (id - 0x93)).map (.lsu true)
  else if id = 0x9D then some .divA
  else if id < 0xA2 then (pick [DivOp.div, .divu, .rem, .remu] (id - 0x9E)).map .div
  else if id = 0xA2 then some .fpuA
  else if id = 0xA3 then some .fpuCsr
  else if id < 0xAF then (pick [FpuOp.fadd, .fsub, .fmul, .fdiv, .fmin, .fmax, .feq, .flt, .fle, .fcvtsw, .fcvtws] (id - 0xA4)).map .fpu
  else pick [Dst.macA, .macCfg, .accl, .acch, .mac .rmac, .mac .rmac2, .mac .dmac, .mac .dmac2, .mac .clr] (id - 0xAF)

/-- The destination an ID names on the low or the high buses (Tables 5-3, 5-4, 5-6, 5-10); none where it is undefined. -/
def decodeDst (high : Bool) (id : Nat) : Option Dst :=
  if id < 0x20 then some (.w id)
  else if id < 0x30 then some (.c (id - 0x20))
  else if id < 0x40 then some (.f (id - 0x30))
  else if id = 0x40 then none
  else if id < 0x48 then some (.p (id - 0x40))
  else if id < 0x54 then
    let n := (id - 0x48) / 3
    match (id - 0x48) % 3 with
    | 0 => some (.ls n)
    | 1 => some (.le n)
    | _ => some (.lc n)
  else if id = 0x54 then some .rep
  else if id = 0x55 then some .capA
  else if id = 0x56 then some .capB
  else if id = 0x57 then some .skm
  else if id < 0x67 then (pick capOps (id - 0x58)).map .cap
  else if id < 0x79 then (pick ctlPorts (id - 0x67)).map .ctl
  else if id < 0x7D then none
  else if id < 0xB8 then (if high then decodeHigh id else decodeLow id)
  else if id < 0xC0 then none
  else if id = 0xC0 then some .aesKey
  else if id = 0xC1 then some .aesKset
  else if id = 0xC2 then some .aesEnc
  else if id = 0xC3 then some .aesDec
  else if id < 0xC8 then some (.aesD (id - 0xC4))
  else if id < 0xCC then some (.ghH (id - 0xC8))
  else if id < 0xD0 then some (.ghY (id - 0xCC))
  else if id = 0xD0 then some .ghMul
  else if id = 0xD1 then some .shaM
  else if id = 0xD2 then some .shaInit
  else if id = 0xD3 then some .shaRun
  else if id < 0xDC then some (.shaH (id - 0xD4))
  else if id < 0xFE then some .absent
  else none

/-- The source an ID names (Tables 5-5, 5-6, 5-10); none where it is undefined. -/
def decodeSrc (id : Nat) : Option Src :=
  if id < 0x20 then some (.w id)
  else if id < 0x30 then some (.c (id - 0x20))
  else if id < 0x40 then some (.f (id - 0x30))
  else if id = 0x40 then none
  else if id < 0x48 then some (.p (id - 0x40))
  else if id < 0x54 then
    let n := (id - 0x48) / 3
    match (id - 0x48) % 3 with
    | 0 => some (.ls n)
    | 1 => some (.le n)
    | _ => some (.lc n)
  else if id = 0x55 then some .capRC
  else if id = 0x56 then some .capRW
  else if id = 0x57 then some .skm
  else if 0x67 ≤ id ∧ id < 0x7B then
    match pick ctlPorts (id - 0x67) with
    | some .sw | some .gfence | some .mfence | some .ifence | some .dwbinv => none
    | some x => some (.ctl x)
    | none => none
  else if 0x7D ≤ id ∧ id < 0x8C then
    pick [Src.aluRes false, .aluRes true, .lsuRes false, .lsuRC false, .lsuRes true, .lsuRC true, .shfRes, .cmpRes, .mulRes,
      .divRes, .fpuRes, .fpuCsr, .accl, .acch, .macStat] (id - 0x7D)
  else if 0xB8 ≤ id ∧ id < 0xC0 then some (.feat (id - 0xB8))
  else if 0xC4 ≤ id ∧ id < 0xC8 then some (.aesOut (id - 0xC4))
  else if 0xCC ≤ id ∧ id < 0xD0 then some (.ghY (id - 0xCC))
  else if 0xD4 ≤ id ∧ id < 0xDC then some (.shaH (id - 0xD4))
  else if 0xDC ≤ id ∧ id < 0xFE then some .absent
  else none

/-- The capability-holding destinations (R55). -/
def Dst.holdsCap : Dst → Bool
  | .c _ | .capA | .capB | .cap _ | .lsuCA _ | .lsuSC _ => true
  | .bru .jc | .bru .callc | .bru .ret | .bru .scall => true
  | .ctl .edtb | .ctl .pimg | .ctl .bwd | .ctl .sced => true
  | _ => false

/-- Whether a control port is privileged (Table 5-6). -/
def Ctl.privileged : Ctl → Bool
  | .mfence | .ifence | .id | .ctx => false
  | _ => true
/-- The destinations that raise PRIV_PORT at user level (R165). -/
def Dst.privileged : Dst → Bool
  | .ctl x => x.privileged
  | .skm | .cap .strait | .bru .eret => true
  | _ => false
/-- The sources that raise PRIV_PORT at user level (R165). -/
def Src.privileged : Src → Bool
  | .ctl x => x.privileged
  | .skm | .feat _ => true
  | _ => false
/-- F0–F15 and the FPU ports (R226). -/
def Dst.isFloat : Dst → Bool
  | .f _ | .fpuA | .fpuCsr | .fpu _ => true
  | _ => false
/-- F0–F15 and the FPU ports as sources. -/
def Src.isFloat : Src → Bool
  | .f _ | .fpuRes | .fpuCsr => true
  | _ => false
/-- The attached-unit ports that are present (R173). -/
def Dst.isAtt : Dst → Bool
  | .aesKey | .aesKset | .aesEnc | .aesDec | .aesD _ | .ghH _ | .ghY _ | .ghMul | .shaM | .shaInit | .shaRun | .shaH _ => true
  | _ => false
/-- The attached-unit ports as sources. -/
def Src.isAtt : Src → Bool
  | .aesOut _ | .ghY _ | .shaH _ => true
  | _ => false

/-- One decoded move: the address of its syllable, its guard, its destination and its source. -/
structure Move where
  addr : Word
  guard : Nat
  dst : Dst
  src : Src
deriving DecidableEq, Repr

/-- Whether a guard is true for the predicates (Table 5-2). -/
def guardTrue (pred : BitVec 8) (g : Nat) : Bool :=
  if g = 0 then true else if g < 8 then pred.getLsbD g else !pred.getLsbD (g - 8)

/-- STOP of a syllable. -/
def sylStop (x : Word) : Bool := bit x 31
/-- Whether a move syllable takes its value from the next syllable (R155). -/
def sylLit (x : Word) : Bool := !bit x 18 && fld x 17 10 == 0xFE

/-- How many syllables a bundle occupies, from those fetched so far: some n where its end is known, none where one more
syllable is needed; four where no STOP appears within four (Table 5-8). -/
def bundleLen : List Word → Option Nat
  | [] => none
  | [a] => if sylStop a && !sylLit a then some 1 else none
  | [a, b] =>
    if sylStop a then some (if sylLit a then 2 else 1)
    else if sylLit a then none
    else if sylStop b && !sylLit b then some 2 else none
  | [a, b, c] =>
    if sylStop a then some (if sylLit a then 2 else 1)
    else if sylLit a then (if sylStop c && !sylLit c then some 3 else none)
    else if sylStop b then some (if sylLit b then 3 else 2)
    else if sylLit b then none
    else if sylStop c && !sylLit c then some 3 else none
  | a :: b :: _ =>
    if sylStop a then some (if sylLit a then 2 else 1)
    else if !sylLit a && sylStop b then some (if sylLit b then 3 else 2)
    else some 4

/-- Whether a bundle of up to four syllables faults at step 2 of Table 5-8: the code and the syllable it is reported on.
i is the slot. -/
def encLength : Nat → Nat → List Word → Option (Code × Nat)
  | 0, _, _ => none
  | _ + 1, _, [] => some (0x44, 0)
  | n + 1, i, x :: r =>
    if i = 3 && !sylStop x then some (0x44, 0)
    else if i = 3 && sylLit x then some (0x45, 3)
    else if sylStop x then none
    else encLength n (if sylLit x then i + 2 else i + 1) (if sylLit x then r.drop 1 else r)

/-- One move syllable in slot i decoded (step 3 of Table 5-8), with the literal that follows it. -/
def decodeMove (pc : Word) (i : Nat) (x lit : Word) : Except (Code × Word) Move :=
  let a := pc + BitVec.ofNat 32 (4 * i)
  let g := fld x 30 27
  if g = 8 then .error (0x40, a)
  else if !bit x 18 && fld x 9 0 != 0 then .error (0x41, a)
  else
    let src : Option Src :=
      if bit x 18 then some (.imm ((x.setWidth 18).signExtend 32))
      else if sylLit x then some (.imm lit)
      else decodeSrc (fld x 17 10)
    match src with
    | none => .error (0x42, a)
    | some sp =>
      match decodeDst (decide (2 ≤ i)) (fld x 26 19) with
      | none => .error (0x43, a)
      | some d => .ok { addr := a, guard := g, dst := d, src := sp }

/-- The moves of a bundle, slot 0 first (R157, R167). -/
def decodeMoves (pc : Word) : Nat → Nat → List Word → Except (Code × Word) (List Move)
  | 0, _, _ => .ok []
  | _ + 1, _, [] => .ok []
  | n + 1, i, x :: r =>
    let lit := sylLit x
    match decodeMove pc i x (r.headD 0) with
    | .error e => .error e
    | .ok m =>
      if sylStop x then .ok [m]
      else
        match decodeMoves pc n (if lit then i + 2 else i + 1) (if lit then r.drop 1 else r) with
        | .error e => .error e
        | .ok ms => .ok (m :: ms)

/-- A unit with pending results in the port image: its word and capability result slots, its pending slots and the number of
its first metadata byte (Tables 4-7, 4-8). -/
structure UnitMap where
  res : Nat
  resC : Nat
  pend : List Nat
  meta0 : Nat
deriving DecidableEq, Repr

/-- ALU0 and ALU1. -/
def uAlu (u : Bool) : UnitMap := if u then ⟨4, 4, [5], 1⟩ else ⟨1, 1, [2], 0⟩
/-- Shifter. -/
def uShf : UnitMap := ⟨7, 7, [8], 2⟩
/-- Compare. -/
def uCmp : UnitMap := ⟨11, 11, [12], 3⟩
/-- Multiplier. -/
def uMul : UnitMap := ⟨14, 14, [15, 16, 17], 4⟩
/-- Divider. -/
def uDiv : UnitMap := ⟨19, 19, [20], 7⟩
/-- LSU0 and LSU1. -/
def uLsu (u : Bool) : UnitMap := if u then ⟨32, 33, [34, 35, 36], 11⟩ else ⟨24, 25, [26, 27, 28], 8⟩
/-- CAP. -/
def uCap : UnitMap := ⟨40, 39, [41, 42], 14⟩
/-- MAC: its result is the accumulator in slot 45. -/
def uMac : UnitMap := ⟨45, 45, [46, 47, 48], 16⟩
/-- FPU. -/
def uFpu : UnitMap := ⟨50, 50, [51, 52, 53, 54], 19⟩
/-- Every unit with pending results. -/
def allUnits : List UnitMap :=
  [uAlu false, uAlu true, uShf, uCmp, uMul, uDiv, uLsu false, uLsu true, uCap, uMac, uFpu]

/-- Operand slots of the port image (Table 4-7). -/
def slotAluA (u : Bool) : Nat := if u then 3 else 0
/-- SHF.A. -/
def slotShfA : Nat := 6
/-- CMP.A. -/
def slotCmpA : Nat := 9
/-- CMP.PD. -/
def slotCmpPD : Nat := 10
/-- MUL.A. -/
def slotMulA : Nat := 13
/-- DIV.A. -/
def slotDivA : Nat := 18
/-- LSUn.CA. -/
def slotLsuCA (u : Bool) : Nat := if u then 29 else 21
/-- LSUn.SD. -/
def slotLsuSD (u : Bool) : Nat := if u then 30 else 22
/-- LSUn.SC. -/
def slotLsuSC (u : Bool) : Nat := if u then 31 else 23
/-- CAP.A. -/
def slotCapA : Nat := 37
/-- CAP.B. -/
def slotCapB : Nat := 38
/-- MAC.A. -/
def slotMacA : Nat := 43
/-- MAC.CFG and the flags. -/
def slotMacCfg : Nat := 44
/-- FPU.A. -/
def slotFpuA : Nat := 49

/-- A slot of an image. -/
def Image.at (i : Image) (n : Nat) : Cap := vget i n Cap.null
/-- An image with a slot set. -/
def Image.set (i : Image) (n : Nat) (c : Cap) : Image := vset i n c
/-- The word of a slot. -/
def Image.word (i : Image) (n : Nat) : Word := (Image.at i n).addr
/-- An image with a word slot set: zero above, tag 0. -/
def Image.setWord (i : Image) (n : Nat) (w : Word) : Image := Image.set i n (Cap.ofWord w)

/-- Metadata byte m of an image (slots 55 to 57). -/
def Image.metaByte (i : Image) (m : Nat) : Byte := ((Image.at i (55 + m / 8)).bits >>> (8 * (m % 8))).setWidth 8
/-- An image with metadata byte m set. -/
def Image.setMeta (i : Image) (m : Nat) (b : Byte) : Image :=
  let s := 55 + m / 8
  Image.set i s (Cap.ofDW (setFld (Image.at i s).bits (8 * (m % 8) + 7) (8 * (m % 8)) b.toNat))

/-- A pending result: DEST, REM and value (Table 4-8). flags are the MAC flags after it. -/
structure Pend where
  dest : Nat
  rem : Nat
  val : Cap
  flags : Nat
deriving DecidableEq, Repr

/-- The pending results of a unit, oldest first, empty entries left out. -/
def Image.pends (i : Image) (u : UnitMap) : List Pend :=
  (u.pend.zipIdx.map (fun (s, k) =>
    let b := i.metaByte (u.meta0 + k)
    { dest := fld b 7 5, rem := fld b 4 0, val := Image.at i s,
      flags := fld (Image.at i slotMacCfg).bits (35 + 2 * k) (34 + 2 * k) : Pend })).filter (fun p => p.rem != 0)

/-- An image with a unit's pending results replaced; entries beyond the unit's slots cannot arise. -/
def Image.setPends (i : Image) (u : UnitMap) (l : List Pend) : Image :=
  u.pend.zipIdx.foldl (fun i (s, k) =>
    let p := (l[k]?).getD { dest := 0, rem := 0, val := Cap.null, flags := 0 }
    let i1 := (Image.set i s p.val).setMeta (u.meta0 + k) (BitVec.ofNat 8 (p.dest * 32 + p.rem))
    if u.meta0 = 16 then
      Image.set i1 slotMacCfg (Cap.ofDW (setFld (Image.at i1 slotMacCfg).bits (35 + 2 * k) (34 + 2 * k) p.flags))
    else i1) i

/-- A new result of latency rem on a unit: an older result of the same port that would become visible no earlier is never
seen (R131) and is dropped. A capability result and a word result are different ports. -/
def Image.push (i : Image) (u : UnitMap) (p : Pend) : Image :=
  i.setPends u ((i.pends u).filter (fun o => decide (o.rem < p.rem) || (u.res != u.resC && o.dest % 2 != p.dest % 2)) ++ [p])

/-- A pending result written to its result port (R141); the MAC's also sets the visible flags. -/
def Image.land (i : Image) (u : UnitMap) (p : Pend) : Image :=
  if u.meta0 = 16 then
    let i1 := Image.set i u.res p.val
    Image.set i1 slotMacCfg (Cap.ofDW (setFld (Image.at i1 slotMacCfg).bits 33 32 p.flags))
  else if u.res != u.resC && p.dest % 2 == 1 then Image.set i u.resC p.val
  else Image.setWord i u.res p.val.addr

/-- The results of a unit that are due: written to their ports, leaving the others as they are. -/
def Image.reveal (i : Image) (u : UnitMap) : Image :=
  let ps := i.pends u
  let i1 := (ps.filter (fun p => p.rem == 1)).foldl (fun i p => i.land u p) i
  i1.setPends u (ps.filter (fun p => p.rem != 1))

/-- One bundle on: results that are due become visible, every other count falls by one (R131, R141). -/
def Image.tick (i : Image) (u : UnitMap) : Image :=
  let i1 := i.reveal u
  i1.setPends u ((i1.pends u).map (fun p => { p with rem := p.rem - 1 }))

/-- CMP's pending predicate write: a restored CMP entry names the predicate that its DEST gives (R141). -/
def Image.cmpPreds (i : Image) (pred : BitVec 8) : BitVec 8 :=
  ((i.pends uCmp).filter (fun p => p.rem == 1 && p.dest != 0)).foldl (fun b p => setBit b p.dest (bit p.val.bits 0)) pred

/-- The bundle count of every unit advanced. -/
def Image.tickAll (i : Image) : Image := allUnits.foldl Image.tick i
/-- Every due result of every unit revealed. -/
def Image.revealAll (i : Image) : Image := allUnits.foldl Image.reveal i

/-- The accumulator after everything triggered so far: the newest pending value, else the visible one (R197). -/
def Image.newestAcc (i : Image) : Acc :=
  match (i.pends uMac).getLast? with
  | some p => { acc := p.val.bits, ovf := p.flags % 2 == 1, satf := p.flags / 2 % 2 == 1 }
  | none =>
    let c := (Image.at i slotMacCfg).bits
    { acc := (Image.at i 45).bits, ovf := bit c 32, satf := bit c 33 }

/-- Attached-unit results that are due, written; every other count falls by one (R172). -/
def AttOp.apply (a : Att) : AttOp → Att
  | .kset r w => { a with rounds := r, sched := w }
  | .aes o => { a with out := (List.range 4).foldl (fun v k => vset v k (o.getD k 0)) a.out }
  | .gh y => { a with y := (List.range 4).foldl (fun v k => vset v k (y.getD k 0)) a.y }
  | .sha h => { a with sha := (List.range 8).foldl (fun v k => vset v k (h.getD k 0)) a.sha, idx := 0, msg := Vector.replicate 16 0 }

/-- The due results of the attached units written. -/
def Att.reveal (a : Att) : Att :=
  let a1 := (a.pend.filter (fun p => p.rem == 1)).foldl (fun a p => p.op.apply a) a
  { a1 with pend := a.pend.filter (fun p => p.rem != 1) }
/-- One bundle on for the attached units. -/
def Att.tick (a : Att) : Att :=
  let a1 := a.reveal
  { a1 with pend := a1.pend.map (fun p => { p with rem := p.rem - 1 }) }

/-- FEAT0–FEAT7 (Table 5-12). -/
def Tile.feat (x : Tile) (k : Nat) : Word :=
  match k with
  | 0 => 0x771643F1
  | 1 => 0x0000001F
  | 2 => 0x0000007F
  | 3 => 0x00642020
  | 4 => 0x1FFF7FFF
  | 5 => 0x20101010
  | 6 => 0x200F484F
  | _ => BitVec.ofNat 32 (x.sys.mccount.toNat * 256 + x.sys.bist.toNat)

end Sys2Proof.Machine
end

