-- ==== Sys2Proof/Machine/Ops.lean ====
section
/-!
DEFINITION. Machine/Ops.lean: what several commands share on a tile: accesses a tile makes on its own, port images, taking an
exception (R136–R138, R247–R252), double fault and world halt (R261–R264), switches and returns (R139, R215, R254–R256).
-/
namespace Sys2Proof.Machine

/-- A machine check made pending on a tile, with the line address of its cause (Table 8-15). -/
def State.mcPost (s : State) (t : TileId) (code : Code) (pa : Nat) : State :=
  s.modTile t (·.modFlow (fun f => { f with mcs := f.mcs ++ [⟨code, paWord (lineOf pa)⟩] }))

/-- What a line that holds an uncorrectable error causes when it reaches a tile (R60): MC_READ there, and the controller's
record and report. -/
def State.lineBad (s : State) (t : TileId) (pa : Nat) : State := (s.mcPost t 0x70 pa).memError pa true

/-- A line brought into the data cache at once, for an access the tile makes on its own; own asks for ownership. -/
def State.lineNow (s : State) (t : TileId) (w : World) (pa : Nat) (own : Bool) : State :=
  let x := s.tile t
  let hit := match x.dataHit w pa with
    | some .shared => !own
    | some _ => true
    | none => false
  if hit then s.setTile t (if own then x.dirtyLine w pa else x.touchData w pa)
  else
    let s1 := s.fillData t w pa own
    let s2 := if s.isDamaged (lineOf pa) 64 then s1.lineBad t pa else s1
    if own then s2.modTile t (·.dirtyLine w pa) else s2

/-- An access to a reserved range: the event of Table 1-3a (R23). -/
def State.reservedEvent (s : State) : State := s.event 0x022 0x1000 50 8

/-- The error that a place gives to a 64-bit access of a tile (R23, R24, R567): the gate's refusal first. -/
def State.placeError (s : State) (w : World) (sup : Bool) (cmr : BitVec 16) (pa : Nat) (write : Bool) : State × Option Code :=
  match s.place pa with
  | .periph slot off =>
    match s.gateDecide { world := w, sup := sup, cmr := cmr, tile := none } slot off write with
    | some c => (s.countRefused slot, some c)
    | none => (s, some busErr)
  | .reserved => (s.reservedEvent, some busErr)
  | .ctxStore | .emberPrivate => (s, some busErr)
  | _ => (s, none)

/-- One capability load that a tile makes on its own, under every check of Table 2-9; LC as R47. -/
def State.ownLoad (s : State) (t : TileId) (w : World) (sup : Bool) (cmr : BitVec 16) (auth : Cap) (a : Word) :
    State × Except FaultRec Cap :=
  match capAccessCheck auth w false true Cap.null a 8 with
  | some (c, f) => (s, .error ⟨c, f⟩)
  | none =>
    match s.access9Now t w sup cmr a .load with
    | (s1, .error c) => (s1, .error ⟨c, a⟩)
    | (s1, .ok x) =>
      match s1.placeError w sup cmr x.pa false with
      | (s2, some c) => (s2, .error ⟨c, a⟩)
      | (s2, none) =>
        let v := s2.capAt x.pa
        let s3 := if x.se then s2 else s2.lineNow t w x.pa false
        (s3, .ok { v with tag := v.tag && auth.lc })

/-- n consecutive capability loads that a tile makes on its own. -/
def State.ownLoads (s : State) (t : TileId) (w : World) (sup : Bool) (cmr : BitVec 16) (auth : Cap) :
    Nat → Word → State × Except FaultRec (List Cap)
  | 0, _ => (s, .ok [])
  | n + 1, a =>
    match s.ownLoad t w sup cmr auth a with
    | (s1, .error e) => (s1, .error e)
    | (s1, .ok v) =>
      match s1.ownLoads t w sup cmr auth n (a + 8) with
      | (s2, .error e) => (s2, .error e)
      | (s2, .ok r) => (s2, .ok (v :: r))

/-- The checks of a list of capability stores that a tile makes on its own, and their physical addresses. The target must keep
tags (R251: the stack must lie in tagged memory). -/
def State.ownStoreCheck (s : State) (t : TileId) (w : World) (cmr : BitVec 16) (auth : Cap) :
    List Cap → Word → State × Except FaultRec (List Nat)
  | [], _ => (s, .ok [])
  | v :: r, a =>
    match capAccessCheck auth w true true v a 8 with
    | some (c, f) => (s, .error ⟨c, f⟩)
    | none =>
      match s.access9Now t w true cmr a .store with
      | (s1, .error c) => (s1, .error ⟨c, a⟩)
      | (s1, .ok x) =>
        if !(s1.place x.pa).tagged then (s1, .error ⟨0x1A, a⟩)
        else
          match s1.ownStoreCheck t w cmr auth r (a + 8) with
          | (s2, .error e) => (s2, .error e)
          | (s2, .ok l) => (s2, .ok (x.pa :: l))

/-- Capability stores performed at given physical addresses. -/
def State.ownStores (s : State) (t : TileId) (w : World) : List (Nat × Cap) → State
  | [] => s
  | (pa, v) :: r => ((s.lineNow t w pa true).capStore pa v).ownStores t w r

/-- The highest-numbered active loop level. -/
def Ctx.topAct (c : Ctx) : Option Nat := [3, 2, 1, 0].find? c.act

/-- The frame of R252 for a context: eight doublewords, the first three with their tags. -/
def Ctx.frame (c : Ctx) (cause faddr : Word) (xw : Bool) (m : Option ModeSh) : List Cap :=
  let mode : Nat := match m with
    | some p => (b2n p.sup <<< 30) + (b2n p.ie <<< 29) + (p.mlvl <<< 16)
    | none => 0
  let shadow := BitVec.ofNat 32 ((b2n xw <<< 31) + mode + c.dleft)
  let lv (v : Vector Word 4) : Word := match c.topAct with
    | some n => vget v n 0
    | none => 0
  [c.pcc, c.btgt, c.getC 15, Cap.ofDW (dw c.status cause), Cap.ofDW (dw faddr shadow),
   Cap.ofDW (dw (c.cmr.setWidth 32) c.lstat), Cap.ofDW (dw (lv c.ls) (lv c.le)), Cap.ofDW (dw (lv c.lc) (lv c.li))]

/-- An exception descriptor (Table 8-5); clean says that every reserved field is zero. -/
structure Desc where
  handler : Cap
  stack : Cap
  valid : Bool
  stk : Bool
  ie : Bool
  mlvl : Nat
  level : Nat
  mask : BitVec 16
  clean : Bool
deriving DecidableEq, Repr

/-- A descriptor from its four doublewords. -/
def Desc.ofCaps (l : List Cap) : Desc :=
  let m := (l.getD 2 Cap.null).bits
  { handler := l.getD 0 Cap.null, stack := l.getD 1 Cap.null, valid := bit m 31, stk := bit m 30, ie := bit m 29
    mlvl := fld m 20 16, level := fld m 11 8, mask := BitVec.ofNat 16 (fld m 47 32)
    clean := (dlo m &&& 0x1FE0F0FF == 0) && (fld m 63 48 == 0) && ((l.getD 3 Cap.null).bits == 0) }

/-- A stack capability as R250 requires it. -/
def stackOk (w : World) (c : Cap) : Bool :=
  c.tag && c.ot == 0 && c.tw == w && c.l && c.s && c.lc && c.sc && !c.gl

/-- A call sentry with X of a world (R250, R272). -/
def entryOk (w : World) (c : Cap) : Bool := c.tag && c.ot == 1 && c.x && c.tw == w

/-- R250. -/
def Desc.usable (d : Desc) (w : World) : Bool :=
  d.valid && d.clean && decide (d.mlvl ≤ 16) && maskOk w d.mask && entryOk w d.handler && stackOk w d.stack

/-- Descriptor e of world w's table on tile t, read as R248 says; none where it cannot be read. -/
def State.readDesc (s : State) (t : TileId) (w : World) (e : Nat) : State × Option Desc :=
  let auth := ((s.tile t).wcfgOf w).edtb
  match s.ownLoads t w true (widestMask w) auth 4 (auth.addr + BitVec.ofNat 32 (32 * e)) with
  | (s1, .error _) => (s1, none)
  | (s1, .ok l) => (s1, some (Desc.ofCaps (l.map (s1.filterCap (widestMask w)))))

/-- FLAT of a world on a tile. -/
def Tile.flat (x : Tile) (w : World) : Bool := bit (x.wcfgOf w).wcfg 31
/-- PRECISE. -/
def Tile.precise (x : Tile) (w : World) : Bool := bit (x.wcfgOf w).wcfg 30
/-- EFHELD. -/
def Tile.efheld (x : Tile) (w : World) : Bool := bit (x.wcfgOf w).wcfg 29
/-- HVALID. -/
def Tile.hvalid (x : Tile) (w : World) : Bool := bit (x.wcfgOf w).wcfg 28
/-- HCTX. -/
def Tile.hctx (x : Tile) (w : World) : CtxId := BitVec.ofNat 12 (fld (x.wcfgOf w).wcfg 11 0)
/-- Whether a world's shadow of a level holds an image (Table 4-10). -/
def Tile.shadowHeld (x : Tile) (w : World) (sup : Bool) : Bool := bit (x.wcfgOf w).pstat (if sup then 1 else 0)
/-- UCTX of a world's user shadow. -/
def Tile.uctx (x : Tile) (w : World) : CtxId := BitVec.ofNat 12 (fld (x.wcfgOf w).pstat 27 16)

/-- Every attached-unit operation in flight completed, in the order of completion. -/
def Att.finish (a : Att) : Att :=
  { (List.range 70).foldl (fun a k => (a.pend.filter (fun p => p.rem == k + 1)).foldl (fun a p => p.op.apply a) a) a with pend := [] }

/-- The drain of R136: every operation triggered in an issued bundle completes. Results keep their counts in the image; float
flags are set; conditions that are raised stay to be reported (R267). -/
def Tile.drain (x : Tile) : Tile :=
  let csr := x.flow.infl.foldl (fun c i => csrFlags c i.flags) x.float.csr
  let x1 := x.modFlow (fun f =>
    { f with infl := (f.infl.filter (fun i => i.code.isSome)).map (fun i => { i with flags := 0, dist := max i.dist i.comp }) })
  { x1 with float := { x.float with csr := csr }, att := x.att.finish }

/-- The image copied into the shadow of the running world and level, the shadow held, every port cleared (R137). -/
def Tile.copyImage (x : Tile) : Tile :=
  let w := x.world
  let n := x.ctxNum
  let img := x.ports
  let x1 := if x.sup then
      x.modCfg w (fun g => { g with shS := img, pstat := setBit g.pstat 1 true })
    else x.modCfg w (fun g => { g with shU := img, pstat := setFld (setBit g.pstat 0 true) 27 16 n.toNat })
  { x1 with ports := Image.clear }

/-- A return to a level of a world restores the ports (R139). -/
def Tile.restoreImage (x : Tile) (w : World) (sup : Bool) : Tile :=
  let g := x.wcfgOf w
  if x.shadowHeld w sup then
    { x.modCfg w (fun g => { g with pstat := setBit g.pstat (if sup then 1 else 0) false }) with
      ports := if sup then g.shS else g.shU }
  else { x with ports := Image.clear }

/-- Whether a return to a level of a context raises PORT_HELD (R139). -/
def Tile.portHeld (x : Tile) (w : World) (sup : Bool) (n : CtxId) : Bool := !sup && x.shadowHeld w false && x.uctx w != n

/-- The flow of a tile after an entry, a switch or a return: nothing of the earlier bundle is pending; machine checks and
conditions still to be reported stay. -/
def Flow.fresh (f : Flow) (noTake : Bool) : Flow :=
  { f with freeze := .none, issuing := false, presp := [], held := none, checked := [], preciseDone := false, fault := none, modeSh := none, repSkip := false
           impDue := false, noTake := noTake, deliv := none, enter := none }

/-- The flow at a switch of context (R215, R216): operations in flight are abandoned and no arming window is open. -/
def Flow.switched (f : Flow) : Flow := { f.fresh false with infl := [], armWin := Vector.replicate 4 0 }

/-- A handler's values loaded into a context (R251, R261). -/
def Ctx.loadHandler (c : Ctx) (d : Desc) (c15 : Cap) (ie : Bool) (mlvl : Nat) : Ctx :=
  { c.setC 15 c15 with
    pcc := d.handler.withOt 0, cmr := d.mask, lstat := 0, bsh := 0
    status := (c.status &&& 0x80000000) ||| BitVec.ofNat 32 ((1 <<< 30) + (b2n ie <<< 29) + (mlvl <<< 16)) }

/-- PARK set in the contexts of world w resident on tile t, and those contexts written to their slots (R264 steps 1 and 2). -/
def State.parkResidents (s : State) (t : TileId) (w : World) : State :=
  (List.range 7).foldl (fun s b =>
    let k := vget (s.tile t).banks b Bank.reset
    if k.st != .empty && k.ctx.world == w then
      (s.modStore (·.setSlot k.num { k.ctx with ident := setBit k.ctx.ident 29 true })).modTile t (·.modBank b (fun _ => Bank.reset))
    else s) s

/-- The bank of tile t that holds context n, made the running bank (for a context that is resident there). -/
def State.resume (s : State) (t : TileId) (n : CtxId) : State :=
  match (s.tile t).bankOf n with
  | some b => s.runBank t b
  | none => s

/-- A tile's power of switching: ports cleared, operations in flight abandoned, no arming window (R140, R215). -/
def Tile.switched (x : Tile) : Tile := { x.modFlow Flow.switched with ports := Image.clear }

/-- World w halts on tile t with an original cause and double-fault reason (R264). -/
def State.haltWorld (s : State) (t : TileId) (w : World) (code : Code) (dfr : Nat) : State :=
  let x := s.tile t
  let link := x.link
  let running := x.run.isSome && x.world == w
  let s1 := s.parkResidents t w
  let s2 := s1.modTile t (fun x =>
    { (x.modCfg w (fun g => { g with wcfg := setBit (setBit g.wcfg 27 true) 29 false })).switched with
      run := if running then none else x.run })
  let src := if w == .opn then 34 else 35
  let s3 := ((s2.raise src).errRow 1 t w code (BitVec.ofNat 32 dfr)).stepHalt t w
  match link with
  | .interrupt c _ =>
    let s4 := (s3.modTile t (fun x => { x with link := .none })).resume t c
    s4.modTile t (fun x => x.restoreImage x.world x.sup)
  | .strait c _ addr =>
    let s4 := (s3.modTile t (fun x => { x with link := .none })).resume t c
    s4.modTile t (·.modFlow (fun f => { f with fault := some ⟨0x07, addr⟩ }))
  | .none =>
    if (s3.tile t).hvalid w.other then s3.modTile t (·.modFlow (fun f => { f with enter := some (w.other, src) })) else s3

/-- What an entry is taken for (R251): the descriptor index, the CAUSE word, the fault address, whether it is a synchronous
fault, whether it is a cross-world entry. -/
structure Entry where
  idx : Nat
  cause : Word
  faddr : Word
  sync : Bool
  xw : Bool
deriving DecidableEq, Repr

/-- A double fault (R261): the frame goes to the world's emergency frame, the ports are cleared, and entry 32 is entered; where
it cannot be, the world halts (R262). -/
def State.doubleFault (s : State) (t : TileId) (e : Entry) (dfr : Nat) : State :=
  let x := s.tile t
  let w := x.world
  let cause := e.cause ||| BitVec.ofNat 32 ((1 <<< 29) + (dfr <<< 18))
  let fr := x.ctx.frame cause e.faddr e.xw x.flow.modeSh
  let s1 := s.setTile t { x.modCfg w (fun g =>
    { g with wcfg := setBit g.wcfg 29 true, eframe := (List.range 8).foldl (fun v i => vset v i (fr.getD i Cap.null)) g.eframe }) with
    ports := Image.clear }
  match s1.readDesc t w 32 with
  | (s2, some d) =>
    if d.usable w then
      s2.modTile t (fun x => (x.modCtx (fun c => c.loadHandler d d.stack false 16)).modFlow (·.fresh true))
    else s2.haltWorld t w (e.cause.setWidth 8) dfr
  | (s2, none) => s2.haltWorld t w (e.cause.setWidth 8) dfr

/-- The entry of R251 after the image copy: descriptor, masking, push, handler; the first step that fails decides DFR. -/
def State.enterNow (s : State) (t : TileId) (e : Entry) : State :=
  let x := s.tile t
  let w := x.world
  match s.readDesc t w e.idx with
  | (s1, none) => s1.doubleFault t e 2
  | (s1, some d) =>
    if !d.usable w then s1.doubleFault t e 2
    else
      let c := (s1.tile t).ctx
      if e.sync && !(s1.tile t).flat w && decide (d.level < c.mlvl) then s1.doubleFault t e 3
      else
        let stk := if !c.sup || d.stk then d.stack else c.getC 15
        let fa := stk.addr - 64
        let fr := c.frame e.cause e.faddr e.xw (s1.tile t).flow.modeSh
        match s1.ownStoreCheck t w d.mask stk fr fa with
        | (s2, .error _) => s2.doubleFault t e 1
        | (s2, .ok pas) =>
          (s2.ownStores t w (pas.zip fr)).modTile t (fun x =>
            (x.modCtx (fun c => c.loadHandler d (stk.withAddr fa) d.ie d.mlvl)).modFlow (·.fresh true))

/-- Taking an exception on the running context of tile t (R136–R138, R251, R262): a synchronous fault under EFHELD halts the
world; a held shadow escalates; otherwise the image is copied and the entry made. -/
def State.enter (s : State) (t : TileId) (e : Entry) : State :=
  let x := (s.tile t).drain
  let w := x.world
  let s1 := s.setTile t x
  if e.sync && x.efheld w then s1.haltWorld t w (e.cause.setWidth 8) 0
  else if x.shadowHeld w x.sup then s1.doubleFault t e 4
  else (s1.setTile t x.copyImage).enterNow t e

/-- The imprecise report due at an entry (R266): the oldest condition, with IMP, IMORE and DIST. -/
def Flow.report (f : Flow) : Option Entry :=
  match f.infl.filter (fun i => i.code.isSome) with
  | [] => none
  | i :: r =>
    let code := i.code.getD 0
    some { idx := 16 + code.toNat / 8
           cause := BitVec.ofNat 32 ((1 <<< 30) + (b2n (!r.isEmpty) <<< 27) + (min i.dist 31 <<< 22) + code.toNat)
           faddr := i.trig, sync := true, xw := false }

/-- The imprecise report taken (R266, R267); the other conditions are dropped. -/
def State.takeReport (s : State) (t : TileId) (e : Entry) : State :=
  (s.modTile t (fun x => x.drain.modFlow (fun f => { f with infl := [], fault := none }))).enter t e

/-- The entry of a synchronous fault or machine check with a code. -/
def entryOf (f : FaultRec) (sync msh : Bool) : Entry :=
  { idx := 16 + f.code.toNat / 8, cause := BitVec.ofNat 32 ((b2n msh <<< 28) + f.code.toNat), faddr := f.faddr, sync := sync, xw := false }

/-- The entry of an interrupt from source n (R297). -/
def entryIrq (s : State) (n : Nat) (xw : Bool) : Entry :=
  { idx := s.irqLevel n, cause := BitVec.ofNat 32 ((1 <<< 31) + (n <<< 9)), faddr := 0, sync := false, xw := xw }

/-- LASTn of a world after source i is committed on tile t (Table 9-5). -/
def State.commitIrq (s : State) (t : TileId) (w : World) (i : Nat) : State :=
  s.setRegW w 0x00A (0x1104 + 16 * t.toNat) (BitVec.ofNat 32 ((1 <<< 31) + (s.irqLevel i <<< 12) + i))

/-- A wrapping half of TSTATn raised by one: TAILS where hi, else ABAND (Table 9-5). -/
def State.countTstat (s : State) (t : TileId) (w : World) (hi : Bool) : State :=
  let off := 0x1108 + 16 * t.toNat
  let v := s.regW w 0x00A off
  s.setRegW w 0x00A off (if hi then setFld v 31 16 (fld v 31 16 + 1) else setFld v 15 0 (fld v 15 0 + 1))

/-- Whether a source of a level passes a masking word (R245): IE in flat mode, MLVL in level mode. -/
def maskPasses (flat : Bool) (word : Word) (level : Nat) : Bool := if flat then bit word 29 else decide (fld word 20 16 ≤ level)

/-- One level's end decision (R184, R185): loop back or exhausted. c is the state so far. -/
def decideLevels (c : Ctx) : List Nat → Ctx × Option Word
  | [] => (c, none)
  | n :: r =>
    if decide (1 < (vget c.lc n 0).toNat) then ({ c with lc := vset c.lc n (vget c.lc n 0 - 1) }, some (vget c.ls n 0))
    else if (List.range n).any c.act then decideLevels { c with lc := vset c.lc n (vget c.li n 0) } r
    else decideLevels { c with lstat := c.lstat &&& ~~~ (BitVec.ofNat 32 ((0xF <<< n) % 16)) } r

/-- The pending end decisions made at a frame return (R256), and PEND cleared. -/
def Ctx.decidePending (c : Ctx) : Ctx :=
  let ls := [3, 2, 1, 0].filter c.pendLv
  let c1 := { c with lstat := c.lstat &&& 0xFFFFF0FF }
  match ls with
  | [] => c1
  | n :: _ =>
    if c.pcc.addr = vget c.le n 0 then c1
    else
      match decideLevels c1 ls with
      | (c2, some a) => { c2 with pcc := c2.pcc.jumpTo a }
      | (c2, none) => c2

/-- The frame of a frame return: from memory through C15, or the emergency frame where EFHELD (R254). -/
def State.readFrame (s : State) (t : TileId) : State × Except FaultRec (List Cap) :=
  let x := s.tile t
  let c := x.ctx
  if x.efheld x.world then (s, .ok (x.wcfgOf x.world).eframe.toList)
  else s.ownLoads t x.world c.sup c.cmr (c.getC 15) 8 (c.getC 15).addr

/-- The checks of R254 and R139 on a frame; pc is the address of the returning bundle. -/
def State.checkFrame (s : State) (t : TileId) (pc : Word) (fr : List Cap) : Option FaultRec :=
  let x := s.tile t
  let c := x.ctx
  let w := x.world
  let fa := (c.getC 15).addr
  let pcc := fr.getD 0 Cap.null
  let status := dlo (fr.getD 3 Cap.null).bits
  let shadow := dhi (fr.getD 4 Cap.null).bits
  let cmr := dlo (fr.getD 5 Cap.null).bits
  let callee := match x.link with
    | .interrupt _ h => h == x.ctxNum
    | _ => false
  if !pcc.tag || pcc.ot != 0 || pcc.tw != w || status &&& 0x1FE0FFFF != 0 || shadow &&& 0x1FE0FFFC != 0
      || decide (16 < fld status 20 16) || decide (16 < fld shadow 20 16) || (bit shadow 31 && !callee) then some ⟨0x09, fa⟩
  else if cmr &&& 0xFFFF0000 != 0 || !maskOk w (cmr.setWidth 16) then some ⟨0x23, pc⟩
  else if x.portHeld w (bit status 30) x.ctxNum then some ⟨0x35, pc⟩
  else
    match x.link with
    | .interrupt o _ =>
      if bit shadow 31 && x.portHeld w.other (s.ctx o).sup o then some ⟨0x35, pc⟩ else none
    | _ => none

/-- A context after its frame is restored (R255). -/
def Ctx.restoreFrame (c : Ctx) (fr : List Cap) : Ctx :=
  let d (i : Nat) : DWord := (fr.getD i Cap.null).bits
  let c1 : Ctx := { c.setC 15 (fr.getD 2 Cap.null) with
    pcc := fr.getD 0 Cap.null, btgt := fr.getD 1 Cap.null, bsh := dhi (d 4) &&& 3
    status := (c.status &&& 0x80000000) ||| (dlo (d 3) &&& 0x601F0000)
    cmr := (dlo (d 5)).setWidth 16, lstat := dhi (d 5) &&& 0xFFFF0F0F }
  match c1.topAct with
  | none => c1
  | some n => { c1 with ls := vset c1.ls n (dlo (d 6)), le := vset c1.le n (dhi (d 6)), lc := vset c1.lc n (dlo (d 7)), li := vset c1.li n (dhi (d 7)) }

/-- The link closed and the preempted Open context resumed with its image (R278, R298). -/
def State.unlink (s : State) (t : TileId) : State :=
  match (s.tile t).link with
  | .interrupt c _ =>
    let s1 := (s.modTile t (fun x => { x.switched with link := .none })).resume t c
    s1.modTile t (fun x => x.restoreImage x.world x.sup)
  | _ => s

/-- The tail-chain of R300 and R301, where its conditions hold for the frame of a return. -/
def State.tailChain (s : State) (t : TileId) (fr : List Cap) : Option State :=
  let x := s.tile t
  let w := x.world
  let c := x.ctx
  let status := dlo (fr.getD 3 Cap.null).bits
  let shadow := dhi (fr.getD 4 Cap.null).bits
  let cause := dhi (fr.getD 3 Cap.null).bits
  if x.efheld w || bit cause 28 || x.haltBit w then none
  else
    let word := if bit shadow 31 then (x.wcfgOf w).mask else status
    match s.deliverable t w (maskPasses (x.flat w) word) with
    | none => none
    | some i =>
      match s.readDesc t w (s.irqLevel i) with
      | (_, none) => none
      | (s1, some d) =>
        let c15 := c.getC 15
        let stk := if !bit status 30 || d.stk then d.stack else fr.getD 2 Cap.null
        let same := stk.tag == c15.tag && stk.decode == c15.decode && stk.perm == c15.perm && stk.addr == c15.addr + 64
        let a := c15.addr + 0x1C
        if !d.usable w || !same || (capAccessCheck c15 w true false Cap.null a 8).isSome then none
        else
          match s1.access9Now t w c.sup c.cmr a .store with
          | (_, .error _) => none
          | (s2, .ok x1) =>
            match s2.access9Now t w c.sup c.cmr (a + 4) .store with
            | (_, .error _) => none
            | (s3, .ok x2) =>
              if !(s3.place x1.pa).tagged || !(s3.place x2.pa).tagged then none
              else
                let e := entryIrq s i false
                let s4 := ((s3.lineNow t w x1.pa true).memWrite x1.pa (toBytes 4 e.cause.toNat))
                let s5 := ((s4.lineNow t w x2.pa true).memWrite x2.pa (toBytes 4 0))
                let s6 := (s5.commitIrq t w i).countTstat t w true
                some (s6.modTile t (fun x =>
                  { (x.modCtx (fun c => c.loadHandler d c15 d.ie d.mlvl)).modFlow (fun f => { f.fresh true with infl := [] }) with
                    ports := Image.clear }))

/-- A frame return with a frame that passed its checks (R255, R256, R258, R278, R300). -/
def State.frameReturn (s : State) (t : TileId) (fr : List Cap) : State :=
  match s.tailChain t fr with
  | some s1 => s1
  | none =>
    let status := dlo (fr.getD 3 Cap.null).bits
    let shadow := dhi (fr.getD 4 Cap.null).bits
    let cause := dhi (fr.getD 3 Cap.null).bits
    let sh : Option ModeSh := if bit cause 28 then some { sup := bit shadow 30, ie := bit shadow 29, mlvl := fld shadow 20 16 } else none
    let s1 := s.modTile t (fun x =>
      let w := x.world
      let x1 := x.modCtx (fun c => (c.restoreFrame fr).decidePending)
      let x2 := x1.modCfg w (fun g => { g with wcfg := setBit g.wcfg 29 false })
      (x2.restoreImage w (bit status 30)).modFlow (fun f => { f.fresh false with infl := [], modeSh := sh }))
    if bit shadow 31 then s1.unlink t else s1

end Sys2Proof.Machine
end

