-- ==== Sys2Proof/Machine/Window.lean ====
section
/-!
DEFINITION. Machine/Window.lean: the control ports with items behind them: the bank window CTL.BWD (R206, R221–R225, R228, R231–R234),
CTL.SCED (R269), CTL.PIMG (R142), CTL.ATTOWN (R174).
-/
namespace Sys2Proof.Machine

/-- What stops a bundle from completing now: a precise fault, a freeze it waits for, a serial
access with the translations of the bundle's accesses, or an imprecise report that must be taken at
the boundary before it (R267). -/
inductive Stop where
  | fault (f : FaultRec)
  | need (f : Freeze)
  | serial (f : Freeze) (l : List Checked)
  | report
deriving DecidableEq, Repr

/-- WIN_ARG. -/
def winArg : Code := 0x56
/-- CTX_FREE. -/
def ctxFree : Code := 0x50
/-- CTX_WORLD. -/
def ctxWorld : Code := 0x51
/-- CTX_BUSY. -/
def ctxBusy : Code := 0x53

/-- SPACE of CTL.BWR. -/
def bwrSpace (b : Word) : Nat := fld b 30 29
/-- NUM of CTL.BWR. -/
def bwrNum (b : Word) : Nat := fld b 27 16
/-- INDEX of CTL.BWR. -/
def bwrIndex (b : Word) : Nat := fld b 5 0
/-- INDEX advanced by n accesses where AINC (Table 7-9). -/
def bwrAdvance (b : Word) (n : Nat) : Word := if bit b 31 then setFld b 5 0 (bwrIndex b + n) else b

/-- Whether the selection of CTL.BWR is invalid (R222, first two cases). -/
def bwrBad (b : Word) (t : TileId) (write : Bool) : Bool :=
  let n := bwrNum b
  let i := bwrIndex b
  match bwrSpace b with
  | 0 => decide (47 < i)
  | 1 => decide (255 < n) || decide (3 < i)
  | 2 => i != 0
  | _ => decide (15 < n) || decide (7 < i) || (n != t.toNat && (i == 0 || write))

/-- Whether a context runs on some tile (R222, R276): a RUNNING or recorded context, or the caller of an open link. -/
def State.isRunning (s : State) (n : CtxId) : Bool :=
  match s.dir n with
  | .running _ _ => true
  | .recorded _ => true
  | _ => false

/-- The checks of R222 on a context named by the window, and the wait of R210 for a spill. claim says that the access is a claim. -/
def State.windowCtx (s : State) (w : World) (n : CtxId) (claim : Bool) (pc : Word) : Option Stop :=
  let c := s.ctx n
  if !c.claimed then (if claim then none else some (.fault ⟨ctxFree, pc⟩))
  else if c.world != w then some (.fault ⟨ctxWorld, pc⟩)
  else if s.isRunning n then some (.fault ⟨ctxBusy, pc⟩)
  else
    match s.dir n with
    | .spilling _ => some (.need (.spill))
    | _ => none

/-- BANKSTAT of bank b of a tile for a reader's world (Table 7-10, R225). -/
def Tile.bankstat (x : Tile) (w : World) (b : Nat) : DWord :=
  let k := vget x.banks b Bank.reset
  let valid := k.st != .empty || k.handed
  let other := valid && k.ctx.world != w
  BitVec.ofNat 64 ((b2n valid <<< 31) + (b2n (k.st == .dirty || k.st == .running) <<< 30) + (b2n (k.st == .running) <<< 29)
    + (b2n k.handed <<< 28) + (b2n other <<< 27) + (if valid && !other then k.num.toNat else 0))

/-- FPOWN as its word holds it: VALID, WORLD, PARKT, PARKO, CTX (Table 7-11). -/
def fpownMask : Word := 0xF0000FFF

/-- A read of CTL.BWD: the selected doubleword, its tag under the filter of R90. A doubleword that holds an uncorrectable error reads
as an open value without tag. -/
def State.windowRead (s : State) (t : TileId) (pc : Word) : Except Stop Cap :=
  let x := s.tile t
  let w := x.world
  let b := (x.wcfgOf w).bwr
  let n := bwrNum b
  let i := bwrIndex b
  if bwrBad b t false then .error (.fault ⟨winArg, pc⟩)
  else
    match bwrSpace b with
    | 0 =>
      match s.windowCtx w (BitVec.ofNat 12 n) false pc with
      | some e => .error e
      | none =>
        let c := s.ctx (BitVec.ofNat 12 n)
        if (s.dir (BitVec.ofNat 12 n)) == .stored && Sparse.get false (48 * n + i) s.store.damaged then
          .ok (Cap.ofDW (Config.freeDWord (s.free * 2 ^ 40 + 64 * n + i)))
        else .ok (s.filterCap c.cmr (c.dword i))
    | 1 =>
      let d := s.isle n
      .ok (match i with
        | 0 => s.filterCap (widestMask d.world) d.root
        | 1 => Cap.ofDW d.word
        | _ => Cap.null)
    | 2 => .ok (Cap.ofWord (s.isleMap w n))
    | _ => .ok (Cap.ofDW (if i = 0 then (x.fpown).setWidth 64 else (s.tile (BitVec.ofNat 4 n)).bankstat w (i - 1)))

/-- A write of FPOWN by world w (R228). -/
def Tile.writeFpown (x : Tile) (w : World) (v : Word) : Tile :=
  let o := World.ofBit (bit x.fpown 30)
  let pbit (w : World) : Nat := if w == .trade then 29 else 28
  -- step 1
  let x1 := if bit x.fpown 31 && o != w then
      { x.modCfg o (fun g => { g with park := { x.float with ctx := BitVec.ofNat 12 (fld x.fpown 11 0) } }) with
        float := FloatState.reset, fpown := setBit (setBit x.fpown 31 false) (pbit o) true }
    else x
  let flags := x1.fpown &&& 0x30000000
  let own (flags : Word) (n : Nat) : Word := flags ||| BitVec.ofNat 32 ((1 <<< 31) + (b2n w.bit <<< 30) + n)
  if bit v 31 && bit x1.fpown (pbit w) then
    -- step 2
    let p := (x1.wcfgOf w).park
    { x1.modCfg w (fun g => { g with park := FloatState.reset }) with
      float := { p with ctx := 0 }, fpown := own (setBit flags (pbit w) false) p.ctx.toNat }
  else if bit v 31 then { x1 with fpown := own flags (fld v 11 0) }
  else { x1 with float := FloatState.reset, fpown := flags }

/-- A value written into IDENT of a claimed context: the RW and W1C fields of Table 7-2. -/
def identWrite (old v : Word) : Word :=
  let w1c := v &&& 0x0C000000
  ((old &&& 0xDC000000) ||| (v &&& 0x201FFFFF)) &&& ~~~ w1c

/-- A release: the slot cleared to zero and every copy dropped (R206). -/
def State.release (s : State) (n : CtxId) : State :=
  let s1 := match s.dir n with
    | .resident t b => s.modTile t (·.modBank b (fun _ => Bank.reset))
    | _ => s
  s1.modStore (fun x => { x.setSlot n Ctx.zero with damaged := x.damaged.filter (fun p => p.1 / 48 != n.toNat) })

/-- A write into context n through the window at doubleword i (R206, R221–R224). -/
def State.windowCtxWrite (s : State) (w : World) (n : CtxId) (i : Nat) (v : Cap) (pc : Word) : Except Stop State :=
  let c := s.ctx n
  let lo := dlo v.bits
  let claim := i == 45 && bit lo 31
  match s.windowCtx w n claim pc with
  | some e => .error e
  | none =>
    if !c.claimed then
      .ok (s.modStore (·.setSlot n { c with
        ident := (lo &&& 0x201FFFFF) ||| 0x80000000 ||| BitVec.ofNat 32 (b2n w.bit <<< 30)
        status := (c.status &&& 0x7FFFFFFF) ||| BitVec.ofNat 32 (b2n w.bit <<< 31) }))
    else if i = 45 ∧ bit lo 31 = false then
      if n.toNat < 16 then .error (.fault ⟨winArg, pc⟩) else .ok (s.release n)
    else
      let st := dhi v.bits
      let cm := lo
      if i = 34 ∧ (st &&& 0x1FE0FFFF ≠ 0 ∨ 16 < fld st 20 16) then .error (.fault ⟨winArg, pc⟩)
      else if i = 35 ∧ (cm &&& 0xFFFF0000 ≠ 0 ∨ maskOk c.world (cm.setWidth 16) = false) then .error (.fault ⟨winArg, pc⟩)
      else
        let f (c : Ctx) : Ctx := if i = 45 then { c with ident := identWrite c.ident lo } else c.setDword i v
        .ok ((s.modCtx n f).modStore (fun x =>
          { x with damaged := if (s.dir n) == .stored then Sparse.erase (48 * n.toNat + i) x.damaged else x.damaged }))

/-- Every tile's kept isle entries that a test names, dropped (R234). -/
def State.dropIsles (s : State) (f : World × Nat → Bool) : State :=
  s.mapTiles (·.modSys (fun y => { y with isles := y.isles.filter (fun e => !f e) }))

/-- A write to doubleword i of isle descriptor n by world w (R231, R233, R234). -/
def State.isleWrite (s : State) (w : World) (n i : Nat) (v : Cap) (pc : Word) : Except Stop State :=
  let d := s.isle n
  let lo := dlo v.bits
  let put (d : Isle) : State :=
    (s.modStore (fun x => { x with isles := Sparse.write Isle.reset n d x.isles })).dropIsles
      (fun e => fld (s.isleMap e.1 e.2) 7 0 == n)
  if d.valid && d.world != w then .error (.fault ⟨winArg, pc⟩)
  else
    match i with
    | 0 => if v.tag && v.tw != w then .error (.fault ⟨winArg, pc⟩) else .ok (put { d with root := v })
    | 1 =>
      if !maskOk w (lo.setWidth 16) then .error (.fault ⟨winArg, pc⟩)
      else
        let wbit := if !d.valid && bit lo 31 then w.bit else d.world.bit
        .ok (put { d with word := ((lo &&& 0xA000FFFF) ||| BitVec.ofNat 32 (b2n wbit <<< 30)).setWidth 64 })
    | _ => .ok (put d)

/-- A write to entry r of world w's isle map (R232–R234). -/
def State.isleMapWrite (s : State) (w : World) (r : Nat) (v : Word) (pc : Word) : Except Stop State :=
  let d := s.isle (fld v 7 0)
  if bit v 8 && !(d.valid && d.world == w) then .error (.fault ⟨winArg, pc⟩)
  else .ok ((s.modStore (fun x => { x with maps := Sparse.write 0 (4096 * w.idx + r) (v &&& 0x1FF) x.maps })).dropIsles (· == (w, r)))

/-- A write of CTL.BWD with the selection b of CTL.BWR (R221, R222). -/
def State.windowWrite (s : State) (t : TileId) (b : Word) (v : Cap) (pc : Word) : Except Stop State :=
  let w := (s.tile t).world
  let n := bwrNum b
  let i := bwrIndex b
  if bwrBad b t true then .error (.fault ⟨winArg, pc⟩)
  else
    match bwrSpace b with
    | 0 => s.windowCtxWrite w (BitVec.ofNat 12 n) i v pc
    | 1 => s.isleWrite w n i v pc
    | 2 => s.isleMapWrite w n v.addr pc
    | _ => .ok (if i = 0 then s.modTile t (·.writeFpown w v.addr) else s)

/-- ITEM and INDEX of CTL.SCEX. -/
def scexSel (e : Word) : Nat × Nat := (fld e 7 4, fld e 3 0)
/-- Whether CTL.SCEX selects something outside Table 8-13. -/
def scexBad (e : Word) : Bool :=
  match scexSel e with
  | (0, i) | (1, i) | (2, i) | (3, i) | (4, i) => decide (2 < i)
  | (5, i) => i != 0
  | (6, i) => decide (7 < i)
  | _ => true
/-- INDEX of CTL.SCEX advanced by n accesses where AINC. -/
def scexAdvance (e : Word) (n : Nat) : Word := if bit e 31 then setFld e 3 0 (fld e 3 0 + n) else e

/-- The item that CTL.SCEX selects (Table 8-13). -/
def WorldCfg.item (g : WorldCfg) : Cap :=
  match scexSel g.scex with
  | (4, 0) => g.sysl.c15
  | (4, 1) => Cap.ofDW g.sysl.word
  | (4, _) => Cap.ofDW g.sysl.status
  | (5, _) => g.stb
  | (6, i) => vget g.eframe i Cap.null
  | (k, i) =>
    let e := vget g.sce k { entry := Cap.null, stack := Cap.null, word := 0 }
    match i with
    | 0 => e.entry
    | 1 => e.stack
    | _ => Cap.ofDW e.word

/-- The item that a selection names, set. Untagged items ignore the moved tag; reserved bits stay zero. -/
def WorldCfg.setItem (g : WorldCfg) (e : Word) (v : Cap) : WorldCfg :=
  match scexSel e with
  | (4, 0) => { g with sysl := { g.sysl with c15 := v } }
  | (4, 1) => { g with sysl := { g.sysl with word := v.bits &&& 0x8FFFFFFF } }
  | (4, _) => { g with sysl := { g.sysl with status := v.bits &&& 0xFFFFFFFF } }
  | (5, _) => { g with stb := v }
  | (6, i) => { g with eframe := vset g.eframe i (if i < 3 then v else v.untag) }
  | (k, i) =>
    let e := vget g.sce k { entry := Cap.null, stack := Cap.null, word := 0 }
    { g with sce := vset g.sce k (match i with
      | 0 => { e with entry := v }
      | 1 => { e with stack := v }
      | _ => { e with word := v.bits &&& 0xA01FFFFF }) }

/-- Whether the selected item keeps a tag. -/
def scexTagged (e : Word) : Bool :=
  match scexSel e with
  | (6, i) => decide (i < 3)
  | (5, _) => true
  | (4, i) => i == 0
  | (_, i) => decide (i < 2)

/-- Whether the doubleword holds a colour mask in bits [15:0] (R269). -/
def scexMask (e : Word) : Bool :=
  match scexSel e with
  | (4, i) => i == 1
  | (5, _) => false
  | (6, i) => i == 5
  | (_, i) => i == 2

/-- A read of CTL.SCED (R269) under the filter of R90. -/
def State.scedRead (s : State) (t : TileId) (pc : Word) : Except Stop Cap :=
  let x := s.tile t
  let g := x.wcfgOf x.world
  if scexBad g.scex then .error (.fault ⟨winArg, pc⟩) else .ok (s.filterCap (widestMask x.world) g.item)

/-- The check of a write of CTL.SCED with the selection e (R269). -/
def scedBad (w : World) (e : Word) (v : Cap) : Bool :=
  scexBad e || (scexTagged e && v.tag && v.tw != w) || (scexMask e && !maskOk w (v.addr.setWidth 16))

/-- Whether CTL.PIX selects the supervisor shadow, and its slot (Table 4-9). -/
def pixSel (p : Word) : Bool × Nat := (bit p 8, fld p 5 0)

/-- A read of CTL.PIMG (R142) under the filter of R90: the user shadow by UCTX's mask, the supervisor shadow by the widest. -/
def State.pimgRead (s : State) (t : TileId) : Cap :=
  let x := s.tile t
  let w := x.world
  let g := x.wcfgOf w
  let (sup, i) := pixSel g.pix
  if 58 ≤ i then Cap.null
  else s.filterCap (if sup then widestMask w else (s.ctx (x.uctx w)).cmr) (Image.at (if sup then g.shS else g.shU) i)

/-- What slot i of an image keeps of a value: bits [63:40] of the MAC's slot 44 are zero (Table 6-6), byte 7 of PMETA2 is reserved (Table 4-7). -/
def imageSlot (i : Nat) (v : Cap) : Cap :=
  if i = 44 then { v with bits := setFld v.bits 63 40 0 } else if i = 57 then { v with bits := setFld v.bits 63 56 0 } else v

/-- A write of CTL.PIMG with the selection p of CTL.PIX. -/
def WorldCfg.pimgWrite (g : WorldCfg) (p : Word) (v0 : Cap) : WorldCfg :=
  let (sup, i) := pixSel p
  let v := imageSlot i v0
  if 58 ≤ i then g
  else if sup then { g with shS := Image.set g.shS i v } else { g with shU := Image.set g.shU i v }

/-- A write to CTL.ATTOWN by a world that may make it (R174). -/
def Att.writeOwn (a : Att) (w : World) (v : Word) : Att :=
  let own := (v &&& 0x80000FFF) ||| BitVec.ofNat 32 (b2n w.bit <<< 30)
  if bit v 31 then { a with own := own } else { Att.reset with own := own }

end Sys2Proof.Machine
end

