-- ==== Sys2Proof/Machine/Units.lean ====
section
/-!
DEFINITION. Machine/Units.lean: what one move of a bundle does (chapters 4 to 8): its source value, the faults of step 4 and step 6
of Table 5-8, and its effect at the end of the bundle.
-/
namespace Sys2Proof.Machine

/-- A bundle being judged: the tile as it stands at the start of the bundle (results that are due have landed), the same tile with
the bundle's operand moves made (R117), the accumulator with its accumulator moves made (R197), its address and length, the answers
to its serial accesses, the moves with true guards. -/
structure Bun where
  t : TileId
  w : World
  sup : Bool
  pc : Word
  len : Nat
  c : Ctx
  x : Tile
  view : Tile
  acc : Acc
  moves : List Move

/-- A strait descriptor that passed its checks (Table 8-14), with the strait's ADDR. -/
structure Strait where
  ctx : CtxId
  entry : Cap
  stack : Cap
  data : Cap
  sup : Bool
  mlvl : Nat
  mask : BitVec 16
  addr : Word
deriving DecidableEq, Repr

/-- What a bundle's transfer or switch does after its other moves (R122, R213, R254, R270–R275). -/
inductive After where
  | none
  | jump (target : Cap) (call : Bool)
  | sw (n : CtxId)
  | scall (d : Strait)
  | sret
  | sys (k : Nat)
  | fast
  | frame (fr : List Cap)
deriving DecidableEq, Repr

/-- What a move that may complete does: its effect at the end of the bundle, how many answers it used, the serial access it waits
for, an arithmetic condition under PRECISE, whether PRECISE makes it freeze (R268), and the conditions it puts in flight (R266). -/
structure MoveRes where
  post : State → State
  used : Nat
  pend : List Freeze
  seen : List Checked
  arith : Option FaultRec
  frz : Bool
  infl : List Infl
  after : After := .none

/-- A move that does nothing at the end of its bundle beyond its operand write. -/
def MoveRes.none : MoveRes := { post := id, used := 0, pend := [], seen := [], arith := Option.none, frz := false, infl := [] }
/-- A move whose only effect is at the end of the bundle. -/
def MoveRes.act (f : State → State) : MoveRes := { MoveRes.none with post := f }

/-- CTL.ID (Table 5-7). -/
def ctlId (t : TileId) (w : World) (sup : Bool) : Word :=
  BitVec.ofNat 32 ((b2n w.bit <<< 15) + (b2n sup <<< 14) + t.toNat)

/-- What a source port reads at the start of a bundle (R127). Only the ports with items behind them can stop the bundle. -/
def State.source (s : State) (t : TileId) (x : Tile) (pc : Word) : Src → Except Stop Cap
  | .w n => .ok (Cap.ofWord (x.ctx.getW n))
  | .c n => .ok (x.ctx.getC n)
  | .f n => .ok (Cap.ofWord (vget x.float.f n 0))
  | .p n => .ok (Cap.ofWord (b2w (x.ctx.pred.getLsbD n)))
  | .ls n => .ok (Cap.ofWord (vget x.ctx.ls n 0))
  | .le n => .ok (Cap.ofWord (vget x.ctx.le n 0))
  | .lc n => .ok (Cap.ofWord (vget x.ctx.lc n 0))
  | .capRC => .ok (Image.at x.ports 39)
  | .capRW => .ok (Cap.ofWord (Image.word x.ports 40))
  | .skm => .ok (Cap.ofWord (x.ctx.skm.setWidth 32))
  | .ctl p =>
    let g := x.wcfgOf x.world
    match p with
    | .mode => .ok (Cap.ofWord x.ctx.status)
    | .cmr => .ok (Cap.ofWord (x.ctx.cmr.setWidth 32))
    | .pstat => .ok (Cap.ofWord g.pstat)
    | .pix => .ok (Cap.ofWord g.pix)
    | .pimg => .ok (s.pimgRead t)
    | .bwr => .ok (Cap.ofWord g.bwr)
    | .bwd => s.windowRead t pc
    | .edtb => .ok (s.filterCap (widestMask x.world) g.edtb)
    | .scex => .ok (Cap.ofWord g.scex)
    | .sced => s.scedRead t pc
    | .wcfg => .ok (Cap.ofWord g.wcfg)
    | .mask => .ok (Cap.ofWord g.mask)
    | .attown => .ok (Cap.ofWord x.att.own)
    | .id => .ok (Cap.ofWord (ctlId t x.world x.sup))
    | .ctx => .ok (Cap.ofWord (BitVec.ofNat 32 x.ctxNum.toNat))
    | .sw | .gfence | .mfence | .ifence | .dwbinv => .ok Cap.null
  | .aluRes u => .ok (Cap.ofWord (Image.word x.ports (uAlu u).res))
  | .lsuRes u => .ok (Cap.ofWord (Image.word x.ports (uLsu u).res))
  | .lsuRC u => .ok (Image.at x.ports (uLsu u).resC)
  | .shfRes => .ok (Cap.ofWord (Image.word x.ports uShf.res))
  | .cmpRes => .ok (Cap.ofWord (Image.word x.ports uCmp.res))
  | .mulRes => .ok (Cap.ofWord (Image.word x.ports uMul.res))
  | .divRes => .ok (Cap.ofWord (Image.word x.ports uDiv.res))
  | .fpuRes => .ok (Cap.ofWord (Image.word x.ports uFpu.res))
  | .fpuCsr => .ok (Cap.ofWord x.float.csr)
  | .accl => .ok (Cap.ofWord (macRead (Image.word x.ports slotMacCfg) (Image.at x.ports 45).bits))
  | .acch => .ok (Cap.ofWord (dhi (Image.at x.ports 45).bits))
  | .macStat => .ok (Cap.ofWord (BitVec.ofNat 32 (fld (Image.at x.ports slotMacCfg).bits 33 32)))
  | .feat k => .ok (Cap.ofWord (x.feat k))
  | .aesOut n => .ok (Cap.ofWord (vget x.att.out n 0))
  | .ghY n => .ok (Cap.ofWord (vget x.att.y n 0))
  | .shaH n => .ok (Cap.ofWord (vget x.att.sha n 0))
  | .absent => .ok Cap.null
  | .imm v => .ok (Cap.ofWord v)

/-- The value a move delivers (R55): whole between capability-holding ports, else a word. -/
def State.moveVal (s : State) (t : TileId) (x : Tile) (pc : Word) (m : Move) : Except Stop Cap :=
  match s.source t x pc m.src with
  | .error e => .error e
  | .ok v => .ok (if m.dst.holdsCap then v else Cap.ofWord v.addr)

/-- The value of a move where it can be read, else null: for operands and conflicts; the move's own slot reports the fault. -/
def State.moveVal0 (s : State) (t : TileId) (x : Tile) (pc : Word) (m : Move) : Cap :=
  match s.moveVal t x pc m with
  | .ok v => v
  | .error _ => Cap.null

/-- An operand move made (R117): unit operands, FPU.CSR, the operands of the attached units. -/
def Tile.operand (x : Tile) (d : Dst) (v : Cap) : Tile :=
  let p (n : Nat) : Tile := { x with ports := Image.setWord x.ports n v.addr }
  let pc (n : Nat) : Tile := { x with ports := Image.set x.ports n v }
  match d with
  | .capA => pc slotCapA
  | .capB => pc slotCapB
  | .aluA u => p (slotAluA u)
  | .lsuCA u => pc (slotLsuCA u)
  | .lsuSD u => p (slotLsuSD u)
  | .lsuSC u => pc (slotLsuSC u)
  | .shfA => p slotShfA
  | .divA => p slotDivA
  | .cmpA => p slotCmpA
  | .cmpPD => p slotCmpPD
  | .mulA => p slotMulA
  | .macA => p slotMacA
  | .macCfg => { x with ports := Image.set x.ports slotMacCfg (Cap.ofDW (setFld (Image.at x.ports slotMacCfg).bits 31 0 v.addr.toNat)) }
  | .fpuA => p slotFpuA
  | .fpuCsr => { x with float := { x.float with csr := v.addr &&& 0x3FF } }
  | .aesKey => { x with att := { x.att with key := Vector.ofFn (fun (i : Fin 8) => if i.val = 7 then v.addr else vget x.att.key (i.val + 1) 0) } }
  | .aesD n => { x with att := { x.att with d := vset x.att.d n v.addr } }
  | .ghH n => { x with att := { x.att with h := vset x.att.h n v.addr } }
  | .ghY n => { x with att := { x.att with y := vset x.att.y n v.addr } }
  | .shaM => { x with att := { x.att with msg := vset x.att.msg x.att.idx v.addr, idx := (x.att.idx + 1) % 16 } }
  | .shaH n => { x with att := { x.att with sha := vset x.att.sha n v.addr } }
  | _ => x

/-- A register, predicate or SKM move made at the end of the bundle (R119). -/
def Ctx.regMove (c : Ctx) (pc : Word) (d : Dst) (v : Cap) : Ctx :=
  match d with
  | .w n => c.setW n v.addr
  | .c n => c.setC n v
  | .p n => { c with pred := setBit c.pred n (bit v.bits 0) }
  | .ls n => { c with ls := vset c.ls n (pc + v.addr) }
  | .le n => { c with le := vset c.le n (pc + v.addr) }
  | .skm => { c with skm := v.bits.setWidth 4 }
  | _ => c

/-- Whether two moves into the same destination conflict (R129): registers, predicates, operand and control ports; never W0, C0. -/
def Dst.isPort : Dst → Bool
  | .w n | .c n => n != 0
  | .f _ | .p _ | .ls _ | .le _ | .lc _ | .rep | .capA | .capB | .skm | .ctl _ => true
  | .aluA _ | .lsuCA _ | .lsuSD _ | .lsuSC _ | .shfA | .divA | .cmpA | .cmpPD | .mulA | .macA | .macCfg | .accl | .acch
  | .fpuA | .fpuCsr | .aesKey | .aesD _ | .ghH _ | .ghY _ | .shaM | .shaH _ => true
  | _ => false

/-- The units a move triggers, as numbers; a dual-fetch MAC trigger counts for LSU0, LSU1 and the MAC (R129). -/
def Dst.units : Dst → List Nat
  | .alu u _ => [b2n u]
  | .lsu u _ => [2 + b2n u]
  | .shf _ => [4]
  | .cmp _ => [5]
  | .mul _ => [6]
  | .div _ => [7]
  | .cap _ => [8]
  | .bru _ => [9]
  | .fpu _ => [10]
  | .mac .dmac | .mac .dmac2 => [2, 3, 11]
  | .mac _ => [11]
  | .aesKset | .aesEnc | .aesDec | .ghMul => [12]
  | .shaInit | .shaRun => [13]
  | _ => []

/-- Whether a BRU trigger is a transfer with delay bundles. -/
def BruOp.delayed : BruOp → Bool
  | .br | .call | .jc | .callc | .ret => true
  | _ => false

/-- The conflicts of R129 among the moves with true guards; pd is CMP.PD as the bundle's compare sees it. CTL.SW beside SCALL, SRET,
SYS or ERET counts as a conflict (DEDUCED, log 41). -/
def conflict (ms : List Move) (pd : Nat) : Bool :=
  let ds := ms.map (·.dst)
  let cmp := ds.any (fun d => match d with | .cmp _ => true | _ => false)
  let call := ds.any (fun d => d == .bru .call || d == .bru .callc)
  let special := ds.any (fun d => match d with | .bru o => !o.delayed | _ => false)
  let rec pairs : List Dst → Bool
    | [] => false
    | d :: r => r.any (fun e => (d == e && d.isPort) || d.units.any (fun u => e.units.contains u)) || pairs r
  pairs ds || (cmp && pd != 0 && ds.contains (.p pd)) || (call && ds.contains (.c 14)) || (special && ds.contains (.ctl .sw))

/-- Whether a move that touches the attached units or the float state may (R173, R226): the owner word, the running world, level
and context. -/
def ownsUnit (own : Word) (w : World) (sup : Bool) (n : CtxId) : Bool :=
  bit own 31 && bit own 30 == w.bit && (sup || fld own 11 0 == n.toNat)

/-- Step 4 of Table 5-8 for a move with a true guard. -/
def State.step4 (s : State) (t : TileId) (x : Tile) (pc : Word) (m : Move) : Option Code :=
  let w := x.world
  let v := (s.moveVal0 t x pc m).addr
  if !x.sup && (m.dst.privileged || m.src.privileged) then some 0x47
  else if m.dst == .absent || m.src == .absent then some 0x48
  else if m.dst == .aesKset && v != 128 && v != 256 then some 0x48
  else if (m.dst.isAtt || m.src.isAtt) && !ownsUnit x.att.own w x.sup x.ctxNum then some 0x49
  else if m.dst == .ctl .attown && bit x.att.own 31 && bit x.att.own 30 != w.bit then some 0x49
  else if (m.dst.isFloat || m.src.isFloat) && !ownsUnit x.fpown w x.sup x.ctxNum then some 0x57
  else none

/-- The first fault of step 4 in slot order, at its syllable. -/
def State.step4All (s : State) (t : TileId) (x : Tile) (pc : Word) : List Move → Option FaultRec
  | [] => none
  | m :: r =>
    match s.step4 t x pc m with
    | some c => some ⟨c, m.addr⟩
    | none => s.step4All t x pc r

/-- How an access that passed its checks reaches its target: cached or buffered memory at an address, memory of an SE page, or a
serial access answered with a word; or it waits for a serial access. -/
inductive Acc6 where
  | mem (pa : Nat)
  | se (pa : Nat)
  | word (r : Word)
  | pend (f : Freeze)

/-- The entries of a tile's write buffer that still wait to drain (R18). -/
def Caches.waiting (c : Caches) : List WbEnt := c.wbuf.filter (fun e => !e.sent)

/-- The answer to serial access k of the bundle, or the wait for it (R31). -/
def Bun.serial (b : Bun) (k : Nat) (f : Freeze) (c : Checked) (ok : Word → Acc6) : Except Stop (Acc6 × Nat × Checked) :=
  match b.x.flow.presp[k]? with
  | some (.ok r) => .ok (ok r, 1, c)
  | some (.err e) => .error (.fault ⟨e, c.ea⟩)
  | none => .ok (.pend f, 0, c)

/-- Check 9 of Table 2-9 and the translation of an access, made once for a bundle: an access that was already translated completes under
what it translated to (R310). -/
def Bun.checkedAt (b : Bun) (s : State) (ea : Word) (store : Bool) : Except Stop Checked :=
  match b.x.flow.checked.find? (fun c => c.ea == ea) with
  | some c => .ok c
  | none =>
    match s.access9 b.t b.w b.sup b.c.cmr ea.toNat (if store then .store else .load) with
    | .fault c => .error (.fault ⟨c, ea⟩)
    | .walk => .error (.need (.walk ea false store))
    | .ok xl => .ok ⟨ea, xl.pa, xl.se⟩

/-- Who a tile is at the gates: its world, its level, its context's colours (R79, R100). -/
def Tile.req (x : Tile) (t : TileId) : Req := { world := x.world, sup := x.sup, cmr := x.ctx.cmr, tile := some t }

/-- The serial access of a bundle that goes first: one that its gate refuses, since a refusal squashes every move of the bundle (R169),
else the first in slot order. -/
def State.firstSerial (s : State) (b : Bun) (l : List Freeze) : Option Freeze :=
  let refused (f : Freeze) : Bool := match f with
    | .access a =>
      match s.place a.pa with
      | .periph slot off => (s.gateDecide (b.x.req b.t) slot off a.write).isSome
      | _ => false
    | _ => false
  match l.find? refused with
  | some f => some f
  | none => l.head?

/-- One access of a bundle (R64, R120, R144): checks 1 to 10 of Table 2-9, then what its target needs. k counts the serial accesses
before it; prior says that an earlier store of the bundle may take a buffer entry. -/
def State.access (s : State) (b : Bun) (k : Nat) (auth : Cap) (ea : Word) (n : Nat) (store isCap : Bool) (sv : Cap) (prior : Bool) :
    Except Stop (Acc6 × Nat × Checked) :=
  match capAccessCheck auth b.w store isCap sv ea n with
  | some (c, f) => .error (.fault ⟨c, f⟩)
  | none =>
    if !isCap && ea.toNat % n != 0 then .error (.fault ⟨0x31, ea⟩)
    else
      match b.checkedAt s ea store with
      | .error e => .error e
      | .ok xl =>
        let pa := xl.pa
        let place := s.place pa
        let acc : Freeze := .access { write := store, size := n, pa := pa, v := sv.addr, ea := ea, tries := 0, stored := none }
        if store && isCap && sv.tag && place.tagless then .error (.fault ⟨0x1A, ea⟩)
        else
          match place with
          | .periph _ _ | .reserved | .ctxStore | .emberPrivate => b.serial k acc xl .word
          | .rom =>
            if store then b.serial k acc xl .word
            else if (b.x.dataHit b.w pa).isSome then .ok (.mem pa, 0, xl) else .error (.need (.line pa false false ea))
          | .sram | .dram =>
            if xl.se then b.serial k (.sePage pa ea) xl (fun _ => .se pa)
            else
              match b.x.dataHit b.w pa with
              | some .shared => if store then .error (.need (.line pa false true ea)) else .ok (.mem pa, 0, xl)
              | some _ => .ok (.mem pa, 0, xl)
              | none => .error (.need (.line pa false store ea))
          | .emram | .ember =>
            if xl.se then b.serial k (.sePage pa ea) xl (fun _ => .se pa)
            else if store then
              let wt := b.x.caches.waiting
              if wt.any (fun e => e.line == lineOf pa) || decide (wt.length + b2n prior < 4) then .ok (.mem pa, 0, xl)
              else .error (.need (.room (place == .ember)))
            else if (b.x.dataHit b.w pa).isSome then .ok (.mem pa, 0, xl) else .error (.need (.line pa false false ea))

/-- A byte as a tile reads it: its own waiting stores first (R133), then memory. -/
def State.tileByte (s : State) (x : Tile) (pa : Nat) : Byte :=
  match x.caches.waiting.find? (fun e => e.line == lineOf pa && e.mask.getLsbD (pa % 64)) with
  | some e => Sparse.get 0 (pa % 64) e.data
  | none => s.mem.byte pa

/-- The value of n bytes as a tile loads them; a check unit that holds an uncorrectable error gives an open value. -/
def State.tileVal (s : State) (x : Tile) (pa n : Nat) : DWord :=
  if s.isDamaged pa n then Config.freeDWord (s.free * 2 ^ 40 + pa)
  else BitVec.ofNat 64 (ofBytes ((List.range n).map (fun i => s.tileByte x (pa + i))))

/-- The result of a load trigger from the raw bytes (Table 4-2). -/
def LsuOp.extend (o : LsuOp) (d : DWord) : Word :=
  match o with
  | .ldb => (d.setWidth 8).signExtend 32
  | .ldh => (d.setWidth 16).signExtend 32
  | .ldbu => (d.setWidth 8).setWidth 32
  | .ldhu => (d.setWidth 16).setWidth 32
  | _ => d.setWidth 32

/-- A pending result pushed on a unit of tile t. -/
def State.pushRes (s : State) (t : TileId) (u : UnitMap) (p : Pend) : State :=
  s.modTile t (fun x => { x with ports := x.ports.push u p })

/-- Bytes merged into a write-buffer entry. -/
def WbEnt.merge (e : WbEnt) (off : Nat) : List Byte → WbEnt
  | [] => e
  | v :: r => WbEnt.merge { e with mask := setBit e.mask off true, data := Sparse.put off v e.data } (off + 1) r

/-- A store into the write buffer (R18): merged into a waiting entry of its line, else a new entry. -/
def State.bufferStore (s : State) (t : TileId) (pa : Nat) (bs : List Byte) : State :=
  let x := s.tile t
  if x.caches.wbuf.any (fun e => e.line == lineOf pa && !e.sent) then
    s.setTile t (x.modCaches (fun c =>
      { c with wbuf := c.wbuf.map (fun e => if e.line = lineOf pa ∧ e.sent = false then e.merge (pa % 64) bs else e) }))
  else
    let e : WbEnt := { ember := s.place pa == .ember, line := lineOf pa, mask := 0, data := [], seq := s.seq, sent := false }
    { s.setTile t (x.modCaches (fun c => { c with wbuf := c.wbuf ++ [e.merge (pa % 64) bs] })) with seq := s.seq + 1 }

/-- A store performed at the end of its bundle. -/
def State.tileStore (s : State) (b : Bun) (a : Acc6) (n : Nat) (isCap : Bool) (v : Cap) : State :=
  let bs := toBytes n v.bits.toNat
  match a with
  | .mem pa =>
    match s.place pa with
    | .emram | .ember => s.bufferStore b.t pa bs
    | _ =>
      let s1 := s.modTile b.t (·.dirtyLine b.w pa)
      if isCap then s1.capStore pa v else s1.memWrite pa bs
  | .se pa => if isCap then (s.dropCopies pa n).capStore pa v else (s.dropCopies pa n).memWrite pa bs
  | _ => s

/-- An access as a move result: its wait, if any, and its effect. -/
def Acc6.pends : Acc6 → List Freeze
  | .pend f => [f]
  | _ => []

/-- An LSU trigger (R120, R133, R199). -/
def State.judgeLsu (s : State) (b : Bun) (k : Nat) (u : Bool) (o : LsuOp) (v : Word) : Except Stop MoveRes :=
  let img := b.view.ports
  let auth := Image.at img (slotLsuCA u)
  let ea := auth.addr + v
  let prior := u && b.moves.any (fun m => match m.dst with | .lsu false o => o.store | _ => false)
  if o.store then
    let sv := if o.isCap then Image.at img (slotLsuSC u) else Cap.ofWord (Image.word img (slotLsuSD u))
    match s.access b k auth ea o.size true o.isCap sv prior with
    | .error e => .error e
    | .ok (a, used, c) =>
      .ok { MoveRes.none with seen := [c], post := fun s => s.tileStore b a o.size o.isCap sv, used := used, pend := a.pends }
  else
    match s.access b k auth ea o.size false o.isCap Cap.null prior with
    | .error e => .error e
    | .ok (a, used, c) =>
      let val : Cap := match a with
        | .word r => Cap.ofWord r
        | .mem pa | .se pa =>
          let d := s.tileVal b.x pa o.size
          if o.isCap then
            let tag := (s.capAt pa).tag && auth.lc
            s.filterCap b.c.cmr { bits := d, tag := tag }
          else Cap.ofWord (o.extend d)
        | .pend _ => Cap.null
      let bad := match a with
        | .mem pa | .se pa => s.isDamaged pa o.size
        | _ => false
      .ok { MoveRes.none with
        seen := [c]
        post := fun s =>
          let s1 := match a with
            | .mem pa => s.modTile b.t (·.touchData b.w pa)
            | _ => s
          let s2 : State := if bad then { s1 with free := s1.free + 1 } else s1
          s2.pushRes b.t (uLsu u) { dest := b2n o.isCap, rem := 3, val := val, flags := 0 }
        used := used, pend := a.pends }

/-- The cursor of an authority advanced by a stride (R200). -/
def advance (c : Cap) (stride : Int) (circ : Bool) : Cap :=
  if circ then
    let (base, top) := c.decode
    let a := (c.addr.toNat : Int) + stride
    let a := if top ≤ a then a - (top - base) else if a < base then a + (top - base) else a
    { c.withAddr (BitVec.ofInt 32 a) with tag := c.tag && decide (base ≤ a) && decide (a < top) }
  else
    let n := c.addr + BitVec.ofInt 32 stride
    { c.withAddr n with tag := c.tag && c.representable n }

/-- The pending accumulator value of a bundle (R197). -/
def accPend (a : Acc) : Pend := { dest := 0, rem := 3, val := Cap.ofDW a.acc, flags := b2n a.ovf + 2 * b2n a.satf }

/-- A MAC trigger (R195–R200). -/
def State.judgeMac (s : State) (b : Bun) (k : Nat) (o : MacTrig) (v : Word) : Except Stop MoveRes :=
  let img := b.view.ports
  let cfg := Image.word img slotMacCfg
  let a := Image.word img slotMacA
  let u := bit cfg 0
  if fld cfg 31 11 != 0 then .error (.fault ⟨0x3D, b.pc⟩)
  else
    let finish (p : Int) (used : Nat) (pend : List Freeze) (seen : List Checked) (post : State → State) : MoveRes :=
      let (r, beyond) := macStep cfg p b.acc
      let cond := beyond && bit cfg 3
      let frz := b.x.precise b.w && bit cfg 3 && !bit cfg 1
      { post := fun s => (post s).pushRes b.t uMac (accPend r), used := used, pend := pend, seen := seen
        arith := if cond && frz then some ⟨0x33, b.pc⟩ else none, frz := frz
        infl := if cond && !frz then [{ unit := .mac, trig := b.pc, dist := 0, comp := 2, code := some 0x33, flags := 0 }] else [] }
    match o with
    | .clr =>
      .ok (MoveRes.act (fun s => s.pushRes b.t uMac (accPend { acc := v.signExtend 64, ovf := false, satf := false })))
    | .rmac => .ok (finish (macProduct .full u a v) 0 [] [] id)
    | .rmac2 => .ok (finish (macProduct .dual u a v) 0 [] [] id)
    | .dmac | .dmac2 =>
      let c0 := Image.at img (slotLsuCA false)
      let c1 := Image.at img (slotLsuCA true)
      match s.access b k c0 c0.addr 4 false false Cap.null false with
      | .error e => .error e
      | .ok (a0, u0, k0) =>
        match s.access b (k + u0) c1 c1.addr 4 false false Cap.null false with
        | .error e => .error e
        | .ok (a1, u1, k1) =>
          let val (x : Acc6) : Word := match x with
            | .mem pa | .se pa => (s.tileVal b.x pa 4).setWidth 32
            | .word r => r
            | .pend _ => 0
          let st0 : Int := sx 16 (fld v 15 0)
          let st1 : Int := sx 16 (fld v 31 16)
          let post : State → State := fun s =>
            let n0 := advance c0 st0 (bit cfg 4)
            let n1 := advance c1 st1 (bit cfg 5)
            let s1 := s.modTile b.t (fun x => { x with ports := Image.set (Image.set x.ports (slotLsuCA false) n0) (slotLsuCA true) n1 })
            match a0, a1 with
            | .mem p0, .mem p1 => s1.modTile b.t (fun x => (x.touchData b.w p0).touchData b.w p1)
            | _, _ => s1
          .ok (finish (macProduct (if o == .dmac then .full else .dual) u (val a0) (val a1)) (u0 + u1) (a0.pends ++ a1.pends) [k0, k1] post)

/-- A divide or float divide in progress abandoned by a new trigger of the same divider: its result and its condition are
gone (R125). A float divide is told from the other float results in flight by its count; one restored from an image, which carries
no mark, is taken as a divide when its count is above 3. -/
def Tile.abandon (x : Tile) (unit : ImpUnit) : Tile :=
  let gone (p : Pend) : Bool := decide (3 < p.rem) || x.flow.infl.any (fun i => i.unit == .fdiv && i.dist + p.rem == 11)
  let ports := match unit with
    | .div => x.ports.setPends uDiv []
    | .fdiv => x.ports.setPends uFpu ((x.ports.pends uFpu).filter (fun p => !gone p))
    | _ => x.ports
  { x.modFlow (fun f => { f with infl := f.infl.filter (fun i => i.unit != unit) }) with ports := ports }

/-- An arithmetic operation with a condition (R266, R268): its result, its flags and its condition. -/
def Bun.arith (b : Bun) (unit : ImpUnit) (um : UnitMap) (rem comp : Nat) (freezes : Bool) (val : Word) (code : Option Code)
    (flags : BitVec 5) : MoveRes :=
  let prec := b.x.precise b.w && (freezes || unit == .alu)
  { post := fun s =>
      let s1 := if unit == .div || unit == .fdiv then
          s.modTile b.t (·.abandon unit)
        else s
      s1.pushRes b.t um { dest := 0, rem := rem, val := Cap.ofWord val, flags := 0 }
    used := 0, pend := [], seen := []
    arith := if prec then code.map (fun c => ⟨c, b.pc⟩) else none
    frz := prec && freezes
    infl :=
      let code := if prec then none else code
      if code.isSome || flags != 0 || unit == .fdiv then [{ unit := unit, trig := b.pc, dist := 0, comp := comp, code := code, flags := flags }] else [] }

/-- An FPU trigger (R126). -/
def Bun.judgeFpu (b : Bun) (o : FpuOp) (v : Word) : MoveRes :=
  let csr := b.view.float.csr
  let (r, f) := fpuResult o (fld csr 1 0) (Image.word b.view.ports slotFpuA) v
  let div := o == .fdiv
  b.arith (if div then .fdiv else .fpu) uFpu (if div then 12 else 4) (if div then 11 else 3) (csr &&& 0x380 != 0) r
    (if fpuTraps csr f then some 0x34 else none) f

/-- A word list of four as block bytes, byte 0 in bits [7:0] of the first word (Table 5-10). -/
def blockOf (v : Vector Word 4) : List Byte := (v.toList.map (fun w => toBytes 4 w.toNat)).flatten
/-- Bytes as little-endian words. -/
def wordsOf (n : Nat) (b : List Byte) : List Word := (chunks 4 n b).map (fun l => BitVec.ofNat 32 (ofBytes l))

/-- An attached-unit trigger (Table 5-10): what it puts in flight, and the latency in bundles. A schedule that was never expanded
leaves the result open. -/
def Att.trigger (a : Att) (free : Nat) (d : Dst) (v : Word) : Option AttPend :=
  match d with
  | .aesKset =>
    let n := if v = 128 then 4 else 8
    let key := ((a.key.toList.drop (8 - n)).map (fun w => toBytes 4 w.toNat)).flatten
    some { rem := 12, op := .kset (if v = 128 then 10 else 14) (((roundKeys key).map (wordsOf 4)).flatten) }
  | .aesEnc | .aesDec =>
    let ks := chunks 16 (a.rounds + 1) ((a.sched.map (fun w => toBytes 4 w.toNat)).flatten)
    let out := if a.rounds = 0 then (List.range 4).map (fun i => Config.freeWord (free + i))
      else wordsOf 4 (if d = .aesEnc then aesEncKeys ks (blockOf a.d) else aesDecKeys ks (blockOf a.d))
    some { rem := if a.rounds = 14 then 15 else 11, op := .aes out }
  | .ghMul =>
    let y := blockNat (xorBytes (blockOf a.y) (blockOf a.d))
    some { rem := 4, op := .gh (wordsOf 4 (natBlock (ghMul y (blockNat (blockOf a.h))))) }
  | .shaInit => some { rem := 1, op := .sha Sys2Proof.Machine.shaInit }
  | .shaRun => some { rem := 68, op := .sha (shaCompress a.sha.toList a.msg.toList) }
  | _ => none

/-- Whether a pending attached-unit operation is the same kind as a trigger, so that the trigger abandons it (R172). -/
def AttOp.sameAs (o : AttOp) (d : Dst) : Bool :=
  match o, d with
  | .aes _, .aesEnc | .aes _, .aesDec | .gh _, .ghMul => true
  | .sha _, .shaRun => true
  | _, _ => false

/-- An attached-unit trigger put in flight. -/
def State.attStart (s : State) (b : Bun) (d : Dst) (v : Word) : State :=
  match b.view.att.trigger s.free d v with
  | none => s
  | some p =>
    { s.modTile b.t (fun x => { x with att := { x.att with pend := x.att.pend.filter (fun o => !o.op.sameAs d) ++ [p] } }) with
      free := s.free + 4 }

/-- A unit trigger whose result is a word without conditions. -/
def Bun.plain (b : Bun) (um : UnitMap) (rem : Nat) (val : Word) : MoveRes :=
  MoveRes.act (fun s => s.pushRes b.t um { dest := 0, rem := rem, val := Cap.ofWord val, flags := 0 })

/-- A CAP trigger (R67–R73). -/
def Bun.judgeCap (b : Bun) (o : CapOp) (v : Cap) : Except Stop MoveRes :=
  match capOp o b.w b.sup b.c.skm (Image.at b.view.ports slotCapA) v with
  | .fault c f => .error (.fault ⟨c, f⟩)
  | .rc r => .ok (MoveRes.act (fun s => s.pushRes b.t uCap { dest := 1, rem := 2, val := r, flags := 0 }))
  | .rw r => .ok (MoveRes.act (fun s => s.pushRes b.t uCap { dest := 0, rem := 2, val := Cap.ofWord r, flags := 0 }))

/-- A compare (R121, R130): the result in CMP.RES, and in the predicate CMP.PD names. -/
def Bun.judgeCmp (b : Bun) (o : CmpOp) (v : Word) : MoveRes :=
  let r := cmpResult o (Image.word b.view.ports slotCmpA) v
  let pd := fld (Image.word b.view.ports slotCmpPD) 2 0
  MoveRes.act (fun s =>
    let s1 := s.pushRes b.t uCmp { dest := pd, rem := 1, val := Cap.ofWord (b2w r), flags := 0 }
    if pd = 0 then s1 else s1.modTile b.t (·.modCtx (fun c => { c with pred := setBit c.pred pd r })))

end Sys2Proof.Machine
end

