-- ==== Sys2Proof/Machine/Issue.lean ====
section
/-!
DEFINITION. Machine/Issue.lean: BUNDLE_ISSUE: fetch, decode, the faults of Table 5-8 in order, the effect of a bundle, loops,
repeats, transfers, switches and calls (chapters 4 to 8).
-/
namespace Sys2Proof.Machine

/-- BUNDLE ADDRESS faults: a code at the bundle's address. -/
def Bun.fault (b : Bun) (c : Code) : Stop := .fault ⟨c, b.pc⟩

/-- Whether the bundle is the end bundle of an active level. -/
def Bun.atEnd (b : Bun) : Bool := (List.range 4).any (fun n => b.c.act n && vget b.c.le n 0 == b.pc)

/-- The address of a syllable as one the tile may read ahead of issue, without effects (R123): none where its fetch would fail. -/
def State.peek (s : State) (t : TileId) (x : Tile) (a : Word) : Option Word :=
  match pccFetchCheck (x.ctx.pcc.jumpTo a) x.world 4 with
  | some _ => none
  | none =>
    match (s.access9Now t x.world x.sup x.ctx.cmr a .fetch).2 with
    | .error _ => none
    | .ok xl =>
      match s.place xl.pa with
      | .periph _ _ | .reserved | .ctxStore | .emberPrivate => none
      | _ => some (BitVec.ofNat 32 (s.mem.val xl.pa 4))

/-- The length of the bundle at an address, from syllables read one by one. -/
def State.peekLen (s : State) (t : TileId) (x : Tile) (a : Word) : Nat → List Word → Option Nat
  | 0, _ => some 4
  | n + 1, l =>
    match bundleLen l with
    | some k => some k
    | none =>
      match s.peek t x (a + BitVec.ofNat 32 (4 * l.length)) with
      | some w => s.peekLen t x a n (l ++ [w])
      | none => none

/-- The address of the bundle that follows bundle n + 2, from that of bundle n + 1 (R123). -/
def State.sequel (s : State) (t : TileId) (x : Tile) (a : Word) : Option Word :=
  match s.peekLen t x a 5 [] with
  | none => none
  | some k1 =>
    let a1 := a + BitVec.ofNat 32 (4 * k1)
    match s.peekLen t x a1 5 [] with
    | none => none
    | some k2 => some (a1 + BitVec.ofNat 32 (4 * k2))

/-- The checks of an isle entry at a target address in world w (R235). -/
def State.isleCheck (s : State) (c : Ctx) (w : World) (a : Word) : Option FaultRec :=
  let e := s.isleMap w (a.toNat / 2 ^ 20)
  let d := s.isle (fld e 7 0)
  if !bit e 8 then some ⟨0x58, a⟩
  else if d.parked then some ⟨0x59, a⟩
  else if !maskOk w (d.mask ||| (if bit c.ident 20 then 1#16 <<< fld c.ident 19 16 else 0)) then some ⟨0x23, a⟩
  else none

/-- The arrival of a pending transfer at its target (R122): PCC takes BTGT unsealed; through a sentry the ports are cleared (R140) and,
at user level, the isle is entered (R235, R236). -/
def State.arrive (s : State) (t : TileId) : State :=
  let x := s.tile t
  let g := x.ctx.btgt
  let s1 := s.modTile t (·.modCtx (fun c => { c with pcc := g.withOt 0, bsh := 0 }))
  if g.ot = 0 then s1
  else
    let s2 := s1.modTile t (fun x => { x.modFlow (fun f => { f with infl := [] }) with ports := Image.clear })
    if x.sup then s2
    else
      let w := x.world
      let r := g.addr.toNat / 2 ^ 20
      let e := s.isleMap w r
      let d := s.isle (fld e 7 0)
      s2.modTile t (fun x =>
        (x.modCtx (fun c =>
          let m := d.mask ||| (if bit c.ident 20 then 1#16 <<< fld c.ident 19 16 else 0)
          { c.setC 13 (s.filterCap d.mask d.root) with cmr := m, ident := setFld c.ident 7 0 (fld e 7 0) })).modSys
          (fun y => { y with isles := ((w, r) :: y.isles.filter (· != (w, r))).take 8 }))

/-- The checks of a jump or return through a capability (R51, R54, R66, R235). -/
def State.jumpCheck (s : State) (b : Bun) (ret : Bool) (v : Cap) : Option FaultRec :=
  let a := v.addr
  if !v.tag then some ⟨0x10, a⟩
  else if v.tw != b.w then some ⟨0x11, a⟩
  else if ret && v.ot != 2 then some ⟨0x1D, a⟩
  else if !ret && (v.ot == 2 || v.ot == 3) then some ⟨0x1D, a⟩
  else if decide (4 ≤ v.ot) then some ⟨0x12, a⟩
  else if !v.x then some ⟨0x13, a⟩
  else if v.ot != 0 && !b.sup then s.isleCheck b.c b.w a
  else none

/-- The strait descriptor of world w at index k on tile t (R272). -/
def State.readStrait (s : State) (t : TileId) (w : World) (k : Word) : State × Except FaultRec (List Cap) :=
  let stb := ((s.tile t).wcfgOf w).stb
  s.ownLoads t w true (widestMask w) stb 4 (stb.addr + 32 * k)

/-- The checks of SCALL (R273) and the wait for the callee's bank. -/
def State.judgeScall (s : State) (b : Bun) (v : Cap) : Except Stop After :=
  let a := v.addr
  let w := b.w.other
  if !v.tag then .error (.fault ⟨0x10, a⟩)
  else if v.tw != b.w then .error (.fault ⟨0x11, a⟩)
  else if v.ot != 3 then .error (.fault ⟨0x1D, a⟩)
  else if b.x.link != .none then .error (b.fault 0x05)
  else
    match (s.readStrait b.t w a).2 with
    | .error _ => .error (.fault ⟨0x03, a⟩)
    | .ok l0 =>
      let l := l0.map (s.filterCap (widestMask w))
      let en := l.getD 0 Cap.null
      let st := l.getD 1 Cap.null
      let da := l.getD 2 Cap.null
      let m := (l.getD 3 Cap.null).bits
      let mask : BitVec 16 := m.setWidth 16
      let ok := bit m 31 && fld m 28 16 == 0 && fld m 63 49 == 0 && decide (fld m 48 44 ≤ 16) && maskOk w mask && entryOk w en && stackOk w st
        && (!da.tag || da.tw == w) && (b.sup || bit m 30)
      if !ok then .error (.fault ⟨0x03, a⟩)
      else
        let n : CtxId := BitVec.ofNat 12 (fld m 43 32 + b.t.toNat)
        let c := s.ctx n
        if !c.claimed || c.world != w || c.parked || s.isRunning n then .error (.fault ⟨0x04, a⟩)
        else
          match s.bring b.t n with
          | .fill => .error (.need (.fill n .again))
          | .wait => .error (.need (.spill))
          | .bank _ _ =>
            .ok (.scall { ctx := n, entry := en, stack := st, data := da, sup := bit m 29, mlvl := fld m 48 44, mask := mask, addr := a })

/-- The checks of CTL.SW (Table 7-6) and the wait for the context's bank. -/
def State.judgeSw (s : State) (b : Bun) : Except Stop After :=
  let r := (b.x.wcfgOf b.w).bwr
  let n : CtxId := BitVec.ofNat 12 (bwrNum r)
  let c := s.ctx n
  if b.c.repc != 0 then .error (b.fault 0x54)
  else if bwrSpace r != 0 then .error (b.fault winArg)
  else if !c.claimed then .error (b.fault ctxFree)
  else if c.world != b.w then .error (b.fault ctxWorld)
  else if c.parked then .error (b.fault 0x52)
  else if n != b.x.ctxNum && s.isRunning n then .error (b.fault ctxBusy)
  else
    match s.bring b.t n with
    | .fill => .error (.need (.fill n .again))
    | .wait => .error (.need (.spill))
    | .bank _ _ => .ok (.sw n)

/-- A BRU trigger (R122–R124, R191, R194, R254, R259, R260, R270–R275). -/
def State.judgeBru (s : State) (b : Bun) (o : BruOp) (v : Cap) : Except Stop MoveRes :=
  let go (a : After) : Except Stop MoveRes := .ok { MoveRes.none with after := a }
  if b.x.flow.modeSh.isSome && !o.delayed then .error (b.fault 0x08)
  else if b.c.dleft != 0 then .error (b.fault 0x36)
  else if b.c.repc != 0 then .error (b.fault 0x38)
  else if b.atEnd then .error (b.fault 0x3C)
  else
    match o with
    | .br => go (.jump (b.c.pcc.jumpTo (b.pc + v.addr)) false)
    | .call => go (.jump (b.c.pcc.jumpTo (b.pc + v.addr)) true)
    | .jc | .callc | .ret =>
      match s.jumpCheck b (o == .ret) v with
      | some f => .error (.fault f)
      | none => go (.jump v (o == .callc))
    | .scall =>
      match s.judgeScall b v with
      | .error e => .error e
      | .ok a => go a
    | .sret =>
      match b.x.link with
      | .strait _ callee _ => if callee == b.x.ctxNum then go .sret else .error (b.fault 0x06)
      | _ => .error (b.fault 0x06)
    | .sys =>
      let g := b.x.wcfgOf b.w
      let k := fld v.addr 1 0
      if b.sup || bit g.sysl.word 31 then .error (b.fault 0x01)
      else if !bit (vget g.sce k { entry := Cap.null, stack := Cap.null, word := 0 }).word 31 then .error (b.fault 0x02)
      else go (.sys k)
    | .eret =>
      if bit v.addr 0 then
        let g := b.x.wcfgOf b.w
        let c14 := b.c.getC 14
        if !(bit g.sysl.word 31 && fld g.sysl.word 27 16 == b.x.ctxNum.toNat) then .error (b.fault 0x01)
        else if !c14.tag then .error (.fault ⟨0x10, c14.addr⟩)
        else if c14.tw != b.w then .error (.fault ⟨0x11, c14.addr⟩)
        else if c14.ot != 2 then .error (.fault ⟨0x1D, c14.addr⟩)
        else go .fast
      else
        match (s.readFrame b.t).2 with
        | .error f => .error (.fault f)
        | .ok fr =>
          match s.checkFrame b.t b.pc fr with
          | some f => .error (.fault f)
          | none => go (.frame fr)

/-- World w's items of tile t changed. -/
def State.modCfg (s : State) (b : Bun) (f : WorldCfg → WorldCfg) : State := s.modTile b.t (·.modCfg b.w f)

/-- A move into a control port (Table 5-6). -/
def State.judgeCtl (s : State) (b : Bun) (p : Ctl) (v : Cap) : Except Stop MoveRes :=
  let a := v.addr
  let g := b.x.wcfgOf b.w
  let cfg (f : WorldCfg → WorldCfg) : Except Stop MoveRes := .ok (MoveRes.act (fun s => s.modCfg b f))
  let freeze (f : State → Freeze) : Except Stop MoveRes :=
    .ok (MoveRes.act (fun s => s.modTile b.t (·.modFlow (fun y => { y with freeze := f s }))))
  if b.x.flow.modeSh.isSome && (p == .mode || p == .sw) then .error (b.fault 0x08)
  else
    match p with
    | .sw =>
      match s.judgeSw b with
      | .error e => .error e
      | .ok x => .ok { MoveRes.none with after := x }
    | .mode =>
      if a &&& 0x9FE0FFFF != 0 || decide (16 < fld a 20 16) then .error (b.fault 0x08)
      else
        .ok (MoveRes.act (fun s => s.modTile b.t (·.modFlow (fun f =>
          { f with modeSh := some { sup := bit a 30, ie := bit a 29, mlvl := fld a 20 16 } }))))
    | .cmr =>
      if a &&& 0xFFFF0000 != 0 || !maskOk b.w (a.setWidth 16) then .error (b.fault 0x23)
      else .ok (MoveRes.act (fun s => s.modTile b.t (·.modCtx (fun c => { c with cmr := a.setWidth 16 }))))
    | .gfence => freeze (fun s => .gfence s.seq)
    | .mfence => freeze (fun s => .mfence false s.seq)
    | .ifence => freeze (fun s => .mfence true s.seq)
    | .dwbinv => .ok (MoveRes.act (fun s => s.modTile b.t (fun x => x.dwbinv.modFlow (fun f => { f with freeze := .dwbinv }))))
    | .pstat => cfg (fun g => { g with pstat := a &&& 0x0FFF0003 })
    | .pix => cfg (fun g => { g with pix := a &&& 0x13F })
    | .pimg => cfg (fun x => x.pimgWrite g.pix v)
    | .bwr => cfg (fun g => { g with bwr := a &&& 0xEFFF003F })
    | .bwd =>
      match s.windowWrite b.t g.bwr v b.pc with
      | .error e => .error e
      | .ok _ => .ok (MoveRes.act (fun s => match s.windowWrite b.t g.bwr v b.pc with
          | .ok s1 => s1
          | .error _ => s))
    | .edtb => cfg (fun g => { g with edtb := v })
    | .scex => cfg (fun g => { g with scex := a &&& 0x800000FF })
    | .sced => if scedBad b.w g.scex v then .error (b.fault winArg) else cfg (fun x => x.setItem g.scex v)
    | .wcfg => cfg (fun g =>
        { g with wcfg := (g.wcfg &&& 0x28000000 &&& ~~~ (a &&& 0x20000000)) ||| (a &&& 0xD0000FFF) })
    | .mask =>
      if a &&& 0xDFE0FFFF != 0 || decide (16 < fld a 20 16) then .error (b.fault 0x08)
      else cfg (fun g => { g with mask := a })
    | .attown => .ok (MoveRes.act (fun s => s.modTile b.t (fun x => { x with att := x.att.writeOwn b.w a })))
    | .id | .ctx => .ok MoveRes.none

/-- The end of a bundle for the loop levels, before armings: decisions where the bundle decides, and count writes of levels active at
its start (R184–R190). The levels still to clear are collected in gone. -/
def loopEnd0 (c : Ctx) (pc : Word) (lcw : List (Nat × Word)) (last : Bool) : Ctx × Option Word × List Nat :=
  let act0 := c.act
  let rec go : List Nat → Ctx → List (Nat × Bool) → List Nat → Ctx × List (Nat × Bool) × List Nat × Option Word
    | [], x, dec, gone => (x, dec, gone, none)
    | n :: r, x, dec, gone =>
      if !(act0 n && vget c.le n 0 == pc) then go r x dec gone
      else if decide (1 < (vget x.lc n 0).toNat) then
        ({ x with lc := vset x.lc n (vget x.lc n 0 - 1) }, (n, true) :: dec, gone, some (vget c.ls n 0))
      else if (List.range n).any act0 then go r { x with lc := vset x.lc n (vget x.li n 0) } ((n, false) :: dec) gone
      else go r x ((n, false) :: dec) (n :: gone)
  let (x, dec, gone, target) := if last then go [3, 2, 1, 0] c [] [] else (c, [], [], none)
  let (x, gone) := lcw.foldl (fun (p : Ctx × List Nat) (e : Nat × Word) =>
    if dec.contains (e.1, false) || !act0 e.1 then p
    else if e.2 = 0 then (p.1, e.1 :: p.2)
    else ({ p.1 with lc := vset p.1.lc e.1 e.2 }, p.2)) (x, gone)
  let lstat := gone.foldl (fun (l : Word) n => l &&& ~~~ (BitVec.ofNat 32 ((0xF <<< n) % 16))) x.lstat
  ({ x with lstat := lstat }, target, (dec.filter (fun e => !e.2)).map (·.1))

/-- The armings of a bundle (R181): count writes above zero into levels inactive at its start. -/
def armings (c : Ctx) (lcw : List (Nat × Word)) : List (Nat × Word) := lcw.filter (fun e => !c.act e.1 && e.2 != 0)

/-- The end of a bundle for the loop levels, armings last (R186). -/
def loopEnd (c : Ctx) (pc : Word) (lcw : List (Nat × Word)) (last : Bool) : Ctx × Option Word :=
  let (x, target, _) := loopEnd0 c pc lcw last
  ((armings c lcw).foldl (fun x e =>
    { x with lc := vset x.lc e.1 e.2, li := vset x.li e.1 e.2, lstat := setBit x.lstat e.1 true }) x, target)

/-- The count writes among the moves of a bundle. -/
def lcWrites (s : State) (b : Bun) : List (Nat × Word) :=
  b.moves.filterMap (fun m => match m.dst with
    | .lc n => some (n, (s.moveVal0 b.t b.x b.pc m).addr)
    | _ => none)

/-- The checks of a move into LCn (R182): NEST before RANGE, against the levels that remain active at the end of the bundle. c1 is the
context with the bundle's LS and LE moves made. -/
def armCheck (b : Bun) (c1 : Ctx) (lcw : List (Nat × Word)) (n : Nat) (v : Word) : Option Stop :=
  if b.c.act n || v = 0 then none
  else
    let live := (loopEnd0 b.c b.pc lcw (decide (b.c.repc ≤ 1))).1
    let ls := (vget c1.ls n 0).toNat
    let le := (vget c1.le n 0).toNat
    if (List.range 4).any (fun m => decide (n < m) && live.act m) then some (b.fault 0x39)
    else if le < ls then some (b.fault 0x3A)
    else if (List.range n).any (fun m => live.act m && !(decide ((vget c1.ls m 0).toNat ≤ ls) && decide (le ≤ (vget c1.le m 0).toNat))) then
      some (b.fault 0x3A)
    else none

/-- The registers as the bundle's LS and LE moves leave them. -/
def lsleView (s : State) (b : Bun) : Ctx :=
  b.moves.foldl (fun c m => match m.dst with
    | .ls _ | .le _ => c.regMove b.pc m.dst (s.moveVal0 b.t b.x b.pc m)
    | _ => c) b.c

/-- Step 6 of Table 5-8 for one move with a true guard: its fault or wait, or what it does. k counts the serial accesses before it. -/
def State.judge (s : State) (b : Bun) (k : Nat) (m : Move) : Except Stop MoveRes :=
  match s.moveVal b.t b.x b.pc m with
  | .error e => .error e
  | .ok v =>
    let a := v.addr
    let img := b.view.ports
    match m.dst with
    | .ls n | .le n =>
      if (b.pc + a).toNat % 4 != 0 || b.c.act n then .error (b.fault 0x3A) else .ok MoveRes.none
    | .lc n =>
      match armCheck b (lsleView s b) (lcWrites s b) n a with
      | some e => .error e
      | none => .ok MoveRes.none
    | .rep =>
      let xfer := b.moves.any (fun m => match m.dst with | .bru o => o.delayed | _ => false)
      if b.c.repc != 0 || b.c.dleft == 2 || xfer then .error (b.fault 0x38) else .ok MoveRes.none
    | .cap o => b.judgeCap o v
    | .ctl p => s.judgeCtl b p v
    | .alu u o =>
      let x := Image.word img (slotAluA u)
      .ok (b.arith .alu (uAlu u) 1 0 false (aluResult o x a) (if aluOverflow o x a then some 0x33 else none) 0)
    | .lsu u o => s.judgeLsu b k u o a
    | .shf o => .ok (b.plain uShf 1 (shfResult o (Image.word img slotShfA) a))
    | .div o =>
      .ok (b.arith .div uDiv 18 17 true (divResult o (Image.word img slotDivA) a) (if a = 0 then some 0x32 else none) 0)
    | .cmp o => .ok (b.judgeCmp o a)
    | .fpu o => .ok (b.judgeFpu o a)
    | .mul o => .ok (b.plain uMul 3 (mulResult o (Image.word img slotMulA) a))
    | .bru o => s.judgeBru b o v
    | .mac o => s.judgeMac b k o a
    | .aesKset | .aesEnc | .aesDec | .ghMul | .shaInit | .shaRun => .ok (MoveRes.act (fun s => s.attStart b m.dst a))
    | _ => .ok MoveRes.none

/-- Step 6 in slot order: the results of the moves before the first stop, and that stop. -/
def State.judgeAll (s : State) (b : Bun) : Nat → List Move → List MoveRes × Option Stop
  | _, [] => ([], none)
  | k, m :: r =>
    match s.judge b k m with
    | .error e => ([], some e)
    | .ok x =>
      let (l, e) := s.judgeAll b (k + x.used) r
      (x :: l, e)

/-- What the results of step 6 come to: an arithmetic fault under PRECISE after its freeze, the first stop, a serial access, or the
effects. -/
def settle (s : State) (b : Bun) (l : List MoveRes) (e : Option Stop) : Except Stop (List MoveRes) :=
  let frz := l.any (·.frz) && !b.x.flow.preciseDone
  match l.findSome? (·.arith), e with
  | some f, _ => if frz then .error (.need .precise) else .error (.fault f)
  | none, some e => .error e
  | none, none =>
    match s.firstSerial b (l.flatMap (·.pend)) with
    | some f => .error (.serial f (l.flatMap (·.seen)))
    | none => if frz then .error (.need .precise) else .ok l

/-- A tile one bundle on (R131, R141): results that are due land, a restored compare writes its predicate. -/
def Tile.tick (x : Tile) : Tile :=
  let pred := x.ports.cmpPreds x.ctx.pred
  { x.modCtx (fun c => { c with pred := pred }) with ports := x.ports.tickAll, att := x.att.tick }

/-- The accumulator after the bundle's moves into MAC.ACCL and MAC.ACCH (R196, R197). -/
def State.accMoves (s : State) (t : TileId) (x : Tile) (pc : Word) (ms : List Move) : Acc :=
  ms.foldl (fun a m => match m.dst with
    | .accl => { a with acc := setFld a.acc 31 0 (s.moveVal0 t x pc m).addr.toNat }
    | .acch => { a with acc := setFld a.acc 63 32 (s.moveVal0 t x pc m).addr.toNat }
    | _ => a) x.ports.newestAcc

/-- A bundle set up for judgement from the tile at its start and its moves with true guards. -/
def State.bundle (s : State) (t : TileId) (x : Tile) (len : Nat) (ms : List Move) : Bun :=
  let pc := x.ctx.pcc.addr
  { t := t, w := x.world, sup := x.sup, pc := pc, len := len, c := x.ctx, x := x
    view := ms.foldl (fun y m => y.operand m.dst (s.moveVal0 t x pc m)) x
    acc := s.accMoves t x pc ms, moves := ms }

/-- Whether a bundle holds a move that makes conditions already detected be reported before it (R267); drain says that it also
completes every operation first (R274, R275). -/
def reportsFirst (s : State) (b : Bun) : Bool × Bool :=
  b.moves.foldl (fun p m =>
    match m.dst with
    | .ctl .sw | .bru .sys | .bru .eret | .bru .ret => (true, p.2)
    | .bru .scall | .bru .sret => (true, true)
    | .bru .jc | .bru .callc => (p.1 || (s.moveVal0 b.t b.x b.pc m).ot != 0, p.2)
    | _ => p) (false, false)

/-- Whether a condition of the tile must be reported before a bundle (R267). -/
def reportNow (s : State) (b : Bun) : Bool :=
  let (any, drain) := reportsFirst s b
  let f := b.x.flow
  any && f.modeSh.isNone && !f.noTake && f.infl.any (fun i => i.code.isSome && (drain || decide (i.comp ≤ i.dist)))

/-- Steps 4 to 6 of Table 5-8. -/
def State.judgeBundle (s : State) (b : Bun) : Except Stop (List MoveRes) :=
  if reportNow s b then .error .report
  else
    match s.step4All b.t b.x b.pc b.moves with
    | some f => .error (.fault f)
    | none =>
      if conflict b.moves (fld (Image.word b.view.ports slotCmpPD) 2 0) then .error (b.fault 0x30)
      else if (List.range 4).any (fun n => decide (0 < vget b.x.flow.armWin n 0) && (vget b.c.ls n 0 == b.pc || vget b.c.le n 0 == b.pc)) then
        .error (b.fault 0x3B)
      else if b.c.dleft != 0 && b.atEnd then .error (b.fault 0x3C)
      else
        let (l, e) := s.judgeAll b 0 b.moves
        settle s b l e

/-- The next bundle recorded in the context (R122, R184, R193, R214): PCC, BTGT, BSH and REPC; true where a transfer arrives. -/
def Bun.nextPc (b : Bun) (c : Ctx) (after : After) (rep : Option Nat) (loop : Option Word) : Ctx × Bool :=
  let seq := b.pc + BitVec.ofNat 32 (4 * b.len)
  let setRep (c : Ctx) (n : Nat) : Ctx := { c with lstat := setFld c.lstat 31 16 n }
  let go (c : Ctx) (a : Word) : Ctx := { c with pcc := b.c.pcc.jumpTo a }
  let r := rep.getD 0
  match after with
  | .jump target _ => ({ (go (setRep c r) seq) with btgt := target, bsh := 2 }, false)
  | _ =>
    if 2 ≤ b.c.dleft then ({ (go (setRep c r) seq) with bsh := BitVec.ofNat 32 (b.c.dleft - 1) }, false)
    else if b.c.dleft = 1 then (setRep c r, true)
    else if 2 ≤ b.c.repc then (setRep c (b.c.repc - 1), false)
    else (go (setRep c r) (loop.getD seq), false)

/-- C14 as a call writes it (R123, Table 2-5): a return sentry. -/
def returnSentry (pcc : Cap) (a : Word) : Cap :=
  let c := (pcc.jumpTo a).withOt 2
  { c with bits := setBit c.bits 54 false }

/-- Operations in flight one bundle on (R266): counts rise, float flags of completed operations are set, what is done leaves. -/
def Tile.age (x : Tile) (new : List Infl) : Tile :=
  let l := (x.flow.infl.map (fun i => { i with dist := i.dist + 1 })) ++ new
  let due (i : Infl) : Bool := decide (i.comp ≤ i.dist)
  let csr := l.foldl (fun c i => if due i then csrFlags c i.flags else c) x.float.csr
  { x.modFlow (fun f =>
      { f with infl := (l.map (fun i => if due i then { i with flags := 0 } else i)).filter (fun i => i.code.isSome || !due i) }) with
    float := { x.float with csr := csr } }

/-- A pending mode change applied to the running context (R258). -/
def Ctx.applyMode (c : Ctx) (m : ModeSh) : Ctx :=
  { c with status := (c.status &&& 0x80000000) ||| BitVec.ofNat 32 ((b2n m.sup <<< 30) + (b2n m.ie <<< 29) + (m.mlvl <<< 16)) }

/-- A mode change made in a bundle that switches away is recorded in the outgoing context (DESIGN CHOICE, log 42). -/
def Tile.settleMode (x : Tile) : Tile :=
  match x.flow.modeSh with
  | some m => (x.modCtx (·.applyMode m)).modFlow (fun f => { f with modeSh := none })
  | none => x

/-- Context n, which can be brought into a bank at once, made the running context (R215, R216). -/
def State.switchTo (s : State) (t : TileId) (n : CtxId) : State :=
  match s.bring t n with
  | .bank s1 v => (s1.runBank t v).modTile t (·.switched)
  | _ => s

/-- A SYS transfer through set k (R270). -/
def Tile.sysCall (x : Tile) (seq : Word) (k : Nat) (filter : Cap → Cap) : Tile :=
  let w := x.world
  let c := x.ctx
  let e := vget (x.wcfgOf w).sce k { entry := Cap.null, stack := Cap.null, word := 0 }
  let x1 := x.modCfg w (fun g => { g with sysl :=
    { c15 := c.getC 15, word := BitVec.ofNat 64 ((1 <<< 31) + (x.ctxNum.toNat <<< 16) + c.cmr.toNat), status := c.status.setWidth 64 } })
  let x2 := x1.modCtx (fun c =>
    { (c.setC 14 (returnSentry c.pcc seq)).setC 15 (filter e.stack) with
      cmr := e.word.setWidth 16, pcc := (filter e.entry).withOt 0
      status := (c.status &&& 0x80000000) ||| BitVec.ofNat 32 ((1 <<< 30) + (b2n (bit e.word 29) <<< 29) + (fld e.word 20 16 <<< 16)) })
  { x2.modFlow (fun f => { f with infl := [] }) with ports := Image.clear }

/-- A fast return (R271). -/
def Tile.fastReturn (x : Tile) (c14 : Cap) : Tile :=
  let w := x.world
  let y := (x.wcfgOf w).sysl
  let x1 := x.modCfg w (fun g => { g with sysl := { g.sysl with word := setBit g.sysl.word 31 false } })
  let x2 := x1.modCtx (fun c =>
    { c.setC 15 y.c15 with
      pcc := c14.withOt 0, cmr := y.word.setWidth 16, status := (c.status &&& 0x80000000) ||| (dlo y.status &&& 0x601F0000) })
  { x2.modFlow (fun f => { f with infl := [] }) with ports := Image.clear }

/-- W1–W8 of one context copied into another (R274, R275). -/
def Ctx.copyW (c src : Ctx) : Ctx := { c with w := (List.range 8).foldl (fun v i => vset v (i + 1) (src.getW (i + 1))) c.w }

/-- A strait call after its bundle's other moves (R274). -/
def State.straitCall (s : State) (t : TileId) (d : Strait) : State :=
  let x := (s.tile t).settleMode
  let caller := x.ctx
  let s1 := s.setTile t x
  let s2 := (s1.switchTo t d.ctx).modTile t (fun y => { y with link := .strait x.ctxNum d.ctx d.addr })
  s2.modTile t (·.modCtx (fun c =>
    { ({ c with w := Vector.replicate 32 0, c := Vector.replicate 16 Cap.null }.copyW caller).setC 13 d.data |>.setC 15 d.stack with
      pcc := d.entry.withOt 0, cmr := d.mask, pred := 0, lstat := 0, bsh := 0
      status := (c.status &&& 0x80000000) ||| BitVec.ofNat 32 ((b2n d.sup <<< 30) + (d.mlvl <<< 16)) }))

/-- A strait return after its bundle's other moves (R275). -/
def State.straitReturn (s : State) (t : TileId) : State :=
  let x := (s.tile t).settleMode
  match x.link with
  | .strait caller _ _ =>
    let callee := x.ctx
    let s1 := (s.setTile t { x with link := .none }).resume t caller
    s1.modTile t (fun y => y.switched.modCtx (·.copyW callee))
  | _ => s

/-- What follows the other moves of a bundle. -/
def State.afterBundle (s : State) (b : Bun) : After → State
  | .none | .jump _ _ => s
  | .sw n => ((s.modTile b.t (·.settleMode)).switchTo b.t n).modTile b.t (fun x => { x with tlbs := x.tlbs.emptyMicro })
  | .scall d => ((s.readStrait b.t b.w.other d.addr).1).straitCall b.t d
  | .sret => s.straitReturn b.t
  | .sys k => s.modTile b.t (fun x => x.sysCall (b.pc + BitVec.ofNat 32 (4 * b.len)) k (s.filterCap (widestMask b.w)))
  | .fast => s.modTile b.t (·.fastReturn (b.c.getC 14))
  | .frame fr => ((s.readFrame b.t).1).frameReturn b.t fr

/-- CTL.BWR, CTL.SCEX and CTL.PIX advanced for the accesses a bundle made (Tables 7-9, 8-12, R142). -/
def WorldCfg.advance (g : WorldCfg) (ms : List Move) : WorldCfg :=
  let n (p : Ctl) : Nat := (ms.map (fun m => b2n (m.src == .ctl p) + b2n (m.dst == .ctl p))).sum
  { g with bwr := bwrAdvance g.bwr (n .bwd), scex := scexAdvance g.scex (n .sced)
           pix := if n .pimg = 0 then g.pix else setFld g.pix 5 0 (fld g.pix 5 0 + 1) }

/-- The arming windows after a bundle (R183). -/
def armWindows (v : Vector Nat 4) (armed : List (Nat × Word)) : Vector Nat 4 :=
  Vector.ofFn (fun (i : Fin 4) => if armed.any (fun e => e.1 == i.val) then 2 else vget v i.val 0 - 1)

/-- A bundle completes: its moves, units, loops, transfers and switches, in the order of the end of a bundle. -/
def State.commitBundle (s : State) (b : Bun) (l : List MoveRes) : State :=
  let old := b.x.flow.modeSh
  let val (m : Move) : Cap := s.moveVal0 b.t b.x b.pc m
  let after := (l.find? (fun r => r.after != .none)).elim After.none (·.after)
  let rep : Option Nat := b.moves.findSome? (fun m => if m.dst == .rep then some (fld (val m).addr 15 0) else none)
  let call := match after with | .jump _ c => c | _ => false
  let seq := b.pc + BitVec.ofNat 32 (4 * b.len)
  let link := if call then returnSentry b.c.pcc ((s.sequel b.t b.x seq).getD (Config.freeWord s.free)) else Cap.null
  let lcw := lcWrites s b
  let last := decide (b.c.repc ≤ 1)
  -- operands, registers and counters of the flow
  let x0 := b.view.modFlow (fun f =>
    { f with freeze := .none, issuing := false, presp := [], held := none, checked := [], preciseDone := false, modeSh := none, noTake := false, impDue := false
             armWin := armWindows f.armWin (armings b.c lcw), repSkip := rep == some 0 })
  let fmove (v : Vector Word 16) (m : Move) : Vector Word 16 := match m.dst with
    | .f n => vset v n (val m).addr
    | _ => v
  let x1 := { x0 with float := { x0.float with f := b.moves.foldl fmove x0.float.f } }
  let x2 := x1.modCtx (fun c => b.moves.foldl (fun c m => c.regMove b.pc m.dst (val m)) c)
  let s1 := s.setTile b.t x2
  -- unit effects, stores and control ports in slot order
  let s2 := l.foldl (fun s r => r.post s) s1
  let accOnly := b.moves.any (fun m => m.dst == .accl || m.dst == .acch) && !b.moves.any (fun m => match m.dst with | .mac _ => true | _ => false)
  let s3 := if accOnly then s2.pushRes b.t uMac (accPend b.acc) else s2
  let s4 := s3.modTile b.t (fun x =>
    let x1 := x.modCfg b.w (·.advance b.moves)
    let x2 := if call then x1.modCtx (fun c => c.setC 14 link) else x1
    let x3 := x2.modCtx (fun c =>
      let (c1, loop) := loopEnd c b.pc lcw last
      (b.nextPc c1 after rep loop).1)
    let x4 := x3.age ((l.map (·.infl)).flatten)
    match old with
    | some m => x4.modCtx (·.applyMode m)
    | none => x4)
  let arrives := (b.nextPc b.c after rep none).2
  let s5 := if arrives then s4.arrive b.t else s4
  let s6 := s5.afterBundle b after
  let s7 := s6.modReg (tileSlot b.t) 0x100C (· + 1)
  { s7 with free := s7.free + 1 }

/-- Syllable i of the bundle a tile is due to issue (step 1 of Table 5-8), with its physical address. -/
def State.fetchSyl (s : State) (t : TileId) (x : Tile) (i : Nat) : Except Stop (Word × Nat) :=
  let c := x.ctx
  let w := x.world
  let a := c.pcc.addr + BitVec.ofNat 32 (4 * i)
  match pccFetchCheck c.pcc w (4 * (i + 1)) with
  | some (e, f) => .error (.fault ⟨e, f⟩)
  | none =>
    match s.access9 t w x.sup c.cmr a.toNat .fetch with
    | .fault e => .error (.fault ⟨e, a⟩)
    | .walk => .error (.need (.walk a true false))
    | .ok xl =>
      match s.place xl.pa with
      | .periph _ _ | .reserved | .ctxStore | .emberPrivate => .error (.fault ⟨busErr, a⟩)
      | _ =>
        if (cacheFind x.caches.ic w xl.pa).isSome then
          .ok (if s.isDamaged xl.pa 4 then Config.freeWord (s.free * 2 ^ 40 + xl.pa) else BitVec.ofNat 32 (s.mem.val xl.pa 4), xl.pa)
        else .error (.need (.line xl.pa true false a))

/-- The syllables of the bundle a tile is due to issue (R157, Table 5-8 step 1), with their physical addresses. -/
def State.fetch (s : State) (t : TileId) (x : Tile) : Nat → List (Word × Nat) → Except Stop (List (Word × Nat))
  | 0, l => .ok l
  | n + 1, l =>
    match bundleLen (l.map (·.1)) with
    | some _ => .ok l
    | none =>
      match s.fetchSyl t x l.length with
      | .error e => .error e
      | .ok y => s.fetch t x n (l ++ [y])

/-- Steps 1 to 3 of Table 5-8: the syllables with the places they came from, the length and the moves. A bundle whose serial accesses are
under way is not fetched again. -/
def State.decodeBundle (s : State) (t : TileId) (x : Tile) : Except Stop (List (Word × Nat) × Nat × List Move) :=
  let pc := x.ctx.pcc.addr
  if pc.toNat % 4 != 0 then .error (.fault ⟨0x46, pc⟩)
  else
    match x.flow.held.elim (s.fetch t x 4 []) Except.ok with
    | .error e => .error e
    | .ok l =>
      let ws := l.map (·.1)
      match encLength 4 0 ws with
      | some (c, i) => .error (.fault ⟨c, pc + BitVec.ofNat 32 (4 * i)⟩)
      | none =>
        match decodeMoves pc 4 0 ws with
        | .error (c, a) => .error (.fault ⟨c, a⟩)
        | .ok ms => .ok (l, (bundleLen ws).getD 4, ms)

/-- Whether a tile is in service and its program may go on: power, clock, reset, debug halt. -/
def Tile.live (x : Tile) : Bool :=
  x.sys.powered && !x.sys.gated && !x.sys.ashed && !x.sys.excluded && !x.sys.resetting && !x.sys.halted

/-- Whether a report is due at the present boundary (R266, R267). -/
def Flow.reportDue (f : Flow) : Bool :=
  f.modeSh.isNone && !f.noTake && f.infl.any (fun i => i.code.isSome && (f.impDue || decide (i.comp + 8 ≤ i.dist)))

/-- Whether the tile's clock is switching between DVFS points: it is frozen for the switch (R150). -/
def Tile.clockFrozen (x : Tile) : Bool :=
  match x.sys.dvfs with
  | .switching _ => true
  | _ => false

/-- Whether a debug halt stops the tile at its next boundary (R541, R542): in an Open context, with no running context, or where the unlock
lets it stop Trade contexts. -/
def Tile.haltDue (x : Tile) : Bool := x.sys.haltReq && (x.run.isNone || x.world == .opn || x.sys.haltAny)

/-- Whether a tile may issue or go on with a bundle now. -/
def Tile.mayIssue (x : Tile) : Bool :=
  let f := x.flow
  x.live && !x.clockFrozen && x.run.isSome && f.freeze == .none && f.fault.isNone && f.deliv.isNone && f.enter.isNone && !(f.reportDue && !f.issuing)
    && (f.issuing || (!x.sys.gateReq && !x.haltDue))

/-- A bundle squashed by a fault (R169, R257); PEND names the levels whose end decision it leaves pending. -/
def Tile.squash (x : Tile) (f : FaultRec) : Tile :=
  let pc := x.ctx.pcc.addr
  let pend := (List.range 4).foldl (fun (l : Word) n => if x.ctx.act n && vget x.ctx.le n 0 == pc then setBit l (8 + n) true else l) x.ctx.lstat
  (x.modCtx (fun c => { c with lstat := pend })).modFlow (fun y =>
    { y with fault := some f, issuing := false, presp := [], held := none, checked := [], preciseDone := false, freeze := .none })

/-- The device runs. -/
def State.devRun (s : State) : State := { s with dev := { s.dev with st := .run }, pdc := { s.pdc with idleSince := none } }

/-- A device that is IDLE runs again (R492). -/
def State.idleOver (s : State) : State := if s.dev.st == .idle then s.devRun else s

/-- A fetch that met a reserved range is recorded like any access to one (R23). -/
def State.fetchNoted (s : State) (t : TileId) (x : Tile) (e : Stop) : State :=
  match e with
  | .fault f =>
    match s.access9 t x.world x.sup x.ctx.cmr f.faddr.toNat .fetch with
    | .ok xl => if f.code = busErr ∧ s.place xl.pa = .reserved then s.reservedEvent else s
    | _ => s
  | _ => s

/-- The bundle at PCC issues, faults or freezes its tile (R157, R169, Table 5-8). -/
def State.issue (s : State) (t : TileId) : State :=
  let x0 := s.tile t
  let stop (e : Stop) : State :=
    match e with
    | .fault f => s.setTile t (x0.squash f)
    | .need f => s.setTile t (x0.modFlow (fun y => { y with freeze := f, issuing := true }))
    | .serial f _ => s.setTile t (x0.modFlow (fun y => { y with freeze := f, issuing := true }))
    | .report => s.setTile t (x0.modFlow (fun y => { y with impDue := true, issuing := false, presp := [], held := none, checked := [] }))
  match s.decodeBundle t x0 with
  | .error e => (stop e).fetchNoted t x0 e
  | .ok (raw, len, ms) =>
    if x0.flow.repSkip then
      s.setTile t ((x0.modCtx (fun c => { c with pcc := c.pcc.jumpTo (c.pcc.addr + BitVec.ofNat 32 (4 * len)) })).modFlow
        (fun f => { f with repSkip := false, issuing := false }))
    else
      let x := x0.tick
      let b := s.bundle t x len (ms.filter (fun m => guardTrue x.ctx.pred m.guard))
      match s.judgeBundle b with
      | .error (.serial f c) => s.setTile t (x0.modFlow (fun y => { y with freeze := f, issuing := true, held := some raw, checked := c }))
      | .error e => stop e
      | .ok l =>
        let s1 := s.commitBundle b l
        s1.modTile t (fun y => raw.foldl (fun y p => y.touchInstr b.w p.2) y)

end Sys2Proof.Machine
end

