-- ==== Sys2Proof/Machine/TileEvents.lean ====
section
/-!
DEFINITION. Machine/TileEvents.lean: the events of a tile beside the issue of a bundle: fills, spills and fences, taking faults,
reports, interrupts and machine checks, cache lines, changes of DVFS point (chapters 4, 7, 8, 9).
-/
namespace Sys2Proof.Machine

/-- The flow of tile t changed. -/
def State.modFlow (s : State) (t : TileId) (f : Flow → Flow) : State := s.modTile t (·.modFlow f)

/-- The freeze of tile t ended. -/
def State.thaw (s : State) (t : TileId) : State := s.modFlow t (fun f => { f with freeze := .none })

/-- Whether a tile stands at a bundle boundary at which it may take something (R135, R169, R193, R258, R291, R299). -/
def Tile.boundary (x : Tile) : Bool :=
  let f := x.flow
  x.live && !x.clockFrozen && f.freeze == .none && f.fault.isNone && !f.issuing && !f.repSkip && f.modeSh.isNone && !f.noTake
    && f.deliv.isNone && f.enter.isNone

/-- What a fill that meets an uncorrectable error does (R220): the slot is marked and loses its tags, the ledger hears of it, and a
bundle that waits for the switch raises CTX_DAMAGED. -/
def State.fillDamaged (s : State) (t : TileId) (n : CtxId) : State :=
  let s1 := (s.modStore (fun x => { x.setSlot n (x.slot n).damage with damaged := x.damaged.filter (fun p => p.1 / 48 != n.toNat) })).report
    { cls := 6, num := b2n (2048 ≤ n.toNat), kind := none, pa := 0, hard := true }
  s1.modTile t (fun x =>
    if x.flow.issuing then x.squash ⟨0x55, x.ctx.pcc.addr⟩
    else (x.modFlow (fun f => { f with freeze := .none })).modSys (fun y => { y with recorded := if y.recorded = some n then none else y.recorded }))

/-- A tile whose filled context is its running one: it starts afresh, or goes on as it was halted; its record ends (R502, R541). -/
def Tile.begun (x : Tile) (c : FillCont) : Tile :=
  (match c with
    | .goOn => x.modFlow (fun f => { f with freeze := .none })
    | _ => x.switched).modSys (fun y => { y with recorded := none })

/-- The fill that a tile waits for completes (R210–R212, R220): where the context is still elsewhere on its way to its slot, or the
spill queue has no room for a DIRTY victim, the tile goes on waiting. -/
def State.fillComplete (s : State) (t : TileId) : State :=
  match (s.tile t).flow.freeze with
  | .fill n cont =>
    match s.bring t n with
    | .wait =>
      match cont, s.dir n with
      | .again, .running _ _ => s.thaw t
      | _, _ => s
    | .bank s1 b =>
      match cont with
      | .again => s1.thaw t
      | c => (s1.runBank t b).modTile t (·.begun c)
    | .fill =>
      if s.store.slotBad n && (s.dir n == .stored || s.dir n == .recorded t) then s.fillDamaged t n
      else
        match s.fillInto t n with
        | none => s
        | some s1 =>
          match cont with
          | .again => s1.thaw t
          | c => (s1.resume t n).modTile t (·.begun c)
  | _ => s

/-- CONTEXT_FILL_COMPLETE (R211). -/
def execContextFillComplete (t : TileId) (s : State) : Host.Outcome State Fault Refusal := .next (s.fillComplete t)

/-- Tiles that wait for a spill go on (R210). -/
def Flow.spillDone (f : Flow) : Flow := if f.freeze == .spill then { f with freeze := .none } else f

/-- The oldest queued copy of a tile written to its slot; the context becomes STORED (R210). -/
def State.spillComplete (s : State) (t : TileId) : State :=
  match (s.tile t).spill with
  | [] => s
  | c :: r =>
    let s1 := s.modStore (fun x => { x.setSlot c.num c.ctx with damaged := x.damaged.filter (fun p => p.1 / 48 != c.num.toNat) })
    (s1.modTile t (fun x => { x with spill := r })).mapTiles (·.modFlow Flow.spillDone)

/-- SPILL_COMPLETE (R210). -/
def execSpillComplete (t : TileId) (s : State) : Host.Outcome State Fault Refusal := .next (s.spillComplete t)

/-- Whether a tile has an access with a number below n outstanding: a posted write (R18, R114) or an answered peripheral access. -/
def Tile.outstanding (x : Tile) (n : Nat) : Bool :=
  x.caches.wbuf.any (fun e => decide (e.seq < n))
    || (match x.flow.freeze with
        | .response q _ _ => decide (q < n)
        | _ => false)

/-- The gate fence of tile t completes once nothing checked before its start is outstanding on any tile (R114, R115). -/
def State.gfenceComplete (s : State) (t : TileId) : State :=
  match (s.tile t).flow.freeze with
  | .gfence n => if allTiles.any (fun u => (s.tile u).outstanding n) then s else s.thaw t
  | _ => s

/-- GATE_FENCE_COMPLETE (R115). -/
def execGateFenceComplete (t : TileId) (s : State) : Host.Outcome State Fault Refusal := .next (s.gfenceComplete t)

/-- The memory or instruction fence of tile t completes once its own earlier writes are performed (R146). -/
def State.mfenceComplete (s : State) (t : TileId) : State :=
  match (s.tile t).flow.freeze with
  | .mfence _ n => if (s.tile t).outstanding n then s else s.thaw t
  | _ => s

/-- FENCE_COMPLETE (R146). -/
def execFenceComplete (t : TileId) (s : State) : Host.Outcome State Fault Refusal := .next (s.mfenceComplete t)

/-- The freeze of CTL.DWBINV ends when the response to the last write-back has arrived (R147). -/
def State.dwbinvComplete (s : State) (t : TileId) : State :=
  let x := s.tile t
  if x.flow.freeze == .dwbinv && x.caches.wbacks.isEmpty then s.thaw t else s

/-- DWBINV_COMPLETE (R147). -/
def execDwbinvComplete (t : TileId) (s : State) : Host.Outcome State Fault Refusal := .next (s.dwbinvComplete t)

/-- Whether the tinder ROM runs: its effect is TINDER_ROM_BOOT's and RECOVERY_TRANSFER's, not that of bundles (R527, R528). -/
def State.inTinder (s : State) : Bool := s.boot.tinder == .ready || s.boot.tinder == .recovery

/-- BUNDLE_ISSUE (R157). -/
def execBundleIssue (t : TileId) (s : State) : Host.Outcome State Fault Refusal :=
  .next (if (s.tile t).mayIssue && !s.inTinder then s.idleOver.issue t else s)

/-- The results that become visible in the next bundle, written to their ports (R131). -/
def Tile.revealDue (x : Tile) : Tile :=
  let pred := x.ports.cmpPreds x.ctx.pred
  { x.modCtx (fun c => { c with pred := pred }) with ports := x.ports.revealAll, att := x.att.reveal }

/-- PENDING_RESULT_VISIBLE (R131). -/
def execPendingResultVisible (t : TileId) (s : State) : Host.Outcome State Fault Refusal :=
  .next (if (s.tile t).run.isSome then s.modTile t (·.revealDue) else s)

/-- The pending fault of a tile taken (R251); a condition still to be reported is reported first, and the squashed bundle re-executes
(R267). -/
def State.takeFault (s : State) (t : TileId) : State :=
  let x := s.tile t
  match x.flow.fault with
  | none => s
  | some f =>
    if !x.live || x.run.isNone then s
    else
      match x.flow.report with
      | some e => if x.flow.modeSh.isNone then s.takeReport t e else s.enter t (entryOf f true true)
      | none => s.enter t (entryOf f true x.flow.modeSh.isSome)

/-- EXCEPTION_ENTRY (R251). -/
def execExceptionEntry (t : TileId) (s : State) : Host.Outcome State Fault Refusal := .next (s.takeFault t)

/-- The report due at a boundary taken (R266, R267). -/
def State.reportTake (s : State) (t : TileId) : State :=
  let x := s.tile t
  if x.run.isSome && x.boundary && !x.haltDue && x.flow.reportDue then
    match x.flow.report with
    | some e => s.takeReport t e
    | none => s
  else s

/-- IMPRECISE_REPORT (R266). -/
def execImpreciseReport (t : TileId) (s : State) : Host.Outcome State Fault Refusal := .next (s.reportTake t)

/-- The freeze of a bundle under PRECISE ends, and the bundle completes or is squashed (R268). -/
def State.preciseEnd (s : State) (t : TileId) : State :=
  if (s.tile t).flow.freeze == .precise then
    (s.modFlow t (fun f => { f with freeze := .none, preciseDone := true })).issue t
  else s

/-- PRECISE_FREEZE_END (R268). -/
def execPreciseFreezeEnd (t : TileId) (s : State) : Host.Outcome State Fault Refusal := .next (s.preciseEnd t)

/-- Whether the first pending machine check of a tile may be taken in a world under a masking word (R245): LEVEL of its descriptor in
level mode, IE in flat mode. -/
def State.mcPasses (s : State) (t : TileId) (w : World) (word : Word) : Option FaultRec :=
  let x := s.tile t
  match x.flow.mcs with
  | [] => none
  | m :: _ =>
    if x.flat w then (if bit word 29 then some m else none)
    else
      match (s.readDesc t w (16 + m.code.toNat / 8)).2 with
      | some d => if decide (fld word 20 16 ≤ d.level) then some m else none
      | none => some m

/-- A machine check taken (R279): it is counted in MCCOUNT, reported to the ledger and entered in the error records. -/
def State.mcTake (s : State) (t : TileId) (m : FaultRec) : State :=
  let x := s.tile t
  let s1 := s.setTile t ((x.modFlow (fun f => { f with mcs := f.mcs.drop 1 })).modSys (fun y => { y with mccount := satInc y.mccount }))
  let s2 := (s1.report { cls := 4, num := t.toNat, kind := none, pa := m.faddr.toNat * 16, hard := false }).errRow 3 t x.world m.code m.faddr
  s2.enter t (entryOf m false false)

/-- The machine check a tile that runs a context may take at its boundary (R245, R262, R279, R291). -/
def State.mcDue (s : State) (t : TileId) : Option FaultRec :=
  let x := s.tile t
  let w := x.world
  if x.run.isSome && x.boundary && !x.haltDue && !x.efheld w && !x.haltBit w && !x.shadowHeld w x.sup then s.mcPasses t w x.ctx.status else none

/-- MACHINE_CHECK (R279). -/
def execMachineCheck (t : TileId) (s : State) : Host.Outcome State Fault Refusal :=
  .next
    (match s.mcDue t with
    | none => s
    | some m =>
      match (s.tile t).flow.report with
      | some e => s.takeReport t e
      | none => s.mcTake t m)

/-- The masking word of a world for a tile that runs another world or nothing (R246, R295). -/
def Tile.maskWord (x : Tile) (w : World) : Word := (x.wcfgOf w).mask

/-- Whether a world's interrupts may be taken in the context that a tile runs (R246, R291). -/
def State.irqDue (s : State) (t : TileId) : Bool :=
  let x := s.tile t
  let w := x.world
  x.run.isSome && x.boundary && !x.haltDue && !x.efheld w && !x.haltBit w && !x.shadowHeld w x.sup && (s.mcDue t).isNone
    && (s.deliverable t w (maskPasses (x.flat w) x.ctx.status)).isSome

/-- The start of a delivery at a boundary (R136, R137, R267): the drain and the copy of the image. -/
def State.delivStart (s : State) (t : TileId) (d : Delivery) : State :=
  s.modTile t (fun x => (x.drain.copyImage).modFlow (fun f => { f with deliv := some d }))

/-- An abandoned delivery (R298): the ports come back from the shadow, nothing is written, ABAND rises; a cross-world delivery
closes its link, and a tile that was idle is idle again (DESIGN CHOICE, log 44). -/
def State.delivAbandon (s : State) (t : TileId) (d : Delivery) : State :=
  let s1 := (s.modTile t (fun x => (x.restoreImage x.world x.sup).modFlow (fun f => { f with deliv := none }))).countTstat t d.world false
  if d.cross then s1.unlink t
  else if d.idle then
    s1.modTile t (fun x =>
      match x.run with
      | some b => { x.modBank b (fun k => { k with st := .dirty }) with run := none }
      | none => x)
  else s1

/-- The commit of a delivery at cycle 6 and the entry (R296–R298). -/
def State.delivCommit (s : State) (t : TileId) (d : Delivery) : State :=
  let x := s.tile t
  let word := if d.cross || d.idle then x.maskWord d.world else x.ctx.status
  match s.deliverable t d.world (maskPasses (x.flat d.world) word) with
  | none => s.delivAbandon t d
  | some i => (s.commitIrq t d.world i).enterNow t (entryIrq s i d.cross)

/-- INTERRUPT_DELIVERY: at a boundary the delivery starts; the next such event of the tile is its cycle 6. -/
def execInterruptDelivery (t : TileId) (s : State) : Host.Outcome State Fault Refusal :=
  .next
    (let x := s.tile t
     match x.flow.deliv with
     | some d => s.delivCommit t d
     | none =>
       if s.irqDue t then
         match x.flow.report with
         | some e => s.takeReport t e
         | none => s.delivStart t { world := x.world, cross := false, idle := false }
       else s)

/-- Whether a world's host context can be entered on a tile (R264, R277, R295): HVALID, HALT clear, HCTX a claimed, unparked context of
the world that runs nowhere. -/
def State.hostReady (s : State) (t : TileId) (w : World) : Bool :=
  let x := s.tile t
  let n := x.hctx w
  let c := s.ctx n
  x.hvalid w && !x.haltBit w && !x.efheld w && c.claimed && !c.parked && c.world == w && !s.isRunning n && !x.shadowHeld w c.sup

/-- The host context brought into a bank of tile t and made the running one; none where it waits for a fill or a spill, with the
tile frozen for it. -/
def State.hostSwitch (s : State) (t : TileId) (n : CtxId) : State × Bool :=
  match s.bring t n with
  | .bank s1 b => ((s1.runBank t b).modTile t (·.switched), true)
  | .fill => (s.modFlow t (fun f => { f with freeze := .fill n .again }), false)
  | .wait => (s.modFlow t (fun f => { f with freeze := .spill }), false)

/-- The entry of a world's host context after the other world halted (R264 step 6): XW = 0, the world-down source as its cause. -/
def State.hostEnter (s : State) (t : TileId) (w : World) (i : Nat) : State :=
  if !s.hostReady t w then s.modFlow t (fun f => { f with enter := none })
  else
    match s.hostSwitch t ((s.tile t).hctx w) with
    | (s1, false) => s1
    | (s1, true) => (s1.modTile t (·.copyImage)).enterNow t (entryIrq s1 i false)

/-- Whether a cross-world entry may start on a tile (R277, R291). -/
def State.crossDue (s : State) (t : TileId) : Bool :=
  let x := s.tile t
  x.run.isSome && x.world == .opn && x.boundary && x.link == .none && s.hostReady t .trade && !x.shadowHeld .opn x.sup
    && (s.mcDue t).isNone && (s.deliverable t .trade (maskPasses (x.flat .trade) (x.maskWord .trade))).isSome

/-- A cross-world entry up to the commit of its delivery (R277 steps 1 to 3): the host's bank first, then the Open image and the
link, the switch, and the host's own image. -/
def State.crossStart (s : State) (t : TileId) : State :=
  let x := s.tile t
  let h := x.hctx .trade
  match s.bring t h with
  | .fill => s.modFlow t (fun f => { f with freeze := .fill h .again })
  | .wait => s.modFlow t (fun f => { f with freeze := .spill })
  | .bank s1 b =>
    let o := x.ctxNum
    let s2 := s1.modTile t (fun y => { y.drain.copyImage with link := .interrupt o h })
    let s3 := (s2.runBank t b).modTile t (·.switched)
    s3.modTile t (fun y => y.copyImage.modFlow (fun f => { f with deliv := some { world := .trade, cross := true, idle := false } }))

/-- A halted tile fills its context again for a deliverable Trade source (R541); the halt it is asked for stays, so it halts again when the
link closes. -/
def State.haltedCross (s : State) (t : TileId) : State :=
  let x := s.tile t
  match x.sys.recorded with
  | some n =>
    if x.sys.halted && s.hostReady t .trade && (s.deliverable t .trade (maskPasses (x.flat .trade) (x.maskWord .trade))).isSome then
      (s.modTile t (·.modSys (fun y => { y with halted := false }))).modFlow t (fun f => { f with freeze := .fill n .goOn })
    else s
  | none => s

/-- CROSS_WORLD_ENTRY: the entry of a host after a world halt, or the start of a Trade interrupt's cross-world entry. -/
def execCrossWorldEntry (t : TileId) (s : State) : Host.Outcome State Fault Refusal :=
  .next
    (let x := s.tile t
     match x.flow.enter with
     | some (w, i) => if x.live && x.flow.freeze == .none then s.hostEnter t w i else s
     | none =>
       if s.crossDue t then
         match x.flow.report with
         | some e => s.takeReport t e
         | none => s.crossStart t
       else s.haltedCross t)

/-- Whether a tile is idle in service (R295): no running context, nothing pending on it. A gated clock counts as in service. -/
def Tile.idle (x : Tile) : Bool :=
  x.run.isNone && { x with sys := { x.sys with gated := false, halted := x.sys.halted && x.sys.recorded.isSome } }.live && x.flow.freeze == .none && x.flow.enter.isNone && x.flow.deliv.isNone

/-- The world whose host an idle tile enters, and the machine check or delivery it takes it for (R295). -/
def State.idleDue (s : State) (t : TileId) : Option (World × Option FaultRec) :=
  let x := s.tile t
  let mc (w : World) : Option FaultRec := if s.hostReady t w then s.mcPasses t w (x.maskWord w) else none
  let irq (w : World) : Bool := s.hostReady t w && (s.deliverable t w (maskPasses (x.flat w) (x.maskWord w))).isSome
  if !x.idle then none
  else
    match mc .trade, mc .opn with
    | some m, _ => some (.trade, some m)
    | none, some m => if x.sys.haltReq then none else some (.opn, some m)
    | none, none => if irq .trade then some (.trade, none) else if irq .opn && !x.sys.haltReq then some (.opn, none) else none

/-- The host entry of an idle tile (R295): its clock runs, it switches to HCTX with no link, and the entry follows. -/
def State.idleEnter (s : State) (t : TileId) : State :=
  match s.idleDue t with
  | none => s
  | some (w, m) =>
    let s0 := s.idleOver.modTile t (·.modSys (fun y => { y with gated := false, halted := false }))
    match s0.hostSwitch t ((s0.tile t).hctx w) with
    | (s1, false) => s1
    | (s1, true) =>
      match m with
      | some f => s1.mcTake t f
      | none => s1.delivStart t { world := w, cross := false, idle := true }

/-- IDLE_HOST_ENTRY (R295). -/
def execIdleHostEntry (t : TileId) (s : State) : Host.Outcome State Fault Refusal := .next (s.idleEnter t)

/-- The open row of the DRAM bank an address lies in becomes its row (R16, R568); other places have no rows. -/
def State.openRow (s : State) (pa : Nat) : State :=
  match s.place pa with
  | .dram =>
    let o := pa - dramBase
    let a := o / 512 * 256 + o % 256
    let k := 8 * (o / 256 % 2) + a / 2048 % 8
    { s with mem := { s.mem with rows := Sparse.write 0 k (a / 16384 + 1) s.mem.rows } }
  | _ => s

/-- The check unit of an address marked as holding an uncorrectable error. -/
def State.markDamaged (s : State) (pa : Nat) : State :=
  let u := (s.place pa).unit
  { s with mem := { s.mem with damaged := Sparse.put (pa / u * u) true s.mem.damaged } }

/-- Whether a line cannot arrive now: it lies in an eMRAM bank that programs a line (R17). -/
def State.bankBusy (s : State) (pa : Nat) : Bool :=
  match s.place pa with
  | .emram => (vget s.mem.progs ((pa - 0x8000000) / 0x100000 % 4) none).isSome
  | _ => false

/-- A missed line or its ownership arrives (R34, R143, R145), with what the read met: a corrected error is recorded by its controller;
an uncorrectable error is recorded, reported and raises MC_READ (R19–R21, R60). -/
def State.lineArrive (s : State) (t : TileId) (err : MemErr) : State :=
  match (s.tile t).flow.freeze with
  | .line pa fetch own _ =>
    if s.bankBusy pa then s
    else
      let w := (s.tile t).world
      let s0 := match err with
        | .corrected => s.memError pa false
        | .uncorrectable => s.markDamaged pa
        | _ => s
      let s1 := if fetch then s0.fillInstr t w pa else s0.fillData t w pa own
      let s2 := if s0.isDamaged (lineOf pa) 64 then s1.lineBad t pa else s1
      (s2.openRow pa).thaw t
  | _ => s

/-- What a cache's own check meets (R148): a corrected error or a refetched parity error is counted in ECCCOUNT; an uncorrectable
error in a dirty line of the data cache drops the line, leaves its memory unknown and raises MC_DCACHE. -/
def State.cacheError (s : State) (t : TileId) (err : MemErr) : State :=
  match err with
  | .cacheCorrected => s.modReg (tileSlot t) 0x1014 (· + 1)
  | .cacheDirty k =>
    match Sparse.find? k (s.tile t).caches.dc with
    | some l =>
      if l.st = .modified then
        let s1 := s.modTile t (·.modCaches (fun c => { c with dc := Sparse.erase k c.dc }))
        (s1.markDamaged l.pa).mcPost t 0x72 l.pa
      else s
    | none => s
  | _ => s

/-- CACHE_LINE_ARRIVAL (R34). -/
def execCacheLineArrival (t : TileId) (err : MemErr) (s : State) : Host.Outcome State Fault Refusal :=
  .next ((s.lineArrive t err).cacheError t err)

/-- The response to the access a tile is frozen on arrives (R31): an error faults the bundle, anything else lets it be judged again. -/
def State.periphResponse (s : State) (t : TileId) : State :=
  match (s.tile t).flow.freeze with
  | .response _ (.err c) ea => s.setTile t ((s.tile t).squash ⟨c, ea⟩)
  | .response _ r _ => s.modFlow t (fun f => { f with freeze := .none, presp := f.presp ++ [r] })
  | .sePage pa _ =>
    if s.bankBusy pa then s
    else
      let s1 := if s.isDamaged pa 1 then s.lineBad t pa else s
      (s1.openRow pa).modFlow t (fun f => { f with freeze := .none, presp := f.presp ++ [.ok 0] })
  | _ => s

/-- PERIPHERAL_RESPONSE (R31). -/
def execPeripheralResponse (t : TileId) (s : State) : Host.Outcome State Fault Refusal := .next (s.periphResponse t)

/-- PAGE_WALK (R318). -/
def execPageWalk (t : TileId) (s : State) : Host.Outcome State Fault Refusal := .next (s.pageWalk t)

/-- The DVFS point that a tile's registers ask for: the higher of POINT and FLOOR (R150). -/
def State.dvfsTarget (s : State) (t : TileId) : Nat :=
  max (fld (s.reg (tileSlot t) 0x1000) 1 0) (fld (s.reg (tileSlot t) 0x1004) 1 0)
/-- The point a tile runs at. -/
def State.dvfsActive (s : State) (t : TileId) : Nat := fld (s.reg (tileSlot t) 0x1000) 3 2

/-- TDVFS with ACTIVE and BUSY set, and the phase of the change. -/
def State.dvfsPhase (s : State) (t : TileId) (active : Nat) (busy : Bool) (d : Dvfs) : State :=
  (s.modReg (tileSlot t) 0x1000 (fun v => setBit (setFld v 3 2 active) 7 busy)).modTile t (·.modSys (fun y => { y with dvfs := d }))

/-- A change towards the target begins or goes on, or ends where the target runs already (R150). -/
def State.dvfsStart (s : State) (t : TileId) : State :=
  let a := s.dvfsActive t
  let g := s.dvfsTarget t
  if g = a then s.dvfsPhase t a false .steady
  else if a < g then s.dvfsPhase t a true (.rampUp (BitVec.ofNat 2 g))
  else s.dvfsPhase t a true (.switching (BitVec.ofNat 2 g))

/-- A write that changes the target (R150): it starts a change, replaces the target of one in progress, or ends it. -/
def State.dvfsWritten (s : State) (t : TileId) : State :=
  if (s.tile t).sys.dvfs == .steady || s.dvfsTarget t == s.dvfsActive t then s.dvfsStart t else s

/-- The end of a clock switch (R150): the point runs; after a lower point the voltage ramps down. -/
def State.dvfsSwitchEnd (s : State) (t : TileId) : State :=
  match (s.tile t).sys.dvfs with
  | .switching p =>
    if p.toNat < s.dvfsActive t then s.dvfsPhase t p.toNat true .rampDown
    else (s.dvfsPhase t p.toNat true .steady).dvfsStart t
  | _ => s

/-- The end of a voltage ramp (R150). -/
def State.dvfsRampEnd (s : State) (t : TileId) : State :=
  match (s.tile t).sys.dvfs with
  | .rampUp p =>
    let g := s.dvfsTarget t
    let a := s.dvfsActive t
    if a < g ∧ g ≤ p.toNat then s.dvfsPhase t a true (.switching (BitVec.ofNat 2 g)) else s.dvfsStart t
  | .rampDown => s.dvfsStart t
  | _ => s

/-- DVFS_CLOCK_SWITCH_END (R150). -/
def execDvfsClockSwitchEnd (t : TileId) (s : State) : Host.Outcome State Fault Refusal := .next (s.dvfsSwitchEnd t)
/-- DVFS_RAMP_END (R150). -/
def execDvfsRampEnd (t : TileId) (s : State) : Host.Outcome State Fault Refusal := .next (s.dvfsRampEnd t)

/-- A write to TDVFS (R150). -/
def State.tdvfsWrite (s : State) (t : TileId) (v : Word) : State :=
  (s.modReg (tileSlot t) 0x1000 (fun o => setFld o 1 0 (fld v 1 0))).dvfsWritten t

/-- A write to TFLOOR (R151): only a Trade supervisor makes it. -/
def State.tfloorWrite (s : State) (q : Req) (t : TileId) (v : Word) : State × BusRes :=
  if q.world == .opn then (s, .err gateWorld)
  else if !q.sup then (s, .err gateUser)
  else ((s.setReg (tileSlot t) 0x1004 (v &&& 3)).dvfsWritten t, .ok 0)

end Sys2Proof.Machine
end

