-- ==== Sys2Proof/Machine/Sweep.lean ====
section
/-!
DEFINITION. Machine/Sweep.lean: the char sweep engine of slot 0x021 (R86–R94): its programme, START, its steps, the walk of the
context store and its end.
-/
namespace Sys2Proof.Machine

/-- STATE of the sweep (Table 3-7). -/
def State.sweepState (s : State) : Nat := fld (s.reg 0x021 0x1208) 1 0
/-- STATE and REASON set. -/
def State.setSweep (s : State) (st reason : Nat) : State := s.setReg 0x021 0x1208 (BitVec.ofNat 32 (reason * 4 + st))
/-- The engine changed. -/
def State.modSweep (s : State) (f : Sweep → Sweep) : State := { s with sweep := f s.sweep }

/-- The sweep ends DONE or FAILED, and its interrupt rises in the world that wrote START (R94, Table 9-6). -/
def State.sweepEnd (s : State) (st reason : Nat) : State :=
  ((s.setSweep st reason).modSweep (fun e => { e with abort := false, pause := none })).raise (if s.sweep.world == .trade then 48 else 49)

/-- Area j: enabled, first line, last line, HCM (Table 3-6). -/
structure SweepArea where
  en : Bool
  lo : Nat
  hi : Nat
  hcm : BitVec 16
deriving DecidableEq, Repr

/-- Area j. -/
def State.sweepArea (s : State) (j : Nat) : SweepArea :=
  let w2 := s.reg 0x021 (0x1108 + 16 * j)
  { en := bit w2 31, lo := lineOf ((s.reg 0x021 (0x1100 + 16 * j)).toNat * 16), hi := lineOf ((s.reg 0x021 (0x1104 + 16 * j)).toNat * 16)
    hcm := w2.setWidth 16 }

/-- Whether a writer's own colour checks refuse an area (R86): a granule its mask lacks, or a Trade DRAM range for the Open world. -/
def State.areaRefused (s : State) (q : Req) (a : SweepArea) : Bool :=
  a.en &&
  match s.place a.lo with
  | .sram => !(List.range ((a.hi + 64 - a.lo) / 256 + 2)).all (fun i =>
      let g := a.lo / 256 * 256 + 256 * i
      decide (a.hi < g) || colourPasses q.world q.sup q.cmr (s.mem.colourOf g))
  | .dram => q.world == .opn && (List.range ((a.hi - a.lo) / 0x10000 + 2)).any (fun i =>
      let p := a.lo / 0x10000 * 0x10000 + 0x10000 * i
      decide (p ≤ a.hi) && s.inTdr p)
  | _ => false

/-- A write to a register of slot 0x021 other than CTRL (R86). A range word is refused where the range it changes is enabled for the
other world, or where the written word 3 names the other world. STEPKIB outside 4–1,024 is not taken (DESIGN CHOICE, log 45). -/
def State.sweepProgram (s : State) (q : Req) (off : Nat) (v : Word) : State × BusRes :=
  let s1 := s.plainWrite .trade 0x021 off v
  if 0x1000 ≤ off ∧ off < 0x1040 then
    let old := s.reg 0x021 (off / 16 * 16 + 12)
    let bad := (bit old 31 && bit old 30 != q.world.bit) || (off % 16 == 12 && bit v 30 != q.world.bit)
    if s.sweepState == 1 || bad then (s, .err colOp) else (s1, .ok 0)
  else if 0x1100 ≤ off ∧ off < 0x1200 then
    let j := (off - 0x1100) / 16
    if s.sweepState == 1 || s.areaRefused q (s.sweepArea j) || s1.areaRefused q (s1.sweepArea j) then (s, .err colOp) else (s1, .ok 0)
  else if off = 0x1204 then
    let k := fld v 15 0
    if 4 ≤ k ∧ k ≤ 1024 then (s1, .ok 0) else (s.setReg 0x021 0x1204 (setFld (s.reg 0x021 0x1204) 31 16 (fld v 31 16)), .ok 0)
  else (s, .ok 0)

/-- The test of R90 made on a capability where it stands, whatever STATE is (R91). -/
def State.sweepCap (s : State) (mask : BitVec 16) (c : Cap) : Cap := if s.condemned mask c then c.untag else c

/-- The capabilities of a world's items on a tile after the filter of R91. -/
def State.sweepCfg (s : State) (w : World) (g : WorldCfg) : WorldCfg :=
  let f := s.sweepCap (widestMask w)
  let u := s.sweepCap (s.ctx (BitVec.ofNat 12 (fld g.pstat 27 16))).cmr
  { g with
    edtb := f g.edtb, stb := f g.stb, sysl := { g.sysl with c15 := f g.sysl.c15 }
    sce := g.sce.map (fun e => { e with entry := f e.entry, stack := f e.stack })
    eframe := g.eframe.map f, shU := mapImage u g.shU, shS := mapImage f g.shS }

/-- A tile after the filter of R91; its copies of isle entries go. -/
def State.sweepTile (s : State) (x : Tile) : Tile :=
  let x1 : Tile := { x with
    ports := if x.run.isSome then mapImage (s.sweepCap x.ctx.cmr) x.ports else x.ports,
    banks := x.banks.map (fun k => { k with ctx := k.ctx.mapCaps (s.sweepCap k.ctx.cmr) }),
    cfg := Vector.ofFn (fun (i : Fin 2) => if i.val = 0 then s.sweepCfg .trade (x.wcfgOf .trade) else s.sweepCfg .opn (x.wcfgOf .opn)) }
  { x1 with sys := { x1.sys with isles := [] } }

/-- The isle descriptors after the filter of R91. -/
def State.sweepIsles (s : State) : State :=
  s.modStore (fun x => { x with isles := x.isles.map (fun p => (p.1, { p.2 with root := s.sweepCap p.2.mask p.2.root })) })

/-- The bytes of one step. -/
def State.stepBytes (s : State) : Nat := fld (s.reg 0x021 0x1204) 15 0 * 1024
/-- The steps an area takes. -/
def State.areaSteps (s : State) (a : SweepArea) : Nat :=
  if a.en && decide (a.lo ≤ a.hi) then cdiv (a.hi + 64 - a.lo) s.stepBytes else 0

/-- Whether an enabled area lies in a target without tags (R93). -/
def State.areaTagless (s : State) (a : SweepArea) : Bool := a.en && !(s.place a.lo).tagged

/-- START (R91, R93): every tile filters what it holds, then N is fixed and STATE becomes RUNNING. -/
def State.sweepStart (s : State) (q : Req) : State :=
  if s.sweepState == 1 then s
  else
    let areas := (List.range 16).map s.sweepArea
    let s0 := ((s.setReg 0x021 0x120C 0).setReg 0x021 0x1214 0).modSweep (fun _ => { Sweep.reset with world := q.world })
    if areas.any s.areaTagless then (s0.setReg 0x021 0x1210 0).sweepEnd 3 2
    else
      let s1 := (s0.mapTiles s.sweepTile).sweepIsles
      (s1.setReg 0x021 0x1210 (BitVec.ofNat 32 ((areas.map s.areaSteps).sum))).setSweep 1 0

/-- ABORT (R93): it takes effect at the end of the current step; between steps at once. -/
def State.sweepAbort (s : State) : State :=
  if s.sweepState != 1 then s
  else if s.sweep.pause.isSome || s.reg 0x021 0x120C == s.reg 0x021 0x1210 then s.sweepEnd 3 1
  else s.modSweep (fun e => { e with abort := true })

/-- A write to a register of slot 0x021. -/
def State.sweepWrite (s : State) (q : Req) (off : Nat) (v : Word) : State × BusRes :=
  if off = 0x1200 then
    let s1 := if bit v 0 then s.sweepStart q else s
    (if bit v 1 then s1.sweepAbort else s1, .ok 0)
  else s.sweepProgram q off v

/-- The area and first byte of step k. -/
def State.sweepLocate (s : State) (k : Nat) : List Nat → Option (SweepArea × Nat)
  | [] => none
  | j :: r =>
    let a := s.sweepArea j
    let n := s.areaSteps a
    if k < n then some (a, a.lo + k * s.stepBytes) else s.sweepLocate (k - n) r

/-- Whether the engine clears the tag of the word at an address of an area (R87). -/
def State.sweepClears (s : State) (a : SweepArea) (pa : Nat) : Bool :=
  (match s.granule pa with
   | some g => s.mem.colourOf g == 0
   | none => false) || s.condemned a.hcm (s.capAt pa)

/-- The engine's work on the line at an address: the tags cleared, COUNT raised (R87, R89). -/
def State.sweepLine (s : State) (a : SweepArea) (pa : Nat) : State :=
  let gone := ((List.range 8).map (fun i => pa + 8 * i)).filter (fun p => s.mem.tagAt p && s.sweepClears a p)
  let s1 := gone.foldl (fun s p => { s with mem := s.mem.setTag p false }) s
  s1.modReg 0x021 0x1214 (· + BitVec.ofNat 32 gone.length)

/-- Lines of a step in address order; the first line that the engine's master-side unit refuses (R108, R112), or that holds an
uncorrectable error (R60), ends the sweep with REASON 3 or 4. -/
def State.sweepLines (s : State) (a : SweepArea) : Nat → Nat → State × Nat
  | 0, _ => (s, 0)
  | n + 1, pa =>
    if a.hi < pa then (s, 0)
    else if !s.masterAllows 1 pa 64 false then (s, 3)
    else if s.isDamaged pa 64 then (s.memError pa true, 4)
    else
      let s1 := s.sweepLine a pa
      if s1.reg 0x021 0x1214 != s.reg 0x021 0x1214 && !s.masterAllows 1 pa 64 true then (s, 3) else s1.sweepLines a n (pa + 64)

/-- The end of a step (R93): its lines are done, K rises, and the pause begins; a pending ABORT ends the sweep. -/
def State.sweepStepEnd (s : State) : State :=
  let k := (s.reg 0x021 0x120C).toNat
  if s.sweepState != 1 || s.sweep.pause.isSome then s
  else
    match s.sweepLocate k (List.range 16) with
    | none => s
    | some (a, lo) =>
      match s.sweepLines a (s.stepBytes / 64) lo with
      | (s1, 0) =>
        let s2 := s1.setReg 0x021 0x120C (BitVec.ofNat 32 (k + 1))
        let p := fld (s.reg 0x021 0x1204) 31 16
        if s.sweep.abort then s2.sweepEnd 3 1
        else s2.modSweep (fun e => { e with pause := if p = 0 then none else some (s.now + p) })
      | (s1, reason) => s1.sweepEnd 3 reason

/-- The pause between steps is over (R93). -/
def State.sweepPauseOver (s : State) : State :=
  match s.sweep.pause with
  | some e => if e ≤ s.now then s.modSweep (fun y => { y with pause := none }) else s
  | none => s

/-- The fill engine tests the next slot (R91): a context that is in no bank is filtered against its own CMR. -/
def State.fillTest (s : State) : State :=
  let n := s.sweep.slot
  if s.sweepState != 1 || decide (4096 ≤ n) then s
  else
    let c : CtxId := BitVec.ofNat 12 n
    let s1 := s.modSweep (fun e => { e with slot := n + 1 })
    match s.dir c with
    | .resident _ _ => s1
    | .running _ _ => s1
    | _ => s1.modCtx c (fun x => x.mapCaps (s.sweepCap x.cmr))

/-- DONE once every step and the walk of the context store have finished (R94); the ranges swept are no longer enabled (R88). -/
def State.sweepDone (s : State) : State :=
  if s.sweepState == 1 && s.sweep.pause.isNone && s.reg 0x021 0x120C == s.reg 0x021 0x1210 && decide (4096 ≤ s.sweep.slot) then
    ((List.range 4).foldl (fun s k => s.modReg 0x021 (0x100C + 16 * k) (fun v => setBit v 31 false)) s).sweepEnd 2 0
  else s

/-- SWEEP_STEP_END (R93). -/
def execSweepStepEnd (s : State) : Host.Outcome State Fault Refusal := .next s.sweepStepEnd
/-- SWEEP_PAUSE_EXPIRY (R93). -/
def execSweepPauseExpiry (s : State) : Host.Outcome State Fault Refusal := .next s.sweepPauseOver
/-- FILL_ENGINE_SLOT_TEST (R91). -/
def execFillEngineSlotTest (s : State) : Host.Outcome State Fault Refusal := .next s.fillTest
/-- SWEEP_DONE (R94). -/
def execSweepDone (s : State) : Host.Outcome State Fault Refusal := .next s.sweepDone

end Sys2Proof.Machine
end

