-- ==== Sys2Proof/Machine/Dict.lean ====
section
/-!
DEFINITION. Machine/Dict.lean: requests to the object dictionary (R337–R362), the mailboxes, write queues and forwarded requests
(R353–R357), commands and the step engine (R363–R374).
-/
namespace Sys2Proof.Machine

/-- The role of a request's session (R340); none where the session has ended. -/
def State.srcRole (s : State) : DSrc → Option Nat
  | .mailbox .trade _ => some 5
  | .mailbox .opn _ => some 4
  | .ferry n _ => (s.dict.session n).map (·.role)

/-- The end of a session's expert unlock, if it is set (R342). -/
def State.srcUnlock (s : State) : DSrc → Option Nat
  | .mailbox w _ => vget s.dict.unlock w.idx none
  | .ferry n _ => (s.dict.session n).bind (·.unlock)
/-- Whether a session's expert unlock is set. -/
def State.unlocked (s : State) (q : DSrc) : Bool := (s.srcUnlock q).any (fun e => decide (s.now < e))
/-- A session's expert unlock changed. -/
def State.setUnlock (s : State) (q : DSrc) (e : Option Nat) : State :=
  match q with
  | .mailbox w _ => s.modDict (fun d => { d with unlock := vset d.unlock w.idx e })
  | .ferry n _ => s.modSess n (fun y => { y with unlock := e })

/-- Whether two requests come from one session. -/
def DSrc.same : DSrc → DSrc → Bool
  | .mailbox a _, .mailbox b _ => a == b
  | .ferry a _, .ferry b _ => a == b
  | _, _ => false

/-- Whether a role may read an entry (R339). -/
def roleReads (role rr : Nat) : Bool := if role = 5 then rr == 1 || rr == 5 else decide (1 ≤ rr) && decide (rr ≤ 4) && decide (rr ≤ role)
/-- Whether a role may write an entry (R339). -/
def roleWrites (role wr : Nat) : Bool := if role = 5 then wr == 5 else decide (1 ≤ wr) && decide (wr ≤ 4) && decide (wr ≤ role)

/-- Whether a write of an entry is locked by the running command (R368, Table 11-17). -/
def Dict.locks (d : Dict) (e : DictDesc) : Bool :=
  d.started &&
  match d.queue.head? with
  | some 0 => e.access == 5
  | some 1 => (e.access == 1 || e.access == 5) && decide (0x1000 ≤ e.index) && decide (e.index < 0x4000)
  | some 5 => decide (0xF100 ≤ e.index) && decide (e.index < 0xF200)
  | _ => false

/-- The identity values that kindling publishes (R530). -/
def kindlingKey (key : Nat) : Bool := key == 0x01000A || key == 0x01000B || key == 0x01000C || key == 0x01000D

/-- Whether a request may set a value of R530: the Trade local session while VECLOCK = 0. -/
def State.kindlingMay (s : State) (q : DSrc) : Bool :=
  !bit (s.reg 0x00D 0x1118) 0 &&
  match q with
  | .mailbox .trade _ => true
  | _ => false

/-- Steps 2 to 7 of Table 11-2 for a read or write: the status of the first that fails, or 0. CHAR_SWEEP is written with the Service
role or with Trade Authority (Table 11-17). -/
def State.checkReq (s : State) (r : DReq) (e : DictDesc) (role : Nat) : Nat :=
  if r.op = 1 then
    if !roleReads role e.rrole then 2 else if e.access = 2 then 3 else 0
  else
    let sweep := e.index == 0x9014 && (e.sub == 1 || e.sub == 7) && role == 5
    let free := kindlingKey e.key && s.kindlingMay r.src
    if !free && !sweep && !roleWrites role e.wrole then 2
    else if !free && e.access = 0 then 3
    else if e.expert && e.key != 0x01F001 && !s.unlocked r.src then 4
    else if !e.typeOk r.value then 5
    else if !e.rangeOk r.value then 6
    else if s.dict.locks e then 7
    else 0

/-- What a write leaves in an entry that holds old (Table 0-4). -/
def DictDesc.written (e : DictDesc) (old v : List Byte) : List Byte :=
  if e.access = 3 then List.zipWith (fun a b => a &&& ~~~ b) old v
  else if e.access = 4 then List.zipWith (fun a b => a ||| b) old v
  else v

/-- A session ends (R390, R391): its transfers, subscriptions and unlock go with it; requests it has waiting are dropped. -/
def State.sessionEnd (s : State) (n : Nat) : State :=
  s.modDict (fun d =>
    { d with
      sess := d.sess.filter (fun y => y.num != n)
      waiting := d.waiting.filter (fun r => match r.src with
        | .ferry m _ => m != n
        | _ => true) })

/-- A long command started (R365, R374): its status. role is the starting session's. -/
def State.cmdStart (s : State) (i role : Nat) : State × Nat :=
  let c := s.dict.cmd i
  let w := c.arg.getD 0 0
  if i = 6 then (s.modDict (fun d => { d with devReset := some (d.devReset.getD s.now) }), 0)
  else if i = 4 ∧ (1 < w.toNat ∨ c.arg = []) then (s, 6)
  else if i = 4 ∧ ((w = 1) ≠ (role = 5)) then (s, 2)
  else if c.st = 1 then (s, 8)
  else if 8 ≤ s.dict.queue.length then (s, 9)
  else
    let s1 := s.modDict (fun d => { d with queue := d.queue ++ [i] })
    (s1.putCmd i { c with st := 1, k := 0, n := 0, reason := 0, result := [] }, 0)

/-- An abort (R367, R374): a waiting command leaves the queue; the running one fails when its step ends, at once where no step is in
progress; a sweep in progress takes ABORT. -/
def State.cmdAbort (s : State) (i : Nat) : State :=
  if (s.dict.cmd i).st != 1 then s
  else if s.dict.queue.head? != some i then s.cmdEnd i 3 0x8001
  else if s.dict.follow then s.sweepAbort
  else
    match s.dict.grant with
    | some g => s.modDict (fun d => { d with grant := some { g with abort := true } })
    | none => s.cmdEnd i 3 0x8001

/-- An acknowledge (R366). -/
def State.cmdAck (s : State) (i : Nat) : State :=
  let c := s.dict.cmd i
  if c.st = 2 ∨ c.st = 3 then s.putCmd i { c with st := 0 } else s

/-- A write to the control subindex of command i. -/
def State.cmdControl (s : State) (i v role : Nat) : State × Nat :=
  match v with
  | 1 => s.cmdStart i role
  | 2 => (s.cmdAbort i, 0)
  | _ => (s.cmdAck i, 0)

/-- Every entry of isle i removed from the catalogue (R362, Table 11-15). -/
def State.isleRemove (s : State) (i : Nat) : State :=
  s.modDict (fun d =>
    { d with cat := d.cat.filter (fun e => isleOf e.index != some i)
             vals := d.vals.filter (fun p => isleOf (p.1 / 256) != some i) })

/-- A clear permit opened for 1 s (R425, R471): ports 0–15, lanes as 16 + p. -/
def State.openPermit (s : State) (k : Nat) : State :=
  { s with dev := { s.dev with permits := (k, s.now + 1000000) :: s.dev.permits.filter (fun p => p.1 != k) } }

/-- The permits that an accepted write of an entry opens (R425, R471). -/
def State.permitWrite (s : State) (key : Nat) (v : List Byte) : State :=
  let n := ofBytes v
  if key = 0x110301 ∧ n < 16 then s.openPermit n
  else if 0x300006 ≤ key ∧ key < 0x400000 ∧ (key - 0x300006) % 0x10000 = 0 ∧ n = 1 then s.openPermit (16 + (key - 0x300006) / 0x10000)
  else s

/-- The effect of a write to a built-in entry and its status (R342, R359, R362, R363, R379, R390). -/
def State.builtinWrite (s : State) (r : DReq) (e : DictDesc) (role : Nat) : State × Nat :=
  let n := ofBytes r.value
  match cmdOf e.index with
  | some i =>
    if e.sub = 1 then s.cmdControl i n role
    else (s.modDict (fun d => d.setCmd i { d.cmd i with arg := r.value }), 0)
  | none =>
    if e.key = 0x01F001 then (s.setUnlock r.src (if n = 0x45585054 then some (s.now + 600000000) else none), 0)
    else if e.key = 0x012003 then (if n = 1 then { s with errRows := [], errCount := 0 } else s, 0)
    else if e.key = 0x240001 then (s.isleRemove n, 0)
    else if e.key = 0x023003 then (s, 0)
    else
      let v := e.written (s.dict.val e) r.value
      ((s.modDict (·.setVal e.key v)).publish e.key v, 0)

/-- What follows the answer of a write to a built-in entry that held old (R379, R390). -/
def State.afterWrite (s : State) (e : DictDesc) (old v : List Byte) : State :=
  if e.key = 0x020001 ∧ old ≠ v then s.dict.sess.foldl (fun s y => s.sessionEnd y.num) s
  else if e.key = 0x023003 then s.sessionEnd (ofBytes v)
  else s

/-- A request record (Table 11-8). -/
def reqRecord (key op role status tag len voff session : Nat) (v : List Byte) : List Byte :=
  toBytes 2 (key / 256) ++ toBytes 1 (key % 256) ++ toBytes 1 op ++ toBytes 1 role ++ toBytes 1 status ++ toBytes 2 tag ++ toBytes 2 len
    ++ toBytes 2 voff ++ toBytes 4 session ++ (v ++ List.replicate (48 - v.length) 0).take 48

/-- The SESSION field of a request. -/
def DSrc.sessionWord : DSrc → Nat
  | .mailbox _ _ => 0x80000000
  | .ferry n _ => n

/-- The world an owner code names (R349, R360). -/
def ownerWorld (o : Nat) : World := if o = 1 then .trade else .opn

/-- A write to a registered ember-served entry (R353–R355): value store, write queue, event, NOTIFY; QUEUE_FULL where the queue has no
room for a further entry. -/
def State.queueWrite (s : State) (r : DReq) (e : DictDesc) (role : Nat) : State × Nat :=
  let w := ownerWorld e.owner
  let q := vget s.dict.wq w.idx []
  let h := vget s.dict.wqHead w.idx 0
  let pos := (q.findIdx? (· == e.key)).getD q.length
  if 64 ≤ pos then (s, 9)
  else
    let v := e.written (s.dict.val e) r.value
    let a := mailboxOf w + 0x3000 + 64 * ((h + pos) % 64)
    let s1 := s.modDict (fun d =>
      { d.setVal e.key v with wq := vset d.wq w.idx (if pos = q.length then q ++ [e.key] else q) })
    let s2 := s1.emberWrite a (reqRecord e.key 0x12 role 0 r.tag v.length 0 r.src.sessionWord v)
    ((s2.publish e.key v).notifyWorld 0x028 w, 0)

/-- An RWS write noted for the auto-store delay (R512). -/
def State.noteRws (s : State) (e : DictDesc) : State := if e.access = 5 then s.modDict (fun d => { d with rws := some s.now }) else s

/-- Whether a world's value area is in use by a forwarded request (R357). -/
def Dict.areaBusy (d : Dict) (w : World) : Bool := d.fwds.any (fun f => f.world == w && f.area)

/-- The lowest free forward slot of a world. -/
def Dict.fwdSlot (d : Dict) (w : World) : Option Nat :=
  (List.range 32).find? (fun j => !d.fwds.any (fun f => f.world == w && f.slot == j))

/-- A request placed in a forward slot of its owner's mailbox (R356, R357); none where it waits for the value area. -/
def State.forward (s : State) (r : DReq) (e : DictDesc) (role : Nat) : Option (State × Nat) :=
  let w := ownerWorld e.owner
  let area := if r.op = 2 then decide (48 < r.value.length) else decide (48 < e.maxlen)
  match s.dict.fwdSlot w with
  | none => some (s, 9)
  | some j =>
    if area && s.dict.areaBusy w then none
    else
      let m := mailboxOf w
      let voff := if r.op = 2 ∧ area = true then 0x1000 else 0
      let s1 := if voff ≠ 0 then s.emberWrite (m + 0x1000) r.value else s
      let rec0 := reqRecord e.key (if r.op = 2 then 0x11 else 0x10) role 0xFF r.tag r.value.length voff r.src.sessionWord
        (if voff = 0 then r.value else [])
      let s2 := s1.emberWrite (m + 0x800 + 64 * j) rec0
      let start := match s2.notifyTile w with
        | none => some s.now
        | some t => if (s2.tile t).sys.powered then some s.now else none
      let f : Fwd := { slot := j, world := w, req := r, area := area, num := s2.seq, start := start }
      some (({ s2.modDict (fun d => { d with fwds := d.fwds ++ [f] }) with seq := s2.seq + 1 }).notifyWorld 0x028 w, 0)

/-- An answer, unless it is a local one whose value needs a value area in use: then it waits. -/
def State.tryAnswer (s : State) (r : DReq) (status : Nat) (v : List Byte) : Option State :=
  match r.src with
  | .mailbox w _ => if decide (48 < v.length) && s.dict.areaBusy w then none else some (s.answer r status v)
  | _ => some (s.answer r status v)

/-- What an accepted write brings with it: the unlock renewed by an Expert entry (R342), the permits of R425 and R471. -/
def State.accepted (s : State) (r : DReq) (e : DictDesc) : State :=
  (if e.expert && e.key != 0x01F001 then s.setUnlock r.src (some (s.now + 600000000)) else s).permitWrite e.key r.value

/-- A read or a write by a session of a role (R343). -/
def State.readWrite (s : State) (r : DReq) (role : Nat) : Option State :=
  match s.dict.entry r.key with
  | none => s.tryAnswer r 1 []
  | some e =>
    match s.checkReq r e role with
    | 0 =>
      if s.dict.fwds.any (fun f => f.req.op == 2 && f.req.key == r.key) then none
      else if r.op = 1 then
        if e.ember then s.tryAnswer r 0 (s.dictVal (s.unlocked r.src) e) else (s.forward r e role).bind (fun p =>
          if p.2 = 0 then some p.1 else some (s.answer r p.2 []))
      else
        if e.ember then
          let p := if e.owner = 0 then s.builtinWrite r e role else s.queueWrite r e role
          let s1 := (if p.2 = 0 then (p.1.accepted r e).noteRws e else p.1).answer r p.2 []
          some (if e.owner = 0 then s1.afterWrite e (s.dict.val e) r.value else s1)
        else (s.forward r e role).bind (fun p => some (if p.2 = 0 then p.1.accepted r e else p.1.answer r p.2 []))
    | st => s.tryAnswer r st []

/-- A descriptor as its 64 bytes (Table 11-6). -/
def DictDesc.bytes (e : DictDesc) : List Byte :=
  toBytes 2 e.index ++ toBytes 1 e.sub ++ toBytes 1 e.type ++ toBytes 1 e.access ++ toBytes 1 (e.rrole + 16 * e.wrole)
    ++ toBytes 1 (b2n e.expert + 2 * b2n e.ember) ++ toBytes 1 e.owner ++ toBytes 2 e.maxlen ++ List.replicate 6 0
    ++ toBytes 8 e.min ++ toBytes 8 e.max ++ toBytes 8 e.dflt ++ (e.name ++ List.replicate (24 - e.name.length) 0).take 24

/-- The descriptor in 64 bytes (Table 11-6). -/
def DictDesc.ofBytes (b : List Byte) : DictDesc :=
  let g (o n : Nat) : Nat := Sys2Proof.Machine.ofBytes ((b.drop o).take n)
  { index := g 0 2, sub := g 2 1, type := g 3 1, access := g 4 1, rrole := g 5 1 % 16, wrole := g 5 1 / 16
    expert := g 6 1 % 2 == 1, ember := g 6 1 / 2 % 2 == 1, owner := g 7 1, maxlen := g 8 2
    min := g 0x10 8, max := g 0x18 8, dflt := g 0x20 8, name := (b.drop 0x28).take 24 }

/-- The ranges of Table 11-4 that a world may register in: every range but the engine's own (0x0100–0x02FF, 0x9000–0x9FFF); the isle
range belongs to isles. -/
def registerRange (index : Nat) : Bool :=
  let h := index / 256
  (decide (0x11 ≤ h) && decide (h ≤ 0x17)) || (decide (0x21 ≤ h) && decide (h ≤ 0x27)) || (decide (0x30 ≤ h) && decide (h ≤ 0x8F))
    || decide (0xF0 ≤ h)

/-- Whether a descriptor is accepted (R336, R341, R349, R350, R360). A descriptor of an entry that exists already is refused too
(DESIGN CHOICE, log 48). -/
def State.registerOk (s : State) (w : World) (b : List Byte) : Bool :=
  let e := DictDesc.ofBytes b
  let reserved := ((b.drop 0x0A).take 6).all (· == 0) && decide ((b.getD 6 0).toNat < 4)
  let codes := decide (1 ≤ e.type) && decide (e.type ≤ 10) && decide (e.access ≤ 5) && decide (e.rrole ≤ 5) && decide (e.wrole ≤ 5)
  let writes := e.access != 0
  let r341 := !(e.expert && e.wrole == 5) && (!e.expert || (if writes then e.wrole == 4 else e.wrole == 0))
  let owner := if w == .trade then e.owner == 1 else e.owner == 2 || e.owner == 3
  let isle := match isleOf e.index with
    | some _ => e.owner == 3 && e.index % 64 != 0
    | none => e.owner != 3
  reserved && codes && decide (e.maxlen ≤ 8192) && r341 && owner && isle && registerRange e.index
    && (!e.ember || decide (e.maxlen ≤ 48)) && (s.dict.entry e.key).isNone

/-- REGISTER by a world (R349, R350): the status. -/
def State.register (s : State) (w : World) (b : List Byte) : State × Nat :=
  if b.length ≠ 64 then (s, 5)
  else if 1024 ≤ s.dict.cat.length then (s, 12)
  else if !s.registerOk w b then (s, 6)
  else (s.modDict (fun d => { d with cat := d.cat ++ [DictDesc.ofBytes b] }), 0)

/-- UNREGISTER by a world (R349): only an entry it owns. -/
def State.unregister (s : State) (w : World) (key : Nat) : State × Nat :=
  match s.dict.cat.find? (fun e => e.key == key) with
  | none => (s, 1)
  | some e =>
    if ownerWorld e.owner != w then (s, 2)
    else (s.modDict (fun d => { d with cat := d.cat.filter (fun e => e.key != key), vals := Sparse.erase key d.vals }), 0)

/-- Whether a world keeps the value of an entry through UPDATE (R352): an entry it owns; of the built-in ones the Trade anchors, the
isle headers' names and versions, the isle count, a command's result, and the identity values of R530. -/
def State.mayUpdate (s : State) (w : World) (e : DictDesc) : Bool :=
  if e.owner ≠ 0 then ownerWorld e.owner == w
  else if kindlingKey e.key then s.kindlingMay (.mailbox w 0)
  else if e.key = 0x022002 then w == .trade
  else if e.key = 0x140001 then w == .opn
  else if (isleOf e.index).isSome then w == .opn && (e.sub == 2 || e.sub == 3 || e.sub == 4)
  else
    match cmdOf e.index with
    | some i => e.sub == 8 && s.dict.cmdWorld i == w
    | none => false

/-- UPDATE by a world (R352): the status. -/
def State.update (s : State) (w : World) (key : Nat) (v : List Byte) : State × Nat :=
  match s.dict.entry key with
  | none => (s, 1)
  | some e =>
    if !s.mayUpdate w e then (s, 2)
    else if !e.ember then (s, 3)
    else if !e.typeOk v then (s, 5)
    else if !e.rangeOk v then (s, 6)
    else
      match cmdOf e.index with
      | some i => (s.modDict (fun d => d.setCmd i { d.cmd i with result := v }), 0)
      | none => ((s.modDict (·.setVal key v)).publish key v, 0)

/-- A Ferry COMMAND (R400): the argument to X:07, then the control to X:01, as one request, which changes
nothing where either is refused (R343). A session that asked for notices gets them
from this request on. -/
def State.commandReq (s : State) (r : DReq) (role : Nat) : State × Nat :=
  let x := r.key / 256
  match cmdOf x, cmdEntry x 7, cmdEntry x 1 with
  | some i, some e7, some e1 =>
    let r7 : DReq := { r with op := 2, key := e7.key }
    let r1 : DReq := { r with op := 2, key := e1.key, value := toBytes 1 (r.key % 256) }
    let st7 := if r.value = [] then 0 else s.checkReq r7 e7 role
    if st7 ≠ 0 then (s, st7)
    else
      let s1 := if r.value = [] then s else (s.builtinWrite r7 e7 role).1
      let st1 := s1.checkReq r1 e1 role
      if st1 ≠ 0 then (s, st1)
      else
        let noted : State := match r.src with
          | .ferry n (.command true) => s1.modSess n (fun y => { y with notes := (i, 0) :: y.notes.filter (fun f => f.1 != i) })
          | _ => s1
        let p := noted.builtinWrite r1 e1 role
        if p.2 = 0 then p else (s, p.2)
  | _, _, _ => (s, 0)

/-- One request (R338, R343, R349–R352); none where it must wait for an earlier one or for a value area. -/
def State.dictReq (s : State) (r : DReq) : Option State :=
  match s.srcRole r.src with
  | none => some s
  | some role =>
    let w : World := match r.src with
      | .mailbox w _ => w
      | _ => .opn
    let fin (p : State × Nat) : Option State := some (p.1.answer r p.2 [])
    match r.op with
    | 1 => s.readWrite r role
    | 2 => s.readWrite r role
    | 3 =>
      match s.dict.entry r.key with
      | none => s.tryAnswer r 1 []
      | some e => s.tryAnswer r 0 e.bytes
    | 4 => fin (s.update w r.key r.value)
    | 5 => fin (s.register w r.value)
    | 6 => fin (s.unregister w r.key)
    | 0x15 => fin (s.commandReq r role)
    | 0x13 => s.readWrite { r with op := 2, key := r.key / 256 * 256 + 1, value := [1] } role
    | 0x14 => s.readWrite { r with op := 2, key := r.key / 256 * 256 + 1, value := [2] } role
    | _ => fin (s, 5)

/-- A request taken in the order of its session (R338): behind a waiting request of its session, or a waiting write of its entry, it
waits too. -/
def State.submit (s : State) (r : DReq) : State :=
  let wait : State := s.modDict (fun d => { d with waiting := d.waiting ++ [r] })
  if s.dict.waiting.any (fun x => x.src.same r.src || (x.op == 2 && x.key == r.key)) then wait
  else (s.dictReq r).getD wait

/-- The waiting requests tried again, in their order. -/
def State.resubmit (s : State) : State :=
  s.dict.waiting.foldl (fun s r => s.submit r) (s.modDict (fun d => { d with waiting := [] }))

/-- A local request taken from a slot of a world's mailbox (Table 11-7): STATUS reads 0xFF until it is answered. A record that holds an
uncorrectable error is answered DEVICE_ERROR. -/
def State.localRequest (s : State) (w : World) (slot : Nat) : State :=
  let a := mailboxOf w + 64 * slot
  let m := s.mem
  let op := m.val (a + 3) 1
  let len := m.val (a + 8) 2
  let voff := m.val (a + 10) 2
  let v := if voff = 0 then m.read (a + 16) (min len 48) else m.read (mailboxOf w + voff) (min len 8192)
  let r : DReq := { src := .mailbox w slot, op := op, key := m.val a 2 * 256 + m.val (a + 2) 1, value := v, tag := m.val (a + 6) 2 }
  let s1 := s.emberWrite (a + 5) [0xFF]
  if s.isDamaged a 64 then s1.localAnswer w slot 0x0D []
  else if 48 < len ∧ voff = 0 then s1.localAnswer w slot 5 []
  else s1.submit r

/-- The operation that the record in a local slot asks for. -/
def State.localOp (s : State) (w : World) (slot : Nat) : Nat := s.mem.val (mailboxOf w + 64 * slot + 3) 1
/-- The entry that the record in a local slot names. -/
def State.localKey (s : State) (w : World) (slot : Nat) : Nat :=
  let a := mailboxOf w + 64 * slot
  s.mem.val a 2 * 256 + s.mem.val (a + 2) 1

/-- The lane policy that an answered write of a port's Expert entry P+3:03 to P+3:05 gives its link (R424). -/
def State.lanePolicy (s : State) (key : Nat) (v : List Byte) : State :=
  let p := (key / 256 - 0x3003) / 0x100
  if 0x3000 ≤ key / 256 ∧ key / 256 < 0x4000 ∧ key / 256 % 0x100 = 3 then
    let l := s.lanes.getD p Lane.reset
    let n (i : Nat) : Nat := ofBytes ((v.drop (4 + 4 * i)).take 4)
    let l1 : Lane := match key % 256 with
      | 3 => { l with retry := [n 0, n 1, n 2, n 3] }
      | 4 => { l with thresh := ofBytes v }
      | 5 => { l with window := ofBytes v }
      | _ => l
    { s with lanes := s.lanes.setIfInBounds p l1 }
  else s

/-- FWD_DONE (R356): the owner's status and value are sent on; a slot that holds no request, or whose STATUS is still pending, is
ignored. -/
def State.fwdDone (s : State) (w : World) (j : Nat) : State :=
  match s.dict.fwds.find? (fun f => f.world == w && f.slot == j) with
  | none => s
  | some f =>
    let a := mailboxOf w + 0x800 + 64 * j
    let st := if s.isDamaged a 64 then 0x0D else s.mem.val (a + 5) 1
    let len := s.mem.val (a + 8) 2
    let voff := s.mem.val (a + 10) 2
    let v := if f.req.op = 2 ∨ st ≠ 0 then []
      else if voff = 0 then s.mem.read (a + 16) (min len 48) else s.mem.read (mailboxOf w + voff) (min len 8192)
    if st = 0xFF then s
    else
      let s1 := s.modDict (fun d => { d with fwds := d.fwds.filter (fun g => !(g.world == w && g.slot == j)) })
      let s2 := if f.req.op = 2 ∧ st = 0 then
          (match s1.dict.entry f.req.key with
            | some e => s1.noteRws e
            | none => s1).lanePolicy f.req.key f.req.value
        else s1
      (s2.answer f.req st v).resubmit

/-- The owner timeout of a forwarded request (R356): it is answered TIMEOUT and recorded (R359). The timeout counts from the moment the
notified tile is powered. -/
def State.ownerTimeout (s : State) (w : World) (j : Nat) : State :=
  match s.dict.fwds.find? (fun f => f.world == w && f.slot == j) with
  | none => s
  | some f =>
    match f.start with
    | none => s
    | some t0 =>
      if s.now < t0 + s.dict.num 0x016004 * 1000 then s
      else
        let s1 := s.modDict (fun d => { d with fwds := d.fwds.filter (fun g => !(g.world == w && g.slot == j)) })
        let info := BitVec.ofNat 32 (f.req.key / 256 + 0x10000 * (f.req.key % 256))
        ((s1.errRow 4 0 w 0 info).answer f.req 0x0A []).resubmit

/-- Owner timeouts begin for requests whose notified tile is powered (R356). -/
def State.fwdStarts (s : State) : State :=
  s.modDict (fun d => { d with fwds := d.fwds.map (fun f =>
    match f.start, s.notifyTile f.world with
    | none, some t => if (s.tile t).sys.powered then { f with start := some s.now } else f
    | none, none => { f with start := some s.now }
    | _, _ => f) })

/-- WQ_ACK (R354): the oldest record of a world's write queue is retired. -/
def State.wqAck (s : State) (w : World) : State :=
  s.modDict (fun d =>
    match vget d.wq w.idx [] with
    | [] => d
    | _ :: r => { d with wq := vset d.wq w.idx r, wqHead := vset d.wqHead w.idx ((vget d.wqHead w.idx 0 + 1) % 64) })

/-- The expert unlock of a local session whose 600 s have passed ends (R342). -/
def unlockExpire (now : Nat) (e : Option Nat) : Option Nat := if e.any (fun t => decide (t ≤ now)) then none else e

/-- Every expert unlock whose time has passed ends (R342). -/
def State.unlocksExpire (s : State) : State :=
  s.modDict (fun d =>
    { d with unlock := d.unlock.map (unlockExpire s.now), sess := d.sess.map (fun y => { y with unlock := unlockExpire s.now y.unlock }) })

/-- Whether any deadline the engine holds has passed (R348). -/
def State.deadlinePassed (s : State) : Bool :=
  let d := s.dict
  let due (t : Nat) : Bool := decide (t ≤ s.now)
  let idle := d.num 0x020004 * 1000000
  (vget d.unlock 0 none).any due || (vget d.unlock 1 none).any due
    || d.fwds.any (fun f => f.start.any (fun t => due (t + d.num 0x016004 * 1000)))
    || d.grant.any (fun g => due (g.since + 10000))
    || d.hello.any (fun h => due h.due)
    || (List.range 4).any (fun j => (vget d.hs j none).any (fun h => h.reply.isSome && due h.deadline))
    || d.sess.any (fun y => due (y.last + idle) || y.unlock.any due || y.xfers.any (fun x => due (x.last + 2000000))
        || y.subs.any (fun b => (b.waiting && b.last.any (fun l => due (l + b.minint * 1000)))
            || (b.periodic && b.last.any (fun l => due (l + b.period * 1000)))))

/-- The scan of the ember sequencer (R348): with the engine's clock stopped and a deadline passed, the clock starts, from the recovered
clock where a backbone PHY has one. -/
def State.deadlineScan (s : State) (recovered : Bool) : State :=
  if s.dict.clk == .stopped && s.deadlinePassed then s.modDict (fun d => { d with clk := if recovered then .recovered else .rc }) else s

/-- The engine's clock starts from the recovered backbone clock on frame energy (R347). -/
def State.engineStart (s : State) : State :=
  if s.dict.clk == .stopped || s.dict.clk == .rc then s.modDict (fun d => { d with clk := .recovered }) else s

/-- The step engine grants a step to the running command's owner (R369, R371): no step in progress, 2 µs after the last STEPDONE, and
nothing forwarded to the owner before it still unanswered. -/
def State.stepGrant (s : State) : State :=
  let d := s.dict
  match d.queue with
  | [] => s
  | i :: _ =>
    let w := d.cmdWorld i
    if d.grant.isSome || d.follow || decide (s.now < d.lastDone + 2) || d.fwds.any (fun f => f.world == w && decide (f.num < d.barrier)) then s
    else
      (s.modDict (fun d =>
        { d.count 0x015002 with grant := some { first := !d.started, abort := false, since := s.now }, started := true })).notifyWorld 0x02C w

/-- The command whose step is granted to a world, with the grant. -/
def Dict.granted (d : Dict) (w : World) : Option (Nat × Grant) :=
  match d.queue.head?, d.grant with
  | some i, some g => if d.cmdWorld i == w then some (i, g) else none
  | _, _ => none

/-- STEPN (R369). -/
def State.stepN (s : State) (w : World) (v : Word) : State :=
  match s.dict.granted w with
  | some (i, g) => if g.first then s.putCmd i { s.dict.cmd i with n := v.toNat } else s
  | none => s

/-- The length of a step counted against the slice (R370, Table 11-13). -/
def State.stepCount (s : State) (w : World) (elapsed : Nat) : State :=
  let s1 := s.modDict (fun d =>
    let d1 := if d.num 0x015004 < min elapsed 65535 then d.setVal 0x015004 (toBytes 2 (min elapsed 65535)) else d
    if d.num 0x015001 < elapsed then d1.count 0x015003 else d1)
  if s.dict.num 0x015001 < elapsed then s1.setRegW w 0x02C 0x1014 (s1.regW w 0x02C 0x1014 + 1) else s1

/-- STEPDONE (R367, R369, R374). -/
def State.stepDone (s : State) (w : World) (v : Word) : State :=
  match s.dict.granted w with
  | none => s
  | some (i, g) =>
    let s1 := (s.stepCount w (s.now - g.since)).modDict (fun d => { d with grant := none, lastDone := s.now, barrier := s.seq })
    let c := s1.dict.cmd i
    if bit v 0 then s1.cmdEnd i 3 (fld v 31 16)
    else if i = 4 then
      if g.abort then (s1.modDict (fun d => { d with follow := true })).sweepAbort else s1.modDict (fun d => { d with follow := true })
    else
      let s2 := s1.putCmd i { c with k := c.k + 1 }
      if g.abort then s2.cmdEnd i 3 0x8001
      else if c.n = 0 ∨ c.k + 1 = c.n then s2.cmdEnd i 2 0
      else s2

/-- A step not ended within 10 ms of its grant fails its command (R370). -/
def State.stepLimit (s : State) : State :=
  match s.dict.queue.head?, s.dict.grant with
  | some i, some g => if g.since + 10000 ≤ s.now then s.cmdEnd i 3 0x8002 else s
  | _, _ => s

/-- CHAR_SWEEP follows the sweep engine once its supervisor has started it (R374). -/
def State.sweepFollow (s : State) : State :=
  if s.dict.follow then
    let s1 := s.putCmd 4 { s.dict.cmd 4 with k := (s.reg 0x021 0x120C).toNat, n := (s.reg 0x021 0x1210).toNat }
    match s.sweepState with
    | 2 => s1.cmdEnd 4 2 0
    | 3 => s1.cmdEnd 4 3 (fld (s.reg 0x021 0x1208) 7 2)
    | _ => s1
  else s

/-- Reads of slot 0x028 by a world (Tables 11-9, 12-6). -/
def State.dictRead (s : State) (w : World) (off : Nat) : Word :=
  let d := s.dict
  let q := vget d.wq w.idx []
  match off with
  | 0x1000 => BitVec.ofNat 32 (2 ^ 31 + (if d.clk == .recovered then 2 ^ 30 else 0) + d.cat.length)
  | 0x1004 => 0
  | 0x100C => BitVec.ofNat 32 ((d.fwds.filter (fun f => f.world == w)).map (fun f => 2 ^ f.slot)).sum
  | 0x1010 => 0
  | 0x1014 => BitVec.ofNat 32 q.length
  | 0x1018 => if q.isEmpty then 0 else BitVec.ofNat 32 (vget d.wqHead w.idx 0 * 64)
  | 0x101C => 0
  | 0x1024 => paWord (mailboxOf w)
  | 0x1100 => BitVec.ofNat 32 ((List.range 4).filter (fun j => (vget d.hs j none).any (fun h => h.world == w && h.reply.isNone))
      |>.map (fun j => 2 ^ j)).sum
  | 0x1108 => hsRead s w
  | 0x110C => 0
  | _ => s.plainRead w 0x028 off
where
  /-- HS_DATA as a world reads it: the INIT payload, its own words, zero for the keys (Table 12-6). -/
  hsRead (s : State) (w : World) : Word :=
    let sel := s.regW w 0x028 0x1104
    let i := fld sel 9 0
    match vget s.dict.hs (fld sel 11 10) none with
    | none => 0
    | some h =>
      if h.world != w then 0
      else if i < 360 then BitVec.ofNat 32 (ofBytes ((h.init.drop (4 * i)).take 4))
      else if 720 < i then 0
      else Sparse.get 0 i h.words

/-- HS_SEL advanced by an HS_DATA access where AINC (Table 12-6). -/
def State.hsAdvance (s : State) (w : World) : State :=
  let sel := s.regW w 0x028 0x1104
  if bit sel 31 then s.setRegW w 0x028 0x1104 (setFld sel 9 0 (fld sel 9 0 + 1)) else s

/-- A write of HS_DATA: words 360–732 of a slot that the world serves (Table 12-6). -/
def State.hsData (s : State) (w : World) (v : Word) : State :=
  let sel := s.regW w 0x028 0x1104
  let i := fld sel 9 0
  let j := fld sel 11 10
  let s1 := match vget s.dict.hs j none with
    | none => s
    | some h =>
      if h.world == w && h.reply.isNone && decide (360 ≤ i) && decide (i ≤ 732) then
        s.modDict (fun d => { d with hs := vset d.hs j (some { h with words := Sparse.put i v h.words }) })
      else s
  s1.hsAdvance w

/-- HS_DONE (R385, R389): the REPLY is sent and the keys kept, or the handshake is refused. -/
def State.hsDone (s : State) (w : World) (v : Word) : State :=
  let j := fld v 1 0
  match vget s.dict.hs j none with
  | none => s
  | some h =>
    if h.world != w || h.reply.isSome then s
    else if bit v 8 then
      let s1 := s.modDict (fun d => { d.count 0x024006 with hs := vset d.hs j none })
      s1.ferryError h.carrier h.peer h.node (fld v 23 16) 0x10 0
    else
      let words := (List.range 360).map (fun i => Sparse.get 0#32 (360 + i) h.words)
      let len := min (Sparse.get 0#32 720 h.words).toNat 1440
      let pay := ((words.map (fun x => toBytes 4 x.toNat)).flatten).take len
      let s1 := s.modDict (fun d => { d with hs := vset d.hs j (some { h with reply := some pay, role := fld v 31 24, deadline := s.now + 2000000 }) })
      s1.ferryPlain h.carrier h.peer h.node h.session 0x11 pay

/-- Writes of slot 0x028 by a world. -/
def State.dictWrite (s : State) (w : World) (off : Nat) (v : Word) : State :=
  match off with
  | 0x1004 => s.localRequest w (fld v 4 0)
  | 0x1010 => if 32 ≤ fld v 5 0 then s.fwdDone w (fld v 5 0 - 32) else s
  | 0x101C => s.wqAck w
  | 0x1108 => s.hsData w v
  | 0x110C => s.hsDone w v
  | _ => s.plainWrite w 0x028 off v

/-- Reads of slot 0x02C by a world (Table 11-18). -/
def State.stepRead (s : State) (w : World) (off : Nat) : Word :=
  match off with
  | 0x1000 =>
    match s.dict.granted w with
    | some (i, g) => BitVec.ofNat 32 (2 ^ 31 + b2n g.first * 2 ^ 30 + b2n g.abort * 2 ^ 29 + cmdIndices.getD i 0)
    | none => 0
  | 0x1004 => 0
  | 0x1008 => 0
  | 0x100C =>
    match s.dict.granted w with
    | some (_, g) => BitVec.ofNat 32 (min (s.now - g.since) 0xFFFFFFFF)
    | none => 0
  | _ => s.plainRead w 0x02C off

/-- Writes of slot 0x02C by a world. -/
def State.stepWrite (s : State) (w : World) (off : Nat) (v : Word) : State :=
  match off with
  | 0x1004 => s.stepN w v
  | 0x1008 => s.stepDone w v
  | _ => s.plainWrite w 0x02C off v

end Sys2Proof.Machine
end

