-- ==== Sys2Proof/Machine/Ferry.lean ====
section
/-!
DEFINITION. Machine/Ferry.lean: Ferry frames as they arrive: admission, the handshake, sessions, requests (R375–R404).
-/
namespace Sys2Proof.Machine

/-- Byte i of a frame. -/
def frameByte (b : List Byte) (i : Nat) : Nat := (b.getD i 0).toNat
/-- A field of n bytes at offset i, little-endian. -/
def frameVal (b : List Byte) (i n : Nat) : Nat := ofBytes ((b.drop i).take n)

/-- The types of Table 12-3 that travel unprotected. -/
def ferryPlainTypes : List Nat := [0x01, 0x02, 0x08, 0x10, 0x11]
/-- The types of Table 12-3 that travel protected. -/
def ferryProtTypes : List Nat :=
  [0x12, 0x13, 0x20, 0x21, 0x22, 0x23, 0x24, 0x25, 0x26, 0x27, 0x28, 0x29, 0x30, 0x31, 0x32, 0x33, 0x34, 0x40, 0x41, 0x42]
/-- The types whose payload begins with a TAG (Table 12-7). -/
def ferryTagTypes : List Nat := [0x20, 0x22, 0x24, 0x26, 0x28, 0x30, 0x32, 0x40]

/-- Whether the frame travels on a lane. -/
def laneCarrier : Carrier → Bool
  | .lane _ => true
  | _ => false

/-- Whether a frame is protected: its type is a protected one, and a tag follows its payload (R377). -/
def ferryProtected (f : FerryFrame) : Bool :=
  let n := f.bytes.length
  let m := 32 + frameVal f.bytes 12 2
  ferryProtTypes.contains (frameByte f.bytes 1) && (if laneCarrier f.carrier then decide (m ≤ n) else n == m)

/-- Whether a frame fails R377: its length, VER, a reserved header bit, or a LEN above 1,440. -/
def ferryMalformed (f : FerryFrame) : Bool :=
  let b := f.bytes
  let n := b.length
  let m := frameVal b 12 2
  let undefined := !ferryPlainTypes.contains (frameByte b 1) && !ferryProtTypes.contains (frameByte b 1)
  let size := if laneCarrier f.carrier then decide (16 + m ≤ n)
    else n == 16 + m || (n == 32 + m && (undefined || ferryProtTypes.contains (frameByte b 1)))
  decide (n < 16) || decide (1440 < m) || !size || frameByte b 0 != 1 || decide (64 ≤ frameByte b 3) || decide (64 ≤ frameByte b 5)
    || frameVal b 14 2 != 0

/-- Whether a datagram was sent to this device: its address (for a HELLO a broadcast address too), its port, no IPv4 options and no
fragment (R375). -/
def State.ferryAddressed (s : State) (f : FerryFrame) : Bool :=
  let a := f.dstAddr.toNat
  let hello := frameByte f.bytes 1 == 1
  let port := f.dstPort.toNat == s.dict.num 0x020003
  match f.carrier with
  | .lane _ => true
  | .usb p => f.plain && port && (a == 0xA9FE3A10 + p.toNat || (hello && (a == 0xFFFFFFFF || a == 0xA9FEFFFF)))
  | .backbone _ =>
    let own := s.dict.address
    let mask := if s.dict.num 0x021001 = 0 then s.dict.num 0x021003 else 0xFFFF0000
    f.plain && port && (a == own || (hello && (a == 0xFFFFFFFF || a == own ||| (0xFFFFFFFF - mask))))

/-- A frame that arrives starts a stopped engine clock (R347). -/
def State.engineWake (s : State) (c : Carrier) : State :=
  if s.dict.clk == .stopped then
    s.modDict (fun d => { d with clk := match c with
      | .backbone _ => .recovered
      | _ => .rc })
  else s

/-- The checks on every frame (R375, R377, R380, R381): the state after a drop and its count, and whether the frame goes on. -/
def State.ferryAdmit (s : State) (f : FerryFrame) : State × Bool :=
  if !s.ferryAddressed f then (s, false)
  else
    let s1 := s.engineWake f.carrier
    let dst := frameVal f.bytes 2 2
    if ferryMalformed f then (s1.modDict (·.count 0x024004), false)
    else if dst ≠ s1.dict.node ∧ ¬(frameByte f.bytes 1 = 1 ∧ dst = 0) then (s1.modDict (·.count 0x024003), false)
    else if ferryProtected f then (s1, true)
    else
      let recent := s1.dict.unprot.filter (fun t => decide (s1.now < t + 1000000))
      if 100 ≤ recent.length then (s1.modDict (fun d => { d.count 0x024005 with unprot := recent }), false)
      else (s1.modDict (fun d => { d with unprot := s1.now :: recent }), true)

/-- ERROR in answer to a frame (Table 12-7). -/
def State.ferryRefuse (s : State) (f : FerryFrame) (fstatus tag : Nat) : State :=
  s.ferryError f.carrier f.peer (frameVal f.bytes 4 2) fstatus (frameByte f.bytes 1) tag

/-- The receive window after a SEQ (R388); none where the SEQ is refused. -/
def Session.accept (y : Session) (seq : Nat) : Option (Nat × BitVec 64) :=
  if y.hi < seq then some (seq, (y.window <<< (seq - y.hi)) ||| 1)
  else if 64 ≤ y.hi - seq ∨ y.window.getLsbD (y.hi - seq) = true then none
  else some (y.hi, y.window ||| ((1 : BitVec 64) <<< (y.hi - seq)))

/-- The payload of a protected frame, opened with the initiator's key and salt (R387). -/
def ferryOpen (keys : List Byte) (b : List Byte) : Option (List Byte) :=
  let n := frameVal b 12 2
  gcmOpen (keys.take 16) (ferryNonce ((keys.drop 32).take 8) (frameVal b 8 4)) (b.take 16) ((b.drop 16).take n) ((b.drop (16 + n)).take 16)

/-- The TAG that an ERROR about an unprotected frame copies: the frame's own, or zero (Table 12-7). -/
def plainTag (f : FerryFrame) : Nat :=
  if ferryTagTypes.contains (frameByte f.bytes 1) ∧ 2 ≤ frameVal f.bytes 12 2 then frameVal f.bytes 16 2 else 0

/-- A protected frame of one type in an open session (R381, R387, R388, R402): the session and the payload where it is accepted. -/
def State.ferrySession (s : State) (f : FerryFrame) (type : Nat) : State × Option (Nat × List Byte) :=
  if frameByte f.bytes 1 ≠ type then (s, none)
  else
    let p := s.ferryAdmit f
    let s1 := p.1
    if !p.2 then (s1, none)
    else if !ferryProtected f then (s1.ferryRefuse f 2 (plainTag f), none)
    else
      match s1.dict.session (frameVal f.bytes 6 2) with
      | none => (s1.ferryRefuse f 0x0E 0, none)
      | some y =>
        match ferryOpen y.keys f.bytes with
        | none => (s1.modDict (·.count 0x024001), none)
        | some pay =>
          match y.accept (frameVal f.bytes 8 4) with
          | none => (s1.modDict (·.count 0x024002), none)
          | some w =>
            (s1.modSess y.num (fun z =>
              { z with hi := w.1, window := w.2, carrier := f.carrier, peer := f.peer, last := s1.now, frames := z.frames + 1 }),
             some (y.num, pay))

/-- A request in a session (R401): a repeated TAG gets its stored response again, a pending one is dropped; else session, TAG and
payload. -/
def State.ferryRequest (s : State) (f : FerryFrame) (type : Nat) : State × Option (Nat × Nat × List Byte) :=
  match s.ferrySession f type with
  | (s1, none) => (s1, none)
  | (s1, some (n, pay)) =>
    let tag := frameVal pay 0 2
    match s1.dict.session n with
    | none => (s1, none)
    | some y =>
      match y.answered.find? (fun e => e.1 == tag) with
      | some e => (s1.ferrySend n e.2.1 e.2.2, none)
      | none => if y.pendTags.contains tag then (s1, none) else (s1, some (n, tag, pay))

/-- A response that carries an FSTATUS other than OK, its further fields zero (R393). -/
def State.ferryStatus (s : State) (n tag type fstatus : Nat) : State :=
  let tail := if type = 0x21 then 4 else if type = 0x25 then 8 else if type = 0x29 then 2 else if type = 0x31 then 1 else 0
  s.ferryAnswer n tag type (rspHead tag 0 fstatus ++ List.replicate tail 0)

/-- A dictionary request of a session, pending until it is answered. -/
def State.ferrySubmit (s : State) (n tag : Nat) (k : RspKind) (op key : Nat) (v : List Byte) : State :=
  (s.modSess n (fun y => { y with pendTags := tag :: y.pendTags })).submit { src := .ferry n k, op := op, key := key, value := v, tag := tag }

/-- The entry that a request names. -/
def reqKey (pay : List Byte) : Nat := frameVal pay 2 2 * 256 + frameByte pay 4

/-- READ. -/
def State.ferryRead (s : State) (f : FerryFrame) : State :=
  match s.ferryRequest f 0x20 with
  | (s1, none) => s1
  | (s1, some (n, tag, pay)) =>
    if pay.length ≠ 6 ∨ frameByte pay 5 ≠ 0 then s1.ferryStatus n tag 0x21 1
    else s1.ferrySubmit n tag .read 1 (reqKey pay) []

/-- WRITE. -/
def State.ferryWrite (s : State) (f : FerryFrame) : State :=
  match s.ferryRequest f 0x22 with
  | (s1, none) => s1
  | (s1, some (n, tag, pay)) =>
    let len := frameVal pay 6 2
    if pay.length < 8 ∨ frameByte pay 5 ≠ 0 ∨ 1024 < len ∨ pay.length ≠ 8 + len then s1.ferryStatus n tag 0x23 1
    else s1.ferrySubmit n tag .write 2 (reqKey pay) (pay.drop 8)

/-- Whether a request of the engine is a segmented one of a session (all sessions where n is none). -/
def DReq.segmented (r : DReq) (n : Option Nat) : Bool :=
  match r.src with
  | .ferry m (.segRead _) => n.all (· == m)
  | _ => false

/-- The open transfers and the segmented reads still unanswered, of one session or of all. -/
def Dict.xferCount (d : Dict) (n : Option Nat) (but : Nat) : Nat :=
  ((d.sess.filter (fun y => n.all (· == y.num))).map (fun y => (y.xfers.filter (fun x => !(n == some y.num && x.id == but))).length)).sum
    + (d.fwds.filter (fun f => f.req.segmented n)).length + (d.waiting.filter (fun r => r.segmented n)).length

/-- Whether a session may open a further transfer (R397). -/
def Dict.xferRoom (d : Dict) (n but : Nat) : Bool := decide (d.xferCount (some n) but < 2) && decide (d.xferCount none but < 8)

/-- A transfer of a session changed. -/
def State.modXfer (s : State) (n x : Nat) (g : Xfer → Xfer) : State :=
  s.modSess n (fun y => { y with xfers := y.xfers.map (fun e => if e.id = x then g e else e) })
/-- A transfer of a session ended. -/
def State.endXfer (s : State) (n x : Nat) : State := s.modSess n (fun y => { y with xfers := y.xfers.filter (fun e => e.id != x) })
/-- A transfer of a session. -/
def Dict.xfer (d : Dict) (n x : Nat) : Option Xfer := (d.session n).bind (fun y => y.xfers.find? (fun e => e.id == x))

/-- SEG_READ (R396). -/
def State.ferrySegRead (s : State) (f : FerryFrame) : State :=
  match s.ferryRequest f 0x24 with
  | (s1, none) => s1
  | (s1, some (n, tag, pay)) =>
    let x := frameByte pay 5
    let j := frameByte pay 6
    if pay.length ≠ 8 ∨ x = 0 ∨ 7 < j ∨ frameByte pay 7 ≠ 0 then s1.ferryStatus n tag 0x25 1
    else if j = 0 then
      if s1.dict.xferRoom n x then s1.ferrySubmit n tag (.segRead x) 1 (reqKey pay) [] else s1.ferryStatus n tag 0x25 0x0A
    else
      match s1.dict.xfer n x with
      | none => s1.ferryStatus n tag 0x25 9
      | some e =>
        if e.write || e.key != reqKey pay || decide (e.total ≤ 1024 * j) then s1.ferryStatus n tag 0x25 9
        else
          let seg := segment e.data j
          let s2 := s1.ferryAnswer n tag 0x25
            (rspHead tag 0 0 ++ toBytes 2 e.total ++ toBytes 1 j ++ [0] ++ toBytes 2 seg.length ++ [0, 0] ++ seg)
          if e.total ≤ 1024 * (j + 1) then s2.endXfer n x else s2.modXfer n x (fun e => { e with last := s1.now })

/-- Steps 1 to 4 of Table 11-2 for a segmented write: the first failing status. -/
def State.segCheck (s : State) (n key : Nat) : Nat :=
  let src : DSrc := .ferry n .write
  match s.dict.entry key, s.srcRole src with
  | some e, some role =>
    let st := s.checkReq { src := src, op := 2, key := key, value := [], tag := 0 } e role
    if st ≤ 4 then st else 0
  | _, _ => 1

/-- A segment taken into an open segmented write (R397): the last completes it. -/
def State.segTake (s : State) (n x tag : Nat) (e : Xfer) (data : List Byte) : State :=
  let v := e.data ++ data
  if e.total < v.length then (s.ferryStatus n tag 0x27 9).endXfer n x
  else
    let s1 := s.modXfer n x (fun e => { e with data := v, next := e.next + 1, last := s.now })
    if v.length = e.total then s1.ferrySubmit n tag (.segWrite x) 2 e.key v
    else s1.ferryAnswer n tag 0x27 (rspHead tag 0 0)

/-- SEG_WRITE (R397). -/
def State.ferrySegWrite (s : State) (f : FerryFrame) : State :=
  match s.ferryRequest f 0x26 with
  | (s1, none) => s1
  | (s1, some (n, tag, pay)) =>
    let x := frameByte pay 5
    let j := frameByte pay 6
    let total := frameVal pay 8 2
    let len := frameVal pay 10 2
    if pay.length < 12 ∨ x = 0 ∨ 7 < j ∨ frameByte pay 7 ≠ 0 ∨ 8192 < total ∨ 1024 < len ∨ pay.length ≠ 12 + len then
      s1.ferryStatus n tag 0x27 1
    else
      match (s1.dict.xfer n x).filter (·.write) with
      | some e =>
        if j ≠ e.next ∨ total ≠ e.total ∨ reqKey pay ≠ e.key then (s1.ferryStatus n tag 0x27 9).endXfer n x
        else s1.segTake n x tag e (pay.drop 12)
      | none =>
        if j ≠ 0 then s1.ferryStatus n tag 0x27 9
        else if !s1.dict.xferRoom n x then s1.ferryStatus n tag 0x27 0x0A
        else
          let st := s1.segCheck n (reqKey pay)
          if st ≠ 0 then s1.ferryAnswer n tag 0x27 (rspHead tag st 0)
          else
            let e : Xfer := { id := x, write := true, key := reqKey pay, total := total, data := [], next := 0, last := s1.now }
            (s1.modSess n (fun y => { y with xfers := e :: y.xfers.filter (fun e => e.id != x) })).segTake n x tag e (pay.drop 12)

/-- COMMAND (R400). -/
def State.ferryCommand (s : State) (f : FerryFrame) : State :=
  match s.ferryRequest f 0x28 with
  | (s1, none) => s1
  | (s1, some (n, tag, pay)) =>
    let len := frameByte pay 6
    if pay.length < 8 ∨ 1 < frameByte pay 5 ∨ 32 < len ∨ frameByte pay 7 ≠ 0 ∨ pay.length ≠ 8 + len then s1.ferryStatus n tag 0x29 1
    else if (cmdOf (frameVal pay 2 2)).isNone then s1.ferryStatus n tag 0x29 0x0D
    else s1.ferrySubmit n tag (.command (frameByte pay 5 == 1)) 0x15 (reqKey pay) (pay.drop 8)

/-- The lowest SUBID that a session does not use. -/
def Session.freeSub (y : Session) : Nat := ((List.range 255).find? (fun i => !y.subs.any (fun b => b.id == i + 1))).getD 254 + 1

/-- SUBSCRIBE (R398). -/
def State.ferrySubscribe (s : State) (f : FerryFrame) : State :=
  match s.ferryRequest f 0x30 with
  | (s1, none) => s1
  | (s1, some (n, tag, pay)) =>
    let mode := frameByte pay 5
    let period := frameVal pay 6 2
    let minint := frameVal pay 8 2
    if pay.length ≠ 10 ∨ 1 < mode ∨ (mode = 1 ∧ (period < 100 ∨ 60000 < period)) ∨ 60000 < minint then s1.ferryStatus n tag 0x31 1
    else
      match s1.dict.session n, s1.dict.entry (reqKey pay) with
      | some y, some e =>
        if !e.ember then s1.ferryStatus n tag 0x31 0x0B
        else if !roleReads y.role e.rrole then s1.ferryAnswer n tag 0x31 (rspHead tag 2 0 ++ [0])
        else if 16 ≤ y.subs.length ∨ 64 ≤ (s1.dict.sess.map (fun z => z.subs.length)).sum then s1.ferryStatus n tag 0x31 0x0C
        else
          let id := y.freeSub
          let b : Subn := { id := id, key := e.key, periodic := mode == 1, period := period, minint := minint
                            last := if mode = 1 then some s1.now else none, waiting := false, gap := false }
          (s1.modSess n (fun y => { y with subs := y.subs ++ [b] })).ferryAnswer n tag 0x31 (rspHead tag 0 0 ++ toBytes 1 id)
      | _, _ => s1.ferryAnswer n tag 0x31 (rspHead tag 1 0 ++ [0])

/-- UNSUBSCRIBE (R398): a SUBID that the session does not hold is answered with FORMAT. -/
def State.ferryUnsubscribe (s : State) (f : FerryFrame) : State :=
  match s.ferryRequest f 0x32 with
  | (s1, none) => s1
  | (s1, some (n, tag, pay)) =>
    let id := frameByte pay 2
    let held := (s1.dict.session n).any (fun y => y.subs.any (fun b => b.id == id))
    if pay.length ≠ 4 ∨ frameByte pay 3 ≠ 0 ∨ held = false then s1.ferryStatus n tag 0x33 1
    else (s1.modSess n (fun y => { y with subs := y.subs.filter (fun b => b.id != id) })).ferryAnswer n tag 0x33 (rspHead tag 0 0)

/-- KEEPALIVE. -/
def State.ferryKeepalive (s : State) (f : FerryFrame) : State :=
  match s.ferryRequest f 0x40 with
  | (s1, none) => s1
  | (s1, some (n, tag, pay)) => if pay.length ≠ 2 then s1.ferryStatus n tag 0x41 1 else s1.ferryAnswer n tag 0x41 (rspHead tag 0 0)

/-- CLOSE (R390). -/
def State.ferryClose (s : State) (f : FerryFrame) : State :=
  match s.ferrySession f 0x42 with
  | (s1, none) => s1
  | (s1, some (n, _)) => s1.sessionEnd n

/-- HELLO (R394): a HELLO_ACK is due after a random delay of 0 to 50 ms. -/
def State.ferryHello (s : State) (f : FerryFrame) : State :=
  if frameByte f.bytes 1 ≠ 1 then s
  else
    let p := s.ferryAdmit f
    let s1 := p.1
    let block := frameByte f.bytes 16
    if !p.2 then s1
    else if frameVal f.bytes 12 2 ≠ 4 ∨ frameVal f.bytes 17 3 ≠ 0 then s1.ferryRefuse f 1 0
    else if s1.dict.num 0x020005 = 1 ∧ (block = 0 ∨ block = s1.dict.num 0x020001) then
      let due := s1.now + (Config.entropy s1.free).toNat % 50001
      { s1.modDict (fun d => { d with hello := d.hello ++ [{ carrier := f.carrier, peer := f.peer, node := frameVal f.bytes 4 2, due := due }] })
        with free := s1.free + 1 }
    else s1

/-- The payload of HELLO_ACK (Table 12-7). -/
def State.helloAck (s : State) : List Byte :=
  let v (key : Nat) : List Byte := ((s.dict.entry key).map (fun e => s.dictVal false e)).getD []
  (v 0x010005 ++ List.replicate 8 0).take 8 ++ v 0x010008 ++ v 0x020002 ++ v 0x020001 ++ v 0x011001 ++ v 0x022005 ++ [0, 0, 0]
    ++ sha256 (v 0x022003)

/-- The HELLO_ACKs whose delay has passed are sent (R394). -/
def State.helloExpiry (s : State) : State :=
  let due := s.dict.hello.filter (fun h => decide (h.due ≤ s.now))
  due.foldl (fun s h => s.ferryPlain h.carrier h.peer h.node 0 0x02 s.helloAck)
    (s.modDict (fun d => { d with hello := d.hello.filter (fun h => decide (s.now < h.due)) }))

/-- Whether an INIT payload has the form of Table 12-5. -/
def initForm (pay : List Byte) : Bool :=
  decide (0x98 ≤ pay.length) && decide (1 ≤ frameByte pay 0) && decide (frameByte pay 0 ≤ 5) && frameByte pay 1 == 0
    && decide (frameVal pay 2 2 ≤ 1024) && frameVal pay 0x55 3 == 0 && pay.length == 0x98 + frameVal pay 2 2

/-- A session number in use. -/
def Dict.numUsed (d : Dict) (n : Nat) : Bool :=
  d.sess.any (fun y => y.num == n) || (List.range 4).any (fun j => (vget d.hs j none).any (fun h => h.session == n))

/-- A session number that is not in use, from a free candidate on. -/
def State.newSession (s : State) : Nat :=
  let c := (Config.freeWord s.free).toNat
  ((List.range 64).map (fun i => (c + i) % 0xFFFE + 1)).find? (fun n => !s.dict.numUsed n) |>.getD 1

/-- A handshake refused: ERROR, and the count of 0x0240:06. -/
def State.hsRefuse (s : State) (f : FerryFrame) (fstatus : Nat) : State := (s.modDict (·.count 0x024006)).ferryRefuse f fstatus 0

/-- The sessions and open handshakes, all or of one node (R390). -/
def Dict.sessCount (d : Dict) (node : Option Nat) : Nat :=
  (d.sess.filter (fun y => node.all (· == y.node))).length
    + ((List.range 4).filter (fun j => (vget d.hs j none).any (fun h => node.all (· == h.node)))).length

/-- An INIT placed in a handshake slot (R385). -/
def State.hsPlace (s : State) (f : FerryFrame) (w : World) (j : Nat) (pay : List Byte) : State :=
  let h : Hs := { world := w, carrier := f.carrier, peer := f.peer, node := frameVal f.bytes 4 2, session := s.newSession
                  init := pay, words := [], reply := none, role := frameByte pay 0, comm := s.dict.noAnchors, deadline := 0 }
  let s1 := s.modDict (fun d => { d with hs := vset d.hs j (some h) })
  { s1 with free := s1.free + 1 }.notifyWorld 0x028 w

/-- INIT (R384, R385, R389, R390, R392). -/
def State.ferryInit (s : State) (f : FerryFrame) : State :=
  if frameByte f.bytes 1 ≠ 0x10 then s
  else
    let p := s.ferryAdmit f
    let s1 := p.1
    let pay := (f.bytes.drop 16).take (frameVal f.bytes 12 2)
    let node := frameVal f.bytes 4 2
    let role := frameByte pay 0
    let w : World := if role = 5 then .trade else .opn
    let ni := (pay.drop 4).take 16
    let usb := match f.carrier with
      | .usb _ => true
      | _ => false
    if !p.2 then s1
    else if !initForm pay then s1.hsRefuse f 1
    else
      match (List.range 4).find? (fun j => (vget s1.dict.hs j none).any (fun h => (h.init.drop 4).take 16 == ni && h.node == node)) with
      | some j =>
        match vget s1.dict.hs j none with
        | some h =>
          match h.reply with
          | some r => s1.ferryPlain f.carrier f.peer node h.session 0x11 r
          | none => s1
        | none => s1
      | none =>
        if 32 ≤ s1.dict.sessCount none ∨ 4 ≤ s1.dict.sessCount (some node) then s1.hsRefuse f 6
        else if s1.dict.noAnchors ∧ usb = false then s1.hsRefuse f 3
        else if s1.dict.noAnchors ∧ 3 < role then s1.hsRefuse f 5
        else if s1.worldState w ≠ 2 then s1.hsRefuse f 5
        else
          match (List.range 4).find? (fun j => (vget s1.dict.hs j none).isNone) with
          | none => s1.hsRefuse f 7
          | some j => s1.hsPlace f w j pay

/-- The 48 key bytes of a handshake slot: words 721–732 (Table 12-6). -/
def Hs.keys (h : Hs) : List Byte := ((List.range 12).map (fun i => toBytes 4 (Sparse.get 0#32 (721 + i) h.words).toNat)).flatten

/-- CONFIRM (R387, R388, Table 12-4): the tag and H are checked; the session opens and ACCEPT carries the role and the idle timeout. -/
def State.ferryConfirm (s : State) (f : FerryFrame) : State :=
  if frameByte f.bytes 1 ≠ 0x12 then s
  else
    let num := frameVal f.bytes 6 2
    match (List.range 4).find? (fun j => (vget s.dict.hs j none).any (fun h => h.session == num && h.reply.isSome)) with
    | none => (s.ferrySession f 0x12).1
    | some j =>
      let p := s.ferryAdmit f
      let s1 := p.1
      if !p.2 then s1
      else if !ferryProtected f then s1.ferryRefuse f 2 0
      else
        match vget s1.dict.hs j none with
        | none => s1
        | some h =>
          match ferryOpen h.keys f.bytes with
          | none => s1.modDict (·.count 0x024001)
          | some pay =>
            let seq := frameVal f.bytes 8 4
            if seq = 0 then s1.modDict (·.count 0x024002)
            else if pay ≠ sha256 (h.init ++ h.reply.getD []) then s1
            else
              let y : Session :=
                { num := num, role := h.role, carrier := f.carrier, peer := f.peer, node := h.node, keys := h.keys, out := 1, hi := seq, window := 1
                  unlock := none, comm := h.comm, last := s1.now, frames := 1, answered := [], pendTags := [], xfers := [], subs := []
                  evseq := 1, notes := [] }
              (s1.modDict (fun d => { d with hs := vset d.hs j none, sess := d.sess ++ [y] })).ferrySend num 0x13
                (toBytes 1 h.role ++ toBytes 2 (s1.dict.num 0x020004))

/-- A frame of an undefined type, or an unprotected frame of a protected type (R381). -/
def State.ferryBadType (s : State) (f : FerryFrame) : State :=
  let ty := frameByte f.bytes 1
  if ferryPlainTypes.contains ty || ferryProtected f then s
  else
    let p := s.ferryAdmit f
    if p.2 then p.1.ferryRefuse f 2 (plainTag f) else p.1

/-- A protected frame whose SESSION is not open (R402). -/
def State.ferryNoSession (s : State) (f : FerryFrame) : State :=
  let num := frameVal f.bytes 6 2
  let hs := frameByte f.bytes 1 == 0x12 && (List.range 4).any (fun j => (vget s.dict.hs j none).any (fun h => h.session == num && h.reply.isSome))
  if !ferryProtected f || (s.dict.session num).isSome || hs then s
  else
    let p := s.ferryAdmit f
    if p.2 then p.1.ferryRefuse f 0x0E 0 else p.1

/-- Whether the engine's clock runs, so that it acts on its deadlines (R348). -/
def State.engineOn (s : State) : Bool := s.dict.clk != .stopped

/-- A handshake held open for 2 s after its REPLY ends (R389). -/
def State.hsExpiry (s : State) (j : Nat) : State :=
  if s.engineOn && (vget s.dict.hs j none).any (fun h => h.reply.isSome && decide (h.deadline ≤ s.now)) then
    s.modDict (fun d => { d with hs := vset d.hs j none })
  else s

/-- A snapshot (write = false) or a segmented write without a segment for 2 s is discarded (R396, R397). -/
def State.xferExpiry (s : State) (write : Bool) (n x : Nat) : State :=
  match s.dict.xfer n x with
  | none => s
  | some e => if s.engineOn && e.write == write && decide (e.last + 2000000 ≤ s.now) then s.endXfer n x else s

/-- The change events merged under MININT are sent when it ends (R399). -/
def State.minintExpiry (s : State) (n id : Nat) : State :=
  match (s.dict.session n).bind (fun y => y.subs.find? (fun b => b.id == id)) with
  | none => s
  | some b =>
    match s.dict.entry b.key with
    | none => s
    | some e =>
      if s.engineOn && b.waiting && b.last.all (fun l => decide (l + b.minint * 1000 ≤ s.now)) then
        (s.ferryEvent n id 0 b.key ((s.dictVal false e).take 48)).modSess n (fun y =>
          { y with subs := y.subs.map (fun c => if c.id = id then { c with last := some s.now, waiting := false } else c) })
      else s

/-- A periodic event (R399): paused in BANKED and DORMANT, with GAP on the first after the pause. -/
def State.periodExpiry (s : State) (n id : Nat) : State :=
  match (s.dict.session n).bind (fun y => y.subs.find? (fun b => b.id == id)) with
  | none => s
  | some b =>
    match s.dict.entry b.key with
    | none => s
    | some e =>
      if !(s.engineOn && b.periodic && b.last.all (fun l => decide (l + b.period * 1000 ≤ s.now))) then s
      else
        let paused := s.dev.st == .banked || s.dev.st == .dormant
        let s1 := if paused then s else s.ferryEvent n id (b2n b.gap) b.key ((s.dictVal false e).take 48)
        s1.modSess n (fun y => { y with subs := y.subs.map (fun c => if c.id = id then { c with last := some s.now, gap := paused } else c) })

/-- A session without a valid frame for the idle timeout ends (R390). -/
def State.sessionExpiry (s : State) (n : Nat) : State :=
  match s.dict.session n with
  | none => s
  | some y => if s.engineOn && decide (y.last + s.dict.num 0x020004 * 1000000 ≤ s.now) then s.sessionEnd n else s

end Sys2Proof.Machine
end

