-- ==== Sys2Proof/Machine/DmaBase.lean ====
section
/-!
DEFINITION. Machine/DmaBase.lean: the checks on a DMA master's access (R102–R105), DMA queues with their rings and descriptors
(Tables 13-6 to 13-9, R416–R419), and Ethernet frames.
-/
namespace Sys2Proof.Machine

/-- A DRAM window: base and limit words (R104, Table 3-11a). -/
structure DmaWin where
  base : Word
  limit : Word
deriving DecidableEq, Repr

/-- The check of a DMA access of n bytes to memory (R102, R104): none where it passes, else the cause code and, for DRAM outside every
window, whose cause the spec does not give, a free byte. -/
def State.dmaCheck (s : State) (w : World) (cmr : BitVec 16) (wins : List DmaWin) (pa n : Nat) : Option Code :=
  match s.place pa with
  | .dram =>
    match wins.find? (fun d => bit d.base 31 && decide (fld d.base 19 0 * 0x10000 ≤ pa) && decide (pa + n ≤ (fld d.limit 19 0 + 1) * 0x10000)) with
    | none => some (Config.freeByte s.free)
    | some d =>
      let c : Colour := BitVec.ofNat 4 (fld d.limit 31 28)
      if !colourPasses w false cmr c then some (colourFault c)
      else if w == .opn && (s.inTdr pa || s.inTdr (pa + n - 1)) then some 0x22
      else none
  | .periph slot off => some ((s.gateDecide { world := w, sup := false, cmr := cmr, tile := none } slot off false).getD busErr)
  | .reserved | .ctxStore | .emberPrivate => some busErr
  | _ =>
    let bad := [pa, pa + n - 1].find? (fun a =>
      match s.targetColour a with
      | some c => !colourPasses w false cmr c
      | none => false)
    bad.map (fun a => colourFault ((s.targetColour a).getD 0))

/-- Bytes read by a system master: an uncorrectable error leaves the bytes open, and is recorded and reported (R60). -/
def State.masterRead (s : State) (pa n : Nat) : State × List Byte × Bool :=
  if s.isDamaged pa n then
    let s1 := s.memError pa true
    ({ s1 with free := s1.free + n }, (List.range n).map (fun i => Config.freeByte (s1.free + i)), true)
  else (s, s.mem.read pa n, false)

/-- Bytes written by a system master (R56, R145). -/
def State.masterWriteMem (s : State) (pa : Nat) (bs : List Byte) : State := (s.dropCopies pa bs.length).memWrite pa bs

/-- A DMA queue: its slot and the offset of its registers (Table 13-6). -/
structure QRef where
  slot : Nat
  off : Nat
deriving DecidableEq, Repr

/-- Receive queue k of lane p is queue 8p + k, transmit queue k is 128 + 8p + k. -/
def laneQ (p k : Nat) (tx : Bool) : QRef := ⟨0x070, 0x1000 + 64 * ((if tx then 128 else 0) + 8 * p + k)⟩
/-- Host queue n of the backbone: 0–7 receive, 8–15 transmit (R430). -/
def hostQ (n : Nat) : QRef := ⟨0x078, 0x2000 + 64 * n⟩
/-- Endpoint queue e of USB port u (R433). -/
def usbQ (u e : Nat) : QRef := ⟨0x07C + u, 0x1000 + 64 * e⟩

/-- Word j of a queue's registers. -/
def State.q (s : State) (q : QRef) (j : Nat) : Word := s.reg q.slot (q.off + 4 * j)
/-- Word j of a queue's registers set. -/
def State.setQ (s : State) (q : QRef) (j : Nat) (v : Word) : State := s.setReg q.slot (q.off + 4 * j) v
/-- Whether a queue works: EN and not STOPPED. -/
def State.qRuns (s : State) (q : QRef) : Bool := bit (s.q q 0) 31 && !bit (s.q q 0) 30
/-- The world of a queue. -/
def State.qWorld (s : State) (q : QRef) : World := World.ofBit (bit (s.q q 0) 29)

/-- The check of a queue's access: rings and buffers lie in shared SRAM or DRAM (R416). -/
def State.qCheck (s : State) (q : QRef) (pa n : Nat) : Option Code :=
  match s.place pa with
  | .sram | .dram => s.dmaCheck (s.qWorld q) ((s.q q 0).setWidth 16) [⟨s.q q 4, s.q q 5⟩] pa n
  | _ => some busErr

/-- A queue stopped by a refused access (R105, R419): STOPPED, CAUSE, and the error source where its block has one. -/
def State.qStop (s : State) (q : QRef) (irq : Option Nat) (c : Code) : State :=
  let s1 := s.setQ q 0 (setFld (setBit (s.q q 0) 30 true) 23 16 c.toNat)
  let s2 : State := { s1 with free := s1.free + 1 }
  match irq with
  | some i => s2.raise i
  | none => s2

/-- The address of the descriptor at HEAD. -/
def State.qDesc (s : State) (q : QRef) : Nat := (s.q q 1).toNat * 16 + 16 * (s.q q 3).toNat

/-- A descriptor (Table 13-8). -/
structure QDesc where
  buf : Nat
  buflen : Nat
  own : Bool
deriving DecidableEq, Repr

/-- A descriptor from its 16 bytes. -/
def qDescOf (b : List Byte) : QDesc := { buf := frameVal b 0 4 * 16, buflen := frameVal b 4 2, own := decide (128 ≤ frameByte b 6) }

/-- The descriptor at HEAD read under the queue's checks; none where the access was refused and the queue stopped. -/
def State.qFetch (s : State) (q : QRef) (irq : Option Nat) : State × Option QDesc :=
  match s.qCheck q (s.qDesc q) 16 with
  | some c => (s.qStop q irq c, none)
  | none =>
    let (s1, b, bad) := s.masterRead (s.qDesc q) 16
    (match bad, irq with
      | true, some i => s1.raise i
      | _, _ => s1, some (qDescOf b))

/-- HEAD after a completed descriptor: it wraps at RSIZE. -/
def State.qAdvance (s : State) (q : QRef) : State :=
  s.setQ q 3 (BitVec.ofNat 32 (((s.q q 3).toNat + 1) % (max 1 (fld (s.q q 2) 12 0)) % 4096))

/-- A descriptor completed (R417): the doubleword at 0x08, then the one at 0x00 with OWN = 0; HEAD moves on. -/
def State.qComplete (s : State) (q : QRef) (stat len tag time : Nat) : State :=
  let a := s.qDesc q
  let s1 := s.masterWriteMem (a + 8) (toBytes 2 len ++ toBytes 1 tag ++ [0] ++ toBytes 4 time)
  let s2 := s1.masterWriteMem a (s1.mem.read a 6 ++ [0] ++ toBytes 1 stat)
  s2.qAdvance q

/-- One more on the DROPS counter of a queue. -/
def State.qDrop (s : State) (q : QRef) : State := s.setQ q 6 (s.q q 6 + 1)

/-- A received frame delivered to a queue (R418, R419): dropped where the queue does not run or its descriptor is not owned; else its bytes
are written, as far as BUFLEN, and the descriptor completes. The last value says whether it was delivered. -/
def State.qDeliver (s : State) (q : QRef) (irq : Option Nat) (stat tag time : Nat) (frame : List Byte) : State × Bool :=
  if !s.qRuns q then (s.qDrop q, false)
  else
    match s.qFetch q irq with
    | (s1, none) => (s1, false)
    | (s1, some d) =>
      if !d.own then (s1.qDrop q, false)
      else
        let bs := frame.take d.buflen
        match s1.qCheck q d.buf bs.length with
        | some c => (s1.qStop q irq c, false)
        | none => ((s1.masterWriteMem d.buf bs).qComplete q (if d.buflen < frame.length then 1 else stat) frame.length tag time, true)

/-- A write to a queue register (R416, R103, R104): the refusals answer with an error response. -/
def State.qWrite (s : State) (r : Req) (q : QRef) (j : Nat) (v : Word) : State × BusRes :=
  let c := s.q q 0
  let held (col : Nat) : Bool := r.sup && r.cmr.getLsbD col
  if bit c 29 && !(r.world == .trade && r.sup) then (s, .err busErr)
  else
    match j with
    | 0 =>
      let en := bit v 31
      let keep := if en then 0 else fld c 30 30 * 2 ^ 30 + fld c 23 16 * 2 ^ 16
      let nv := BitVec.ofNat 32 (b2n en * 2 ^ 31 + b2n (bit v 28) * 2 ^ 28 + b2n r.world.bit * 2 ^ 29 + keep)
        ||| ((v.setWidth 16 &&& r.cmr).setWidth 32)
      (s.setQ q 0 nv, .ok 0)
    | 1 => if bit c 31 && v != s.q q 1 then (s, .err busErr) else (s.setQ q 1 v, .ok 0)
    | 2 => if bit c 31 && v &&& 0x1FFF != s.q q 2 then (s, .err busErr) else (s.setQ q 2 (v &&& 0x1FFF), .ok 0)
    | 4 => if held (fld (s.q q 5) 31 28) then (s.setQ q 4 (v &&& 0x800FFFFF), .ok 0) else (s, .err busErr)
    | 5 => if held (fld v 31 28) then (s.setQ q 5 (v &&& 0xF00FFFFF), .ok 0) else (s, .err busErr)
    | _ => (s, .ok 0)

/-- One byte into a remainder of the Ethernet FCS (reflected, polynomial 0xEDB88320), n bits to go. -/
def fcsBits : Nat → BitVec 32 → BitVec 32
  | 0, c => c
  | n + 1, c => fcsBits n (if c.getLsbD 0 then (c >>> 1) ^^^ 0xEDB88320#32 else c >>> 1)
/-- The FCS of a frame, as its four bytes (IEEE 802.3). -/
def ethFcs (b : List Byte) : List Byte :=
  toBytes 4 (~~~ (b.foldl (fun c x => fcsBits 8 (c ^^^ x.setWidth 32)) 0xFFFFFFFF#32)).toNat

/-- MAC address number n of the module (R409), as its six bytes. -/
def macAddr (n : Nat) : List Byte := toBytesBE 6 (ofBytesBE ((Config.partInfo 0x120003).take 6) + n)

/-- Whether a destination is a group address. -/
def groupAddr (b : List Byte) : Bool := frameByte b 0 % 2 == 1

/-- Bits [31:0] of the IEEE 1588 time. -/
def State.time32 (s : State) : Nat := s.ptp % 2 ^ 32

end Sys2Proof.Machine
end

