-- ==== Sys2Proof/Machine/Lanes.lean ====
section
/-!
DEFINITION. Machine/Lanes.lean: the lane ports (R406–R425): PLCA, frames, enrolment, link faults.
-/
namespace Sys2Proof.Machine

/-- Lane p. -/
def State.lane (s : State) (p : Nat) : Lane := vget s.lanes p Lane.reset
/-- Lane p changed. -/
def State.modLane (s : State) (p : Nat) (f : Lane → Lane) : State := { s with lanes := vset s.lanes p (f (s.lane p)) }
/-- LPCTL. -/
def State.lpctl (s : State) (p : Nat) : Word := s.reg (0x060 + p) 0x1000
/-- PEN. -/
def State.pen (s : State) (p : Nat) : Bool := bit (s.lpctl p) 31
/-- MODE. -/
def State.laneMode (s : State) (p : Nat) : Nat := fld (s.lpctl p) 30 29
/-- LSTATE: 0 DOWN, 1 UP, 2 SMOULDERING, 3 ASHED. -/
def State.lstate (s : State) (p : Nat) : Nat := fld (s.reg (0x060 + p) 0x1004) 31 30

/-- A source that Table 9-6 marks level, raised by an event that no register clears: its latch while it senses levels (DEDUCED, log 49). -/
def State.raiseLatch (s : State) (i : Nat) : State :=
  if s.irqSense i = 0 then { s with irq := { s.irq with pend := setIrqBit s.irq.pend i true } } else s.raise i

/-- LSTATE changed; subsource 2 is raised on a change. -/
def State.setLstate (s : State) (p st : Nat) : State :=
  if s.lstate p = st then s
  else (s.modReg (0x060 + p) 0x1004 (fun v => setFld v 31 30 st)).raiseLatch (128 + 8 * p + 2)

/-- A message for the fault ledger. -/
def State.tell (s : State) (m : LedgerMsg) : State := { s with upsets := s.upsets ++ [m] }

/-- The transmit queues' head descriptor completed with a status, nothing sent. -/
def State.txAbort (s : State) (p k stat : Nat) : State := s.qComplete (laneQ p k true) stat 0 0 s.time32

/-- IRQ of a queue: the pending bit of its port and a subsource (Table 13-7). -/
def State.qDoneIrq (s : State) (p k : Nat) (tx : Bool) : State :=
  if bit (s.q (laneQ p k tx) 0) 28 then
    (s.modReg (0x060 + p) (if tx then 0x100C else 0x1008) (fun v => setBit v k true)).raise (128 + 8 * p + (if tx then 1 else 0))
  else s

/-- A link upset (R422–R424): sending says that a frame was being sent. -/
def State.laneUpset (s : State) (p kind : Nat) (sending : Bool) : State :=
  if s.lstate p ≠ 1 then s
  else
    let l := s.lane p
    let ups := s.now :: l.ups.filter (fun t => decide (s.now < t + l.window * 1000000))
    let n := ups.length
    let retry := min (n - 1) 3
    let ashed := decide (l.thresh ≤ n)
    let s1 := match l.tx, sending with
      | some x, true => ((s.txAbort p x.queue 4).qDoneIrq p x.queue true).modLane p (fun l => { l with tx := none, armed := false })
      | _, _ => s
    let s2 := s1.modReg (0x060 + p) 0x1004 (fun v => setFld (setFld (setFld v 23 16 n) 9 8 retry) 3 0 kind)
    let s3 := s2.modLane p (fun l =>
      { l with ups := ups, fcs := [], armed := false, test := none, fails := 0
               due := if ashed then none else some (s.now + l.retry.getD retry 0 * 1000) })
    (s3.setLstate p (if ashed then 3 else 2)).tell (.outcome (16 + p) kind n retry ashed)

/-- The end of a back-off: the line test starts (R423). -/
def State.laneBackoff (s : State) (p : Nat) : State :=
  let l := s.lane p
  if s.lstate p = 2 ∧ l.test.isNone ∧ l.due.any (fun t => decide (t ≤ s.now)) = true then
    s.modLane p (fun l => { l with due := none, test := some (s.now + 2000) })
  else s

/-- A link becomes ASHED for its line test or its self-test (R424). -/
def State.laneAsh (s : State) (p : Nat) : State :=
  let v := s.reg (0x060 + p) 0x1004
  ((s.modLane p (fun l => { l with due := none, test := none })).setLstate p 3).tell (.outcome (16 + p) (fld v 3 0) (fld v 23 16) (fld v 9 8) true)

/-- The end of the line test (R423, R424): a pass returns the link to UP, the third failure in a row ashes it. -/
def State.laneTestEnd (s : State) (p : Nat) (pass : Bool) : State :=
  let l := s.lane p
  if !l.test.any (fun t => decide (t ≤ s.now)) then s
  else if pass then (s.modLane p (fun l => { l with test := none, fails := 0 })).setLstate p 1
  else if 3 ≤ l.fails + 1 then s.laneAsh p
  else
    let retry := fld (s.reg (0x060 + p) 0x1004) 9 8
    s.modLane p (fun l => { l with test := none, fails := l.fails + 1, due := some (s.now + l.retry.getD retry 0 * 1000) })

/-- An ASHED link cleared (R425, R484): DOWN, UPSETS and RETRY zero. -/
def State.laneClear (s : State) (p : Nat) : State :=
  if s.lstate p ≠ 3 then s
  else
    ((s.modReg (0x060 + p) 0x1004 (fun v => setFld (setFld v 23 16 0) 9 8 0)).modLane p (fun l =>
      { l with ups := [], fails := 0, due := none, test := none })).setLstate p 0

/-- Whether a clear permit is open (R425, R471). -/
def State.permitted (s : State) (k : Nat) : Bool := s.dev.permits.any (fun p => p.1 == k && decide (s.now < p.2))

/-- A write to ASHCLR (R425). -/
def State.laneAshClr (s : State) (p : Nat) : State :=
  if s.permitted (16 + p) && s.lstate p == 3 then (s.laneClear p).tell (.clear (16 + p)) else s

/-- A write to LPCTL (R406, Table 13-3). -/
def State.lpctlWrite (s : State) (p : Nat) (v : Word) : State × BusRes :=
  let old := s.lpctl p
  let changes := fld v 30 28 != fld old 30 28 || fld v 11 8 != fld old 11 8
  if bit old 31 && changes then (s, .err busErr)
  else if fld v 30 29 == 3 || decide (fld v 23 16 < 20) || decide (fld v 11 8 < 2) || decide (8 < fld v 11 8) then (s, .err busErr)
  else
    let s1 := s.setReg (0x060 + p) 0x1000 (v &&& 0xF0FF0F07)
    let s2 := if bit old 31 then s1 else s1.modLane p (fun l => { l with burst := fld v 2 0 })
    (if !bit v 31 && s2.lstate p == 1 then (s2.modLane p (fun l => { l with armed := false })).setLstate p 0 else s2, .ok 0)

/-- ENRk of lane p: its word j. -/
def State.enr (s : State) (p k j : Nat) : Word := s.reg (0x060 + p) (0x1020 + 8 * k + 4 * j)
/-- STATE of an enrolment row. -/
def State.enrState (s : State) (p k : Nat) : Nat := fld (s.enr p k 1) 31 30
/-- The address of an enrolment row. -/
def State.enrAddr (s : State) (p k : Nat) : List Byte := toBytes 4 (s.enr p k 0).toNat ++ toBytes 2 (fld (s.enr p k 1) 15 0)

/-- A write of an enrolment row (R414, R415): word 0 is held until word 1 is written. -/
def State.enrWrite (s : State) (r : Req) (p k j : Nat) (v : Word) : State × BusRes :=
  if bit (s.q (laneQ p k false) 0) 29 && !(r.world == .trade && r.sup) then (s, .err busErr)
  else if j = 0 then (s.modLane p (fun l => { l with held := Sparse.put k v l.held }), .ok 0)
  else if fld v 31 30 == 1 || fld v 31 30 == 3 then (s, .err busErr)
  else
    let w0 := (Sparse.find? k (s.lane p).held).getD (s.enr p k 0)
    let s1 := (s.setReg (0x060 + p) (0x1020 + 8 * k) w0).setReg (0x060 + p) (0x1024 + 8 * k) (v &&& 0xC000FFFF)
    (s1.modLane p (fun l => { l with held := Sparse.erase k l.held }), .ok 0)

/-- The classification of a received frame under the enrolment rows (R413): its queue, its STAT, the state after. -/
def State.classify (s : State) (p k : Nat) (frame : List Byte) : State × Nat × Nat :=
  let src := (frame.drop 6).take 6
  if k = 0 then (s, 0, 0)
  else
    match s.enrState p k with
    | 2 => if src == s.enrAddr p k then (s, k, 0) else (s.modReg (0x060 + p) 0x1074 (· + 1), 0, 6)
    | 0 =>
      let s1 := (s.setReg (0x060 + p) (0x1020 + 8 * k) (BitVec.ofNat 32 (frameVal src 0 4))).setReg (0x060 + p) (0x1024 + 8 * k)
        (BitVec.ofNat 32 (2 ^ 30 + frameVal src 4 2))
      ((s1.modReg (0x060 + p) 0x1010 (fun v => setBit v k true)).raise (128 + 8 * p + 5), 0, 7)
    | _ => (s, 0, 7)

/-- A frame on lane p with opportunity tag k (R408, R412, R413, R418); frame is without its FCS, which fcs says is right. -/
def State.laneReceive (s : State) (p k : Nat) (fcs : Bool) (frame : List Byte) : State :=
  if !(s.pen p && s.lstate p == 1) then s
  else
    let tag := if s.laneMode p = 2 then 1 else k
    let s0 := s.modLane p (fun l => { l with armed := false })
    if !fcs then
      let l := s0.lane p
      let times := s.now :: l.fcs.filter (fun t => decide (s.now < t + 1000000))
      let s1 := (s0.modReg (0x060 + p) 0x1068 (· + 1)).modLane p (fun l => { l with fcs := times })
      if 16 ≤ times.length then s1.laneUpset p 4 false else s1
    else if 1518 < frame.length then s0.modReg (0x060 + p) 0x106C (· + 1)
    else if frame.take 6 != macAddr (3 + p) && !groupAddr frame then s0
    else
      let c := s0.classify p tag frame
      let used := ((s0.lane p).fifo.map (fun x => x.frame.length)).sum
      if 4096 < used + frame.length then c.1.modReg (0x060 + p) 0x1070 (· + 1)
      else c.1.modLane p (fun l =>
        { l with fifo := l.fifo ++ [{ queue := c.2.1, stat := c.2.2, tag := tag, time := s.time32, frame := frame }] })

/-- The DMA takes the oldest frame of lane p's FIFO (R417–R419). -/
def State.laneDeliver (s : State) (p : Nat) : State :=
  match (s.lane p).fifo with
  | [] => s
  | x :: r =>
    let s1 := s.modLane p (fun l => { l with fifo := r })
    let d := s1.qDeliver (laneQ p x.queue false) (some (128 + 8 * p + 4)) x.stat x.tag x.time x.frame
    if d.2 then (d.1.modReg (0x060 + p) 0x1060 (· + 1)).qDoneIrq p x.queue false else d.1

/-- One transmit queue examined (R420, Table 13-9): a frame to send is buffered; a descriptor that cannot be sent completes. -/
def State.txExamine (s : State) (p k : Nat) : State :=
  let q := laneQ p k true
  let irq := some (128 + 8 * p + 4)
  let off := s.lstate p == 3 || s.laneMode p == 0
  if ((s.lane p).tx.isSome && !off) || !s.qRuns q then s
  else
    match s.qFetch q irq with
    | (s1, none) => s1
    | (s1, some d) =>
      if !d.own then s1
      else if off then ((s1.txAbort p k 5).qDoneIrq p k true).modLane p (fun l => { l with tx := none, armed := false })
      else if s1.lstate p ≠ 1 then s1
      else if d.buflen < 14 ∨ 1518 < d.buflen then (s1.txAbort p k 2).qDoneIrq p k true
      else
        match s1.qCheck q d.buf d.buflen with
        | some c => s1.qStop q irq c
        | none =>
          let (s2, b, bad) := s1.masterRead d.buf d.buflen
          let s3 := if bad then s2.raise (128 + 8 * p + 4) else s2
          if k ≠ 0 ∧ ¬(s3.enrState p k = 2 ∧ b.take 6 = s3.enrAddr p k) then (s3.txAbort p k 3).qDoneIrq p k true
          else
            let l := s3.lane p
            let burst := s3.laneMode p == 1 && decide (0 < l.burstLeft) && decide (s3.now * 10 ≤ l.lastEnd * 10 + 128)
            s3.modLane p (fun l =>
              { l with tx := some { queue := k, frame := b }, armed := l.armed || burst
                       burstLeft := if burst then l.burstLeft - 1 else l.burstLeft })

/-- The transmit queues of lane p examined round-robin, after the queue that last sent (R420, R421). -/
def State.laneExamine (s : State) (p : Nat) : State :=
  if s.lstate p = 0 ∧ s.laneMode p ≠ 0 ∨ s.lstate p = 2 then s
  else (List.range 8).foldl (fun s i => s.txExamine p (((s.lane p).lastQ + 1 + i) % 8)) s

/-- A PLCA cycle starts (R410, R561): the beacon, which brings a port up and puts TOTMR and BURST in force, then the device's
opportunity with the frame buffered so far. -/
def State.plcaCycle (s : State) (p : Nat) : State :=
  if !(s.pen p && s.laneMode p == 1) then s
  else
    let s1 := if s.lstate p = 0 then s.setLstate p 1 else s
    if s1.lstate p ≠ 1 then s1
    else
      let b := fld (s1.lpctl p) 2 0
      s1.modLane p (fun l => { l with burst := b, armed := l.tx.isSome, burstLeft := b })

/-- A 100BASE-T1 link comes up (R561). -/
def State.laneLinkUp (s : State) (p : Nat) : State :=
  if s.pen p && s.laneMode p == 2 && s.lstate p == 0 then s.setLstate p 1 else s

/-- The frame as the MAC sends it (R408). -/
def laneFrame (p : Nat) (b : List Byte) : List Byte :=
  let f := b.take 6 ++ macAddr (3 + p) ++ b.drop 12
  let f := f ++ List.replicate (60 - f.length) 0
  f ++ ethFcs f

/-- The buffered frame is sent, in the device's opportunity on 10BASE-T1S (R420), and its descriptor completes. -/
def State.laneTransmit (s : State) (p : Nat) : State :=
  let l := s.lane p
  match l.tx with
  | none => s
  | some x =>
    if s.lstate p ≠ 1 ∨ (s.laneMode p = 1 ∧ l.armed = false) then s
    else
      let s1 := (s.send (.lane (BitVec.ofNat 4 p) (laneFrame p x.frame))).modReg (0x060 + p) 0x1064 (· + 1)
      let s2 := s1.modLane p (fun l => { l with tx := none, armed := false, lastQ := x.queue, lastEnd := s.now })
      (s2.qComplete (laneQ p x.queue true) 0 0 0 s.time32).qDoneIrq p x.queue true

/-- A beacon received from another node (R422 kind 2), or another upset that the PHY or MAC reports. -/
def State.lanePhyUpset (s : State) (p kind : Nat) (sending : Bool) : State :=
  if kind = 0 ∨ 6 < kind then s
  else
    let s1 := if kind = 2 ∧ s.lstate p = 1 then s.modReg (0x060 + p) 0x1078 (· + 1) else s
    s1.laneUpset p kind sending

/-- Whether an offset of a lane slot is an enrolment word; its row and word. -/
def enrOff (off : Nat) : Option (Nat × Nat) :=
  if 0x1028 ≤ off ∧ off < 0x1060 ∧ off % 4 = 0 then some ((off - 0x1020) / 8, off / 4 % 2) else none

/-- Writes of slot 0x060 + p. -/
def State.laneWrite (s : State) (r : Req) (p off : Nat) (v : Word) : State × BusRes :=
  if off = 0x1000 then s.lpctlWrite p v
  else if off = 0x1014 then (s.laneAshClr p, .ok 0)
  else
    match enrOff off with
    | some (k, j) => s.enrWrite r p k j v
    | none => (s.plainWrite .trade (0x060 + p) off v, .ok 0)

/-- Writes of slot 0x070. -/
def State.laneDmaWrite (s : State) (r : Req) (off : Nat) (v : Word) : State × BusRes :=
  if 0x1000 ≤ off ∧ off < 0x5000 then
    let n := (off - 0x1000) / 64
    let q : QRef := ⟨0x070, 0x1000 + 64 * n⟩
    if off % 64 = 0x1C then
      if bit (s.q q 0) 29 && !(r.world == .trade && r.sup) then (s, .err busErr)
      else (if 128 ≤ n then s.laneExamine ((n - 128) / 8) else s, .ok 0)
    else s.qWrite r q (off % 64 / 4) v
  else (s, .ok 0)

/-- A clear permit ends (R425, R471). -/
def State.permitExpiry (s : State) (k : Nat) : State :=
  { s with dev := { s.dev with permits := s.dev.permits.filter (fun p => !(p.1 == k && decide (p.2 ≤ s.now))) } }

end Sys2Proof.Machine
end

