-- ==== Sys2Proof/Machine/Backbone.lean ====
section
/-!
DEFINITION. Machine/Backbone.lean: the backbone switch and its ports (R426, R427, R430, R431), the IEEE 1588 time block (R428, R429), the
USB ports (R432–R434).
-/
namespace Sys2Proof.Machine

/-- The switch changed. -/
def State.modBb (s : State) (f : Backbone → Backbone) : State := { s with bb := f s.bb }

/-- New bits of an event register; its edge source rises where a bit is new (Tables 13-10c, 13-10d). -/
def State.newEvent (s : State) (slot off irq : Nat) (bits : Word) : State :=
  let old := s.reg slot off
  let s1 := s.setReg slot off (old ||| bits)
  if bits &&& ~~~ old = 0 then s1 else s1.raise irq

/-- LINK of backbone port p. -/
def State.bbLink (s : State) (p : Nat) : Bool := bit (s.reg (0x079 + p) 0x1004) 31
/-- Whether external port p forwards: EN, LINK. -/
def State.bbUp (s : State) (p : Nat) : Bool := bit (s.reg (0x079 + p) 0x1000) 31 && s.bbLink p

/-- A row of SWVLAN with a VID. -/
def State.vlanRow (s : State) (vid : Nat) : Option Word :=
  ((List.range 64).map (fun v => s.reg 0x078 (0x1100 + 4 * v))).find? (fun r => bit r 31 && fld r 11 0 == vid)

/-- Whether a frame carries an IEEE 802.1Q tag. -/
def vlanTagged (b : List Byte) : Bool := frameByte b 12 == 0x81 && frameByte b 13 == 0

/-- VID and PCP of a frame at a port: its tag's, or the port's own VID (R427). -/
def State.vlanOf (s : State) (port : Nat) (b : List Byte) : Nat × Nat :=
  let tci := ofBytesBE ((b.drop 14).take 2)
  let own := if port = 2 then fld (s.reg 0x078 0x1010) 11 0 else fld (s.reg (0x079 + port) 0x1000) 11 0
  if vlanTagged b then (if tci % 4096 = 0 then own else tci % 4096, tci / 8192) else (own, 0)

/-- The frame as it leaves a port of a VLAN: without a tag in the untagged set, else with one. -/
def vlanOut (untag : Bool) (vid pcp : Nat) (b : List Byte) : List Byte :=
  let body := if vlanTagged b then b.drop 16 else b.drop 12
  if untag then b.take 12 ++ body else b.take 12 ++ [0x81, 0] ++ toBytesBE 2 (pcp * 8192 + vid) ++ body

/-- An address learnt at a port (R426). -/
def State.learn (s : State) (mac port : Nat) : State :=
  let known := s.bb.addrs.any (fun a => a.mac == mac)
  if known then
    s.modBb (fun b => { b with addrs := b.addrs.map (fun a => if a.mac = mac then { a with port := port, seen := s.now } else a) })
  else if 1024 ≤ s.bb.addrs.length then s.newEvent 0x078 0x1200 256 1
  else s.modBb (fun b => { b with addrs := b.addrs ++ [{ mac := mac, port := port, seen := s.now }] })

/-- Whether an untagged frame is an ARP request for an address (RFC 826). -/
def arpFor (b : List Byte) (addr : Nat) : Bool :=
  frameByte b 12 == 8 && frameByte b 13 == 6 && ofBytesBE ((b.drop 14).take 8) == 0x0001080006040001 && ofBytesBE ((b.drop 38).take 4) == addr

/-- The ARP reply of the device. -/
def arpReply (b : List Byte) (addr : Nat) : List Byte :=
  let h := (b.drop 22).take 6
  h ++ macAddr 0 ++ [8, 6] ++ toBytesBE 8 0x0001080006040002 ++ macAddr 0 ++ toBytesBE 4 addr ++ h ++ (b.drop 28).take 4

/-- Whether an untagged frame is a UDP datagram over IPv4 to the engine's address and port, which the engine takes (R375, R430). -/
def State.ferryUdp (s : State) (b : List Byte) : Bool :=
  frameByte b 12 == 8 && frameByte b 13 == 0 && frameByte b 23 == 17 && ofBytesBE ((b.drop 30).take 4) == s.dict.address
    && ofBytesBE ((b.drop 36).take 2) == s.dict.num 0x020003

/-- A frame for the host delivered to its receive queue, by the egress queue of its PCP (R427, R430). -/
def State.hostDeliver (s : State) (pcp : Nat) (b : List Byte) : State :=
  if s.ferryUdp b then s
  else (s.qDeliver (hostQ (fld (s.reg 0x078 0x100C) (2 * pcp + 1) (2 * pcp))) none 0 0 s.time32 b).1

/-- One egress of a forwarded frame; port 2 is the host, whose frames in BANKED and DORMANT go to asleep. -/
def State.egress (s : State) (asleep : State → List Byte → State) (vlan : Word) (pcp : Nat) (b : List Byte) (p : Nat) : State :=
  let out := vlanOut (bit vlan (24 + p)) (fld vlan 11 0) pcp b
  if p = 2 then
    if s.dev.st == .banked || s.dev.st == .dormant then asleep s out else s.hostDeliver pcp out
  else if s.bbUp p then (s.send (.backbone (BitVec.ofNat 1 p) (out ++ ethFcs out))).modReg (0x079 + p) 0x100C (· + 1)
  else s

/-- A frame forwarded from a port (R426, R427): VLAN, learning, the learnt port or a flood of the VLAN. -/
def State.forwardFrom (s : State) (asleep : State → List Byte → State) (port : Nat) (b : List Byte) : State :=
  let vp := s.vlanOf port b
  let miss : State := if port = 2 then s else s.modReg (0x079 + port) 0x1014 (· + 1)
  match s.vlanRow vp.1 with
  | none => miss.newEvent 0x078 0x1200 256 2
  | some row =>
    if !bit row (20 + port) then miss
    else
      let src := (b.drop 6).take 6
      let s1 := if groupAddr src then s else s.learn (ofBytesBE src) port
      let dst := ofBytesBE (b.take 6)
      let ports := match s1.bb.addrs.find? (fun a => a.mac == dst && !groupAddr b) with
        | some a => [a.port]
        | none => [0, 1, 2]
      (ports.filter (fun p => p != port && bit row (20 + p))).foldl (fun s p => s.egress asleep row vp.2 b p) s1

/-- A host frame while the device sleeps (R430): ARP for the engine's address is answered; Ferry is received as R375 states; every other
frame is dropped. -/
def State.hostSleep (s : State) (b : List Byte) : State :=
  if s.dict.clk == .stopped && (arpFor b s.dict.address) then (s.engineWake (.backbone 0)).forwardFrom (fun s _ => s) 2 (arpReply b s.dict.address)
  else if arpFor b s.dict.address then s.forwardFrom (fun s _ => s) 2 (arpReply b s.dict.address)
  else s

/-- A backbone link upset (R431): BPEVENT, the kind, the record of class 2; the link goes down. -/
def State.bbUpset (s : State) (p kind : Nat) : State :=
  let s1 := s.modReg (0x079 + p) 0x1004 (fun v => setBit (setFld v 3 0 kind) 31 false)
  (s1.newEvent (0x079 + p) 0x1018 (257 + p) 2).report { cls := 2, num := p, kind := some kind, pa := 0, hard := false }

/-- A frame received at external port p (R426, R431); frame is without its FCS, which fcs says is right. -/
def State.bbReceive (s : State) (p : Nat) (fcs : Bool) (b : List Byte) : State :=
  if !s.bbUp p then s
  else if !fcs then
    let times := s.now :: (vget s.bb.fcs p []).filter (fun t => decide (s.now < t + 1000000))
    let s1 := (s.modReg (0x079 + p) 0x1010 (· + 1)).modBb (fun x => { x with fcs := vset x.fcs p times })
    if 16 ≤ times.length then (s1.modBb (fun x => { x with fcs := vset x.fcs p [] })).bbUpset p 2 else s1
  else
    let s1 := s.modReg (0x079 + p) 0x1008 (· + 1)
    if !bit (s1.reg 0x078 0x1000) 31 || decide (1518 < b.length) then s1.modReg (0x079 + p) 0x1014 (· + 1)
    else s1.forwardFrom State.hostSleep p b

/-- The host transmit queues examined round-robin (R420, R430): the first frame owned is sent into the switch. -/
def State.hostExamine (s : State) : State :=
  let pick := (List.range 8).foldl (fun (a : State × Bool) i =>
    if a.2 then a
    else
      let s := a.1
      let k := (s.bb.txLast + 1 + i) % 8
      let q := hostQ (8 + k)
      if !s.qRuns q then (s, false)
      else
        match s.qFetch q none with
        | (s1, none) => (s1, false)
        | (s1, some d) =>
          if !d.own then (s1, false)
          else if d.buflen < 14 ∨ 1518 < d.buflen then (s1.qComplete q 2 0 0 s1.time32, false)
          else
            match s1.qCheck q d.buf d.buflen with
            | some c => (s1.qStop q none c, false)
            | none =>
              let (s2, b, _) := s1.masterRead d.buf d.buflen
              let f := b.take 6 ++ macAddr 0 ++ b.drop 12
              let s3 := (s2.qComplete q 0 0 0 s2.time32).modBb (fun x => { x with txLast := k })
              (s3.forwardFrom (fun s _ => s) 2 (f ++ List.replicate (60 - f.length) 0), true)) (s, false)
  pick.1

/-- Addresses not seen for the ageing time go (R426). -/
def State.ageing (s : State) : State :=
  let age := (s.reg 0x078 0x1004).toNat * 1000000
  s.modBb (fun b => { b with addrs := b.addrs.filter (fun a => decide (s.now < a.seen + age)) })

/-- A backbone link comes up or goes down briefly (R431); it stays down while its record holds it (Table 15-15). -/
def State.bbLinkChange (s : State) (p : Nat) (up : Bool) (speed : Nat) (lpi mdix : Bool) : State :=
  let ctl := s.reg (0x079 + p) 0x1000
  let adv := speed ≤ 2 ∧ bit ctl (16 + speed) = true
  if up && !(bit ctl 31 && decide adv && decide (vget s.bb.hold p 0 ≤ s.now) && (Sparse.get LRec.reset (32 + p) s.ledger.recs).st != 2) then s
  else if up == s.bbLink p then s
  else
    let v := s.reg (0x079 + p) 0x1004
    let nv := BitVec.ofNat 32 (b2n up * 2 ^ 31 + (if up then speed * 2 ^ 28 + b2n (lpi && bit ctl 30) * 2 ^ 27 + b2n mdix * 2 ^ 26 else 0) + fld v 3 0)
    (s.setReg (0x079 + p) 0x1004 nv).newEvent (0x079 + p) 0x1018 (257 + p) 1

/-- Writes of slot 0x078 (R431). -/
def State.switchWrite (s : State) (r : Req) (off : Nat) (v : Word) : State × BusRes :=
  if 0x2000 ≤ off ∧ off < 0x2400 then
    let q : QRef := ⟨0x078, 0x2000 + (off - 0x2000) / 64 * 64⟩
    if off % 64 = 0x1C then
      if bit (s.q q 0) 29 && !(r.world == .trade && r.sup) then (s, .err busErr)
      else (if 0x2200 ≤ off then s.hostExamine else s, .ok 0)
    else s.qWrite r q (off % 64 / 4) v
  else if 0x1100 ≤ off ∧ off < 0x1200 then
    let clash := (List.range 64).any (fun k =>
      let r := s.reg 0x078 (0x1100 + 4 * k)
      0x1100 + 4 * k != off && bit r 31 && fld r 11 0 == fld v 11 0)
    if bit v 31 && clash then (s, .err busErr) else (s.plainWrite .trade 0x078 off v, .ok 0)
  else (s.plainWrite .trade 0x078 off v, .ok 0)

/-- Writes of slots 0x079 and 0x07A: EN = 0 takes the link down. -/
def State.bbPortWrite (s : State) (p off : Nat) (v : Word) : State :=
  let s1 := s.plainWrite .trade (0x079 + p) off v
  if off = 0x1000 ∧ bit v 31 = false ∧ s1.bbLink p = true then
    (s1.modReg (0x079 + p) 0x1004 (fun x => x &&& 0xF)).newEvent (0x079 + p) 0x1018 (257 + p) 1
  else s1

/-- The time block changed. -/
def State.modTb (s : State) (f : TimeBlk → TimeBlk) : State := { s with tb := f s.tb }

/-- LOCKED falls (R429): HOLDOVER begins. -/
def State.lockFall (s : State) : State := if s.tb.locked then s.modTb (fun t => { t with locked := false, holdover := some s.now }) else s

/-- Whether the offsets judge the block locked: the last four within ±1 µs, the latest less than 2 s old (R429). -/
def TimeBlk.good (t : TimeBlk) (now : Nat) : Bool :=
  decide (4 ≤ t.ofs.length) && (t.ofs.take 4).all (fun o => decide (-1000 ≤ o.1) && decide (o.1 ≤ 1000))
    && (t.ofs.head?).any (fun o => decide (now < o.2 + 2000000))

/-- A write of TBOFS (R429). -/
def State.tbOfs (s : State) (v : Word) : State :=
  let s1 := s.modTb (fun t => { t with ofs := ((v.toInt, s.now) :: t.ofs).take 4 })
  if s1.tb.good s.now then
    let s2 := s1.modTb (fun t => { t with locked := true, holdover := none })
    { s2 with rtc := { s2.rtc with valid := s2.rtcValid } }
  else s1.lockFall

/-- LOCKED falls 2 s after the latest offset (R429). -/
def State.lockLoss (s : State) : State := if s.tb.good s.now then s else s.lockFall

/-- The time changed in one step: LOCKED clears and the offsets go (R429). -/
def State.tbJump (s : State) (t : Nat) : State := { s.lockFall.modTb (fun b => { b with ofs := [] }) with ptp := t % 2 ^ 64 }

/-- A write of TBADJ. -/
def State.tbAdj (s : State) (v : Word) : State × BusRes :=
  if decide (v.toInt < -500000) || decide (500000 < v.toInt) then (s, .err busErr) else (s.setReg 0x07B 0x100C v, .ok 0)

/-- The time after one µs: 1,000 ns trimmed by TBADJ, with the fraction kept (R429). -/
def State.tbTick (s : State) : State :=
  let f := s.tb.frac + (s.reg 0x07B 0x100C).toInt
  let whole := f / 1000000
  { s.modTb (fun t => { t with frac := f % 1000000 }) with ptp := ((s.ptp : Int) + 1000 + whole).toNat % 2 ^ 64 }

/-- A PTP event message stamped at port p (R429): a stamp waits while the former one of its direction is valid. -/
def State.ptpStamp (s : State) (p : Nat) (tx : Bool) (mtype sid : Nat) : State :=
  let o := 0x1100 + 32 * p + (if tx then 0x10 else 0)
  if bit (s.reg 0x07B (o + 8)) 31 then s
  else
    (((s.setReg 0x07B o (BitVec.ofNat 32 s.ptp)).setReg 0x07B (o + 4) (BitVec.ofNat 32 (s.ptp / 2 ^ 32))).setReg 0x07B (o + 8)
      (BitVec.ofNat 32 (2 ^ 31 + mtype % 16 * 2 ^ 16 + sid % 2 ^ 16))).raise 259

/-- TBSTAT. -/
def State.tbStat (s : State) : Word :=
  let ms := match s.tb.holdover with
    | some t => min ((s.now - t) / 1000) 0xFFFF
    | none => 0
  BitVec.ofNat 32 (b2n s.tb.locked * 2 ^ 31 + b2n s.tb.holdover.isSome * 2 ^ 30 + ms)

/-- A read of slot 0x07B: TBLO latches TBHI. -/
def State.tbRead (s : State) (off : Nat) : State × Word :=
  match off with
  | 0x1000 => (s.setReg 0x07B 0x1004 (BitVec.ofNat 32 (s.ptp / 2 ^ 32)), BitVec.ofNat 32 s.ptp)
  | 0x1008 => (s, s.tbStat)
  | 0x1010 => (s, 0)
  | 0x1014 => (s, 0)
  | 0x1020 => (s, 0)
  | _ => (s, s.plainRead .trade 0x07B off)

/-- A write of slot 0x07B. -/
def State.tbWrite (s : State) (off : Nat) (v : Word) : State × BusRes :=
  match off with
  | 0x100C => s.tbAdj v
  | 0x1010 => (s.tbOfs v, .ok 0)
  | 0x1014 => (s.tbJump (((s.ptp : Int) + v.toInt) % 2 ^ 64).toNat, .ok 0)
  | 0x1020 => (s.tbJump ((s.reg 0x07B 0x101C).toNat * 2 ^ 32 + (s.reg 0x07B 0x1018).toNat), .ok 0)
  | _ => (s.plainWrite .trade 0x07B off v, .ok 0)

/-- USB port u. -/
def State.usbPort (s : State) (u : Nat) : Usb := vget s.usb u (Usb.reset 0)
/-- USB port u changed. -/
def State.modUsb (s : State) (u : Nat) (f : Usb → Usb) : State := { s with usb := vset s.usb u (f (s.usbPort u)) }

/-- Whether a port's ledger record is ASHED (RID 34 + u). -/
def State.usbAshed (s : State) (u : Nat) : Bool := (Sparse.get LRec.reset (34 + u) s.ledger.recs).st == 2

/-- STATE of a USB port: 0 off, 1 idle, 2 attached, 3 smouldering, 4 ashed (0x1203:03). -/
def State.usbState (s : State) (u : Nat) : Nat :=
  let x := s.usbPort u
  if s.usbAshed u then 4 else if x.hold.isSome then 3 else if x.role = 0 then 0 else if x.attached then 2 else 1

/-- Whether the host role is in use (R432). -/
def Usb.host (x : Usb) : Bool := x.role == 1 || (x.role == 3 && !x.idHigh)

/-- USTAT (Table 13-10d). -/
def State.ustat (s : State) (u : Nat) : Word :=
  let x := s.usbPort u
  BitVec.ofNat 32 (s.usbState u * 2 ^ 29 + b2n x.host * 2 ^ 28 + x.speed % 4 * 2 ^ 26 + b2n x.vbus * 2 ^ 25 + b2n x.idHigh * 2 ^ 24
    + (if x.host then 0 else x.addr % 128))

/-- New bits of UEVENT. -/
def State.usbEvent (s : State) (u : Nat) (bits : Word) : State := s.newEvent (0x07C + u) 0x080C (260 + u) bits

/-- UCTL ROLE put in use where the port is idle (R434). -/
def State.usbRole (s : State) (u : Nat) : State :=
  if (s.usbPort u).attached then s else s.modUsb u (fun x => { x with role := fld (s.reg (0x07C + u) 0x0800) 1 0, addr := 0 })

/-- At attach in the host role, queue 0 is the default control pipe of address 0 (R434). -/
def State.usbAttach (s : State) (u speed : Nat) : State :=
  if s.usbState u ≠ 1 then s
  else
    let s1 := s.modUsb u (fun x => { x with attached := true, speed := speed, addr := 0 })
    let s2 := if (s1.usbPort u).host then s1.setReg (0x07C + u) 0x1020 0 else s1
    s2.usbEvent u 1

/-- A detach (R434): a role written meanwhile takes effect. -/
def State.usbDetach (s : State) (u : Nat) : State :=
  if !(s.usbPort u).attached then s
  else (((s.modUsb u (fun x => { x with attached := false, speed := 0, addr := 0 })).usbRole u).modReg (0x07C + u) 0x0808 (fun v => setBit v 1 false)).usbEvent u 2

/-- A VBUS overcurrent (R432, Table 15-15): an upset of class 3; the port waits for its record's outcome. -/
def State.usbOver (s : State) (u : Nat) : State :=
  if 3 ≤ s.usbState u then s
  else
    let s1 := s.modUsb u (fun x => { x with attached := false, speed := 0, addr := 0, hold := some 0 })
    (s1.usbEvent u 4).report { cls := 3, num := u, kind := none, pa := 0, hard := false }

/-- What happens at a USB port's lines (Table 13-10d). -/
def State.usbLine (s : State) (u : Nat) : UsbEvent → State
  | .attach speed => s.usbAttach u speed.toNat
  | .detach => s.usbDetach u
  | .overcurrent => s.usbOver u
  | .busReset => if (s.usbPort u).host || (s.usbPort u).role == 0 then s else (s.modUsb u (fun x => { x with addr := 0 })).usbEvent u 8
  | .suspend => if (s.usbPort u).role = 0 then s else s.usbEvent u 16
  | .resume => if (s.usbPort u).role = 0 then s else s.usbEvent u 32
  | .vbus on => s.modUsb u (fun x => { x with vbus := on })
  | .idLand high => s.modUsb u (fun x => { x with idHigh := high })
  | .address a => if (s.usbPort u).host then s else s.modUsb u (fun x => { x with addr := a.toNat })

/-- UTARGETe (Table 13-10d). -/
def State.utarget (s : State) (u e : Nat) : Word := s.reg (0x07C + u) (0x1020 + 64 * e)

/-- Whether queue e of port u takes part in a transfer now (R433, R434): as host a control pipe, or a pipe of the direction; as device
queues 0 to 3; none while a bus reset runs. -/
def State.usbTakes (s : State) (u e : Nat) (inn : Bool) : Bool :=
  let x := s.usbPort u
  x.attached && s.qRuns (usbQ u e) && x.resetEnd.all (fun t => decide (t ≤ s.now))
    && (if x.host then fld (s.utarget u e) 13 12 == 0 || (fld (s.utarget u e) 13 12 != 3 && bit (s.utarget u e) 14 == inn) else decide (e < 4))

/-- The endpoint address of a transfer for TO (R433): as host the one UTARGET names, else the host's own. -/
def State.usbEp (s : State) (u e : Nat) (ep : BitVec 8) : Nat :=
  if (s.usbPort u).host then fld (s.utarget u e) 11 8 + 128 * b2n (bit (s.utarget u e) 14) else ep.toNat

/-- The bytes of the setup packet that begin the buffer (R434): 8 on a control pipe of the host role. -/
def State.usbSetup (s : State) (u e : Nat) : Nat := if (s.usbPort u).host && fld (s.utarget u e) 13 12 == 0 then 8 else 0

/-- A transfer of endpoint queue e of port u ends (R433, R434): inn says that bytes came from the bus. -/
def State.usbTransfer (s : State) (u e : Nat) (inn : Bool) (ep : BitVec 8) (bytes : List Byte) : State :=
  let q := usbQ u e
  if !s.usbTakes u e inn then s
  else
    match s.qFetch q none with
    | (s1, none) => s1
    | (s1, some d) =>
      if !d.own then s1
      else
        let h := s.usbSetup u e
        let epn := s.usbEp u e ep
        let n := if inn then min d.buflen (h + bytes.length) else d.buflen
        match s1.qCheck q d.buf (max 1 n) with
        | some c => s1.qStop q none c
        | none =>
          if inn then
            let s2 := if h = 0 then s1 else
              let r := s1.masterRead d.buf 8
              r.1.send (.usb (BitVec.ofNat 1 u) (BitVec.ofNat 4 epn) r.2.1)
            (s2.masterWriteMem (d.buf + h) (bytes.take (n - h))).qComplete q (if d.buflen < h + bytes.length then 1 else 0) (h + bytes.length) epn
              s1.time32
          else
            let r := s1.masterRead d.buf n
            (r.1.send (.usb (BitVec.ofNat 1 u) (BitVec.ofNat 4 epn) r.2.1)).qComplete q 0 n epn s1.time32

/-- A write of UPORT (Table 13-10d). -/
def State.uportWrite (s : State) (u : Nat) (v : Word) : State :=
  if !(s.usbPort u).host then s
  else
    let s1 := s.setReg (0x07C + u) 0x0808 (if bit v 2 then 0 else v &&& 2)
    if bit v 0 then s1.modUsb u (fun x => { x with resetEnd := some (s.now + 50000) }) else s1

/-- A read of slot 0x07C + u. -/
def State.usbRead (s : State) (u off : Nat) : Word :=
  match off with
  | 0x0804 => s.ustat u
  | 0x0808 => setBit (s.reg (0x07C + u) 0x0808) 8 ((s.usbPort u).host && (s.usbPort u).attached)
  | _ =>
    if 0x1000 ≤ off ∧ off < 0x1800 ∧ off % 64 = 0x20 ∧ (s.usbPort u).host = false then 0
    else s.plainRead .trade (0x07C + u) off

/-- A write of slot 0x07C + u. -/
def State.usbWrite (s : State) (r : Req) (u off : Nat) (v : Word) : State × BusRes :=
  match off with
  | 0x0800 => ((s.setReg (0x07C + u) 0x0800 (v &&& 3)).usbRole u, .ok 0)
  | 0x0808 => (s.uportWrite u v, .ok 0)
  | _ =>
    if 0x1000 ≤ off ∧ off < 0x1800 ∧ off % 64 < 0x20 then s.qWrite r ⟨0x07C + u, off / 64 * 64⟩ (off % 64 / 4) v
    else (s.plainWrite .trade (0x07C + u) off v, .ok 0)

end Sys2Proof.Machine
end

