-- ==== Sys2Proof/Machine/Curve.lean ====
section
/-!
DEFINITION. Machine/Curve.lean: P-256 (SP 800-186), ECDSA with SHA-256 (FIPS 186-5) and the x-coordinate of a Diffie-Hellman product (SEC 1), the
signature and key agreement that R382, R446, R453, R526 and R544 name; points are Jacobian triples, with z = 0 the point at infinity.
-/
namespace Sys2Proof.Machine

/-- The prime of P-256's field. -/
def p256P : Nat := 2 ^ 256 - 2 ^ 224 + 2 ^ 192 + 2 ^ 96 - 1
/-- The order of its group. -/
def p256N : Nat := 0xFFFFFFFF00000000FFFFFFFFFFFFFFFFBCE6FAADA7179E84F3B9CAC2FC632551
/-- The coefficient b of y² = x³ − 3x + b. -/
def p256B : Nat := 0x5AC635D8AA3A93E7B3EBBD55769886BC651D06B0CC53B0F63BCE3C3E27D2604B
/-- The base point. -/
def p256G : Nat × Nat × Nat :=
  (0x6B17D1F2E12C4247F8BCE6E563A440F277037D812DEB33A0F4A13945D898C296, 0x4FE342E2FE1A7F9B8EE7EB4A7C0F9E162BCE33576B315ECECBB6406837BF51F5, 1)

/-- a · b modulo p. -/
def fmul (a b : Nat) : Nat := a * b % p256P
/-- a − b modulo p, for b below p. -/
def fsub (a b : Nat) : Nat := (a + (p256P - b)) % p256P

/-- a to the power e modulo m, over the n low bits of e, highest first. -/
def powMod (m a e : Nat) : Nat → Nat → Nat
  | 0, acc => acc
  | n + 1, acc =>
    let sq := acc * acc % m
    powMod m a e n (if e.testBit n then sq * a % m else sq)
/-- The inverse of a modulo a prime m of 256 bits (0 for 0). -/
def invMod (m a : Nat) : Nat := powMod m a (m - 2) 256 1

/-- A point doubled. -/
def ptDouble (q : Nat × Nat × Nat) : Nat × Nat × Nat :=
  let (x, y, z) := q
  let zz := fmul z z
  let yy := fmul y y
  let b := fmul x yy
  let a := fmul 3 (fmul (fsub x zz) ((x + zz) % p256P))
  let x' := fsub (fmul a a) (fmul 8 b)
  (x', fsub (fmul a (fsub (fmul 4 b) x')) (fmul 8 (fmul yy yy)), fmul 2 (fmul y z))

/-- The sum of two points. -/
def ptAdd (q r : Nat × Nat × Nat) : Nat × Nat × Nat :=
  let (x1, y1, z1) := q
  let (x2, y2, z2) := r
  if z1 = 0 then r
  else if z2 = 0 then q
  else
    let u1 := fmul x1 (fmul z2 z2)
    let u2 := fmul x2 (fmul z1 z1)
    let s1 := fmul y1 (fmul z2 (fmul z2 z2))
    let s2 := fmul y2 (fmul z1 (fmul z1 z1))
    if u1 = u2 then if s1 = s2 then ptDouble q else (1, 1, 0)
    else
      let h := fsub u2 u1
      let d := fsub s2 s1
      let hh := fmul h h
      let hhh := fmul h hh
      let v := fmul u1 hh
      let x := fsub (fsub (fmul d d) hhh) (fmul 2 v)
      (x, fsub (fmul d (fsub v x)) (fmul s1 hhh), fmul h (fmul z1 z2))

/-- A point times the n low bits of k, highest first, onto acc. -/
def ptMulLoop (k : Nat) (q : Nat × Nat × Nat) : Nat → Nat × Nat × Nat → Nat × Nat × Nat
  | 0, acc => acc
  | n + 1, acc =>
    let dbl := ptDouble acc
    ptMulLoop k q n (if k.testBit n then ptAdd dbl q else dbl)
/-- A point times a number below 2²⁵⁶. -/
def ptMul (k : Nat) (q : Nat × Nat × Nat) : Nat × Nat × Nat := ptMulLoop k q 256 (1, 1, 0)
/-- The affine coordinates of a point, none at infinity. -/
def ptAffine (q : Nat × Nat × Nat) : Option (Nat × Nat) :=
  let (x, y, z) := q
  if z = 0 then none
  else
    let i := invMod p256P z
    some (fmul x (fmul i i), fmul y (fmul i (fmul i i)))

/-- The point that 65 bytes of SEC 1's uncompressed form give, none where they are no point of the curve. -/
def ptOfBytes (b : List Byte) : Option (Nat × Nat × Nat) :=
  let x := ofBytesBE ((b.drop 1).take 32)
  let y := ofBytesBE (b.drop 33)
  if b.length = 65 ∧ b.headD 0 = 4 ∧ x < p256P ∧ y < p256P ∧ fmul y y = (fmul x (fmul x x) + fmul (p256P - 3) x + p256B) % p256P then some (x, y, 1)
  else none
/-- A point as 65 bytes, for a point other than infinity. -/
def ptBytes (q : Nat × Nat × Nat) : List Byte :=
  match ptAffine q with
  | some (x, y) => 4#8 :: (toBytesBE 32 x ++ toBytesBE 32 y)
  | none => [0]

/-- ECDSA P-256 with SHA-256: whether sig, r then s as 32 bytes each with the highest first, signs msg under a public key of 65 bytes. -/
def ecdsaVerify (key msg sig : List Byte) : Bool :=
  let r := ofBytesBE (sig.take 32)
  let v := ofBytesBE (sig.drop 32)
  match ptOfBytes key with
  | none => false
  | some q =>
    if sig.length = 64 ∧ 0 < r ∧ r < p256N ∧ 0 < v ∧ v < p256N then
      let w := invMod p256N v
      let z := ofBytesBE (sha256 msg)
      match ptAffine (ptAdd (ptMul (z * w % p256N) p256G) (ptMul (r * w % p256N) q)) with
      | some (x, _) => x % p256N == r
      | none => false
    else false

/-- A private number from a free one: between 1 and the order less 1. -/
def privOf (k : Nat) : Nat := k % (p256N - 1) + 1
/-- The signature of a message under private key d with the per-signature secret k. -/
def ecdsaSign (d k : Nat) (msg : List Byte) : List Byte :=
  match ptAffine (ptMul k p256G) with
  | some (x, _) =>
    let r := x % p256N
    toBytesBE 32 r ++ toBytesBE 32 (invMod p256N k * ((ofBytesBE (sha256 msg) + r * d) % p256N) % p256N)
  | none => List.replicate 64 0
/-- The x-coordinate, as 32 bytes, of a private number times a peer's point; none where the peer's bytes are no point of the curve. -/
def ecdhX (d : Nat) (peer : List Byte) : Option (List Byte) :=
  (ptOfBytes peer).bind (fun q => (ptAffine (ptMul d q)).map (fun a => toBytesBE 32 a.1))

end Sys2Proof.Machine
end

