-- ==== Sys2Proof/Machine/Cert.lean ====
section
/-!
DEFINITION. Machine/Cert.lean: certificates as R383 has them: X.509 v3 in DER (RFC 5280), a P-256 subject key, signed with ECDSA P-256 and SHA-256 directly by
a trust anchor. Only the checks that R383 lists are made; extensions are passed over (DESIGN CHOICE, log 13).
-/
namespace Sys2Proof.Machine

/-- The first DER element of some bytes: tag, contents and what follows it. Lengths are definite and shortest, of at most two further bytes. -/
def derTake (b : List Byte) : Option (Byte × List Byte × List Byte) :=
  let body (t : Byte) (n : Nat) (r : List Byte) : Option (Byte × List Byte × List Byte) :=
    if n ≤ r.length then some (t, r.take n, r.drop n) else none
  match b with
  | t :: l :: r =>
    if t &&& 0x1F = 0x1F then none
    else if l < 0x80 then body t l.toNat r
    else if l = 0x81 then
      match r with
      | n :: r1 => if n < 0x80 then none else body t n.toNat r1
      | _ => none
    else if l = 0x82 then
      match r with
      | h :: n :: r1 => if h = 0 then none else body t (h.toNat * 256 + n.toNat) r1
      | _ => none
    else none
  | _ => none

/-- The contents of an element of the given tag at the front, and what follows it. -/
def derOf (tag : Byte) (b : List Byte) : Option (List Byte × List Byte) :=
  match derTake b with
  | some (t, c, r) => if t = tag then some (c, r) else none
  | none => none
/-- The contents of bytes that are one element of the given tag and nothing more. -/
def derOnly (tag : Byte) (b : List Byte) : Option (List Byte) :=
  match derOf tag b with
  | some (c, []) => some c
  | _ => none
/-- What follows an element of the given tag, where one stands at the front. -/
def derPass (tag : Byte) (b : List Byte) : List Byte :=
  match derOf tag b with
  | some (_, r) => r
  | none => b

/-- A non-negative INTEGER in its shortest form. -/
def derNat (c : List Byte) : Option Nat :=
  match c with
  | [] => none
  | [a] => if a < 0x80 then some a.toNat else none
  | a :: n :: _ => if 0x80 ≤ a ∨ (a = 0 ∧ n < 0x80) then none else some (ofBytesBE c)

/-- The number that ASCII digits spell. -/
def digitsVal (b : List Byte) : Option Nat :=
  b.foldl (fun (a : Option Nat) (c : Byte) => match a with
    | some n => if 0x30 ≤ c ∧ c ≤ 0x39 then some (n * 10 + (c.toNat - 0x30)) else none
    | none => none) (some 0)
/-- Days before a year, counted from year 0 of the Gregorian calendar. -/
def daysBefore (y : Nat) : Nat := 365 * y + (y + 3) / 4 - (y + 99) / 100 + (y + 399) / 400
/-- Whether a year is a leap year. -/
def leapYear (y : Nat) : Bool := y % 4 == 0 && (y % 100 != 0 || y % 400 == 0)
/-- Days in a month. -/
def monthDays (y m : Nat) : Nat := if m = 2 then (if leapYear y then 29 else 28) else if m = 4 ∨ m = 6 ∨ m = 9 ∨ m = 11 then 30 else 31
/-- Seconds of a date and time since the start of 1970, none where a field is out of its range; an earlier date counts as that start. -/
def civilSeconds (y mo d h mi sec : Nat) : Option Nat :=
  if 1 ≤ mo ∧ mo ≤ 12 ∧ 1 ≤ d ∧ d ≤ monthDays y mo ∧ h < 24 ∧ mi < 60 ∧ sec < 60 then
    let days := daysBefore y + ((List.range (mo - 1)).map (fun i => monthDays y (i + 1))).sum + (d - 1)
    some (if y < 1970 then 0 else (days - daysBefore 1970) * 86400 + h * 3600 + mi * 60 + sec)
  else none
/-- A time of a certificate's validity: the element at the front, UTCTime or GeneralizedTime, in seconds since 1970, and what follows it. -/
def certTime (b : List Byte) : Option (Nat × List Byte) :=
  let read (c : List Byte) (ylen : Nat) (year : Nat → Nat) : Option Nat :=
    match digitsVal (c.take ylen), digitsVal ((c.drop ylen).take 2), digitsVal ((c.drop (ylen + 2)).take 2), digitsVal ((c.drop (ylen + 4)).take 2),
        digitsVal ((c.drop (ylen + 6)).take 2), digitsVal ((c.drop (ylen + 8)).take 2) with
    | some y, some mo, some d, some h, some mi, some sec => if c.drop (ylen + 10) = [0x5A] then civilSeconds (year y) mo d h mi sec else none
    | _, _, _, _, _, _ => none
  match derTake b with
  | some (0x17, c, r) => (read c 2 (fun y => if y < 50 then 2000 + y else 1900 + y)).map (fun t => (t, r))
  | some (0x18, c, r) => (read c 4 (fun y => y)).map (fun t => (t, r))
  | _ => none

/-- What R383 reads of a certificate: the signed bytes, the validity, the subject key and the signature as r then s. -/
structure Cert where
  signed : List Byte
  from_ : Nat
  to_ : Nat
  key : List Byte
  sig : List Byte
deriving DecidableEq, Repr

/-- The algorithm identifier of ECDSA with SHA-256. -/
def ecdsaSha256Id : List Byte := [0x06, 0x08, 0x2A, 0x86, 0x48, 0xCE, 0x3D, 0x04, 0x03, 0x02]
/-- The algorithm identifier of a P-256 public key. -/
def p256KeyId : List Byte := [0x06, 0x07, 0x2A, 0x86, 0x48, 0xCE, 0x3D, 0x02, 0x01, 0x06, 0x08, 0x2A, 0x86, 0x48, 0xCE, 0x3D, 0x03, 0x01, 0x07]

/-- The signature of a certificate, as 64 bytes. -/
def certSig (b : List Byte) : Option (List Byte) := do
  let bits ← derOnly 0x03 b
  let pair ← if bits.headD 1 = 0 then derOnly 0x30 (bits.drop 1) else none
  let (c1, rest) ← derOf 0x02 pair
  let r ← derNat c1
  let c2 ← derOnly 0x02 rest
  let v ← derNat c2
  if r < 2 ^ 256 ∧ v < 2 ^ 256 then some (toBytesBE 32 r ++ toBytesBE 32 v) else none

/-- The subject key of a SubjectPublicKeyInfo at the front, a P-256 key, and what follows it. -/
def certKeyInfo (b : List Byte) : Option (List Byte × List Byte) := do
  let (info, rest) ← derOf 0x30 b
  let (alg, bits) ← derOf 0x30 info
  let k ← derOnly 0x03 bits
  if alg = p256KeyId ∧ k.headD 1 = 0 ∧ (ptOfBytes (k.drop 1)).isSome then some (k.drop 1, rest) else none

/-- A certificate read (R383): none where the bytes are none of its kind. -/
def certOf (b : List Byte) : Option Cert := do
  let whole ← if b.length ≤ 1024 then derOnly 0x30 b else none
  let (tbs, r0) ← derOf 0x30 whole
  let (alg, r1) ← derOf 0x30 r0
  let sig ← certSig r1
  let r2 ← if alg = ecdsaSha256Id ∧ tbs.take 5 = [0xA0, 0x03, 0x02, 0x01, 0x02] then some (tbs.drop 5) else none
  let (serial, r3) ← derOf 0x02 r2
  let (alg2, r4) ← derOf 0x30 r3
  let (_, r5) ← derOf 0x30 r4
  let (validity, r6) ← derOf 0x30 r5
  let (_, r7) ← derOf 0x30 r6
  let (key, r8) ← certKeyInfo r7
  let (t0, v1) ← certTime validity
  let (t1, v2) ← certTime v1
  let r9 := derPass 0xA3 (derPass 0x82 (derPass 0x81 r8))
  if serial ≠ [] ∧ alg2 = ecdsaSha256Id ∧ v2 = [] ∧ r9 = [] then
    some { signed := whole.take (whole.length - r0.length), from_ := t0, to_ := t1, key := key, sig := sig }
  else none

/-- The subject key of a certificate that passes R383's checks under one of the anchors' keys: now is the time in seconds since 1970 where it is valid,
none where it is not and the dates are not checked. -/
def certKeyUnder (anchors : List (List Byte)) (now : Option Nat) (b : List Byte) : Option (List Byte) :=
  match certOf b with
  | none => none
  | some c =>
    let dated := match now with
      | some t => decide (c.from_ ≤ t) && decide (t ≤ c.to_)
      | none => true
    if dated && anchors.any (fun a => ecdsaVerify a c.signed c.sig) then some c.key else none

end Sys2Proof.Machine
end

