-- ==== Sys2Proof/Machine/Seal.lean ====
section
/-!
DEFINITION. Machine/Seal.lean: the seal engine's keys and jobs (R435–R443), the journal and its guard (R448–R454), pairing
(R446, R447), and writes into eMRAM.
-/
namespace Sys2Proof.Machine

/-- The seal engine changed. -/
def State.modSeal (s : State) (f : Seal → Seal) : State := { s with sealEng := f s.sealEng }
/-- A register of slot 0x030. -/
def State.sreg (s : State) (off : Nat) : Word := s.reg 0x030 off

/-- JLOCK. -/
def State.jlocked (s : State) : Bool := bit (s.sreg 0x1204) 0
/-- JNEXT. -/
def State.jnext (s : State) : Word := s.sreg 0x1208
/-- JEXPSEQ. -/
def State.jexpseq (s : State) : Word := s.sreg 0x120C
/-- The first byte of the journal region (R448). -/
def State.journalBase (s : State) : Nat := fld (s.sreg 0x1200) 15 0 * 0x100000
/-- The line of record seq (R448). -/
def State.journalLine (s : State) (seq : Nat) : Nat := s.journalBase + 64 * (seq % 16384)
/-- Whether the journal guard is in force for an address (R449). -/
def State.inJournal (s : State) (pa : Nat) : Bool := s.jlocked && decide (s.journalBase ≤ pa) && decide (pa < s.journalBase + 0x100000)

/-- A refusal of the guard (R450): REFUSED, JREFUSED, the line leaves every data cache, IRQ47; the controller's own event. -/
def State.journalRefuse (s : State) (line : Nat) : State :=
  let s1 := (s.modReg 0x030 0x1210 (· ||| 1)).modReg 0x030 0x1214 (· + 1)
  let s2 := s1.mapTiles (·.modCaches (fun c => { c with dc := dropLines c.dc (fun x => x.pa == line) }))
  (s2.raise 47).event 0x024 0x1004 52 4

/-- Bytes written inside one line of the region while the guard is in force: gathered in the line of record JNEXT, refused elsewhere
(R449, R450). -/
def State.journalStore (s : State) (pa : Nat) (bs : List Byte) : State :=
  if lineOf pa = s.journalLine s.jnext.toNat then
    s.modSeal (fun e => { e with gather := ((List.range bs.length).zip bs).foldl (fun g x => Sparse.put (pa + x.1 - lineOf pa) x.2 g) e.gather })
  else s.journalRefuse (lineOf pa)

/-- The ledger region (R482) while LLOCK = 1. -/
def State.inLedger (s : State) (pa : Nat) : Bool :=
  let c := s.reg 0x00F 0x1000
  bit c 31 && decide (fld c 23 0 * 4096 / 0x8000 * 0x8000 ≤ pa) && decide (pa < fld c 23 0 * 4096 / 0x8000 * 0x8000 + 0x8000)

/-- A write inside one line of eMRAM as its controller takes it (R18, R449, R482): the journal guard gathers or refuses it; the ledger
guard refuses it with an error response, which the second value says; otherwise the bytes are merged into the line. -/
def State.emramStore (s : State) (pa : Nat) (bs : List Byte) : State × Bool :=
  if s.inJournal pa then (s.journalStore pa bs, false)
  else if s.inLedger pa then (s.event 0x024 0x1004 52 4, true)
  else (s.memWrite pa bs, false)

/-- The parts of a byte string from an address that lie in one line each. -/
def linePieces (pa : Nat) (bs : List Byte) : List (Nat × List Byte) :=
  (List.range ((pa % 64 + bs.length + 63) / 64)).map (fun i =>
    let lo := max pa (lineOf pa + 64 * i)
    let hi := min (pa + bs.length) (lineOf pa + 64 * i + 64)
    (lo, (bs.drop (lo - pa)).take (hi - lo)))

/-- Bytes written by a system master to any memory (R56, R145); each eMRAM line counts as one programming (R18);
the second value says that the target answered with an error. -/
def State.masterStore (s : State) (pa : Nat) (bs : List Byte) : State × Bool :=
  match s.place pa with
  | .emram =>
    let s0 := s.dropCopies pa bs.length
    (linePieces pa bs).foldl (fun a p =>
      let r := a.1.emramStore p.1 p.2
      (if r.2 || a.1.inJournal p.1 then r.1 else r.1.modReg 0x024 0x100C (· + 1), a.2 || r.2)) (s0, false)
  | .sram | .dram | .ember => (s.masterWriteMem pa bs, false)
  | .reserved => (s.reservedEvent, true)
  | _ => (s, true)

/-- The line buffer's check once all 64 bytes of the tail line are gathered (R450): the line is programmed and JNEXT rises, or the buffer
is discarded and the write refused. It waits while its bank programs another line. -/
def State.journalCheck (s : State) : State :=
  let bank := (s.journalBase - 0x8000000) / 0x100000 % 4
  if !s.jlocked || s.sealEng.gather.length != 64 || (vget s.mem.progs bank none).isSome then s
  else
    let bs := s.sealEng.gather.map (·.2)
    let line := s.journalLine s.jnext.toNat
    let s1 := s.modSeal (fun e => { e with gather := [] })
    if ofBytes (bs.take 4) = s.jnext.toNat ∧ (s.jnext - s.jexpseq).toNat < 16384 then
      let s2 := (s1.memWrite line bs).setReg 0x030 0x1208 (s.jnext + 1)
      let m := s2.mem
      ({ s2 with mem := { m with progs := vset m.progs bank (some { line := line, mask := BitVec.allOnes 64, who := .seal, old := s.mem.read line 64 }) } }).modSeal
        (fun e => { e with busy := true })
    else s1.journalRefuse line

/-- JSEED, the value of 0x8010:01. -/
def State.jseed (s : State) : List Byte := ((Sparse.find? 0x801001 s.dict.vals).getD (Config.partInfo 0x801001)).take 16
/-- The CHAIN that precedes record seq (R448). -/
def State.chainBefore (s : State) (seq : Nat) : List Byte :=
  if seq = 0 then s.jseed else s.mem.read (s.journalLine (seq - 1) + 0x30) 16
/-- Whether the time block reports lock, or holdover of less than 1 s (R443). -/
def State.timeValid (s : State) : Bool := s.tb.locked || s.tb.holdover.any (fun t => decide (s.now < t + 1000000))

/-- A record that the Trade image appends and retains (Table 14-6, R450, R451); the guard refuses it while the journal is full. Before JLOCK
nothing is appended (R452). -/
def State.journalAppend (s : State) (kind flags lane : Nat) (data : List Byte) : State :=
  if !s.jlocked then s
  else
    let n := s.jnext.toNat
    let line := s.journalLine n
    let head := toBytes 4 n ++ toBytes 1 kind ++ toBytes 1 (flags + b2n s.timeValid + 2 * b2n s.bus.ride.isSome) ++ toBytes 1 lane ++ [0]
      ++ toBytes 8 (s.rtc.time / 2 ^ 32) ++ (data ++ List.replicate (32 - data.length) 0).take 32
    let s1 := s.modSeal (fun e => { e with gather := [] })
    if (s.jnext - s.jexpseq).toNat < 16384 then
      (((s1.dropCopies line 64).memWrite line (head ++ (sha256 (s.chainBefore n ++ head)).take 16)).setReg 0x030 0x1208 (s.jnext + 1)).modReg
        0x024 0x100C (· + 1)
    else s1.journalRefuse line

/-- Key slot k. -/
def State.keySlot (s : State) (k : Nat) : KeySlot := Sparse.get KeySlot.reset k s.sealEng.slots
/-- Key slot k changed. -/
def State.setKeySlot (s : State) (k : Nat) (x : KeySlot) : State := s.modSeal (fun e => { e with slots := Sparse.write KeySlot.reset k x e.slots })
/-- The slot that KSEL names. -/
def State.ksel (s : State) : Nat := fld (s.sreg 0x1100) 4 0
/-- KDATAw. -/
def State.kdata (s : State) (w : Nat) : Word := s.sreg (0x1120 + 4 * w)
/-- KDATA0 to KDATA9 set, and whether they read as they are. -/
def State.setKdata (s : State) (ws : List Word) (shown : Bool) : State :=
  ((List.range 10).foldl (fun s i => s.setReg 0x030 (0x1120 + 4 * i) (ws.getD i 0)) s).modSeal (fun e => { e with shown := shown })
/-- Whether a PAIRID is held by a slot other than k. -/
def State.pairHeld (s : State) (k id : Nat) : Bool := s.sealEng.slots.any (fun p => p.1 != k && p.2.valid && p.2.pairid == id)
/-- The wrap key. -/
def wrapKey : List Byte := (List.range 32).map Config.wrapKeyByte

/-- LOAD_CLEAR; none where it is refused (Table 14-2). -/
def State.loadClear (s : State) : Option State :=
  let k := s.ksel
  let id := fld (s.kdata 4) 15 0
  let seq := (s.kdata 5).toNat
  if id = 0 ∨ s.pairHeld k id = true ∨ 0xFFFEFFFF < seq then none
  else
    let key := ((List.range 4).map (fun i => toBytes 4 (s.kdata i).toNat)).flatten
    some ((s.setKeySlot k { key := key, pairid := id, seq := seq, limit := seq + 65536, valid := true, armed := false }).setKdata [] false)

/-- The unwrapped record p loaded into the selected slot: none where the pairing is held already or LIMIT is out of range (R437). -/
def State.loadRecord (s : State) (p : List Byte) : Option State :=
  let k := s.ksel
  let id := frameVal p 16 2
  let lim := frameVal p 20 4
  if s.pairHeld k id = true ∨ 0xFFFEFFFF < lim then none
  else some ((s.setKeySlot k { key := p.take 16, pairid := id, seq := lim, limit := lim + 65536, valid := true, armed := false }).setKdata [] false)

/-- LOAD_WRAPPED. -/
def State.loadWrapped (s : State) : Option State :=
  (keyUnwrap wrapKey ((List.range 10).map (fun i => toBytes 4 (s.kdata i).toNat)).flatten).bind s.loadRecord

/-- The wrapped record of a slot (R437). -/
def KeySlot.wrapped (x : KeySlot) : List Byte := keyWrap wrapKey (x.key ++ toBytes 2 x.pairid ++ [0, 0] ++ toBytes 4 x.limit ++ List.replicate 8 0)

/-- WRAP_OUT. -/
def State.wrapOut (s : State) : Option State :=
  let x := s.keySlot s.ksel
  if !x.valid then none
  else
    let c := x.wrapped
    some ((s.setKeySlot s.ksel { x with armed := true }).setKdata ((List.range 10).map (fun i => BitVec.ofNat 32 (frameVal c (4 * i) 4))) true)

/-- ERASE. -/
def State.keyErase (s : State) : State := s.setKeySlot s.ksel KeySlot.reset

/-- EXTEND. -/
def State.keyExtend (s : State) : Option State :=
  let x := s.keySlot s.ksel
  if !x.valid || decide (0xFFFEFFFF < x.limit) then none
  else some (s.setKeySlot s.ksel { x with limit := x.limit + 65536, armed := false })

/-- A write of KCMD (Table 14-2); a code the table does not list does nothing. A command other than WRAP_OUT hides what WRAP_OUT showed. -/
def State.kcmd (s : State) (v : Word) : State × BusRes :=
  let fin (o : Option State) : State × BusRes := match o with
    | some s1 => (s1, .ok 0)
    | none => (s, .err busErr)
  let s0 := s.modSeal (fun e => { e with shown := false })
  match fld v 2 0 with
  | 1 => fin s0.loadClear
  | 2 => fin s0.loadWrapped
  | 3 => fin s.wrapOut
  | 4 => fin (some s0.keyErase)
  | 5 => fin s0.keyExtend
  | _ => (s, .ok 0)

/-- A write of JSUBMIT (R439). -/
def State.jsubmit (s : State) (v : Word) : State × BusRes :=
  if 8 ≤ s.sealEng.jobs.length then (s, .err busErr) else (s.modSeal (fun e => { e with jobs := e.jobs ++ [v.toNat * 16] }), .ok 0)

/-- Whether the seal DMA may access n bytes (R441): its master-side unit, and a place that is memory. -/
def State.sealMay (s : State) (pa n : Nat) (write : Bool) : Bool :=
  s.masterAllows 2 pa n write &&
  match s.place pa with
  | .sram | .dram | .emram | .ember => true
  | .rom => !write
  | _ => false

/-- Whether a template and FLAGS are valid (R440). -/
def jobValid (b : List Byte) : Bool :=
  frameByte b 0 == 1 && decide (frameByte b 1 ≤ 5) && decide (frameByte b 0x19 ≤ 6) && frameByte b 0x1B == 0 && frameByte b 0x1F == 0
    && decide (frameByte b 0x25 ≤ 1)

/-- The frame that the engine writes for a template under a key slot (R440, R443, Table 14-4). -/
def State.sealFrame (s : State) (x : KeySlot) (b : List Byte) : List Byte :=
  let st := frameByte b 0x1A
  let body := b.take 2 ++ toBytes 2 x.pairid ++ toBytes 4 x.seq ++ toBytes 8 s.ptp ++ (b.drop 0x10).take 10
    ++ toBytes 1 (st - st / 32 % 2 * 32 + b2n s.timeValid * 32) ++ (b.drop 0x1B).take 5
  body ++ (cmac x.key body).take 8

/-- The registers after a job that completed with a status. -/
def State.jobCount (s : State) (st : Nat) : State :=
  if st = 0 then s.modReg 0x030 0x1008 (· + 1) else (s.modReg 0x030 0x100C (· + 1)).modReg 0x030 0x1000 (fun v => setFld v 7 0 st)

/-- The completion of the job at a descriptor (R440 step 6): JSTAT and SEQOUT where the write-back is allowed, IRQ47 where FLAGS ask for it. -/
def State.jobEnd (s : State) (a flags st seq : Nat) : State :=
  let s1 := s.jobCount st
  let s2 :=
    if s1.sealMay (a + 0x26) 6 true then ((s1.masterStore (a + 0x26) (toBytes 1 st)).1.masterStore (a + 0x28) (toBytes 4 seq)).1
    else s1.raise 45
  if flags % 2 = 1 then s2.raise 47 else s2

/-- The job at the head of the queue (R440, R441). -/
def State.sealRun (s : State) : State :=
  match s.sealEng.jobs with
  | [] => s
  | a :: r =>
    let s0 := s.modSeal (fun e => { e with jobs := r })
    if !s0.sealMay a 48 false then (s0.modReg 0x030 0x1000 (fun v => setFld v 7 0 4)).raise 45
    else
      let (s1, b, bad) := s0.masterRead a 48
      let s1 := if bad then s1.raise 45 else s1
      let k := frameByte b 0x24
      let x := s1.keySlot k
      let dest := frameVal b 0x20 4 * 16
      let flags := frameByte b 0x25
      if !x.valid || !x.armed then s1.jobEnd a flags 1 0
      else if x.seq = x.limit then s1.jobEnd a flags 2 0
      else if !jobValid b then s1.jobEnd a flags 3 0
      else if !s1.sealMay dest 40 true then (s1.raise 45).jobEnd a flags 4 0
      else
        let w := s1.masterStore dest (s1.sealFrame x b)
        if w.2 then (w.1.raise 45).jobEnd a flags 4 0
        else (w.1.setKeySlot k { x with seq := x.seq + 1 }).jobEnd a flags 0 x.seq

/-- A write of JEXPSEQ (R449). -/
def State.jexpWrite (s : State) (v : Word) : State × BusRes :=
  if s.jlocked && !(decide (s.jexpseq < v) && decide (v ≤ s.jnext)) then (s, .err busErr) else (s.setReg 0x030 0x120C v, .ok 0)

/-- Reads of slot 0x030 (Table 14-1). -/
def State.sealRead (s : State) (off : Nat) : Word :=
  let x := s.keySlot s.ksel
  match off with
  | 0x1000 => setFld (s.sreg 0x1000) 11 8 s.sealEng.jobs.length
  | 0x1004 => 0
  | 0x1104 => 0
  | 0x1108 => BitVec.ofNat 32 (b2n x.valid * 2 ^ 31 + b2n x.armed * 2 ^ 30 + x.pairid)
  | 0x110C => BitVec.ofNat 32 x.seq
  | 0x1110 => BitVec.ofNat 32 x.limit
  | 0x1210 => setBit (setBit (s.sreg 0x1210) 31 s.sealEng.busy) 1 ((s.jnext - s.jexpseq).toNat == 16384)
  | _ => if 0x1120 ≤ off ∧ off < 0x1148 ∧ !s.sealEng.shown then 0 else s.plainRead .trade 0x030 off

/-- Writes of slot 0x030. -/
def State.sealWrite (s : State) (off : Nat) (v : Word) : State × BusRes :=
  match off with
  | 0x1004 => s.jsubmit v
  | 0x1104 => s.kcmd v
  | 0x1204 => (s.setReg 0x030 0x1204 (s.sreg 0x1204 ||| (v &&& 1)), .ok 0)
  | 0x1200 => if s.jlocked then (s, .err busErr) else (s.plainWrite .trade 0x030 off v, .ok 0)
  | 0x1208 => if s.jlocked then (s, .err busErr) else (s.plainWrite .trade 0x030 off v, .ok 0)
  | 0x120C => s.jexpWrite v
  | _ =>
    let s1 := if 0x1120 ≤ off ∧ off < 0x1148 then s.modSeal (fun e => { e with shown := false }) else s
    (s1.plainWrite .trade 0x030 off v, .ok 0)

/-- The Trade image's answer to a forwarded write of an entry, where one waits (R356). -/
def State.tradeAnswer (s : State) (key st : Nat) : State :=
  match s.dict.fwds.find? (fun f => f.world == .trade && f.req.op == 2 && f.req.key == key) with
  | none => s
  | some f => (s.emberWrite (mailboxOf .trade + 0x800 + 64 * f.slot + 5) (toBytes 1 st)).fwdDone .trade f.slot

/-- A key slot erased by the Trade image. -/
def State.eraseSlot (s : State) (k : Nat) : State := (s.setReg 0x030 0x1100 (BitVec.ofNat 32 k)).keyErase
/-- A pairing that ends with a result code and ERASE of its slot (R447). -/
def State.pairFail (s : State) (k code : Nat) : State := (s.eraseSlot k).modSeal (fun e => { e with pairing := none, pairResult := code })

/-- The data of a pairing record (Table 14-7 kind 6). -/
def State.pairData (s : State) (p : Pairing) : List Byte :=
  toBytes 2 p.pairid ++ toBytes 1 p.node ++ toBytes 1 p.slot ++ s.enrAddr p.lane p.node

/-- The first PAIRID no slot holds, from an open start. -/
def State.newPairid (s : State) : Nat :=
  let n (i : Nat) : Nat := ((Config.freeWord s.free).toNat + i) % 65535 + 1
  (((List.range 33).map n).find? (fun id => !s.pairHeld 32 id)).getD 1

/-- The end of a pairing at DONE (Table 14-5 step 4): PAIRID and the SEQ of CHECK agree, or the pairing fails. -/
def State.pairDone (s : State) (p : Pairing) (d : List Byte) : State :=
  if frameVal d 0 2 = p.pairid ∧ frameVal d 2 4 = 1 ∧ d.length = 6 then
    (s.modSeal (fun e => { e with pairing := none, pairResult := 1, pairings := Sparse.put p.pairid p e.pairings })).journalAppend 6 0 p.lane
      (s.pairData p)
  else s.pairFail p.slot 6

/-- CHECK (Table 14-5 step 3): the key loaded with SEQ 1 and wrapped, and a frame of KIND 0 sealed with it (R447). -/
def State.pairLoad (s : State) (p : Pairing) (key : List Byte) : State :=
  let ws := (List.range 4).map (fun i => BitVec.ofNat 32 (frameVal key (4 * i) 4)) ++ [BitVec.ofNat 32 p.pairid, 1]
  let s1 := (s.setReg 0x030 0x1100 (BitVec.ofNat 32 p.slot)).setKdata ws false
  let s2 := (s1.loadClear.getD s1)
  let s3 := (s2.wrapOut.getD s2)
  let x := s3.keySlot p.slot
  (s3.setKeySlot p.slot { x with seq := x.seq + 1 }).jobCount 0

/-- The time that certificates' dates are checked against, in seconds since 1970, where the time block reports it as valid (R383). -/
def State.certNow (s : State) : Option Nat := if s.rtcValid then some (s.rtcNs / 1000000000 - Config.utcOffset) else none
/-- A signature of the part's own signing key (0x0220:04), its secret number a free one. -/
def State.deviceSign (s : State) (msg : List Byte) : List Byte := ecdsaSign (privOf Config.deviceKey) (privOf (Config.signNonce s.free)) msg

/-- A pairing of a display (R446, R447): accept and done are the display's messages, where they come; anchors the keys of 0x8003:01. -/
def State.pair (s : State) (target : Nat) (anchors : List (List Byte)) (accept done : Option (List Byte)) : State :=
  let lane := target / 256
  let node := target % 256
  if 15 < lane ∨ node = 0 ∨ 7 < node then s.tradeAnswer 0x800201 6
  else if s.sealEng.pairing.isSome then s.tradeAnswer 0x800201 8
  else
    let s0 := s.tradeAnswer 0x800201 0
    match (List.range 32).find? (fun k => !(s0.keySlot k).valid) with
    | none => s0.modSeal (fun e => { e with pairResult := 5 })
    | some k =>
      let p : Pairing := { lane := lane, node := node, slot := k, pairid := s0.newPairid, since := s0.now }
      let n := s0.free
      let s1 : State := { s0.modSeal (fun e => { e with pairing := some p, pairResult := 7 }) with free := n + 5 }
      let nd := ((List.range 4).map (fun i => toBytes 4 (Config.entropy (n + 1 + i)).toNat)).flatten
      let offer0 := toBytes 2 p.pairid ++ nd ++ ptBytes (ptMul (privOf (Config.ephemeralKey n)) p256G)
      let offer := offer0 ++ s1.deviceSign offer0
      match accept with
      | none => s1
      | some a =>
        let len := frameVal a 81 2
        let cert := (a.drop 83).take len
        if 1024 < len ∨ a.length ≠ 147 + len then s1.pairFail k 3
        else
          match certKeyUnder anchors s1.certNow cert with
          | none => s1.pairFail k 3
          | some peer =>
            match ecdhX (privOf (Config.ephemeralKey n)) ((a.drop 16).take 65) with
            | none => s1.pairFail k 4
            | some z =>
              if !ecdsaVerify peer (offer ++ a.take (83 + len)) (a.drop (83 + len)) then s1.pairFail k 4
              else
                let key := hkdf256 (nd ++ a.take 16) z (asciiBytes "Seal1" ++ toBytes 2 p.pairid) 16
                let s2 := s1.pairLoad p key
                match done with
                | none => s2
                | some d => s2.pairDone p d

/-- A pairing that has not reached DONE within 10 s (R447). -/
def State.pairTimeout (s : State) : State :=
  match s.sealEng.pairing with
  | some p => if p.since + 10000000 ≤ s.now then s.pairFail p.slot 2 else s
  | none => s

/-- Unpairing (R447): a PAIRID that no slot holds is answered RANGE. -/
def State.unpair (s : State) (id : Nat) : State :=
  match s.sealEng.slots.find? (fun x => x.2.valid && x.2.pairid == id) with
  | none => s.tradeAnswer 0x800202 6
  | some x =>
    let p := (Sparse.find? id s.sealEng.pairings).getD { lane := 0xFF, node := 0, slot := x.1, pairid := id, since := 0 }
    let data := s.pairData p
    (((s.eraseSlot x.1).modSeal (fun e => { e with pairings := Sparse.erase id e.pairings })).journalAppend 6 4 p.lane data).tradeAnswer 0x800202 0

/-- What is wrong with record seq of an export (Table 14-8): not in the ring, an uncorrectable error, a CHAIN that fails; 0 for nothing.
first says that it is the first of the range, whose predecessor may have left the ring. -/
def State.recordBad (s : State) (seq : Nat) (first : Bool) : Nat :=
  let line := s.journalLine seq
  let b := s.mem.read line 64
  let old := seq != 0 && (s.mem.val (s.journalLine (seq - 1)) 4 != seq - 1 || s.isDamaged (s.journalLine (seq - 1)) 64)
  if s.jnext.toNat ≤ seq ∨ seq + 16384 < s.jnext.toNat then 1
  else if s.isDamaged line 64 then 3
  else if frameVal b 0 4 ≠ seq then 1
  else if first && old then 0
  else if (sha256 (s.chainBefore seq ++ b.take 0x30)).take 16 = b.drop 0x30 then 0
  else 4

/-- The export that JOURNAL_EXPORT makes, or the reason it fails (R453). -/
def State.exportOf (s : State) (arg : List Byte) : Except Nat (Export × List Byte) :=
  let first := frameVal arg 0 4
  let n := frameVal arg 4 2
  if n = 0 ∨ 128 < n ∨ (arg.drop 6).any (· != 0) = true then .error 2
  else
    match ((List.range n).map (fun i => s.recordBad (first + i) (i == 0))).find? (· != 0) with
    | some r => .error r
    | none =>
      let recs := ((List.range n).map (fun i => s.mem.read (s.journalLine (first + i)) 64)).flatten
      let res := toBytes 4 first ++ toBytes 2 n ++ [0, 0] ++ recs.drop (64 * n - 16) ++ List.replicate 8 0
      .ok ({ first := first, count := n, records := recs, sig := s.deviceSign (res ++ sha256 recs) }, res)

/-- JOURNAL_EXPORT's work in its one step (R369, R453): nothing is replaced unless it ends DONE. -/
def State.exportStep (s : State) : State :=
  match s.dict.granted .trade with
  | some (3, _) =>
    match s.exportOf (s.dict.cmd 3).arg with
    | .error r => s.stepDone .trade (BitVec.ofNat 32 (1 + r * 2 ^ 16))
    | .ok (e, res) =>
      let s1 := (s.stepN .trade 1).stepDone .trade 0
      if (s1.dict.cmd 3).st = 2 then
        { (s1.modDict (fun d => d.setCmd 3 { d.cmd 3 with result := res })).modSeal (fun x => { x with exported := some e }) with free := s1.free + 1 }
      else s1
  | _ => s

/-- An export acknowledged through record v (R454). -/
def State.exportAck (s : State) (v : Word) : State :=
  let ok := match s.sealEng.exported with
    | some e => decide (e.first ≤ v.toNat) && decide (v.toNat < e.first + e.count) && decide (s.jexpseq ≤ v)
    | none => false
  if ok then
    ((s.journalAppend 11 0 0xFF (toBytes 4 v.toNat ++ toBytes 4 (v.toNat + 1))).jexpWrite (v + 1)).1.tradeAnswer 0x801201 0
  else s.tradeAnswer 0x801201 6

end Sys2Proof.Machine
end

