-- ==== Sys2Proof/Machine/Power.lean ====
section
/-!
DEFINITION. Machine/Power.lean: the bus die (R456–R478): ports, island budget, storage converter, ride-through, sequencer tables, and the
causeway (R13, R559, R560).
-/
namespace Sys2Proof.Machine

/-- The bus die changed. -/
def State.modBus (s : State) (f : BusDie → BusDie) : State := { s with bus := f s.bus }
/-- Port p's controller. -/
def State.hot (s : State) (p : Nat) : Hot := vget s.bus.hots p Hot.reset
/-- Port p's controller changed. -/
def State.modHot (s : State) (p : Nat) (f : Hot → Hot) : State := s.modBus (fun b => { b with hots := vset b.hots p (f (s.hot p)) })
/-- A register of port p's slot. -/
def State.preg (s : State) (p off : Nat) : Word := s.reg (0x090 + p) off
/-- STATE of port p: 0 OFF, 1 INRUSH, 2 ON, 3 SMOULDERING, 4 SHED, 5 ASHED. -/
def State.pst (s : State) (p : Nat) : Nat := fld (s.preg p 0x1004) 31 29
/-- SHR of port p. -/
def State.shr (s : State) (p : Nat) : Nat := fld (s.preg p 0x1004) 28 27
/-- CLASS of port p. -/
def State.pclass (s : State) (p : Nat) : Nat := fld (s.preg p 0x1000) 30 29
/-- BSTATE: 0 NORMAL, 1 RIDE, 2 EXPIRED, 3 RESTORE, 4 OVLO. -/
def State.bstate (s : State) : Nat := fld (s.reg 0x081 0x1000) 31 29
/-- BSTATE changed. -/
def State.setBstate (s : State) (b : Nat) : State := s.modReg 0x081 0x1000 (fun v => setFld v 31 29 b)
/-- OVER. -/
def State.over (s : State) : Bool := bit (s.reg 0x081 0x1000) 28
/-- SSTATE: 0 IDLE, 1 CC, 2 CV, 3 FULL, 4 DISCHARGE, 5 TEMPSTOP, 6 ASHED. -/
def State.sstate (s : State) : Nat := fld (s.reg 0x083 0x1010) 31 29
/-- SSTATE changed. -/
def State.setSstate (s : State) (b : Nat) : State := s.modReg 0x083 0x1010 (fun v => setFld v 31 29 b)
/-- VSTORE in units of 10 mV. -/
def State.vstore (s : State) : Nat := fld (s.reg 0x083 0x1010) 15 0
/-- Bits of BEVENT, with its level source. -/
def State.bevent (s : State) (bits : Word) : State := s.event 0x081 0x1018 289 bits
/-- Bits of SEVENT. -/
def State.sevent (s : State) (bits : Word) : State := s.event 0x083 0x1024 291 bits
/-- New bits of PEVENT. -/
def State.pevent (s : State) (p : Nat) (bits : Word) : State := s.newEvent (0x090 + p) 0x101C (304 + p) bits

/-- A word of the sequencer tables in use (R478). -/
def State.tab (s : State) (off : Nat) : Word := Sparse.get (regReset .trade 0x082 off) off s.bus.tabs
/-- The port retry table, THRESH, WINDOW in use. -/
def State.portRetry (s : State) (k : Nat) : Nat := (s.tab (0x1300 + 4 * k)).toNat
/-- THRESH in use. -/
def State.portThresh (s : State) : Nat := fld (s.tab 0x1310) 7 0
/-- WINDOW in use, in µs. -/
def State.portWindow (s : State) : Nat := fld (s.tab 0x1314) 15 0 * 1000000
/-- TFET in use. -/
def State.tfet (s : State) : Int := (fld (s.tab 0x1310) 23 16 : Nat)
/-- BTIME in use, in µs. -/
def State.btime (s : State) : Nat := fld (s.tab 0x1314) 23 16 * 1000
/-- FWARN in use, in µs. -/
def State.fwarn (s : State) : Nat := fld (s.tab 0x1314) 31 24 * 1000000
/-- The shed delay of class k in use, in ms. -/
def State.shedDelay (s : State) (k : Nat) : Nat := (s.tab (0x1320 + 4 * k)).toNat
/-- RSTEP in use, in µs. -/
def State.rstep (s : State) : Nat := fld (s.tab 0x1330) 15 0 * 1000
/-- The NTC that covers port p, if any (R470). -/
def State.portNtc (s : State) (p : Nat) : Option Nat := (List.range 8).find? (fun k => bit (s.tab (0x1340 + 4 * k)) p)

/-- RESTORE ends when no port waits for it and the port restored last has left INRUSH (R476). -/
def State.restoreCheck (s : State) : State :=
  let waits := (List.range 16).any (fun p => s.pst p == 4 && s.shr p != 0)
  let ramps := s.bus.restored.any (fun p => s.pst p == 1)
  if s.bstate = 3 ∧ waits = false ∧ ramps = false then
    (s.setBstate 0).modBus (fun b => { b with nextRestore := none, restored := none, lowSince := none })
  else s

/-- STATE of port p changed, with PEVENT bit 0. -/
def State.setPst (s : State) (p st : Nat) : State :=
  if s.pst p = st then s else (s.modReg (0x090 + p) 0x1004 (fun v => setFld v 31 29 st)).pevent p 1

/-- Port p starts INRUSH (R464, R465). -/
def State.portInrush (s : State) (p : Nat) : State :=
  (s.modHot p (fun h => { h with due := none, hot := false, inrush := some s.now })).setPst p 1

/-- Port p becomes SHED for a reason (R464). -/
def State.portShed (s : State) (p reason : Nat) : State :=
  (((s.modReg (0x090 + p) 0x1004 (fun v => setFld v 28 27 reason)).modHot p (fun h => { h with due := none, hot := false, inrush := none })).setPst p 4).pevent p 8

/-- Port p becomes OFF. -/
def State.portOff (s : State) (p : Nat) : State := (s.modHot p (fun h => { h with due := none, hot := false, inrush := none })).setPst p 0

/-- Port p becomes ASHED. -/
def State.portAsh (s : State) (p : Nat) : State :=
  if s.pst p = 5 then s
  else ((s.modHot p (fun h => { h with due := none, hot := false, inrush := none })).setPst p 5).pevent p 4

/-- Whether a port upset of a kind can occur in the port's state (Table 15-7). -/
def State.upsetApplies (s : State) (p kind : Nat) : Bool :=
  match kind with
  | 1 | 2 => s.pst p == 1 || s.pst p == 2
  | 3 => s.pst p == 1
  | 4 | 5 => s.pst p == 2
  | 6 => (s.pst p == 1 || s.pst p == 2) && (s.portNtc p).isSome
  | _ => false

/-- A port upset (R467, R468). -/
def State.portUpset (s : State) (p kind : Nat) : State :=
  if !s.upsetApplies p kind then s
  else
    let h := s.hot p
    let ups := s.now :: h.ups.filter (fun t => decide (s.now < t + s.portWindow))
    let n := ups.length
    let retry := min (n - 1) 3
    let ashed := decide (s.portThresh ≤ n)
    let s1 := s.modReg (0x090 + p) 0x1004 (fun v => setFld (setFld (setFld v 23 16 n) 15 12 kind) 11 10 retry)
    let s2 := ((s1.modReg (0x090 + p) 0x1014 (· + 1)).pevent p 2).modHot p (fun h => { h with ups := ups, inrush := none })
    let s3 := if ashed then s2.portAsh p
      else (s2.modHot p (fun h => { h with due := some (s.now + s.portRetry retry * 1000), hot := kind == 6 })).setPst p 3
    (s3.tell (.outcome p kind n retry ashed)).restoreCheck

/-- Whether a hard signature can be seen in the port's state (Table 15-7): the FET's gate is off for kinds 8 and 9; the test current of R465
flows at the start of INRUSH. -/
def State.hardApplies (s : State) (p kind : Nat) : Bool :=
  match kind with
  | 8 | 9 => s.pst p == 0 || s.pst p == 3 || s.pst p == 4
  | 10 => s.pst p == 1
  | _ => false

/-- A hard signature (R467): ASHED at once. -/
def State.hardSignature (s : State) (p kind : Nat) : State :=
  if !s.hardApplies p kind then s
  else
    let v := s.preg p 0x1004
    (((s.modReg (0x090 + p) 0x1004 (fun v => setFld v 15 12 kind)).portAsh p).tell
      (.outcome p kind (fld v 23 16) (fld v 11 10) true)).restoreCheck

/-- The end of a port's back-off (R467); a causeway that is lost holds the port in its state (R13). -/
def State.portBackoff (s : State) (p : Nat) : State :=
  let h := s.hot p
  if s.pst p = 3 ∧ h.hot = false ∧ s.bus.cwLost = false ∧ h.due.any (fun t => decide (t ≤ s.now)) = true then s.portInrush p else s

/-- The mapped NTC of a port reads a temperature after a kind 6 upset (R467). -/
def State.fetCooled (s : State) (p : Nat) (temp : BitVec 8) : State :=
  if s.pst p = 3 ∧ (s.hot p).hot = true ∧ temp.toInt ≤ s.tfet - 15 then (s.modHot p (fun h => { h with hot := false })).portBackoff p else s

/-- The ramp of port p completes. -/
def State.inrushComplete (s : State) (p : Nat) : State :=
  if s.pst p = 1 then ((s.modHot p (fun h => { h with inrush := none })).setPst p 2).restoreCheck else s

/-- A write of PCTL (R463, R464). -/
def State.pctlWrite (s : State) (p : Nat) (v : Word) : State × BusRes :=
  let old := s.preg p 0x1000
  let still := s.pst p == 0 || s.pst p == 5
  if decide (fld v 23 16 < 10) || decide (250 < fld v 23 16) || decide (fld v 7 0 < 5) || decide (50 < fld v 7 0)
      || (fld v 7 0 != fld old 7 0 && !still) || (bit v 31 && !s.bus.ashloaded) then (s, .err busErr)
  else
    let s1 := s.plainWrite .trade (0x090 + p) 0x1000 v
    if s1.pst p = 5 then (s1, .ok 0)
    else if !bit v 31 then ((s1.portOff p).restoreCheck, .ok 0)
    else if s1.pst p = 0 then
      (if s1.bstate = 4 then s1.portShed p 2 else if s1.over then s1.portShed p 0 else s1.portInrush p, .ok 0)
    else (s1, .ok 0)

/-- A write of ASHLOAD (R469). -/
def State.ashload (s : State) (v : Word) : State :=
  let s1 := (s.modReg 0x081 0x100C (· ||| (v &&& 0xFFFF))).modBus (fun b => { b with ashloaded := true })
  (List.range 16).foldl (fun s p => if bit v p then s.portAsh p else s) s1

/-- An ASHED port cleared (R471): OFF, EN, TRIPS and RETRY zero. -/
def State.portClear (s : State) (p : Nat) : State :=
  if s.pst p ≠ 5 then s
  else
    (((s.modReg (0x090 + p) 0x1000 (fun v => setBit v 31 false)).modReg (0x090 + p) 0x1004 (fun v => setFld (setFld v 23 16 0) 11 10 0)).modHot p
      (fun h => { h with ups := [] })).portOff p

/-- A write of PASHCLR (R471). -/
def State.pashclr (s : State) (p : Nat) : State :=
  if s.permitted p && s.pst p == 5 then (s.portClear p).tell (.clear p) else s

/-- PSTAT as it reads: TRIPS is the number of upsets in the window that slides. -/
def State.pstatRead (s : State) (p : Nat) : Word :=
  setFld (s.preg p 0x1004) 23 16 ((s.hot p).ups.filter (fun t => decide (s.now < t + s.portWindow))).length

/-- IBUS in mA from a measurement (R472). -/
def busCurrent (m : PowerMeas) : Nat := (m.imeas.map (fun x => x.toInt.toNat)).sum + m.conv.toInt.toNat

/-- The temperature of NTC k in a measurement. -/
def ntcTemp (m : PowerMeas) (k : Nat) : BitVec 8 := m.ntc.getD k 0x80
/-- STEMP from a measurement: the highest NTC marked STORE. -/
def State.storeTemp (s : State) (m : PowerMeas) : BitVec 8 :=
  (List.range 8).foldl (fun a k =>
    if bit (s.tab (0x1340 + 4 * k)) 16 && (a == 0x80 || decide (a.toInt < (ntcTemp m k).toInt)) then ntcTemp m k else a) 0x80

/-- The measurements of the ports in their registers. -/
def State.measurePorts (s : State) (m : PowerMeas) : State :=
  (List.range 16).foldl (fun s p =>
    ((s.setReg (0x090 + p) 0x1008 ((m.imeas.getD p 0).setWidth 32)).setReg (0x090 + p) 0x100C ((m.vout.getD p 0).setWidth 32)).setReg (0x090 + p) 0x1010
      (match s.portNtc p with
        | some k => (ntcTemp m k).setWidth 32
        | none => 0x80)) s

/-- The budget's tick (R472, R473): the measurements, IBUS, OVER, since when IBUS has been above CEIL or at most 0.9 · CEIL. -/
def State.budgetTick (s : State) (m : PowerMeas) : State :=
  let i := busCurrent m
  let ceil := fld (s.reg 0x081 0x1008) 15 0 * 10
  let high := decide (ceil < i)
  let s1 := ((s.measurePorts m).setReg 0x081 0x1004 (BitVec.ofNat 32 (min (i / 10) 0xFFFF))).setReg 0x081 0x1010 (m.logicp.setWidth 32)
  let s2 := s1.modReg 0x081 0x1000 (fun v => setFld (setBit v 28 high) 15 0 m.vbus.toNat)
  let s3 := ((s2.modReg 0x083 0x1010 (fun v => setFld v 15 0 m.vstore.toNat)).setReg 0x083 0x1014 (m.scurr.setWidth 32)).setReg 0x083 0x1020
    ((s.storeTemp m).setWidth 32)
  let s4 := if high && !s.over then s3.bevent 0x40 else s3
  s4.modBus (fun b =>
    { b with overSince := if high then some (b.overSince.getD s.now) else none
             lowSince := if 10 * i ≤ 9 * ceil then some (b.lowSince.getD s.now) else none })

/-- The port that is shed next among classes from lo to 3 (R472): the highest-numbered class, then the highest-numbered port, in INRUSH or ON. -/
def State.shedPick (s : State) (lo : Nat) : Option Nat :=
  (List.range 16).foldl (fun a p =>
    if (s.pst p == 1 || s.pst p == 2) && decide (lo ≤ s.pclass p) then
      match a with
      | none => some p
      | some q => if s.pclass q ≤ s.pclass p then some p else some q
    else a) none

/-- ICHG of the row in force, in mA. -/
def State.rowCurrent (s : State) : Nat := match s.bus.row with
  | some r => fld (s.tab (0x1400 + 8 * r)) 31 16
  | none => 0
/-- Whether the converter draws charging current from the bus. -/
def State.charging (s : State) : Bool := (s.sstate == 1 || s.sstate == 2) && s.bus.charge != some 0

/-- IBUS above CEIL for BTIME (R472): charging is reduced by what IBUS exceeds CEIL, then one port of classes 1 to 3 is shed. -/
def State.budgetShed (s : State) : State :=
  if !s.bus.overSince.any (fun t => decide (t + s.btime ≤ s.now)) then s
  else
    let s1 := s.modBus (fun b => { b with overSince := some s.now })
    if s1.charging then
      let excess := (fld (s.reg 0x081 0x1004) 15 0 - fld (s.reg 0x081 0x1008) 15 0) * 10
      s1.modBus (fun b => { b with charge := some (b.charge.getD s.rowCurrent - excess) })
    else
      match s1.shedPick 1 with
      | some p => (s1.portShed p 0).restoreCheck
      | none => s1

/-- The next port to restore among those SHED for a reason a test accepts: class by class upwards, the lowest-numbered port first. -/
def State.restorePick (s : State) (reason : Nat → Bool) : Option Nat :=
  ((List.range 64).map (fun i => (i / 16, i % 16))).find? (fun x => s.pst x.2 == 4 && s.pclass x.2 == x.1 && reason (s.shr x.2)) |>.map (·.2)

/-- Port p restored to INRUSH (R464). -/
def State.portRestore (s : State) (p : Nat) : State := (s.portInrush p).pevent p 16

/-- IBUS at or below 0.9 · CEIL for 1 s (R473, R477, R13). -/
def State.budgetRestore (s : State) : State :=
  if s.bstate ≠ 0 ∨ s.bus.cwLost = true ∨ s.bus.lowSince.any (fun t => decide (t + 1000000 ≤ s.now)) = false then s
  else
    let s1 := s.modBus (fun b => { b with lowSince := some s.now })
    let s2 := match s1.restorePick (· == 0) with
      | some p => s1.portRestore p
      | none => s1
    if (s2.restorePick (· == 0)).isNone then s2.modBus (fun b => { b with charge := none }) else s2

/-- A write of CEIL (Table 15-8). -/
def State.ceilWrite (s : State) (v : Word) : State × BusRes :=
  if fld v 15 0 < 100 ∨ 4000 < fld v 15 0 then (s, .err busErr) else (s.setReg 0x081 0x1008 (v &&& 0xFFFF), .ok 0)

/-- Word 0 of a charge row in use. -/
def State.chg0 (s : State) (r : Nat) : Word := s.tab (0x1400 + 8 * r)
/-- VCV of a charge row in use, in units of 10 mV. -/
def State.rowVcv (s : State) (r : Nat) : Nat := fld (s.tab (0x1404 + 8 * r)) 15 0
/-- The charge row for a temperature (R474). -/
def State.chargeRow (s : State) (temp : Int) : Option Nat :=
  ((List.range 8).takeWhile (fun r => fld (s.chg0 r) 31 16 != 0)).find? (fun r => decide (temp ≤ ((s.chg0 r).setWidth 8).toInt))

/-- The evaluation of charging every 100 ms (R474); own is the bus die's own temperature. -/
def State.chargeEval (s : State) (own : BitVec 8) : State :=
  if s.bus.convAshed ∨ s.sstate = 4 then s
  else if !bit (s.reg 0x083 0x1000) 31 || s.bstate != 0 then (s.modBus (fun b => { b with row := none, fullSince := none })).setSstate 0
  else
    let marked := (List.range 8).any (fun k => bit (s.tab (0x1340 + 4 * k)) 16)
    let temp : BitVec 8 := if marked then (s.reg 0x083 0x1020).setWidth 8 else own
    match s.chargeRow temp.toInt with
    | none =>
      let s1 := (s.modBus (fun b => { b with row := none, fullSince := none })).setSstate 5
      if s.sstate = 5 then s1 else s1.sevent 2
    | some r =>
      let s1 := s.modBus (fun b => { b with row := some r })
      let vcv := s.rowVcv r
      if s.sstate = 3 ∧ 98 * vcv ≤ 100 * s.vstore then s1
      else if s.vstore < vcv then (s1.modBus (fun b => { b with fullSince := none })).setSstate 1
      else
        let low := decide (((s.reg 0x083 0x1014).setWidth 16).toInt * 200 < (fld (s.chg0 r) 31 16 : Nat))
        (s1.modBus (fun b => { b with fullSince := if low then some (b.fullSince.getD s.now) else none })).setSstate 2

/-- The CV current below 5 % of ICHG for 10 s (R474). -/
def State.chargeFull (s : State) : State :=
  if s.sstate = 2 ∧ s.bus.fullSince.any (fun t => decide (t + 10000000 ≤ s.now)) = true then (s.setSstate 3).sevent 1 else s

/-- An upset of the storage converter for its ledger record, RID 87 (R475). -/
def State.convUpset (s : State) : State := (s.sevent 4).report { cls := 7, num := 1, kind := none, pa := 0, hard := false }

/-- The converter becomes ASHED (R475). -/
def State.convAsh (s : State) : State :=
  ((s.modBus (fun b => { b with convAshed := true })).setSstate 6).modReg 0x083 0x1000 (fun v => v &&& 0x3FFFFFFF)
/-- Its record cleared. -/
def State.convClear (s : State) : State :=
  if s.bus.convAshed then (s.modBus (fun b => { b with convAshed := false })).setSstate 0 else s

/-- Overvoltage lockout (R456, Table 15-1). -/
def State.ovlo (s : State) : State :=
  if s.bstate = 4 then s
  else
    let s1 := (List.range 16).foldl (fun s p => if s.pst p = 0 ∨ s.pst p = 5 then s else s.portShed p 2) s
    let s2 := (s1.modBus (fun b => { b with ride := none, nextRestore := none, restored := none })).setBstate 4
    ((if s2.bus.convAshed then s2 else s2.setSstate 0).bevent 0x20).convUpset

/-- Overvoltage release (R456): the ports are restored as after a ride-through. -/
def State.ovloRelease (s : State) : State :=
  if s.bstate ≠ 4 then s else ((s.setBstate 3).modBus (fun b => { b with nextRestore := some s.now })).restoreCheck

/-- The logic side draws more than 16 W for 10 ms (R460): RID 86. -/
def State.logicLimit (s : State) (mw : BitVec 16) : State :=
  if mw.toNat ≤ 16000 then s
  else ((s.setReg 0x081 0x1010 (mw.setWidth 32)).bevent 0x80).report { cls := 7, num := 0, kind := none, pa := 0, hard := false }

/-- What the bus die does at a logic brown-out (R460). -/
def State.busBrownOut (s : State) : State :=
  (List.range 16).foldl (fun s p =>
    let s1 := s.modReg (0x090 + p) 0x1000 (fun v => setBit v 31 false)
    if s1.pst p = 5 then s1 else s1.portOff p) s

/-- The ports of class c in INRUSH, ON or SMOULDERING become SHED (Table 15-11). -/
def State.shedClass (s : State) (c reason : Nat) : State :=
  (List.range 16).foldl (fun s p => if s.pclass p = c ∧ 1 ≤ s.pst p ∧ s.pst p ≤ 3 then s.portShed p reason else s) s

/-- Switch-over (R476): VBUS has been below VRT for 10 µs. -/
def State.switchOver (s : State) (vbus : BitVec 16) : State :=
  let rt := s.reg 0x083 0x1004
  let floor := fld (s.reg 0x083 0x1008) 15 0
  if !(decide (vbus.toNat < fld rt 15 0) && bit (s.reg 0x083 0x1000) 30 && decide (floor + 100 ≤ s.vstore) && (s.bstate == 0 || s.bstate == 3)) then s
  else
    let delays := (List.range 4).map s.shedDelay
    let now0 := (List.range 4).filter (fun c => delays.getD c 0 == 0)
    let r : Ride := { start := s.now, vrt := fld rt 15 0, fwin := fld rt 31 16 * 1000000, fwarn := s.fwarn, floor := floor, delays := delays
                      shed := now0, warned := false }
    let s1 := now0.foldl (fun s c => s.shedClass c 1) s
    let s2 := (s1.modBus (fun b => { b with ride := some r, nextRestore := none, restored := none, fullSince := none })).setSstate 4
    let s3 := ((s2.setBstate 1).modReg 0x081 0x1000 (fun v => setFld v 15 0 vbus.toNat)).modReg 0x081 0x1014 (· + 1)
    ((s3.bevent 2).raise 292).raise 293

/-- A class's shed delay after the switch-over (R476). -/
def State.classShed (s : State) (c : Nat) : State :=
  match s.bus.ride with
  | none => s
  | some r =>
    let d := r.delays.getD c 0xFFFFFFFF
    if d = 0xFFFFFFFF ∨ r.shed.contains c = true ∨ s.now < r.start + d * 1000 then s
    else (s.modBus (fun b => { b with ride := some { r with shed := c :: r.shed } })).shedClass c 1

/-- The converter has been at PMAX for 1 ms (R476). -/
def State.pmaxShed (s : State) : State :=
  if s.bstate ≠ 1 then s
  else
    match s.shedPick 0 with
    | some p => s.portShed p 1
    | none => s

/-- The window's warning (R476). -/
def State.windowWarning (s : State) : State :=
  match s.bus.ride with
  | none => s
  | some r =>
    if r.warned ∨ s.bstate ≠ 1 ∨ s.now < r.start + (r.fwin - r.fwarn) then s
    else ((s.modBus (fun b => { b with ride := some { r with warned := true } })).bevent 8).raise 294

/-- The window's expiry (R476). -/
def State.windowExpiry (s : State) : State :=
  match s.bus.ride with
  | none => s
  | some r => if s.bstate ≠ 1 ∨ s.now < r.start + r.fwin then s else ((s.shedClass 0 3).setBstate 2).bevent 16

/-- VSTORE at or below the floor (R476): the converter stops. -/
def State.storageFloor (s : State) (vstore : BitVec 16) : State :=
  match s.bus.ride with
  | none => s
  | some r =>
    if s.sstate ≠ 4 ∨ r.floor < vstore.toNat then s
    else ((s.modReg 0x083 0x1010 (fun v => setFld v 15 0 vstore.toNat)).setSstate 0).sevent 8

/-- The bus returns (R476): VBUS has been at or above VRT + 2.0 V for 100 ms. -/
def State.busReturn (s : State) (vbus : BitVec 16) : State :=
  match s.bus.ride with
  | none => s
  | some r =>
    if (s.bstate ≠ 1 ∧ s.bstate ≠ 2) ∨ vbus.toNat < r.vrt + 200 then s
    else
      let s1 := (s.modBus (fun b => { b with ride := none, nextRestore := some s.now, restored := none })).setBstate 3
      let s2 := (if s1.sstate = 4 then s1.setSstate 0 else s1).modReg 0x081 0x1000 (fun v => setFld v 15 0 vbus.toNat)
      (s2.bevent 4).restoreCheck

/-- One restore of RESTORE (R476). -/
def State.restoreStep (s : State) : State :=
  if s.bstate ≠ 3 ∨ s.bus.cwLost = true ∨ s.bus.nextRestore.any (fun t => decide (t ≤ s.now)) = false then s
  else
    match s.restorePick (· != 0) with
    | some p => (s.portRestore p).modBus (fun b => { b with nextRestore := some (s.now + s.rstep), restored := some p })
    | none => s.restoreCheck

/-- A write of SCTL, RTCTL, SFLOOR or SCAP (R475, R476): an ASHED converter keeps CHEN and RTEN clear. -/
def State.storageWrite (s : State) (off : Nat) (v : Word) : State :=
  let s1 := s.plainWrite .trade 0x083 off v
  if off = 0x1000 ∧ s.bus.convAshed = true then s1.modReg 0x083 0x1000 (fun v => v &&& 0x3FFFFFFF) else s1

/-- The words of a sequencer table (Table 15-13). -/
def tableWords (n : Nat) : List Nat :=
  match n with
  | 1 => (List.range 72).map (fun i => 0x1100 + 4 * i)
  | 2 => (List.range 4).map (fun i => 0x1300 + 4 * i)
  | 3 => [0x1310, 0x1314]
  | 4 => [0x1320, 0x1324, 0x1328, 0x132C, 0x1330]
  | 5 => (List.range 8).map (fun i => 0x1340 + 4 * i)
  | 6 => (List.range 16).map (fun i => 0x1400 + 4 * i)
  | _ => []

/-- Whether a number lies in a range. -/
def within (lo hi n : Nat) : Bool := decide (lo ≤ n) && decide (n ≤ hi)

/-- The staged curve c is within range: TMAX, and UNTIL of each segment before its end. -/
def State.curveOk (s : State) (c : Nat) : Bool :=
  let w (i : Nat) : Word := s.reg 0x082 (0x1100 + 36 * c + 4 * i)
  within 10 1000 (fld (w 0) 15 0)
    && (((List.range 8).map (fun i => w (i + 1))).takeWhile (fun x => fld x 15 0 != 0)).all (fun x => within 1 100 (fld x 23 16))

/-- The range check of a staged table (R478). -/
def State.tableOk (s : State) (n : Nat) : Bool :=
  let w (off : Nat) : Word := s.reg 0x082 off
  match n with
  | 1 => (List.range 8).all s.curveOk
  | 2 => (List.range 4).all (fun k => within 10 600000 (w (0x1300 + 4 * k)).toNat)
  | 3 => within 1 15 (fld (w 0x1310) 7 0) && within 1 100 (fld (w 0x1310) 15 8) && within 60 150 (fld (w 0x1310) 23 16)
      && within 1 3600 (fld (w 0x1314) 15 0) && within 1 100 (fld (w 0x1314) 23 16) && within 0 60 (fld (w 0x1314) 31 24)
  | 4 => within 10 10000 (fld (w 0x1330) 15 0)
  | 5 => true
  | 6 => (List.range 8).all (fun r => within 0 8000 (fld (w (0x1400 + 8 * r)) 31 16))
  | _ => false

/-- A write of TAPPLY (R478). -/
def State.tapply (s : State) (v : Word) : State × BusRes :=
  let n := fld v 3 0
  if s.tableOk n then
    let s1 := s.modBus (fun b => { b with tabs := (tableWords n).foldl (fun t o => Sparse.write (regReset .trade 0x082 o) o (s.reg 0x082 o) t) b.tabs })
    ((s1.setReg 0x082 0x1000 (BitVec.ofNat 32 n)).raise 290, .ok 0)
  else ((s.modReg 0x082 0x1000 (fun v => setBit v 31 true)).raise 290, .err busErr)

/-- Reads of slot 0x083. -/
def State.storageRead (s : State) (off : Nat) : Word :=
  match off with
  | 0x1018 =>
    let f := fld (s.reg 0x083 0x1008) 15 0
    if bit (s.reg 0x083 0x1000) 29 then 0
    else BitVec.ofNat 32 (fld (s.reg 0x083 0x100C) 15 0 * (s.vstore * s.vstore - f * f) / 2000000)
  | 0x101C =>
    match s.bus.ride with
    | some r => BitVec.ofNat 32 (min ((r.start + r.fwin - s.now) / 10000) 0xFFFF)
    | none => 0
  | _ => s.plainRead .trade 0x083 off

/-- Reads of slots 0x080 to 0x083 and 0x090 to 0x09F. -/
def State.powerRead (s : State) (slot off : Nat) : Word :=
  if slot = 0x083 then s.storageRead off
  else if 0x090 ≤ slot then
    if off = 0x1004 then s.pstatRead (slot - 0x090) else if off = 0x1018 then 0 else s.plainRead .trade slot off
  else if off = 0x1004 ∧ (slot = 0x080 ∨ slot = 0x082) then 0
  else s.plainRead .trade slot off

/-- Writes of slots 0x080 to 0x083 and 0x090 to 0x09F. -/
def State.powerWrite (s : State) (slot off : Nat) (v : Word) : State × BusRes :=
  match slot, off with
  | 0x080, 0x1004 => (s.modReg 0x080 0x1000 (fun w => setFld w 15 0 0), .ok 0)
  | 0x081, 0x1008 => s.ceilWrite v
  | 0x081, 0x100C => (s.ashload v, .ok 0)
  | 0x081, 0x1018 => (s.eventClear 0x081 0x1018 289 v, .ok 0)
  | 0x082, 0x1004 => s.tapply v
  | 0x083, 0x1024 => (s.eventClear 0x083 0x1024 291 v, .ok 0)
  | 0x083, _ => (s.storageWrite off v, .ok 0)
  | _, 0x1000 => if 0x090 ≤ slot then s.pctlWrite (slot - 0x090) v else (s.plainWrite .trade slot off v, .ok 0)
  | _, 0x1018 => if 0x090 ≤ slot then (s.pashclr (slot - 0x090), .ok 0) else (s.plainWrite .trade slot off v, .ok 0)
  | _, _ => (s.plainWrite .trade slot off v, .ok 0)

/-- Whether a slot's registers lie behind the causeway (R462). -/
def behindCauseway (slot : Nat) : Bool := within 0x081 0x083 slot || within 0x090 0x09F slot

/-- The causeway is lost (R13, Table 15-2): no valid frame for 10 ms. -/
def State.causewayLost (s : State) : State :=
  if s.now < s.bus.cwLast + 10000 then s
  else ((s.modReg 0x080 0x1000 (fun v => setBit v 31 true)).setLine 288 true).modBus (fun b => { b with cwLost := true })

/-- Frames resume (R13): the bus die reports its flag in BEVENT. -/
def State.causewayResume (s : State) : State :=
  let s1 := ((s.modReg 0x080 0x1000 (fun v => setBit v 31 false)).setLine 288 false).modBus (fun b => { b with cwLost := false, cwLast := s.now })
  if s.bus.cwLost then s1.bevent 1 else s1

/-- A keep-alive frame in BANKED or DORMANT (R560). -/
def State.causewayAlive (s : State) : State :=
  if (s.dev.st == .banked || s.dev.st == .dormant) && !s.bus.cwLost then s.modBus (fun b => { b with cwLast := s.now }) else s

end Sys2Proof.Machine
end

