-- ==== Sys2Proof/Machine/TileOut.lean ====
section
/-!
DEFINITION. Machine/TileOut.lean: taking a tile's contexts out of it: ashing (R237, R238), power-off (R498), debug halts (R541), and the parts
of a tile that are lost or cleared with it (R212, R229, R309).
-/
namespace Sys2Proof.Machine

/-- A context's slot written with its current state; what the slot held of errors goes. -/
def State.putSlot (s : State) (n : CtxId) (c : Ctx) : State :=
  s.modStore (fun x => { x.setSlot n c with damaged := x.damaged.filter (fun p => p.1 / 48 != n.toNat) })

/-- Every DIRTY or RUNNING bank of a tile, and its spill queue, written to their slots (R237). -/
def State.writeBanks (s : State) (t : TileId) : State :=
  let x := s.tile t
  let s1 := x.spill.foldl (fun s c => s.putSlot c.num c.ctx) s
  (List.range 7).foldl (fun s b =>
    let k := vget x.banks b Bank.reset
    if (k.st == .dirty || k.st == .running) && !k.handed then s.putSlot k.num k.ctx else s) s1

/-- The anchor bank cleared: shadows, emergency frames, park areas, and the marks that they are held (R212, Table 7-5). -/
def WorldCfg.dropAnchor (g : WorldCfg) : WorldCfg :=
  { g with wcfg := setBit g.wcfg 29 false, eframe := Vector.replicate 8 Cap.null, pstat := 0, shU := Image.clear, shS := Image.clear
           park := FloatState.reset }

/-- A tile without its anchor bank, float state, attached units, ports, banks, spill queue and translations, and with a fresh flow. -/
def Tile.emptied (x : Tile) : Tile :=
  { x with
    run := none, banks := Vector.replicate 7 Bank.reset, spill := [], ports := Image.clear, float := FloatState.reset, fpown := 0
    att := Att.reset, cfg := x.cfg.map WorldCfg.dropAnchor, link := .none, tlbs := Tlbs.reset, flow := { Flow.reset with mcs := x.flow.mcs } }

/-- The number of the context that a tile runs, if any. -/
def Tile.runNum (x : Tile) : Option CtxId := x.run.map (fun b => (vget x.banks b Bank.reset).num)

/-- A tile's running context recorded at the last completed boundary, its caches written back, its banks written to their slots (R214, R237). -/
def State.tileFlush (s : State) (t : TileId) : State := (s.modTile t (fun x => x.settleMode.dwbinv)).writeBanks t

/-- IDENT bits set in the slot of a context (R238). -/
def State.markCtx (s : State) (b : Nat) (n : CtxId) : State := s.modCtx n (fun c => { c with ident := setBit c.ident b true })

/-- The contexts of banks that cannot be read, marked in their slots (R238). -/
def State.badBanks (s : State) (x : Tile) (bad : BitVec 7) : State :=
  (List.range 7).foldl (fun s b =>
    let k := vget x.banks b Bank.reset
    if bit bad b && k.st != .empty && !k.handed then s.putSlot k.num k.ctx.damage else s) s

/-- A tile is ashed (R237, R238); bad names the banks that meet an uncorrectable error. -/
def State.ashTile (s : State) (t : TileId) (bad : BitVec 7) : State :=
  if (s.tile t).sys.ashed then s
  else
    let s1 := s.tileFlush t
    let x := s1.tile t
    let s2 := s1.badBanks x bad
    let hand (k : Bank) : Bank := if k.st = .empty then k else { k with st := .clean, handed := true }
    let s3 := s2.setTile t { x.emptied with
      banks := x.banks.map hand, sys := { x.sys with ashed := true, powered := false, gated := false, gateReq := false, halted := false, recorded := none } }
    let s4 := match x.runNum with
      | some n => s3.markCtx 26 n
      | none => s3
    let s5 := [World.trade, World.opn].foldl (fun s w => if x.shadowHeld w false then s.markCtx 26 (x.uctx w) else s) s4
    let s6 := if bit x.fpown 31 then s5.markCtx 27 (BitVec.ofNat 12 (fld x.fpown 11 0)) else s5
    (s6.raise 36).raise 37

/-- A tile's domain goes off (R498 step 1): its contexts become STORED but the running one, which is recorded. -/
def State.tileOff (s : State) (t : TileId) : State :=
  let s1 := s.tileFlush t
  let x := s1.tile t
  s1.setTile t { x.emptied with
    caches := { Caches.reset with wbuf := x.caches.wbuf, wbacks := x.caches.wbacks }
    sys := { x.sys with powered := false, gated := false, gateReq := false, recorded := match x.runNum with
      | some n => some n
      | none => x.sys.recorded } }

/-- A tile at its boundary is halted for the debug access port (R541): its running context is written to its slot and stays RUNNING
without a bank. -/
def State.haltNow (s : State) (t : TileId) : State :=
  let x := (s.tile t).settleMode
  let y : TileSys := { x.sys with halted := true }
  match x.run with
  | none => s.setTile t { x with sys := y }
  | some b =>
    let k := vget x.banks b Bank.reset
    (s.putSlot k.num k.ctx).setTile t { x.modBank b (fun _ => Bank.reset) with run := none, sys := { y with recorded := some k.num } }

/-- A gating or a halt that a tile was asked for, at its bundle boundary (R495, R541). -/
def State.settleTile (s : State) (t : TileId) : State :=
  let x := s.tile t
  let s1 := if x.sys.gateReq && x.boundary then s.modTile t (·.modSys (fun y => { y with gated := true, gateReq := false })) else s
  let x1 := s1.tile t
  if x1.haltDue && !x1.sys.halted && ({ x1 with sys := { x1.sys with gated := false } }).boundary then s1.haltNow t else s1

/-- A tile halted for the port goes on (R541). -/
def State.unhalt (s : State) (t : TileId) : State :=
  let s1 := s.modTile t (·.modSys (fun y => { y with haltReq := false, haltAny := false, halted := false }))
  match (s.tile t).sys.halted, (s.tile t).sys.recorded with
  | true, some n => s1.modTile t (·.modFlow (fun f => { f with freeze := .fill n .goOn }))
  | _, _ => s1

/-- Whether a tile is in service and has no running context (TIDLE). -/
def Tile.tidle (x : Tile) : Bool :=
  x.inService && x.sys.bist == 0xF && !x.sys.resetting && x.run.isNone && x.sys.recorded.isNone
    && (match x.flow.freeze with
      | .fill _ .run => false
      | _ => true)

/-- The tiles in service that have no running context, a bit each (Table 17-3). -/
def State.tidle (s : State) : Word := BitVec.ofNat 32 (s.tileBits (·.tidle))

end Sys2Proof.Machine
end

