-- ==== Sys2Proof/Machine/Ledger.lean ====
section
/-!
DEFINITION. Machine/Ledger.lean: the fault ledger (R479–R484): records, policies, copies in eMRAM.
-/
namespace Sys2Proof.Machine

/-- The ledger changed. -/
def State.modLedger (s : State) (f : Ledger → Ledger) : State := { s with ledger := f s.ledger }
/-- The record with an RID. -/
def State.lrec (s : State) (rid : Nat) : LRec := Sparse.get LRec.reset rid s.ledger.recs
/-- A record changed: a copy has to be written (R483). -/
def State.setLrec (s : State) (rid : Nat) (r : LRec) : State :=
  s.modLedger (fun l => { l with recs := Sparse.write LRec.reset rid r l.recs, dirty := some (l.dirty.getD s.now) })
/-- LSTAT. -/
def State.lstat (s : State) : Word := s.reg 0x00F 0x1004
/-- READY. -/
def State.lready (s : State) : Bool := bit s.lstat 31
/-- Bits of LEVENT. -/
def State.levent (s : State) (bits : Word) : State := s.event 0x00F 0x1200 38 bits

/-- The class of a record (Table 15-15). -/
def ridClass (rid : Nat) : Nat :=
  if rid < 16 then 0 else if rid < 32 then 1 else if rid < 34 then 2 else if rid < 36 then 3 else if rid < 52 then 4 else if rid < 84 then 5
  else if rid < 86 then 6 else if rid < 88 then 7 else if rid < 152 then 8 else 9
/-- The first record of a class. -/
def classBase (c : Nat) : Nat := [0, 16, 32, 34, 36, 52, 84, 86, 88, 152].getD c 0
/-- The number of records of a class that are allocated on first error. -/
def classSize (c : Nat) : Nat := if c = 8 then 64 else 32

/-- Word j of a class's policy. -/
def State.lpol (s : State) (c j : Nat) : Word := s.reg 0x00F (0x1100 + 16 * c + 4 * j)
/-- THRESH of a record's policy; RID 86 is recorded only. -/
def State.lthresh (s : State) (rid : Nat) : Nat := if rid = 86 then 0 else fld (s.lpol (ridClass rid) 0) 7 0
/-- WINDOW of a class's policy, in µs; 0 for none. -/
def State.lwindow (s : State) (c : Nat) : Nat := fld (s.lpol c 0) 31 8 * 1000000
/-- Back-off k of a class's policy, in µs. -/
def State.lretry (s : State) (c k : Nat) : Nat :=
  let v := s.lpol c (1 + k / 2)
  (if k % 2 = 0 then fld v 15 0 else fld v 31 16) * 10000

/-- The port a USB record names becomes off. -/
def State.usbOffLine (s : State) (u : Nat) (hold : Option Nat) : State :=
  s.modUsb u (fun x => { x with attached := false, speed := 0, addr := 0, hold := hold })

/-- What the block concerned does at an ashing (R479); bad names a tile's banks that cannot be read. -/
def State.ashBlock (s : State) (rid : Nat) (bad : BitVec 7) : State :=
  match ridClass rid with
  | 2 => s.modReg (0x079 + (rid - 32)) 0x1004 (fun v => setBit v 31 false)
  | 3 => s.usbOffLine (rid - 34) none
  | 4 => s.ashTile (BitVec.ofNat 4 (rid - 36)) bad
  | 7 => if rid = 87 then s.convAsh else s
  | _ => s

/-- A back-off that a record's policy gives the block concerned. -/
def State.holdBlock (s : State) (rid retry : Nat) : State :=
  let til := s.now + s.lretry (ridClass rid) retry
  match ridClass rid with
  | 2 => s.modBb (fun b => { b with hold := vset b.hold (rid - 32) til })
  | 3 => s.usbOffLine (rid - 34) (some til)
  | _ => s

/-- The ashing of a record. -/
def State.ashRecord (s : State) (rid : Nat) (bad : BitVec 7) : State := (s.ashBlock rid bad).levent 2

/-- An upset counted in a record against its class policy (R479, R480). -/
def State.countUpset (s : State) (rid : Nat) (u : Upset) (bad : BitVec 7) : State :=
  let c := ridClass rid
  let r0 := s.lrec rid
  let same := decide (c ≠ 5 ∧ c ≠ 8) || decide (r0.addr = u.pa / 16)
  let win := s.lwindow c
  let kept := if same then r0.times.filter (fun t => decide (win = 0) || decide (s.now < t + win)) else []
  let times := s.now :: kept
  let n := if win = 0 ∧ same = true then r0.upsets + 1 else times.length
  let thresh := s.lthresh rid
  let hard := u.hard && (c == 4 || c == 5 || c == 8)
  let ashed := r0.st == 2 || (thresh != 0 && (decide (thresh ≤ n) || hard))
  let retry := min (n - 1) 3
  let waits := !ashed && thresh != 0 && (c == 2 || c == 3)
  let s1 : State := if u.kind.isNone then { s with free := s.free + 1 } else s
  let r : LRec :=
    { st := if ashed then 2 else if thresh = 0 then 3 else if waits then 1 else 0
      upsets := min n 255, kind := u.kind.getD (Config.freeByte s.free).toNat, retry := if waits then retry else r0.retry
      total := (r0.total + 1) % 2 ^ 32, addr := if c = 5 ∨ 8 ≤ c then u.pa / 16 else 0
      first := if r0.total = 0 then s.ptp else r0.first, last := s.ptp, times := times }
  let s2 := (s1.setLrec rid r).levent 1
  if ashed && r0.st != 2 then s2.ashRecord rid bad else if waits then s2.holdBlock rid retry else s2

/-- The record that an error of class 8 or 9 goes to (R480): its page's or sector's, a free one, else the oldest that is not ASHED. -/
def State.allocRec (s : State) (c pa : Nat) : Option Nat :=
  let rids := (List.range (classSize c)).map (· + classBase c)
  let used (rid : Nat) : Bool := (s.lrec rid).total != 0 || (s.lrec rid).st == 2
  match rids.find? (fun rid => used rid && (s.lrec rid).addr / 256 == pa / 4096) with
  | some rid => some rid
  | none =>
    match rids.find? (fun rid => !used rid) with
    | some rid => some rid
    | none =>
      rids.foldl (fun a rid =>
        if (s.lrec rid).st = 2 then a
        else
          match a with
          | none => some rid
          | some b => if (s.lrec rid).first < (s.lrec b).first then some rid else some b) none

/-- An upset recorded (R479, R480). -/
def State.recordUpset (s : State) (u : Upset) (bad : BitVec 7) : State :=
  if u.cls < 8 then s.countUpset (classBase u.cls + u.num) u bad
  else
    match s.allocRec u.cls u.pa with
    | none => (s.modReg 0x00F 0x1004 (fun v => setFld (setBit v 28 true) 15 0 (fld v 15 0 + 1))).levent 4
    | some rid =>
      if (s.lrec rid).addr / 256 = u.pa / 4096 then s.countUpset rid u bad
      else (s.modLedger (fun l => { l with recs := Sparse.erase rid l.recs })).countUpset rid u bad

/-- The outcome of an upset that a port or a lane link judged (R479). -/
def State.recordOutcome (s : State) (rid kind n retry : Nat) (ashed : Bool) : State :=
  let r0 := s.lrec rid
  let r : LRec :=
    { st := if ashed then 2 else 1, upsets := min n 255, kind := kind, retry := retry, total := (r0.total + 1) % 2 ^ 32, addr := 0
      first := if r0.total = 0 then s.ptp else r0.first, last := s.ptp, times := [] }
  let s1 := (s.setLrec rid r).levent 1
  if ashed && r0.st != 2 then s1.levent 2 else s1

/-- The next message recorded, once the ledger is READY (R482, R483). -/
def State.ledgerRecord (s : State) (bad : BitVec 7) : State :=
  if !s.lready then s
  else
    match s.upsets with
    | [] => s
    | m :: r =>
      let s1 : State := { s with upsets := r }
      match m with
      | .upset u => s1.recordUpset u bad
      | .outcome rid kind n retry ashed => s1.recordOutcome rid kind n retry ashed
      | .clear rid => s1.setLrec rid LRec.reset

/-- STATE as a record shows it: for ports and links, what their block is in. -/
def State.recState (s : State) (rid : Nat) : Nat :=
  let r := s.lrec rid
  let wait := match ridClass rid with
    | 0 => s.pst rid == 3
    | 1 => s.lstate (rid - 16) == 2
    | 2 => decide (s.now < vget s.bb.hold (rid - 32) 0)
    | 3 => (s.usbPort (rid - 34)).hold.isSome
    | _ => false
  if r.st = 2 ∨ r.st = 3 then r.st else if r.st = 1 ∧ wait = true then 1 else 0

/-- UPSETS as a record shows it: the upsets in the window that slides. -/
def State.recUpsets (s : State) (rid : Nat) : Nat :=
  let r := s.lrec rid
  match ridClass rid with
  | 0 => ((s.hot rid).ups.filter (fun t => decide (s.now < t + s.portWindow))).length
  | 1 => ((s.lane (rid - 16)).ups.filter (fun t => decide (s.now < t + (s.lane (rid - 16)).window * 1000000))).length
  | c => if s.lwindow c = 0 then r.upsets else (r.times.filter (fun t => decide (s.now < t + s.lwindow c))).length

/-- A record as its 32 bytes (Table 15-16). -/
def State.recBytes (s : State) (rid : Nat) : List Byte :=
  let r := s.lrec rid
  toBytes 2 rid ++ toBytes 1 (ridClass rid) ++ toBytes 1 (s.recState rid) ++ toBytes 1 (s.recUpsets rid) ++ toBytes 1 r.kind ++ toBytes 1 r.retry
    ++ [0] ++ toBytes 4 r.total ++ toBytes 4 r.addr ++ toBytes 8 r.first ++ toBytes 8 r.last

/-- A record from its 32 bytes; the times of its upsets are not kept. -/
def recOf (b : List Byte) : LRec :=
  { st := frameByte b 3, upsets := frameByte b 4, kind := frameByte b 5, retry := frameByte b 6, total := frameVal b 8 4, addr := frameVal b 12 4
    first := frameVal b 16 8, last := frameVal b 24 8, times := [] }

/-- The first byte of copy k of the ledger region (R482). -/
def State.ledgerCopy (s : State) (k : Nat) : Nat := fld (s.reg 0x00F 0x1000) 23 0 * 4096 / 0x8000 * 0x8000 + 0x4000 * k

/-- The SEQ of a copy that is valid (R482, Table 15-17a). -/
def State.copySeq (s : State) (k : Nat) : Option Nat :=
  let a := s.ledgerCopy k
  let h := s.mem.read a 32
  let ok := frameVal h 0 4 == 0x4C445A4B && frameVal h 4 2 == 1 && frameVal h 12 4 == 5888 && !s.isDamaged a 5920
    && frameVal h 16 4 == (crc32c (s.mem.read (a + 32) 5888)).toNat
  if ok then some (frameVal h 8 4) else none

/-- Whether sequence a is later than b by serial comparison (R508). -/
def serialLater (a b : Nat) : Bool := within 1 (2 ^ 31 - 1) ((a + 2 ^ 32 - b % 2 ^ 32) % 2 ^ 32)

/-- The records of copy k loaded. -/
def State.loadCopy (s : State) (k seq : Nat) : State :=
  let a := s.ledgerCopy k
  s.modLedger (fun l =>
    { l with copy := k, seq := seq
             recs := (List.range 184).foldl (fun m i => Sparse.write LRec.reset i (recOf (s.mem.read (a + 32 + 32 * i) 32)) m) [] })

/-- LLOCK set (R482): the later valid copy is loaded, and READY set; a converter whose record is ashed stays out of service (R475). -/
def State.ledgerLoad (s : State) : State :=
  let s1 := match s.copySeq 0, s.copySeq 1 with
    | some a, some b => if serialLater b a then s.loadCopy 1 b else s.loadCopy 0 a
    | some a, none => s.loadCopy 0 a
    | none, some b => s.loadCopy 1 b
    | none, none => (s.modLedger (fun l => { l with recs := [] })).modReg 0x00F 0x1004 (fun v => setBit v 29 true)
  let s2 := s1.modReg 0x00F 0x1004 (fun v => setBit v 31 true)
  if (s2.lrec 87).st = 2 then s2.convAsh else s2

/-- A write of LCTL (R482). -/
def State.lctlWrite (s : State) (v : Word) : State :=
  let old := s.reg 0x00F 0x1000
  if bit old 31 then s
  else
    let s1 := s.setReg 0x00F 0x1000 (v &&& 0x80FFFFFF)
    if bit v 31 then s1.ledgerLoad else s1

/-- The older copy written (R483); fail says that its programming failed. -/
def State.ledgerWrite (s : State) (fail : Bool) : State :=
  if !s.lready || s.ledger.dirty.isNone then s
  else
    let k := 1 - s.ledger.copy
    let seq := (s.ledger.seq + 1) % 2 ^ 32
    let body := ((List.range 184).map s.recBytes).flatten
    let head := toBytes 4 0x4C445A4B ++ toBytes 2 1 ++ [0, 0] ++ toBytes 4 seq ++ toBytes 4 5888 ++ toBytes 4 (crc32c body).toNat
      ++ List.replicate 12 0
    let a := s.ledgerCopy k
    let s1 := s.modReg 0x024 0x100C (· + 93)
    if fail then s1.levent 8
    else ((s1.dropCopies a 5920).memWrite a (head ++ body)).modLedger (fun l => { l with dirty := none, copy := k, seq := seq })

/-- The block concerned told that its record returns to service (R484); a tile returns at the next device reset only (R481). -/
def State.tellBlock (s : State) (rid : Nat) : State :=
  match ridClass rid with
  | 0 => s.portClear rid
  | 1 => s.laneClear (rid - 16)
  | 2 => s.modBb (fun b => { b with hold := vset b.hold (rid - 32) 0 })
  | 3 => s.modUsb (rid - 34) (fun x => { x with hold := none })
  | 7 => if rid = 87 then s.convClear else s
  | _ => s

/-- A record cleared: counts only, or counts and ash (Table 15-17). -/
def State.clearRec (s : State) (rid : Nat) (ash : Bool) : State :=
  let r := s.lrec rid
  if ash || r.st != 2 then
    let s1 := s.setLrec rid LRec.reset
    if ash then s1.tellBlock rid else s1
  else s.setLrec rid { r with upsets := 0, retry := 0, total := 0, first := 0, last := 0, times := [] }

/-- A write of LCLR; an RID without a record is ignored. -/
def State.lclrWrite (s : State) (v : Word) : State :=
  let rid := fld v 15 0
  let rids := if rid = 0xFFFF then List.range 184 else if rid < 184 then [rid] else []
  rids.foldl (fun s i => s.clearRec i (bit v 16)) s

/-- A read of slot 0x00F: word 7 of the selected record advances LRSEL. -/
def State.ledgerRead (s : State) (off : Nat) : State × Word :=
  if 0x1010 ≤ off ∧ off < 0x1030 then
    let n := fld (s.reg 0x00F 0x1008) 7 0
    let w := (off - 0x1010) / 4
    (if w = 7 then s.setReg 0x00F 0x1008 (BitVec.ofNat 32 ((n + 1) % 256)) else s,
     if n < 184 then BitVec.ofNat 32 (frameVal (s.recBytes n) (4 * w) 4) else 0)
  else if off = 0x1204 then (s, 0)
  else if 0x1100 ≤ off ∧ off < 0x1120 then (s, 0)
  else (s, s.plainRead .trade 0x00F off)

/-- A write of slot 0x00F. -/
def State.ledgerRegWrite (s : State) (off : Nat) (v : Word) : State :=
  match off with
  | 0x1000 => s.lctlWrite v
  | 0x1200 => s.eventClear 0x00F 0x1200 38 v
  | 0x1204 => s.lclrWrite v
  | _ => s.plainWrite .trade 0x00F off v

/-- One step of LEDGER_CLEAR by its owner (R484): at most 32 records, and a last step that waits for the copy to be written. -/
def State.ledgerClearStep (s : State) : State :=
  match s.dict.granted .opn with
  | some (5, g) =>
    let c := s.dict.cmd 5
    let rid := frameVal c.arg 0 2
    let mode := frameByte c.arg 2
    let bad := if rid ≠ 0xFFFF ∧ 184 ≤ rid then 1 else if 1 < mode ∨ (c.arg.drop 3).any (· != 0) = true then 2 else 0
    let total := if rid = 0xFFFF then 184 else 1
    let parts := (total + 31) / 32
    if bad ≠ 0 then s.stepDone .opn (BitVec.ofNat 32 (1 + bad * 2 ^ 16))
    else
      let s0 := if g.first then s.stepN .opn (BitVec.ofNat 32 (parts + 1)) else s
      if c.k < parts then
        let rids := if rid = 0xFFFF then (List.range 32).map (· + 32 * c.k) else [rid]
        ((rids.filter (· < 184)).foldl (fun s i => s.clearRec i (mode == 1)) s0).stepDone .opn 0
      else if s0.ledger.dirty.isNone then
        (s0.modDict (fun d => d.setCmd 5 { d.cmd 5 with result := toBytes 2 total })).stepDone .opn 0
      else if bit (s0.reg 0x00F 0x1200) 3 then s0.stepDone .opn (BitVec.ofNat 32 (1 + 3 * 2 ^ 16))
      else s0
  | _ => s

end Sys2Proof.Machine
end

