-- ==== Sys2Proof/Machine/Dma.lean ====
section
/-!
DEFINITION. Machine/Dma.lean: the general DMA channels (R102–R107).
-/
namespace Sys2Proof.Machine

/-- A register of channel c. -/
def State.chan (s : State) (c off : Nat) : Word := s.reg (0x040 + c) off
/-- BUSY of channel c. -/
def State.chanBusy (s : State) (c : Nat) : Bool := bit (s.chan c 0x1014) 31
/-- The world of channel c. -/
def State.chanWorld (s : State) (c : Nat) : World := World.ofBit (bit (s.chan c 0x1000) 29)
/-- Bytes still to move. -/
def State.chanLeft (s : State) (c : Nat) : Nat := fld (s.chan c 0x1014) 23 0

/-- Whether channel c refuses every write of a requester (R106). -/
def State.chanRefuses (s : State) (q : Req) (c : Nat) : Bool := s.chanWorld c == .trade && !(q.world == .trade && q.sup)

/-- A write of CCTL (R103, R105, R106). -/
def State.cctlWrite (s : State) (q : Req) (c : Nat) (v : Word) : State × BusRes :=
  let old := s.chan c 0x1000
  if s.chanRefuses q c || (s.chanBusy c && fld v 25 24 != fld old 25 24) then (s, .err busErr)
  else
    let keep := if bit v 31 then 0 else old &&& 0x40FF0000
    let nv := (v &&& 0x93000000) ||| keep ||| (if q.world == .trade then 0x20000000 else 0) ||| ((v.setWidth 16 &&& q.cmr).setWidth 32)
    (s.setReg (0x040 + c) 0x1000 nv, .ok 0)

/-- A write of a DRAM window word (R104, R106): only a supervisor whose CMR holds the window's colour. -/
def State.chanWindow (s : State) (q : Req) (c k : Nat) (v : Word) : State × BusRes :=
  let colour := if k % 2 = 1 then fld v 31 28 else fld (s.chan c (0x1024 + 8 * (k / 2))) 31 28
  if s.chanRefuses q c || s.chanBusy c || !(q.sup && q.cmr.getLsbD colour) then (s, .err busErr)
  else (s.plainWrite .trade (0x040 + c) (0x1020 + 4 * k) v, .ok 0)

/-- A write of CGO (R107). A length that is 0 or no multiple of 16, or a reserved MODE, starts nothing. -/
def State.cgo (s : State) (q : Req) (c : Nat) : State × BusRes :=
  if s.chanRefuses q c then (s, .err busErr)
  else
    let n := fld (s.chan c 0x100C) 23 0
    if bit (s.chan c 0x1000) 31 && !s.chanBusy c && n != 0 && n % 16 == 0 && !bit (s.chan c 0x1000) 25 then
      (s.modReg (0x040 + c) 0x1014 (fun v => setFld (setBit v 31 true) 23 0 n), .ok 0)
    else (s, .ok 0)

/-- A write to a channel's slot. -/
def State.chanWrite (s : State) (q : Req) (c off : Nat) (v : Word) : State × BusRes :=
  match off with
  | 0x1000 => s.cctlWrite q c v
  | 0x1018 => s.cgo q c
  | 0x1020 => s.chanWindow q c 0 v
  | 0x1024 => s.chanWindow q c 1 v
  | 0x1028 => s.chanWindow q c 2 v
  | 0x102C => s.chanWindow q c 3 v
  | 0x1014 => if s.chanRefuses q c then (s, .err busErr) else (s.plainWrite .trade (0x040 + c) off v, .ok 0)
  | _ =>
    if s.chanRefuses q c || (s.chanBusy c && (off == 0x1004 || off == 0x1008 || off == 0x100C || off == 0x1010)) then (s, .err busErr)
    else (s.plainWrite .trade (0x040 + c) off v, .ok 0)

/-- A refused access stops channel c (R105, R107). -/
def State.chanStop (s : State) (c : Nat) (code : Code) : State :=
  let s1 := s.modReg (0x040 + c) 0x1000 (fun v => setFld (setBit v 30 true) 23 16 code.toNat)
  let s2 := s1.modReg (0x040 + c) 0x1014 (fun v => setBit v 31 false)
  ({ s2 with free := s2.free + 1 }).raise (65 + 2 * c)

/-- The check of an access of channel c to memory (R102, R104). -/
def State.chanCheck (s : State) (c pa n : Nat) : Option Code :=
  s.dmaCheck (s.chanWorld c) ((s.chan c 0x1000).setWidth 16) [⟨s.chan c 0x1020, s.chan c 0x1024⟩, ⟨s.chan c 0x1028, s.chan c 0x102C⟩] pa n

/-- Who channel c is at the gates: a user-level requester of its world with its colours (R102). -/
def State.chanReq (s : State) (c : Nat) : Req :=
  { world := s.chanWorld c, sup := false, cmr := (s.chan c 0x1000).setWidth 16, tile := none }

/-- The bytes of one request of a copy: those whose destination lies in the overlap of the two ranges are open (R107). -/
def State.overlapFree (s : State) (src dst len at_ : Nat) (bs : List Byte) : State × List Byte :=
  let lo := max src dst
  let hi := min (src + len) (dst + len)
  if hi ≤ lo then (s, bs)
  else
    ({ s with free := s.free + bs.length },
     ((List.range bs.length).zip bs).map (fun p => if lo ≤ at_ + p.1 ∧ at_ + p.1 < hi then Config.freeByte (s.free + p.1) else p.2))

/-- What a transfer does after n bytes are moved (R107). -/
def State.chanMoved (s : State) (c n : Nat) : State :=
  let left := s.chanLeft c - n
  let s1 := s.modReg (0x040 + c) 0x1014 (fun v => setFld v 23 0 left)
  if left ≠ 0 then s1
  else
    let s2 := s1.modReg (0x040 + c) 0x1014 (fun v => setBit (setBit v 31 false) 30 true)
    if bit (s2.chan c 0x1000) 28 then s2.raise (64 + 2 * c) else s2

end Sys2Proof.Machine
end

