-- ==== Sys2Proof/Machine/Drain.lean ====
section
/-!
DEFINITION. Machine/Drain.lean: write buffers, eMRAM programming, responses and timeouts (R17–R21, R30–R32, R144), and the DRAM
controller's own events (R20, R514, R568).
-/
namespace Sys2Proof.Machine

/-- The eMRAM bank of an address (R17). -/
def emBank (pa : Nat) : Nat := (pa - 0x8000000) / 0x100000 % 4

/-- Listed bytes as runs of consecutive offsets. -/
def byteRuns : List (Nat × Byte) → List (Nat × List Byte)
  | [] => []
  | (o, b) :: r =>
    match byteRuns r with
    | (p, bs) :: t => if p = o + 1 then (o, b :: bs) :: t else (o, [b]) :: (p, bs) :: t
    | [] => [(o, [b])]

/-- A tile's write-buffer entry merged into its line (R18, R566): a merging read that meets an uncorrectable error is reported as a read. -/
def State.mergeEntry (s : State) (t : TileId) (e : WbEnt) : State :=
  (byteRuns e.data).foldl (fun s r =>
    let s1 := if s.mergeFails (e.line + r.1) r.2.length then s.lineBad t e.line else s
    s1.memWrite (e.line + r.1) r.2) s

/-- A tile's write-buffer entry removed. -/
def State.dropEntry (s : State) (t : TileId) (seq : Nat) : State :=
  s.modTile t (·.modCaches (fun c => { c with wbuf := c.wbuf.filter (fun e => e.seq != seq) }))

/-- The programming of a tile's entry starts (R17, R18). -/
def State.progStart (s : State) (t : TileId) (e : WbEnt) : State :=
  let s1 := s.mergeEntry t e
  let m := s1.mem
  { s1 with mem := { m with progs := vset m.progs (emBank e.line) (some { line := e.line, mask := e.mask, who := .tile t, old := s.mem.read e.line 64 }) } }

/-- An entry that reaches the eMRAM controller: the journal guard gathers or refuses its bytes, the ledger guard refuses them with an error
response, otherwise its line programs once the bank is free (R18, R32, R449, R482). -/
def State.emDrain (s : State) (t : TileId) (e : WbEnt) : State :=
  if s.inJournal e.line then (byteRuns e.data).foldl (fun s r => s.journalStore (e.line + r.1) r.2) s
  else if s.inLedger e.line then ((s.event 0x024 0x1004 52 4).dropEntry t e.seq).mcPost t 0x71 e.line
  else if (vget s.mem.progs (emBank e.line) none).isNone then s.progStart t e
  else s

/-- The oldest entry of a tile whose target's credit is free drains (R18, R144). -/
def State.writeDrain (s : State) (t : TileId) : State :=
  let b := (s.tile t).caches.wbuf
  match b.find? (fun e => !e.sent && !b.any (fun f => f.sent && f.ember == e.ember)) with
  | none => s
  | some e =>
    let s1 := s.modTile t (·.modCaches (fun c => { c with wbuf := c.wbuf.map (fun f => if f.seq = e.seq then { f with sent := true } else f) }))
    if e.ember then s1.mergeEntry t e else s1.emDrain t e

/-- The entries that wait at an eMRAM bank for its programming to end, with their tiles. -/
def State.emWaiting (s : State) (bank : Nat) : List (TileId × WbEnt) :=
  (allTiles.map (fun t => ((s.tile t).caches.wbuf.filter (fun e =>
    e.sent && !e.ember && emBank e.line == bank && !s.inJournal e.line
      && !((vget s.mem.progs bank none).any (fun p => p.line == e.line && p.who == .tile t)))).map (fun e => (t, e)))).flatten

/-- A failed programming (R18, R21): the line's bytes are open, the failure is recorded and reported to the sector's record. -/
def State.progFail (s : State) (line : Nat) : State :=
  let n := s.free
  let s1 : State := { s with free := n + 64, mem := s.mem.putBytes line ((List.range 64).map (fun i => Config.freeByte (n + i))) }
  ((s1.setReg 0x024 0x1008 (paWord line)).event 0x024 0x1004 52 1).report { cls := 9, num := 0, kind := none, pa := line / 4096 * 4096, hard := true }

/-- A line's programming ends (R18): it is read back, programmed once more where that fails, and a second failure is a programming failure.
Its requester's credit returns, and the next line that waits for the bank starts. -/
def State.progEnd (s : State) (bank : Nat) (ok1 ok2 : Bool) : State :=
  match vget s.mem.progs bank none with
  | none => s
  | some p =>
    let m := s.mem
    let s1 : State := { s with mem := { m with progs := vset m.progs bank none } }
    let s2 := s1.modReg 0x024 0x100C (· + (if ok1 then 1 else 2))
    let s3 := if ok1 then s2 else s2.modReg 0x024 0x1010 (· + 1)
    let s4 := if !ok1 && !ok2 then s3.progFail p.line else s3
    let s5 := match p.who with
      | .tile t => s4.modTile t (·.modCaches (fun c => { c with wbuf := c.wbuf.filter (fun e => !(e.sent && e.line == p.line)) }))
      | .seal => s4.modSeal (fun e => { e with busy := false })
      | _ => s4
    match s5.emWaiting bank with
    | x :: _ => s5.progStart x.1 x.2
    | [] => s5

/-- Whether a drained entry has its answer ready: ember SRAM answers at once, a line of the journal once nothing of it is gathered whole or
programming (R449–R451); another eMRAM line when its programming ends. -/
def State.entryReady (s : State) (e : WbEnt) : Bool :=
  e.sent && (e.ember || (s.inJournal e.line && s.sealEng.gather.length != 64
    && !((vget s.mem.progs (emBank e.line) none).any (fun p => p.line == e.line))))

/-- The response to a write-back or to a posted write arrives (R32): the credit returns; an error raises MC_WB. -/
def State.writeResponse (s : State) (t : TileId) (line : Nat) (err : Bool) : State :=
  let c := (s.tile t).caches
  let s1 := if err then s.mcPost t 0x71 line else s
  if c.wbacks.contains line then s1.modTile t (·.modCaches (fun c => { c with wbacks := c.wbacks.erase line }))
  else
    match c.wbuf.find? (fun e => e.line == line && s.entryReady e) with
    | some e => s1.dropEntry t e.seq
    | none => s

/-- The target that holds a place (Table 1-6). -/
def Place.target : Place → Option Target
  | .sram => some .sram
  | .dram => some .dram
  | .emram => some .emram
  | .ember | .emberPrivate => some .ember
  | .periph _ _ => some .bridge
  | .rom => some .rom
  | _ => none

/-- The number of a target in MSTOTARGET (Table 1-3a). -/
def targetCode : Target → Nat
  | .sram => 0
  | .dram => 1
  | .emram => 2
  | .ember => 3
  | .bridge => 4
  | .rom => 5

/-- The request of a tile that times out at a target (R30–R32): the access it is frozen on fails, or a posted write raises MC_WB. -/
def State.tileTimeout (s : State) (t : TileId) (g : Target) : State :=
  let at_ (pa : Nat) : Bool := (s.place pa).target == some g
  let x := s.tile t
  let posted : State :=
    match x.caches.wbuf.find? (fun e => e.sent && at_ e.line) with
    | some e => (s.dropEntry t e.seq).mcPost t 0x71 e.line
    | none =>
      match x.caches.wbacks.find? at_ with
      | some l => (s.modTile t (·.modCaches (fun c => { c with wbacks := c.wbacks.erase l }))).mcPost t 0x71 l
      | none => s
  match x.flow.freeze with
  | .access a =>
    if at_ a.pa then s.setTile t (x.squash ⟨0x75, a.ea⟩) else posted
  | .sePage pa ea =>
    if at_ pa then s.setTile t (x.squash ⟨0x75, ea⟩) else posted
  | .line pa fetch _ ea =>
    if at_ pa then s.setTile t ((x.modFlow (fun f => { f with freeze := .none })).squash ⟨if fetch then 0x74 else 0x75, ea⟩) else posted
  | _ => posted

/-- A target timeout (R19, R30–R32): MSTIMEOUT, MSTOTARGET, MSEVENT bit 2, and the error of its requester. -/
def State.targetTimeout (s : State) (r : Requester) (g : Target) (bank : BitVec 5) : State :=
  let s1 := (s.modReg 0x022 0x100C (· + 1)).setReg 0x022 0x1010
    (BitVec.ofNat 32 (targetCode g + (if g = .sram then bank.toNat * 256 else 0)))
  let s2 := s1.event 0x022 0x1000 50 4
  match r with
  | .tile t => s2.tileTimeout t g
  | .lane p k tx => s2.qStop (laneQ p.toNat k.toNat tx) (some (128 + 8 * p.toNat + 4)) 0x75
  | .backbone n => s2.qStop (hostQ n.toNat) none 0x75
  | .usb u e => s2.qStop (usbQ u.toNat e.toNat) none 0x75
  | .dma c => if s2.chanBusy c.toNat then s2.chanStop c.toNat 0x75 else s2
  | .sweep => if s2.sweeping then s2.sweepEnd 3 4 else s2
  | .seal =>
    match s2.sealEng.jobs with
    | a :: rest => ((s2.modSeal (fun e => { e with jobs := rest })).raise 45).jobEnd a 0 4 0
    | [] => s2
  | .dap => { s2 with dap := { s2.dap with status := 2 } }
  | .engine | .ledger => s2

/-- EMSTAT (Table 1-3c). -/
def State.emStat (s : State) : Word :=
  BitVec.ofNat 32 (((List.range 4).map (fun b =>
    (if (vget s.mem.progs b none).isSome then 2 ^ b else 0) + (if (s.emWaiting b).isEmpty then 0 else 2 ^ (8 + b)))).sum)

/-- The DRAM's refresh-rate report and temperature change (R20): DREVENT bit 2 where it rises above 85 °C. -/
def State.refreshRate (s : State) (rate : BitVec 3) (temp : BitVec 8) : State :=
  let old := s.reg 0x023 0x1000
  let was : BitVec 8 := BitVec.ofNat 8 (fld old 23 16)
  let s1 := s.setReg 0x023 0x1000 (setFld (setFld old 23 16 temp.toNat) 2 0 rate.toNat)
  if 85 < temp.toInt ∧ was.toInt ≤ 85 then s1.event 0x023 0x1004 51 4 else s1

/-- The start of background zeroing (R514): DRAM reads as zeros with tag 0 from here on. -/
def State.zeroDram (s : State) : State :=
  let keep (a : Nat) : Bool := decide (a < dramBase)
  let m := s.mem
  let s1 : State := { s with mem := { m with bytes := m.bytes.filter (fun p => keep p.1), tags := m.tags.filter (fun p => keep p.1)
                                             damaged := m.damaged.filter (fun p => keep p.1), rows := [] } }
  (s1.modReg 0x023 0x1000 (fun v => setBit v 30 true)).setReg 0x023 0x1014 (BitVec.ofNat 32 (fld (s.reg 0x023 0x1018) 15 0 * 16))

/-- One 64 KiB block zeroed in the background (R514, Table 1-3b): DREVENT bit 3 after the last. -/
def State.zeroStep (s : State) : State :=
  let n := s.reg 0x023 0x1014
  if !bit (s.reg 0x023 0x1000) 30 then s
  else if n.toNat ≤ 1 then
    ((s.setReg 0x023 0x1014 0).modReg 0x023 0x1000 (fun v => setBit v 30 false)).event 0x023 0x1004 51 8
  else s.setReg 0x023 0x1014 (n - 1)

/-- A refresh closes the open row of a bank (R568). -/
def State.refreshBank (s : State) (k : Nat) : State := { s with mem := { s.mem with rows := Sparse.erase k s.mem.rows } }

end Sys2Proof.Machine
end

