-- ==== Sys2Proof/Machine/Ember.lean ====
section
/-!
DEFINITION. Machine/Ember.lean: the RTC (R489–R491), device states, targets and wake events (R492–R503), and the retention scrubber (R504).
-/
namespace Sys2Proof.Machine

/-- The RTC changed. -/
def State.modRtc (s : State) (f : Rtc → Rtc) : State := { s with rtc := f s.rtc }
/-- The power domain controller changed. -/
def State.modPdc (s : State) (f : Pdc → Pdc) : State := { s with pdc := f s.pdc }
/-- The device's own items changed. -/
def State.modDev (s : State) (f : Dev → Dev) : State := { s with dev := f s.dev }

/-- INC in units of 2⁻³² ns (R489). -/
def Rtc.inc (r : Rtc) : Nat := ((0x773594000000 : Int) * (1000000000 + r.trim) / 1000000000).toNat

/-- An ember tick (R489). -/
def State.emberTick (s : State) : State := s.modRtc (fun r => { r with time := (r.time + r.inc) % 2 ^ 96 })

/-- A whole second of a time block that reports lock (R490): ticks is the count of ember ticks in the last 16 s. -/
def State.rtcFollow (s : State) (ticks : Nat) : State :=
  if !s.rtcLocked || ticks = 0 then s
  else
    let num : Int := (524288 - ticks : Int) * 1000000000
    let trim := (2 * num + ticks) / (2 * ticks)
    s.modRtc (fun r => { r with time := s.ptp * 2 ^ 32, trim := trim, valid := true, hold := some s.now })

/-- A write of RTCSET (R491, Table 16-2). -/
def State.rtcSet (s : State) : State × BusRes :=
  if s.rtcLocked then (s, .err busErr)
  else
    let t := (s.reg 0x029 0x1010).toNat + (s.reg 0x029 0x1014).toNat * 2 ^ 32
    (s.modRtc (fun r => { r with time := t * 2 ^ 32, valid := true, wasSet := true, hold := none }), .ok 0)

/-- The RTC's clock fails over to the RC oscillator, or returns (R486). -/
def State.clockFail (s : State) (b : Bool) : State := s.modRtc (fun r => { r with fail := b })

/-- The RTC reaches the alarm time (Table 16-2). -/
def State.rtcAlarm (s : State) : State :=
  let t := (s.reg 0x029 0x1020).toNat + (s.reg 0x029 0x1024).toNat * 2 ^ 32
  if bit (s.reg 0x029 0x1028) 0 && decide (t ≤ s.rtcNs) then (s.raise 54).setReg 0x029 0x1028 0 else s

/-- Bits of WEVENT, with IRQ55 for each new bit (R503). -/
def State.wevent (s : State) (bits : Word) : State := s.newEvent 0x02A 0x1014 55 bits

/-- The RTC reaches the Open wake time (R503, Table 16-8): IRQ55 rises at every one. -/
def State.openWake (s : State) : State :=
  let t := (s.reg 0x02B 0x1040).toNat + (s.reg 0x02B 0x1044).toNat * 2 ^ 32
  if bit (s.reg 0x02B 0x1048) 0 && decide (t ≤ s.rtcNs) then
    ((s.modReg 0x02A 0x1014 (· ||| 1)).raise 55).setReg 0x02B 0x1048 0
  else s

/-- Reads of slot 0x029 (Table 16-2): a read of RTCLO latches RTCHI. -/
def State.rtcRead (s : State) (off : Nat) : State × Word :=
  match off with
  | 0x1000 => (s.setReg 0x029 0x1004 (BitVec.ofNat 32 (s.rtcNs / 2 ^ 32)), BitVec.ofNat 32 s.rtcNs)
  | 0x1008 => (s, BitVec.ofNat 32 (b2n s.rtcValid * 2 ^ 31 + b2n s.rtcLocked * 2 ^ 30 + b2n s.rtc.fail * 2 ^ 29 + min s.rtcHoldover 0xFFFF))
  | 0x100C => (s, BitVec.ofInt 32 s.rtc.trim)
  | 0x1018 => (s, 0)
  | _ => (s, s.plainRead .trade 0x029 off)

/-- Writes of slot 0x029. -/
def State.rtcWrite (s : State) (off : Nat) (v : Word) : State × BusRes :=
  if off = 0x1018 then s.rtcSet else (s.plainWrite .trade 0x029 off v, .ok 0)

/-- Whether DMA channels, seal jobs, the char sweep or eMRAM keep a deeper state away (BLOCK bit 2). -/
def State.mastersBusy (s : State) : Bool :=
  (List.range 32).any s.chanBusy || !s.sealEng.jobs.isEmpty || s.sweeping || (List.range 4).any (fun b => (vget s.mem.progs b none).isSome)

/-- BLOCK bit 1 on one tile (Table 16-6). -/
def Tile.holdsIdle (x : Tile) : Bool :=
  [World.trade, World.opn].any (fun w => x.shadowHeld w true || x.shadowHeld w false || x.efheld w)
    || x.link != .none || bit x.fpown 31 || bit x.att.own 31

/-- The claimed contexts, in ascending number. -/
def State.claimedCtxs (s : State) : List CtxId := ((List.range 4096).map (BitVec.ofNat 12)).filter (fun n => (s.ctx n).claimed)

/-- The records that the dormant area holds at most (R505). -/
def State.dormantRoom (s : State) : Nat := (fld (s.reg 0x02B 0x1024) 4 0 * 65536 - 64) / 448

/-- BLOCK bit k (Table 16-6). -/
def State.block (s : State) (k : Nat) : Bool :=
  match k with
  | 0 => !s.dict.queue.isEmpty || s.dict.grant.isSome
  | 1 => allTiles.any (fun t => (s.tile t).inService && (s.tile t).holdsIdle)
  | 2 => s.mastersBusy
  | 3 => (List.range 2).any (fun u => let x := s.usbPort u; !x.host && x.role != 0 && x.vbus)
  | 4 => !bit (s.reg 0x02B 0x1020) 31 || decide (s.dormantRoom < s.claimedCtxs.length)
  | _ => false

/-- The BLOCK bits as a number. -/
def State.blocks (s : State) : Nat := ((List.range 5).map (fun k => b2n (s.block k) * 2 ^ k)).sum

/-- The target state (R497): 1 IDLE, 2 DOZE, 3 BANKED, 4 DORMANT. -/
def State.target (s : State) : Nat :=
  let cap (k c : Nat) : Nat := if s.block k then c else 4
  [fld (s.regW .trade 0x02B 0x1004) 2 0, fld (s.regW .opn 0x02B 0x1004) 2 0, cap 0 1, cap 1 1, cap 2 2, cap 3 2, cap 4 3].foldl min 4

/-- PSTATE with TARGET and BLOCK as they are now. -/
def State.pstateNow (s : State) : Word := setFld (setFld (s.reg 0x02B 0x1000) 2 0 s.target) 7 3 s.blocks

/-- The controller re-evaluates the target (R497). -/
def State.evalTarget (s : State) : State := s.setReg 0x02B 0x1000 s.pstateNow

/-- A write of WPERMIT (R496). -/
def State.wpermit (s : State) (w : World) (v : Word) : State × BusRes :=
  let n := fld v 2 0
  if n = 0 ∨ 4 < n then (s, .err busErr) else ((s.setRegW w 0x02B 0x1004 (BitVec.ofNat 32 n)).evalTarget, .ok 0)

/-- A write of TGATE by a tile (R495). -/
def State.tgate (s : State) (q : Req) : State :=
  match q.tile with
  | some t => s.modTile t (·.modSys (fun y => { y with gateReq := true }))
  | none => s

/-- Whether a source or a machine check restarts tile t's clock (R495). -/
def State.restartDue (s : State) (t : TileId) : Bool :=
  !(s.tile t).flow.mcs.isEmpty
    || [World.trade, World.opn].any (fun w => !(s.ihold w).getLsbD t.toNat && (s.best (fun i => s.aimed t w i)).isSome)

/-- A gated tile's clock restarts (R495). -/
def State.gateRestart (s : State) (t : TileId) : State :=
  let y := (s.tile t).sys
  if y.powered && (y.gated || y.gateReq) && s.restartDue t then
    let s1 := s.modTile t (·.modSys (fun y => { y with gated := false, gateReq := false }))
    if s.dev.st == .idle then s1.devRun else s1
  else s

/-- Whether a tile is clock gated, idle or off (Table 16-4). -/
def Tile.quiet (x : Tile) : Bool :=
  !x.inService || !x.sys.powered || x.sys.gated || (x.run.isNone && x.flow.freeze == .none && !x.sys.resetting && !x.sys.halted)

/-- Whether every tile in service is clock gated. -/
def State.allQuiet (s : State) : Bool := allTiles.all (fun t => (s.tile t).quiet)

/-- The device becomes IDLE (Table 16-4). -/
def State.idleEntry (s : State) : State :=
  if s.dev.st == .run && s.boot.rst == .off && s.allQuiet then
    (s.modDev (fun d => { d with st := .idle })).modPdc (fun p => { p with idleSince := some s.now })
  else s

/-- A 448-byte record of the dormant save (R505). -/
def State.dormantRecord (s : State) (n : CtxId) : List Byte :=
  let c := if s.store.slotBad n then (s.ctx n).damage else s.ctx n
  let tagIdx := (List.range 15).map (· + 17) ++ [32, 33]
  let tags := ((List.range 17).zip tagIdx).map (fun p => b2n (c.dword p.2).tag * 2 ^ p.1)
  ((List.range 48).map (fun i => toBytes 8 (c.dword i).bits.toNat)).flatten ++ toBytes 2 n.toNat ++ [0, 0] ++ toBytes 4 tags.sum
    ++ List.replicate 56 0

/-- The first byte of the dormant area. -/
def State.dormantBase (s : State) : Nat := fld (s.reg 0x02B 0x1020) 15 0 * 0x10000

/-- The dormant save (R505): header and records, under the spill engine's master-side unit. A line that the unit refuses is not written, its
interrupt rises and the save is not complete. -/
def State.dormantSave (s : State) : State :=
  let ns := s.claimedCtxs
  let body := (ns.map s.dormantRecord).flatten
  let k := s.free
  let key := ((List.range 4).map (fun i => toBytes 4 (Config.entropy (k + i)).toNat)).flatten
  let seq := (s.pdc.dseq + 1) % 2 ^ 32
  let area := toBytes 4 0x444D5A4B ++ toBytes 4 ns.length ++ toBytes 4 seq ++ cmac key body ++ List.replicate 36 0 ++ body
  let s0 : State := { s with free := k + 4 }
  let r := (linePieces s.dormantBase area).foldl (fun (a : State × Bool) p =>
    if a.1.masterAllows 0 p.1 p.2.length true then
      let w := a.1.masterStore p.1 p.2
      (w.1, a.2 && !w.2)
    else (a.1.raise 44, false)) (s0, true)
  (r.1.modPdc (fun p => { p with dkey := key, dseq := seq })).setReg 0x02B 0x1028 (BitVec.ofNat 32 (b2n r.2 * 2 ^ 31 + ns.length))

/-- PD22 and PD23 go off without an upset (R493, R494): links down, receive FIFOs and transmit buffers empty, USB hosts disconnect, the time
block's lock falls. The registers R494 copies are kept in place: no access reaches them until they are written back. -/
def State.lanesOff (s : State) : State :=
  let s1 := (List.range 16).foldl (fun s p =>
    let s1 := s.modLane p (fun x => { x with fifo := [], tx := none, armed := false, burstLeft := 0, due := none, test := none })
    if s1.lstate p = 3 then s1 else s1.modReg (0x060 + p) 0x1004 (fun v => setFld v 31 30 0)) s
  let s2 := (List.range 2).foldl (fun s u =>
    if (s.usbPort u).host then s.modUsb u (fun x => { x with attached := false, speed := 0, addr := 0 }) else s) s1
  s2.lockFall

/-- Whether the DOZE wake condition holds for source i (R294, R500): pending, enabled, WAKE = 1. -/
def State.wakes (s : State) (i : Nat) : Bool := irqPresent i && s.irq.en.getLsbD i && s.irqPending i && bit (s.scfg i) 19

/-- Whether any wake event is present. -/
def State.wakeAny (s : State) : Bool := (List.range 512).any s.wakes

/-- One step of an entry (R498): tiles, dormant save, domains. -/
def State.sleepEntry (s : State) : State :=
  match s.pdc.entry with
  | none =>
    if s.dev.st == .idle && s.allQuiet && decide (2 ≤ s.target) && !s.wakeAny && s.pdc.idleSince.any (fun t => decide (t + 100 ≤ s.now)) then
      let g := s.target
      let s1 := allTiles.foldl (fun s t => if (s.tile t).inService && (s.tile t).sys.powered then s.tileOff t else s) s
      if g = 2 then s1.modDev (fun d => { d with st := .doze }) else s1.modPdc (fun p => { p with entry := some (1, g) })
    else s
  | some (k, g) =>
    if s.wakeAny then s
    else if g = 4 ∧ k = 1 then s.dormantSave.modPdc (fun p => { p with entry := some (2, g) })
    else
      let s1 := (s.lanesOff.modDev (fun d => { d with st := if g = 4 then .dormant else .banked })).modPdc (fun p => { p with entry := none, waking := none })
      s1.setReg 0x02A 0x1000 0

/-- A wake event stops an entry (R499): the device is in DOZE, a dormant save is no longer valid. -/
def State.entryStop (s : State) : State :=
  match s.pdc.entry with
  | none => s
  | some (k, _) =>
    if !s.wakeAny then s
    else
      let s1 := (s.modDev (fun d => { d with st := .doze })).modPdc (fun p => { p with entry := none })
      if k = 2 then s1.modReg 0x02B 0x1028 (fun v => setBit v 31 false) else s1

/-- The source of WLATCH bit b, if any (Table 16-6a). -/
def State.heldSource (s : State) (b : Nat) : Option Nat :=
  let named (slot off : Nat) : Option Nat :=
    let v := s.regW .trade slot off
    if bit v 31 && irqSoft (fld v 8 0) then some (fld v 8 0) else none
  match b with
  | 0 => some 53
  | 1 => some 54
  | 2 => some 55
  | 3 => some 57
  | 11 => named 0x028 0x1020
  | 12 => named 0x02C 0x1010
  | _ => if b < 11 then some (284 + b) else none

/-- The mirrored SCFG of a source (R500). -/
def State.mirror (s : State) (i : Nat) : Word := Sparse.get (scfgReset i) i s.pdc.mirror

/-- SCFG of a source as it was written, mirrored (R500). -/
def State.mirrorScfg (s : State) (i : Nat) : State :=
  s.modPdc (fun p => { p with mirror := Sparse.write (scfgReset i) i (s.scfg i) p.mirror })

/-- WMIRROR (Table 16-6a). -/
def State.wmirror (s : State) : Word :=
  BitVec.ofNat 32 (((List.range 13).map (fun b =>
    match s.heldSource b with
    | some i => b2n (bit (s.mirror i) 19) * 2 ^ b
    | none => 0)).sum)

/-- An ember-held source becomes pending in BANKED or DORMANT (R500): it is latched, and starts an exit where its mirrored WAKE is 1. -/
def State.wakeEvent (s : State) (b : Nat) : State :=
  match s.heldSource b with
  | none => s
  | some i =>
    if (s.dev.st == .banked || s.dev.st == .dormant) && s.irqPending i then
      let s1 := s.modReg 0x02A 0x1000 (fun v => setBit v b true)
      if bit (s.mirror i) 19 then s1.modPdc (fun p => { p with waking := some (p.waking.getD i) }) else s1
    else s

/-- The block of a scrubbed line's upset in the fault ledger (Table 15-15): shared SRAM bank or context store half; ember SRAM has none. -/
def scrubUpset (r : ScrubRow) : Option Upset :=
  if r.line < 131072 then
    some { cls := 5, num := sramBank (0x1000000 + 64 * r.line), kind := none, pa := 0x1000000 + 64 * r.line, hard := r.hard }
  else if r.line < 131072 + 24576 then
    some { cls := 6, num := b2n (12288 ≤ r.line - 131072), kind := none, pa := 0, hard := r.hard }
  else none

/-- The retention log reported to the fault ledger at an exit to RUN (R504). -/
def State.scrubReport (s : State) : State :=
  ((s.pdc.log.filterMap scrubUpset).foldl State.report s).modPdc (fun p => { p with log := [] })

/-- What every exit records (R503, Tables 16-6a, 16-8): WLAST, WEXITS, WAKEIRQ, LASTSTATE; the latches are handed over and cleared. -/
def State.exitDone (s : State) (i : Nat) : State :=
  let last := s.dev.st.code
  let held := (List.range 13).filter (fun b => bit (s.reg 0x02A 0x1000) b)
  let s1 := held.foldl (fun s b =>
    match s.heldSource b with
    | some j => if s.irqSense j = 0 ∧ irqSoft j = false then s else { s with irq := { s.irq with pend := setIrqBit s.irq.pend j true } }
    | none => s) s
  let s2 := ((s1.setReg 0x02A 0x1000 0).setReg 0x02A 0x100C (BitVec.ofNat 32 (2 ^ 31 + i))).modReg 0x02A 0x1010 (· + 1)
  (s2.modReg 0x02B 0x1000 (fun v => setFld (setFld v 24 16 i) 30 28 last)).modPdc (fun p => { p with waking := none, entry := none })

/-- A tile's domain powered up: caches and translations initialise empty. -/
def State.powerTile (s : State) (t : TileId) : State := s.modTile t (·.modSys (fun y => { y with powered := true, gated := false, gateReq := false }))

/-- A pending, enabled source with WAKE powers its target tile (R294, R500); out of DOZE it is an exit. -/
def State.dozeExit (s : State) (i : Nat) : State :=
  let t := s.irqTile i
  let up := s.dev.st == .run || s.dev.st == .idle || s.dev.st == .doze
  if !(up && s.pdc.entry.isNone && s.wakes i && (s.tile t).inService && !(s.tile t).sys.powered) then s
  else if s.dev.st == .doze then ((s.exitDone i).scrubReport.powerTile t).devRun
  else (s.powerTile t).devRun

/-- The domains of the DOZE set restored (R501, R429): the time block reloads from the RTC. -/
def State.domainsOn (s : State) : State :=
  { s.modTb (fun t => { t with locked := false, holdover := some s.now, ofs := [], frac := 0 }) with ptp := s.rtcNs }

/-- An exit from BANKED (R501). -/
def State.bankedExit (s : State) : State :=
  match s.dev.st, s.pdc.waking with
  | .banked, some i =>
    let t : TileId := BitVec.ofNat 4 (fld (s.mirror i) 3 0)
    if !(s.tile t).inService then s else (((s.exitDone i).domainsOn.scrubReport).powerTile t).devRun
  | _, _ => s

/-- An exit whose waking source targets a tile that is out of service (R501): it powers no tile, and after 100 µs of IDLE the controller enters
the target again. -/
def State.ashedExit (s : State) (i : Nat) : State :=
  let idle (s : State) : State :=
    ((s.modDev (fun d => { d with st := .idle })).modPdc (fun p => { p with idleSince := some s.now })).wevent 4
  match s.dev.st, s.pdc.waking with
  | .banked, some j =>
    if (s.tile (BitVec.ofNat 4 (fld (s.mirror j) 3 0))).inService then s else idle (s.exitDone j).domainsOn
  | .doze, _ => if s.wakes i && !(s.tile (s.irqTile i)).inService && s.pdc.entry.isNone then idle (s.exitDone i) else s
  | _, _ => s

/-- A powered tile resumes its recorded running context (R502). -/
def State.tileResume (s : State) (t : TileId) : State :=
  let x := s.tile t
  match x.sys.recorded with
  | some n =>
    if x.inService && x.sys.powered && !x.sys.resetting && !x.sys.halted && x.run.isNone && x.flow.freeze == .none then
      s.modFlow t (fun f => { f with freeze := .fill n .run })
    else s
  | none => s

/-- A write of WLCLR (R503). -/
def State.wlclr (s : State) (v : Word) : State := s.modReg 0x02A 0x1000 (fun w => w &&& ~~~ v)

/-- Reads of slot 0x02A (Table 16-6a). -/
def State.wakeRead (s : State) (off : Nat) : Word :=
  match off with
  | 0x1004 => s.reg 0x02A 0x1000
  | 0x1008 => s.wmirror
  | _ => s.plainRead .trade 0x02A off

/-- Writes of slot 0x02A. -/
def State.wakeWrite (s : State) (off : Nat) (v : Word) : State := if off = 0x1004 then s.wlclr v else s.plainWrite .trade 0x02A off v

/-- Lines that the scrubber visits (R504): shared SRAM, context store, ember SRAM. -/
def scrubLines : Nat := 131072 + 24576 + 4096

/-- An uncorrectable error left in the doubleword d of a scrubbed line. -/
def State.scrubMark (s : State) (line d : Nat) : State :=
  if line < 131072 then s.markDamaged (0x1000000 + 64 * line + 8 * d)
  else if line < 131072 + 24576 then s.modStore (fun x => { x with damaged := Sparse.put (8 * (line - 131072) + d) true x.damaged })
  else s.markDamaged (0x6000000 + 64 * (line - 131072 - 24576) + 8 * d)

/-- The scrubber visits its next line (R504); ce says that it met a correctable error, ue in which doubleword it met an uncorrectable one. -/
def State.scrubLine (s : State) (ce : Bool) (ue : Option (BitVec 3)) : State :=
  let n := s.pdc.scrubAt
  let s0 := s.modPdc (fun p => { p with scrubAt := (n + 1) % scrubLines })
  if s.dev.st == .dormant then s
  else
    let note (hard : Bool) (s : State) : State :=
      s.modPdc (fun p => { p with log := if p.log.length < 16 then p.log ++ [{ line := n, hard := hard }] else p.log })
    let s1 := if ce then note false (s0.modReg 0x02B 0x1034 (· + 1)) else s0
    match ue with
    | none => s1
    | some d =>
      let s2 := note true (s1.modReg 0x02B 0x1038 (· + 1))
      let s3 := (s2.scrubMark n d.toNat).modReg 0x02A 0x1014 (· ||| 2)
      s3.raise 55

end Sys2Proof.Machine
end

