-- ==== Sys2Proof/Machine/Store.lean ====
section
/-!
DEFINITION. Machine/Store.lean: the persistent parameter store (R507–R512). The Open image is the owner of its commands; what the image
holds of its own comes as an operand.
-/
namespace Sys2Proof.Machine

/-- The base of store bank k (R507). -/
def storeBase (k : Nat) : Nat := if k = 0 then 0x8380000 else 0x83C0000

/-- The most payload bytes of a bank. -/
def storeMax : Nat := 262112

/-- The SEQ of a bank that is valid (R508). -/
def State.storeSeq (s : State) (k : Nat) : Option Nat :=
  let a := storeBase k
  let h := s.mem.read a 32
  let len := frameVal h 12 4
  if s.isDamaged a 32 || frameVal h 0 4 != 0x53505A4B || frameVal h 4 2 != 1 || decide (storeMax < len) then none
  else if s.isDamaged (a + 32) len || frameVal h 16 4 != (crc32c (s.mem.read (a + 32) len)).toNat then none
  else some (frameVal h 8 4)

/-- The bank in use with its SEQ (R508). -/
def State.storeInUse (s : State) : Option (Nat × Nat) :=
  match s.storeSeq 0, s.storeSeq 1 with
  | some a, some b => some (if serialLater b a then (1, b) else (0, a))
  | some a, none => some (0, a)
  | none, some b => some (1, b)
  | none, none => none

/-- A record of the payload (R507): INDEX, SUB, type, LEN, two reserved bytes, the value padded to a multiple of 4. -/
def storeRecord (e : DictDesc) (v : List Byte) : List Byte :=
  toBytes 2 e.index ++ toBytes 1 e.sub ++ toBytes 1 e.type ++ toBytes 2 v.length ++ [0, 0] ++ v ++ List.replicate ((4 - v.length % 4) % 4) 0

/-- A descriptor put in its place among descriptors in ascending key. -/
def insertEnt (e : DictDesc) : List DictDesc → List DictDesc
  | [] => [e]
  | x :: r => if e.key ≤ x.key then e :: x :: r else x :: insertEnt e r

/-- The RWS entries that the store holds (R507): those of the engine, the Open world and its isles, by key. -/
def Dict.storeEntries (d : Dict) : List DictDesc :=
  let own := (builtinA ++ builtinB).filter (fun e => e.access == 5) ++ d.cat.filter (fun e => e.access == 5 && e.owner != 1)
  own.foldr insertEnt []

/-- The payload gathered (R510 step 1): own gives the values that the Open world and its isles hold themselves. -/
def State.storeGather (s : State) (own : List (Nat × List Byte)) : List Byte :=
  ((s.dict.storeEntries).map (fun e =>
    if e.ember then storeRecord e (s.dict.val e)
    else
      match own.find? (fun p => p.1 == e.key) with
      | some p => storeRecord e p.2
      | none => storeRecord e e.defaultBytes)).flatten

/-- Whether a sector of a range is ashed in the fault ledger (class 9). -/
def State.sectorAshed (s : State) (pa n : Nat) : Bool :=
  s.ledger.recs.any (fun p => decide (152 ≤ p.1) && p.2.st == 2 && decide (pa / 4096 ≤ p.2.addr / 256) && decide (p.2.addr / 256 ≤ (pa + n - 1) / 4096))

/-- A 0x1600 value kept by the Open image through UPDATE (R352, Table 16-12). -/
def State.storeNote (s : State) (sub : Nat) (v : List Byte) : State := (s.update .opn (0x160000 + sub) v).1

/-- A failed step of the Open world's command. -/
def State.stepFail (s : State) (w : World) (reason : Nat) : State := s.stepDone w (BitVec.ofNat 32 (1 + reason * 2 ^ 16))

/-- The first step of STORE gathers the payload and fixes the bank, SEQ and n (R510 steps 1 and 2). -/
def State.storeBegin (s : State) (own : List (Nat × List Byte)) : State :=
  let pay := s.storeGather own
  let (bank, seq) := match s.storeInUse with
    | some (b, q) => (1 - b, (q + 1) % 2 ^ 32)
    | none => (0, 1)
  let n := cdiv (cdiv pay.length 64) 4 + 1
  ({ s with job := { payload := pay, bank := bank, seq := seq } } : State).stepN .opn (BitVec.ofNat 32 n)

/-- The work of one step of STORE (R510): four lines of payload, read back and checked after the last; the header in a step of its own. fail says
that a line's programming failed. -/
def State.storePart (s : State) (fail : Bool) : State :=
  let j := s.job
  let k := (s.dict.cmd 0).k
  let parts := cdiv (cdiv j.payload.length 64) 4
  let a := storeBase j.bank
  if k < parts then
    let w := s.masterStore (a + 32 + 256 * k) ((j.payload.drop (256 * k)).take 256)
    if w.2 || fail || s.sectorAshed (a + 32 + 256 * k) 256 then w.1.stepFail .opn 3
    else if k + 1 = parts ∧ (w.1.isDamaged (a + 32) j.payload.length = true ∨ w.1.mem.read (a + 32) j.payload.length ≠ j.payload) then w.1.stepFail .opn 4
    else w.1.stepDone .opn 0
  else
    let head := toBytes 4 0x53505A4B ++ toBytes 2 1 ++ [0, 0] ++ toBytes 4 j.seq ++ toBytes 4 j.payload.length
      ++ toBytes 4 (crc32c j.payload).toNat ++ List.replicate 12 0
    let w := s.masterStore a head
    if w.2 || fail || s.sectorAshed a 32 then w.1.stepFail .opn 3
    else
      let res := toBytes 1 j.bank ++ [0, 0, 0] ++ toBytes 4 j.seq ++ toBytes 4 j.payload.length
      let s1 := (w.1.modDict (fun d => d.setCmd 0 { d.cmd 0 with result := res })).stepDone .opn 0
      ((((s1.storeNote 1 (toBytes 1 j.bank)).storeNote 2 (toBytes 4 j.seq)).storeNote 3 (toBytes 4 j.payload.length)).storeNote 4 [0])

/-- A granted step of STORE by the Open image (R510). -/
def State.storeStep (s : State) (own : List (Nat × List Byte)) (fail : Bool) : State :=
  match s.dict.granted .opn with
  | some (0, g) =>
    if (s.dict.cmd 0).arg.any (· != 0) then s.stepFail .opn 2
    else
      let s1 := if g.first then s.storeBegin own else s
      if g.first ∧ storeMax < s1.job.payload.length then s1.stepFail .opn 1 else s1.storePart fail
  | _ => s

/-- The RW and RWS entries that RESTORE_DEFAULTS writes (R511). -/
def Dict.defaultEntries (d : Dict) : List DictDesc :=
  (builtinA ++ builtinB ++ d.cat).filter (fun e => (e.access == 1 || e.access == 5) && decide (0x1000 ≤ e.index) && decide (e.index < 0x4000))

/-- RESTORE_DEFAULTS' work in its one step (R511): what an owner holds itself it restores itself. -/
def State.restoreDefaults (s : State) : State :=
  match s.dict.granted .opn with
  | some (1, _) =>
    let arg := (s.dict.cmd 1).arg
    let mode := frameByte arg 0
    if 1 < mode ∨ (arg.drop 1).any (· != 0) = true then s.stepFail .opn 2
    else
      let es := s.dict.defaultEntries
      let s1 := (es.filter (·.ember)).foldl (fun s e => (s.modDict (fun d => { d with vals := Sparse.erase e.key d.vals })).publish e.key e.defaultBytes) s
      let s2 := if mode = 1 then
          (((s1.masterStore (storeBase 0) (List.replicate 32 0)).1).masterStore (storeBase 1) (List.replicate 32 0)).1.storeNote 1 [0xFF]
        else s1
      let s3 := (s2.modDict (fun d => d.setCmd 1 { d.cmd 1 with result := toBytes 2 es.length })).stepN .opn 1
      s3.stepDone .opn 0
  | _ => s

/-- The auto-store delay has passed without an RWS write (R512): the Open image starts STORE with an argument of zeros. -/
def State.autoStore (s : State) : State :=
  let d := s.dict.num 0x160007
  let st := (s.dict.cmd 0).st
  if d ≠ 0 ∧ st ≠ 1 ∧ s.dict.rws.any (fun t => decide (t + d * 1000000 ≤ s.now)) = true then
    ((s.modDict (fun d => { d.setCmd 0 { d.cmd 0 with arg := List.replicate 32 0 } with rws := none })).cmdStart 0 4).1
  else s

/-- One record applied by the Open image (R509); the second value says that it was ignored. -/
def State.storeApply (s : State) (refused : List Nat) (key ty : Nat) (v : List Byte) : State × Bool :=
  match s.dict.entry key with
  | none => (s, true)
  | some e =>
    let r : DReq := { src := .mailbox .opn 0, op := 2, key := key, value := v, tag := 0 }
    if e.type ≠ ty ∨ e.owner = 1 ∨ refused.contains key = true then (s, true)
    else if e.owner = 0 then
      let s1 := s.setUnlock r.src (some (s.now + 600000000))
      if s1.checkReq r e 4 ≠ 0 then (s1, true)
      else
        let p := s1.builtinWrite r e 4
        (p.1.afterWrite e (s1.dict.val e) v, p.2 != 0)
    else if !(e.typeOk v && e.rangeOk v) then (s, true)
    else ((if e.ember then s.modDict (·.setVal key v) else s).lanePolicy key v, false)

/-- The records of a payload, one after another, at most n; the number ignored. -/
def State.storeRecords (s : State) (refused : List Nat) : Nat → List Byte → Nat → State × Nat
  | 0, _, k => (s, k)
  | n + 1, b, k =>
    if b.length < 8 then (s, k)
    else
      let len := frameVal b 4 2
      let r := s.storeApply refused (frameVal b 0 2 * 256 + frameByte b 2) (frameByte b 3) ((b.drop 8).take len)
      r.1.storeRecords refused n (b.drop (8 + cdiv len 4 * 4)) (k + b2n r.2)

/-- The Open image loads the bank in use (R509); refused names the entries of its own whose stored value it refuses. -/
def State.storeLoad (s : State) (refused : List Nat) : State :=
  match s.storeInUse with
  | none => (s.storeNote 1 [0xFF]).storeNote 5 [2]
  | some (b, seq) =>
    let len := s.mem.val (storeBase b + 12) 4
    let r := s.storeRecords refused (cdiv len 8) (s.mem.read (storeBase b + 32) len) 0
    let s1 := ((r.1.storeNote 1 (toBytes 1 b)).storeNote 2 (toBytes 4 seq)).storeNote 3 (toBytes 4 len)
    (s1.storeNote 5 (toBytes 1 b)).storeNote 6 (toBytes 2 (min r.2 65535))

end Sys2Proof.Machine
end

