-- ==== Sys2Proof/Machine/Reset.lean ====
section
/-!
DEFINITION. Machine/Reset.lean: the reset sources and what each leaves (R513–R518, Table 16-10, R532–R536), and the exit from DORMANT (R506).
-/
namespace Sys2Proof.Machine

/-- The boot state changed. -/
def State.modBoot (s : State) (f : Boot → Boot) : State := { s with boot := f s.boot }

/-- The slot and the offset of a register key. -/
def slotOfKey (k : Nat) : Nat := k / 0x10000 % 0x1000
/-- The offset of a register key. -/
def offOfKey (k : Nat) : Nat := k % 0x10000

/-- Registers of the bus die (R461). -/
def busDieSlot (slot : Nat) : Bool := within 0x081 0x083 slot || within 0x090 0x09F slot

/-- The counters that the register tables keep since bus power-on reset, what each part fixes (DRSIZE), and TILEEXCL and BOOTTRY (R523). -/
def sincePower (slot off : Nat) : Bool :=
  match slot with
  | 0x022 => off == 0x100C || within 0x1100 0x117C off
  | 0x023 => off == 0x100C || off == 0x1010 || off == 0x1018
  | 0x024 => off == 0x100C || off == 0x1010
  | 0x02A => off == 0x1010
  | 0x00D => off == 0x1120 || off == 0x1124
  | _ => false

/-- Registers that a device reset keeps (Table 16-10). -/
def keptByDevice (slot off : Nat) : Bool := busDieSlot slot || sincePower slot off

/-- Registers that a logic brown-out keeps: the bus die's, and what the part fixes. -/
def keptByBrownOut (slot off : Nat) : Bool := busDieSlot slot || (slot == 0x023 && off == 0x1018)

/-- Registers that DORMANT keeps: the ember domain's, the bus die's, the ledger's, the locks that last until the next device reset and what
they lock. -/
def keptByDormant (slot off : Nat) : Bool :=
  keptByDevice slot off || slot == 0x028 || slot == 0x029 || slot == 0x02A || slot == 0x02B || slot == 0x02C || slot == 0x00F
    || (slot == 0x00D && (off == 0x1118 || off == 0x111C)) || (slot == 0x030 && within 0x1200 0x120C off)

/-- The registers that a test accepts are kept, the others take their reset values. -/
def State.keepRegs (s : State) (keep : Nat → Nat → Bool) : State := { s with regs := s.regs.filter (fun p => keep (slotOfKey p.1) (offOfKey p.1)) }

/-- The memory that a test on addresses keeps: bytes, tags and errors elsewhere go. -/
def Mem.keep (m : Mem) (f : Nat → Bool) : Mem :=
  { m with bytes := m.bytes.filter (fun p => f p.1), tags := m.tags.filter (fun p => f p.1), damaged := m.damaged.filter (fun p => f p.1) }

/-- eMRAM addresses. -/
def inEmram (a : Nat) : Bool := decide (0x8000000 ≤ a) && decide (a < 0x8400000)
/-- The retained scratch of Table 16-1. -/
def inScratch (a : Nat) : Bool := decide (0x603A000 ≤ a) && decide (a < 0x6040000)

/-- The lines whose programming a loss of the logic supply interrupts: each reads afterwards as before or with an uncorrectable error, which
of the two is open (R451). -/
def State.progsLost (s : State) : State :=
  (List.range 4).foldl (fun s b =>
    match vget s.mem.progs b none with
    | none => s
    | some p =>
      let m := s.mem
      let s1 : State := { s with free := s.free + 1, mem := { m with progs := vset m.progs b none } }
      if bit (Config.freeByte s.free) 0 then { s1 with mem := s1.mem.putBytes p.line p.old } else s1.markDamaged p.line) s

/-- The memory after a device reset: eMRAM and the retained scratch stay with their colours, everything else is zero with tag 0 and, in shared
SRAM, colour 0 (Table 16-10). -/
def State.memReset (s : State) (keep : Nat → Bool) (colours : Bool) : State :=
  let m := s.mem.keep keep
  { s with mem := { m with colours := if colours then m.colours.filter (fun p => decide (0x6000000 ≤ p.1)) else [], rows := []
                           progs := Vector.replicate 4 none } }

/-- A tile after a device reset, before its self-test: MCCOUNT stays (R177). -/
def Tile.afterReset (x : Tile) (mc : Bool) : Tile := { Tile.reset with sys := { TileSys.reset with mccount := if mc then x.sys.mccount else 0 } }

/-- A new debug nonce (Table 17-10). -/
def State.newNonce (s : State) : State :=
  { s with free := s.free + 4, dap := { s.dap with nonce := (List.range 4).map (fun i => Config.entropy (s.free + i)), nonceAt := 0 } }

/-- The end of a Trade debug unlock (R545): UNLOCKED and SCOPE clear, the nonce is renewed, IRQ46 rises. -/
def State.relock (s : State) : State :=
  if s.dap.unlockEnd.isNone then s
  else ({ s with dap := { s.dap with unlockEnd := none, scope := 0 } } : State).newNonce.raise 46

/-- What the logic side loses at a device reset and at every greater one, beside registers, memory and tiles: engine, seal engine, blocks, debug
port. -/
def State.blocksReset (s : State) : State :=
  let s1 : State :=
    { s with
      resp := none, irq := Irq.reset, sweep := Sweep.reset, store := CtxStore.reset, ptp := 0, errCount := 0, errRows := [], dict := Dict.reset
      lanes := Vector.replicate 16 Lane.reset, bb := Backbone.reset, tb := TimeBlk.reset, usb := #v[Usb.reset 2, Usb.reset 1]
      sealEng := { Seal.reset with pairings := s.sealEng.pairings }
      pdc := { Pdc.reset with dkey := s.pdc.dkey, dseq := s.pdc.dseq, scrubAt := s.pdc.scrubAt }, job := StoreJob.reset
      dap := { s.dap with status := 0, haltreq := 0, token := [], scope := 0, unlockEnd := none, deferred := 0, lands := none } }
  s1.newNonce

/-- 0x0110:03 (R515, R518): the first source in the order of Table 17-1 among those of one sequence. -/
def State.noteReset (s : State) (code : Option Nat) (zero : Bool) : State :=
  s.modDev (fun d =>
    { d with
      st := .run, resetAt := s.now, started := Vector.replicate 2 false, permits := []
      resetCode := match code with
        | none => d.resetCode
        | some c => if s.boot.rst = .off ∧ s.boot.tinder ≠ .ready then c else min c d.resetCode
      resets := if zero then 0 else if code.isSome then d.resets + 1 else d.resets })

/-- The reset sequence is due; the watchdogs hold their reset values, the Trade watchdog 5,000 ms (R536). -/
def State.seqDue (s : State) (held : Bool) : State :=
  s.modBoot (fun b => { Boot.reset with rst := if held then .held else .running, burned := b.burned, revoked := b.revoked, burn := b.burn })

/-- A device reset (R516, Table 16-10); none for a kindling restart, whose source is not recorded. held: RESET_N stays low. -/
def State.deviceReset (s : State) (code : Option Nat) (held : Bool) : State :=
  let s1 := (s.noteReset code false).memReset (fun a => inEmram a || inScratch a) true
  let s2 := (s1.keepRegs keptByDevice).blocksReset
  ({ s2 with tiles := s2.tiles.map (·.afterReset true) } : State).seqDue held

/-- A logic brown-out (R460, Table 16-10): the bus die switches the ports off; the logic side loses everything but eMRAM and what the bus die
holds, and stays down until the rail returns. -/
def State.brownOut (s : State) : State :=
  let s1 := (s.busBrownOut.progsLost.noteReset (some 1) true).memReset inEmram false
  let s2 := (s1.keepRegs keptByBrownOut).blocksReset
  let s3 : State := { s2 with
    tiles := Vector.replicate 16 Tile.reset, rtc := Rtc.reset, pdc := Pdc.reset, ledger := Ledger.reset
    dap := { Dap.reset with nonce := s2.dap.nonce } }
  s3.seqDue true

/-- The logic rail returns (R460): the reset sequence starts. -/
def State.railReturn (s : State) : State :=
  if s.boot.rst = .held ∧ s.bus.started = true then s.modBoot (fun b => { b with rst := .running }) else s

/-- A bus power-on reset (R515, Table 16-10): everything but eMRAM, the burned cells and what the part fixes. started: VBUS has risen through
17.0 V again. -/
def State.busReset (s : State) (started : Bool) : State :=
  let s0 := s.progsLost
  let s1 : State := { State.reset with
    pending := s0.pending, now := s0.now, seq := s0.seq, free := s0.free, out := s0.out, upsets := s0.upsets
    mem := { Mem.reset with bytes := s0.mem.bytes.filter (fun p => inEmram p.1), damaged := s0.mem.damaged.filter (fun p => inEmram p.1) }
    regs := s0.regs.filter (fun p => slotOfKey p.1 == 0x023 && offOfKey p.1 == 0x1018)
    sealEng := { Seal.reset with pairings := s0.sealEng.pairings }
    bus := { BusDie.reset with started := started }
    dev := { Dev.reset with resetAt := s0.now }
    boot := { Boot.reset with rst := if started then .running else .held, burned := s0.boot.burned, revoked := s0.boot.revoked } }
  s1.newNonce

/-- VBUS rises through 17.0 V: the bus die starts, and the reset sequence with it (R456, R517). -/
def State.uvloRising (s : State) : State :=
  if s.bus.started then s else (s.modBus (fun b => { b with started := true })).modBoot (fun b => { b with rst := .running })

/-- RESET_N (R517): low for 1 µs or more holds the logic side in reset; the sequence starts at the rising edge. -/
def State.resetN (s : State) (low : Bool) : State :=
  if low then s.deviceReset (some 2) true
  else
    let s1 : State := { s with dap := { s.dap with lands := none } }
    if s.boot.rst = .held ∧ s.bus.started = true then s1.modBoot (fun b => { b with rst := .running }) else s1

/-- The pending device reset of the dictionary's DEVICE_RESET (R373): once no step is in progress, or 10 ms after it was written. -/
def State.dictReset (s : State) : State :=
  match s.dict.devReset with
  | some t => if s.dict.grant.isNone ∨ t + 10000 ≤ s.now then s.deviceReset (some 4) false else s
  | none => s

/-- The boot context's number of a world. -/
def bootCtxNum : World → CtxId
  | .trade => 0
  | .opn => 8

/-- A boot context as a reset starts it at a vector (R63, R77, R241). -/
def bootCtx (w : World) (vec : Word) : Ctx :=
  { Ctx.zero with
    c := vset (vset Ctx.zero.c 1 (rootC1 w)) 2 (rootC2 w), pcc := rootPcc w vec
    status := match w with
      | .trade => 0xC0100000
      | .opn => 0x40100000
    cmr := widestMask w, skm := 0xF, ident := identReset (bootCtxNum w).toNat }

/-- A world's reset vector. -/
def State.vector (s : State) : World → Word
  | .trade => s.reg 0x00D 0x1110
  | .opn => s.reg 0x00D 0x1114

/-- A world's boot tile (BOOTTILE). -/
def State.bootTile (s : State) (w : World) : TileId :=
  let v := s.reg 0x00D 0x111C
  BitVec.ofNat 4 (match w with
    | .trade => fld v 3 0
    | .opn => fld v 7 4)

/-- A world's boot context starts on its boot tile (R533 step 7): it is filled there once the tile runs nothing. -/
def State.bootStart (s : State) (w : World) : State :=
  let t := s.bootTile w
  let n := bootCtxNum w
  let s1 := s.modStore (fun x => { x.setSlot n (bootCtx w (s.vector w)) with damaged := x.damaged.filter (fun p => p.1 / 48 != n.toNat) })
  let s2 := s1.modTile t (·.modSys (fun y => { y with powered := y.powered || !(y.ashed || y.excluded), gated := false, gateReq := false, recorded := some n }))
  s2.tileResume t

/-- Whether an Open world reset waits on a tile (R533 step 2): Open is the caller or the preempted side of a link. -/
def State.openCaller (s : State) (t : TileId) : Bool :=
  match (s.tile t).link.caller with
  | some n => (s.ctx n).world == .opn
  | none => false

/-- A tile's links as a reset of world w closes them (R533 steps 1 and 2). -/
def State.resetLinks (s : State) (w : World) (t : TileId) : State :=
  let x := s.tile t
  match x.link.caller with
  | none => s
  | some n =>
    if (s.ctx n).world == w then
      -- the Open callee is recorded at its last boundary and stays resident
      s.modTile t (fun x =>
        let y := x.settleMode
        let z := match y.run with
          | some b => y.modBank b (fun k => { k with st := .dirty })
          | none => y
        { z.switched with run := none, link := .none })
    else
      let s1 := (s.modTile t (fun x => { x.switched with link := .none })).resume t n
      match x.link with
      | .strait _ _ addr => s1.modTile t (·.modFlow (fun f => { f with fault := some ⟨0x07, addr⟩ }))
      | _ => s1.modTile t (fun y => y.restoreImage y.world y.sup)

/-- A tile without world w's contexts and items (R533 steps 3 to 5, R175, R229). -/
def Tile.worldCleared (x : Tile) (w : World) : Tile :=
  let gone (k : Bank) : Bool := k.st != .empty && k.ctx.world == w
  let ran := x.run.any (fun b => gone (vget x.banks b Bank.reset))
  let x1 := if ran then { x.switched with run := none } else x
  let fp := bit x.fpown 31 && bit x.fpown 30 == w.bit
  let x2 : Tile := { x1 with
    banks := x1.banks.map (fun k => if gone k then Bank.reset else k), spill := x1.spill.filter (fun c => c.ctx.world != w)
    cfg := vset x1.cfg w.idx WorldCfg.reset
    float := if fp then FloatState.reset else x1.float
    fpown := setBit (if fp then setBit x1.fpown 31 false else x1.fpown) (if w == .trade then 29 else 28) false
    att := if bit x1.att.own 31 && bit x1.att.own 30 == w.bit then Att.reset else x1.att }
  x2

/-- A tile's wait for a context of world w, or its record of one, ended. -/
def State.forgetWaits (s : State) (w : World) (t : TileId) : State :=
  let of (n : CtxId) : Bool := (s.ctx n).world == w && (s.ctx n).claimed
  s.modTile t (fun x =>
    let x1 := match x.flow.freeze with
      | .fill n _ => if of n then x.modFlow (fun f => { f with freeze := .none }) else x
      | _ => x
    let x2 := match x1.flow.enter with
      | some (v, _) => if v == w then x1.modFlow (fun f => { f with enter := none }) else x1
      | none => x1
    x2.modSys (fun y => { y with recorded := if y.recorded.any of then none else y.recorded, halted := y.halted && !y.recorded.any of }))

/-- The context of a world that a reset of it leaves: a reserved one zeroed and claimed, another free (R533 step 4). -/
def ctxReleased (n : Nat) : Ctx :=
  if n < 16 then { Ctx.zero with ident := identReset n, status := if n < 8 then 0x80000000 else 0 } else Ctx.zero

/-- Every claimed context of world w released (R533 step 4). -/
def State.releaseAll (s : State) (w : World) : State :=
  let ns := (List.range 4096).filter (fun n => let c := s.store.slot (BitVec.ofNat 12 n); c.claimed && c.world == w)
  ns.foldl (fun s n =>
    s.modStore (fun x => { x.setSlot (BitVec.ofNat 12 n) (ctxReleased n) with damaged := x.damaged.filter (fun p => p.1 / 48 != n) })) s

/-- World w's isles and the map of its regions cleared (R533 step 5). -/
def State.dropWorldIsles (s : State) (w : World) : State :=
  (s.modStore (fun x =>
    { x with isles := x.isles.filter (fun p => p.2.world != w), maps := x.maps.filter (fun p => p.1 / 4096 != w.idx) })).dropIsles (fun i => i.1 == w)

/-- World w's translation registers on a tile at their reset values (R309). -/
def State.xlateReset (s : State) (w : World) (t : TileId) : State :=
  { s with regs := s.regs.filter (fun p =>
      !(p.1 / 0x10000000 % 2 == w.idx && slotOfKey p.1 == tileSlot t && decide (0x1100 ≤ offOfKey p.1) && decide (offOfKey p.1 < 0x1190))) }

/-- World w's sources without enable, pending and overrun bits and software latches (R533 step 5). -/
def State.irqReset (s : State) (w : World) : State :=
  let keep := ~~~ irqMaskFrom s w 512
  { s with irq := { s.irq with pend := s.irq.pend &&& keep, en := s.irq.en &&& keep, ovr := s.irq.ovr &&& keep } }

/-- The engine without world w's registered entries; its outstanding forwarded requests are answered BUSY (R533 step 6); its commands fail
(R372). -/
def State.dictWorldReset (s : State) (w : World) : State :=
  let s1 := s.modDict (fun d =>
    { d with cat := d.cat.filter (fun e => ownerWorld e.owner != w)
             vals := d.vals.filter (fun p => !(d.cat.any (fun e => e.key == p.1 && ownerWorld e.owner == w)))
             wq := vset d.wq w.idx [], unlock := vset d.unlock w.idx none })
  let fs := s1.dict.fwds.filter (fun f => f.world == w)
  let s2 := s1.modDict (fun d => { d with fwds := d.fwds.filter (fun f => f.world != w) })
  ((fs.foldl (fun s f => s.answer f.req 8 []) s2).resubmit).cmdsWorldReset w

/-- A world reset proceeds (R533). -/
def State.worldResetNow (s : State) (w : World) : State :=
  let s1 := allTiles.foldl (fun s t => (s.resetLinks w t).forgetWaits w t) s
  let s2 := s1.mapTiles (·.worldCleared w)
  let s3 := ((s2.releaseAll w).dropWorldIsles w).irqReset w
  let s4 := (allTiles.foldl (fun s t => s.xlateReset w t) s3).dictWorldReset w
  let s5 := match w with
    | .trade => (s4.modSeal (fun e => { e with slots := [], jobs := [], pairing := none, shown := false })).relock
    | .opn => s4.modBoot (fun b => { b with waitOpen := false })
  (s5.bootStart w).modDev (fun d => { d with started := vset d.started w.idx true })

/-- A world reset (R533): that of the Open world waits while Open is the caller or the preempted side of a link. -/
def State.worldReset (s : State) (w : World) : State :=
  if w == .opn && allTiles.any s.openCaller then s.modBoot (fun b => { b with waitOpen := true }) else s.worldResetNow w

/-- A waiting Open world reset goes on once no link holds it. -/
def State.worldResetWaits (s : State) : State := if s.boot.waitOpen then s.worldReset .opn else s

/-- A write of WRESET (R532). -/
def State.wreset (s : State) (q : Req) (slot : Nat) (v : Word) : State × BusRes :=
  let w := World.ofBit (bit v 0)
  if !q.sup || (slot == 0x00D && q.world != .trade) || (slot == 0x02B && w == .trade) then (s, .err busErr) else (s.worldReset w, .ok 0)

/-- A write of TRESET (R534): the tile stops, its links close, its caches are written back and its banks spilled; its self-test runs. A tile that
is ashed returns at a device reset only. -/
def State.treset (s : State) (q : Req) (v : Word) : State × BusRes :=
  let t : TileId := BitVec.ofNat 4 (fld v 3 0)
  let x := s.tile t
  if !(q.world == .trade && q.sup) then (s, .err busErr)
  else if x.sys.ashed then (s, .ok 0)
  else
    let n := match x.runNum with
      | some n => some n
      | none => x.sys.recorded
    let boot := if n = some 0 ∨ n = some 8 then n else none
    let s1 := s.tileFlush t
    let y := s1.tile t
    let s2 := s1.setTile t { y.emptied with
      caches := { Caches.reset with wbuf := y.caches.wbuf, wbacks := y.caches.wbacks }
      sys := { y.sys with resetting := true, powered := true, gated := false, gateReq := false, halted := false, haltReq := false, haltAny := false
                          recorded := none, dvfs := .steady } }
    (s2.modBoot (fun b => { b with selfTest := (t.toNat, s.now, boot) :: b.selfTest.filter (fun e => e.1 != t.toNat) }), .ok 0)

/-- The self-test of a tile reset ends 2 ms after its start (R534, R177, R309): FEAT7 BIST is rewritten, the tile's own control slot and items are
reset, a boot context restarts there. -/
def State.tresetDone (s : State) (t : TileId) (bist : BitVec 4) : State :=
  match s.boot.selfTest.find? (fun e => e.1 == t.toNat) with
  | none => s
  | some (_, t0, n) =>
    if s.now < t0 + 2000 then s
    else
      let s1 := s.modBoot (fun b => { b with selfTest := b.selfTest.filter (fun e => e.1 != t.toNat) })
      let s2 : State := { s1 with regs := s1.regs.filter (fun p => slotOfKey p.1 != tileSlot t) }
      let s3 := s2.modTile t (fun x =>
        let y : Tile := { x with cfg := x.cfg.map (fun g => { g with wcfg := setBit g.wcfg 27 false }) }
        y.modSys (fun z => { z with resetting := false, bist := bist }))
      match n with
      | none => s3
      | some n =>
        let w : World := if n = 0 then .trade else .opn
        let s4 := s3.modStore (fun x => { x.setSlot n (bootCtx w (s.vector w)) with damaged := x.damaged.filter (fun p => p.1 / 48 != n.toNat) })
        (s4.modTile t (·.modSys (fun y => { y with recorded := some n }))).tileResume t

/-- A write of TSTART (R535). -/
def State.tstart (s : State) (q : Req) (v : Word) : State × BusRes :=
  let t : TileId := BitVec.ofNat 4 (fld v 3 0)
  let n : CtxId := BitVec.ofNat 12 (fld v 27 16)
  let c := s.ctx n
  let idle := match s.dir n with
    | .running _ _ | .recorded _ => false
    | _ => true
  if (s.tile t).tidle && (s.tile t).flow.freeze == .none && c.claimed && c.world == q.world && !c.parked && idle then
    let s1 := s.modTile t (·.modSys (fun y => { y with recorded := some n, powered := true, gated := false, gateReq := false }))
    (s1.tileResume t, .ok 0)
  else (s, .err busErr)

/-- The slot of a world's watchdog. -/
def wdSlot (w : World) : Nat := if w == .trade then 0x00D else 0x00E
/-- A watchdog's count reloaded with WDTIME. -/
def State.wdReload (s : State) (w : World) : State :=
  s.modBoot (fun b => { b with left := vset b.left w.idx (fld (s.reg (wdSlot w) 0x1004) 19 0 * 1000), warned := vset b.warned w.idx false })
/-- Whether a watchdog counts: EN, and its domain on (R493, R536). -/
def State.wdRuns (s : State) (w : World) : Bool :=
  bit (s.reg (wdSlot w) 0x1000) 31 && (s.dev.st == .run || s.dev.st == .idle || s.dev.st == .doze) && s.boot.rst == .off

/-- A watchdog expires (R536): a device reset, or an Open world reset counted in WDEXP. -/
def State.wdExpire (s : State) (w : World) : State :=
  match w with
  | .trade => s.deviceReset (some 3) false
  | .opn => ((s.modReg 0x00E 0x1014 (· + 1)).wdReload .opn).worldReset .opn

/-- A watchdog's count reaches zero. -/
def State.wdDue (s : State) (w : World) : State := if s.wdRuns w && vget s.boot.left w.idx 0 == 0 then s.wdExpire w else s

/-- WDWARN ms before expiry the watchdog raises its source once (R536). -/
def State.wdWarn (s : State) (w : World) : State :=
  let lead := fld (s.reg (wdSlot w) 0x1008) 19 0
  if s.wdRuns w && lead != 0 && !vget s.boot.warned w.idx false && decide (vget s.boot.left w.idx 0 ≤ lead * 1000) then
    (s.modBoot (fun b => { b with warned := vset b.warned w.idx true })).raise (match w with
      | .trade => 32
      | .opn => 33)
  else s

/-- A write of WDKICK (R536). -/
def State.wdKick (s : State) (w : World) (v : Word) : State :=
  let c := s.reg (wdSlot w) 0x1000
  let prime (b : Bool) : State := s.modBoot (fun x => { x with primed := vset x.primed w.idx b })
  if v = 0xA5C3 then prime true
  else if v = 0x3C5A ∧ vget s.boot.primed w.idx false = true then (prime false).wdReload w
  else if bit c 30 && bit c 31 then (prime false).wdExpire w
  else prime false

/-- A write of WDCTL, WDTIME or WDWARN (R536, Table 17-8): LOCK fixes EN and WDTIME. -/
def State.wdWrite (s : State) (w : World) (off : Nat) (v : Word) : State :=
  let slot := wdSlot w
  let c := s.reg slot 0x1000
  match off with
  | 0x1000 =>
    if bit c 30 then s
    else
      let s1 := s.setReg slot 0x1000 (v &&& 0xC0000000)
      if bit v 31 && !bit c 31 then s1.wdReload w else s1
  | 0x1004 => if bit c 30 then s else s.plainWrite .trade slot off v
  | 0x1008 => s.plainWrite .trade slot off v
  | 0x100C => s.wdKick w v
  | _ => s

/-- One µs of the watchdogs; the tinder ROM kicks the Trade watchdog while it waits in recovery (R528). -/
def State.wdTick (s : State) : State :=
  let dec (w : World) (s : State) : State :=
    if s.wdRuns w then s.modBoot (fun b => { b with left := vset b.left w.idx (vget b.left w.idx 0 - 1) }) else s
  let s1 := dec .opn (dec .trade s)
  if s1.boot.tinder = .recovery then s1.wdReload .trade else s1

/-- Everything but eMRAM, ember SRAM and its colours that DORMANT loses (Table 16-10). -/
def State.dormantLoss (s : State) : State :=
  let s1 := s.memReset (fun a => inEmram a || (decide (0x6000000 ≤ a) && decide (a < 0x6040000))) true
  let lockT := bit (s.reg 0x00D 0x1000) 30
  let lockO := bit (s.reg 0x00E 0x1000) 30
  let s2 := s1.keepRegs (fun slot off =>
    keptByDormant slot off || (slot == 0x00D && lockT && (off == 0x1000 || off == 0x1004))
      || (slot == 0x00E && lockO && (off == 0x1000 || off == 0x1004)))
  let s3 : State :=
    { s2 with
      irq := { Irq.reset with line := s.irq.line }, sweep := Sweep.reset, store := CtxStore.reset, lanes := Vector.replicate 16 Lane.reset
      bb := Backbone.reset, tb := TimeBlk.reset, usb := #v[Usb.reset 2, Usb.reset 1]
      sealEng := { Seal.reset with pairings := s.sealEng.pairings, exported := s.sealEng.exported, pairResult := s.sealEng.pairResult }
      tiles := s2.tiles.map (fun x =>
        { Tile.reset with sys := { TileSys.reset with mccount := x.sys.mccount, bist := x.sys.bist, ashed := x.sys.ashed, excluded := x.sys.excluded } }) }
  (s3.wdReload .trade).wdReload .opn

/-- A context from its 384-byte slot image and its tags (R505, R506). -/
def ctxOfRecord (b : List Byte) (tags : Nat) : Ctx :=
  let d (i : Nat) : DWord := BitVec.ofNat 64 (frameVal b (8 * i) 8)
  let cap (i k : Nat) : Cap := { bits := d i, tag := tags / 2 ^ k % 2 == 1 }
  let c0 := (List.range 34).foldl (fun c j =>
    let i := j + 34
    if i < 48 then c.setDword i (Cap.ofDW (d i)) else c) ((List.range 16).foldl (fun c i => c.setDword i (Cap.ofDW (d i))) Ctx.zero)
  let c1 := (List.range 15).foldl (fun c k => c.setC (k + 1) (cap (17 + k) k)) c0
  { c1 with pcc := cap 32 15, btgt := cap 33 16, ident := BitVec.ofNat 32 (frameVal b 360 4), status := BitVec.ofNat 32 (frameVal b 276 4) }

/-- The slots after a DORMANT exit (R506): the records of the area, their tags as long as the CMAC verifies; other contexts free, but the
reserved ones claimed and zero. -/
def State.dormantRestore (s : State) : State :=
  let a := s.dormantBase
  let n := min (s.mem.val (a + 4) 4) 4096
  let body := s.mem.read (a + 64) (448 * n)
  let ok := bit (s.reg 0x02B 0x1028) 31 && s.mem.val a 4 == 0x444D5A4B && s.mem.val (a + 8) 4 == s.pdc.dseq && !s.isDamaged a (64 + 448 * n)
    && s.mem.read (a + 12) 16 == cmac s.pdc.dkey body
  let base := (List.range 4096).foldl (fun (m : CtxStore) i => m.setSlot (BitVec.ofNat 12 i) (ctxReleased i)) CtxStore.reset
  let st := (List.range n).foldl (fun (m : CtxStore) i =>
    let r := (body.drop (448 * i)).take 448
    let c := ctxOfRecord r (frameVal r 388 4)
    m.setSlot (BitVec.ofNat 12 (frameVal r 384 2)) (if ok then c else c.damage)) base
  { s with store := st }

/-- An exit from DORMANT (R506): the domains power up, the dormant save is restored, each world's boot context resumes on its boot tile. -/
def State.dormantExit (s : State) : State :=
  match s.dev.st, s.pdc.waking with
  | .dormant, some i =>
    let s1 := (s.exitDone i)
    let latched := s1.irq.pend
    let s2 := s1.dormantLoss.dormantRestore
    let held := (List.range 512).foldl (fun (v : BitVec 512) j =>
      if latched.getLsbD j && (List.range 13).any (fun b => s.heldSource b == some j && bit (s.reg 0x02A 0x1000) b) then setIrqBit v j true else v) 0
    let s3 := ({ s2 with irq := { s2.irq with pend := held } } : State).zeroDram.domainsOn.scrubReport
    let s4 := (s3.modReg 0x023 0x1000 (fun v => setBit v 31 true)).devRun
    let resume (w : World) (s : State) : State :=
      let t := s.bootTile w
      if vget s.dev.started w.idx false && (s.ctx (bootCtxNum w)).claimed && (s.tile t).sys.recorded.isNone then
        (s.modTile t (·.modSys (fun y => { y with recorded := some (bootCtxNum w) }))).tileResume t
      else s
    resume .opn (resume .trade s4)
  | _, _ => s

end Sys2Proof.Machine
end

