-- ==== Sys2Proof/Machine/Boot.lean ====
section
/-!
DEFINITION. Machine/Boot.lean: the reset sequence, the tinder ROM, recovery, boot controls, burns and IMAGE_VERIFY (R519–R531).
-/
namespace Sys2Proof.Machine

/-- SVN of OTPSTAT: the cells burned at manufacture and since. -/
def State.svn (s : State) : Nat := Config.svn.toNat + s.boot.burned
/-- KEYREV of OTPSTAT. -/
def State.keyrev (s : State) : BitVec 4 := Config.keyrev ||| s.boot.revoked

/-- The Trade boot tile and the Open boot tile (R519). -/
def State.bootTiles (s : State) : Option (Nat × Nat) :=
  let ok (n : Nat) : Bool := (s.tile (BitVec.ofNat 4 n)).sys.bist == 0xF && !bit (s.reg 0x00D 0x1120) n
  match (List.range 16).find? ok with
  | none => none
  | some b => some (b, (((List.range 15).map (fun i => (b + 1 + i) % 16)).find? ok).getD b)

/-- Context n runs in bank 0 of a tile that was just reset. -/
def State.runFresh (s : State) (t : TileId) (n : CtxId) (c : Ctx) : State :=
  (s.modStore (·.setSlot n c)).modTile t (fun x => { x.modBank 0 (fun _ => Bank.load n c .running) with run := some 0 })

/-- The reset sequence (R519–R521, R514, R424): bist gives each tile's self-test result, phy the lanes whose PHY fails its own. -/
def State.resetSequence (s : State) (bist : List (BitVec 4)) (phy : BitVec 16) : State :=
  if s.boot.rst != .running || !s.bus.started then s
  else
    let s1 := allTiles.foldl (fun s t =>
      let r := bist.getD t.toNat 0xF
      let s1 := s.modTile t (·.modSys (fun y => { y with bist := r, excluded := bit (s.reg 0x00D 0x1120) t.toNat }))
      if r = 0xF then s1 else s1.report { cls := 4, num := t.toNat, kind := none, pa := 0, hard := true }) s
    let s2 := (List.range 16).foldl (fun s p => if bit phy p then s.laneAsh p else s) s1
    let s3 := (s2.zeroDram.modReg 0x023 0x1000 (fun v => setBit v 31 true)).modBoot (fun b => { b with rst := .off })
    match s3.bootTiles with
    | none => s3
    | some (b, o) =>
      let s4 := s3.setReg 0x00D 0x111C (BitVec.ofNat 32 (b + 16 * o))
      let s5 := s4.runFresh (BitVec.ofNat 4 b) 0 (bootCtx .trade (s4.vector .trade))
      (s5.modBoot (fun x => { x with tinder := .ready })).modDev (fun d => { d with started := vset d.started 0 true })

/-- What the checks of R526 find wrong with an image given as header and body, magic and greatest length as they are for its kind: a code of
Table 17-5, or none. -/
def State.imageFault (s : State) (magic maxLen : Nat) (b : List Byte) : Option Nat :=
  let len := frameVal b 12 4
  let entry := frameVal b 16 4
  let k := frameByte b 6
  let zeros := ((b.drop 0x14).take 12 ++ (b.drop 0x61).take 31).all (· == 0)
  if b.length < 192 ∨ frameVal b 0 4 ≠ magic ∨ frameVal b 4 2 ≠ 1 ∨ zeros = false ∨ 3 < k ∨ 63 < frameByte b 7 ∨ len % 64 ≠ 0 then some 1
  else if maxLen < len ∨ b.length < 192 + len then some 5
  else if len ≤ entry ∨ entry % 4 ≠ 0 then some 1
  else if sha256 ((b.drop 0x20).take 65) ≠ Config.keyHash k ∨ bit s.keyrev k = true then some 2
  else if frameByte b 7 < s.svn then some 4
  else if !ecdsaVerify ((b.drop 0x20).take 65) (b.take 128 ++ (b.drop 192).take len) ((b.drop 0x80).take 64) then some 3
  else none

/-- The four fixed images (R525, R531): base, magic, greatest body length. -/
def imageAt : Nat → Nat × Nat × Nat
  | 0 => (0x8000000, 0x4E4B5A4B, 261952)
  | 1 => (0x8040000, 0x4E4B5A4B, 261952)
  | 2 => (0x8080000, 0x52545A4B, 261952)
  | _ => (0x8300000, 0x504F5A4B, 524096)

/-- Header and body of fixed image k as they stand in eMRAM. -/
def State.imageBytes (s : State) (k : Nat) : List Byte :=
  let (a, _, m) := imageAt k
  s.mem.read a (192 + min (s.mem.val (a + 12) 4) m)

/-- Whether a read of fixed image k meets an uncorrectable error. -/
def State.imageDamaged (s : State) (k : Nat) : Bool :=
  let (a, _, m) := imageAt k
  s.isDamaged a (192 + min (s.mem.val (a + 12) 4) m)

/-- What is wrong with fixed image k (R526). -/
def State.imageBad (s : State) (k : Nat) : Option Nat :=
  let (_, g, m) := imageAt k
  if s.imageDamaged k then some 6 else s.imageFault g m (s.imageBytes k)

/-- BOOTTRY. -/
def State.bootTry (s : State) : Word := s.reg 0x00D 0x1124
/-- Starts of kindling copy c since VECLOCK was last set. -/
def State.tries (s : State) (c : Nat) : Nat := fld s.bootTry (2 * c + 1) (2 * c)

/-- An image's body copied into shared SRAM, and the jump to its entry at supervisor level of the Trade world (R527). -/
def State.runImage (s : State) (b : List Byte) : State :=
  let s1 := s.masterWriteMem 0x1000000 ((b.drop 192).take (frameVal b 12 4))
  let pc : Word := BitVec.ofNat 32 (0x1000000 + frameVal b 16 4)
  (s1.modTile (s.bootTile .trade) (·.modCtx (fun c => { c with pcc := c.pcc.withAddr pc }))).modBoot (fun x => { x with tinder := .done })

/-- A kindling copy chosen by the tinder ROM (R527). -/
def State.runCopy (s : State) (c : Nat) : State :=
  let v := setFld s.bootTry (2 * c + 1) (2 * c) (min 3 (s.tries c + 1))
  (s.setReg 0x00D 0x1124 (setBit (setBit v 8 (c == 1)) 9 false)).runImage (s.imageBytes c)

/-- Recovery (R528): USB port 0 presents itself as a device, and the ROM waits. -/
def State.recover (s : State) : State :=
  (s.modBoot (fun b => { b with tinder := .recovery })).modUsb 0 (fun x => { x with role := 2 })

/-- The tinder ROM's choice (R527); rcvry says that RCVRY_N was low at reset. -/
def State.tinderBoot (s : State) (rcvry : Bool) : State :=
  if s.boot.tinder ≠ .ready then s
  else if rcvry then s.recover
  else
    let ok (c : Nat) : Bool := (s.imageBad c).isNone && decide (s.tries c < 3)
    match ok 0, ok 1 with
    | true, true => s.runCopy (if frameVal (s.imageBytes 0) 8 4 < frameVal (s.imageBytes 1) 8 4 then 1 else 0)
    | true, false => s.runCopy 0
    | false, true => s.runCopy 1
    | false, false => s.recover

/-- An image received in recovery (R528, Table 17-5): the bytes of the transfer, and whether it was complete. The status goes out on 0x81. -/
def State.recoveryTransfer (s : State) (b : List Byte) (complete : Bool) : State :=
  if s.boot.tinder ≠ .recovery then s
  else
    let st := if !complete then some 5 else s.imageFault 0x4E4B5A4B 261952 b
    let s1 := s.send (.usb 0 1 (toBytes 4 (st.getD 0)))
    match st with
    | some _ => s1
    | none => (s1.setReg 0x00D 0x1124 (setBit s1.bootTry 9 true)).runImage b

/-- VECLOCK. -/
def State.vecLocked (s : State) : Bool := bit (s.reg 0x00D 0x1118) 0

/-- A write of VECLOCK (R522). -/
def State.vecLock (s : State) (v : Word) : State :=
  if bit v 0 then (s.modReg 0x00D 0x1118 (· ||| 1)).setReg 0x00D 0x1124 (setFld s.bootTry 3 0 0) else s

/-- A write of TRVEC, ORVEC or TILEEXCL (R522); a tile that runs a context leaves service at the next device reset. -/
def State.bootControl (s : State) (off : Nat) (v : Word) : State × BusRes :=
  if s.vecLocked then (s, .err busErr)
  else
    let s1 := s.plainWrite .trade 0x00D off v
    if off = 0x1120 then
      (allTiles.foldl (fun s t => s.modTile t (fun x => if x.run.isSome then x else x.modSys (fun y => { y with excluded := bit v t.toNat }))) s1, .ok 0)
    else (s1, .ok 0)

/-- A write of DEVRST (R522). -/
def State.devRst (s : State) (v : Word) : State × BusRes :=
  if s.vecLocked then (s, .err busErr) else if bit v 0 then (s.deviceReset none false, .ok 0) else (s, .ok 0)

/-- A write of SVNBURN (R524); one that comes while a burn runs is ignored. -/
def State.svnBurn (s : State) (v : Word) : State × BusRes :=
  if !bit v 0 then (s, .ok 0)
  else if 63 ≤ s.svn then (s, .err busErr)
  else if s.boot.burn.isSome then (s, .ok 0)
  else (s.modBoot (fun b => { b with burn := some s.now }), .ok 0)

/-- An SVN burn completes 1 ms after its write (R524). -/
def State.svnBurned (s : State) : State :=
  if s.boot.burn.any (fun t => decide (t + 1000 ≤ s.now)) then s.modBoot (fun b => { b with burn := none, burned := b.burned + 1 }) else s

/-- A write of KEYREVBURN (R524). -/
def State.keyrevBurn (s : State) (v : Word) : State × BusRes :=
  let k : BitVec 4 := v.setWidth 4
  if s.keyrev ||| k = 0xF then (s, .err busErr) else (s.modBoot (fun b => { b with revoked := b.revoked ||| k }), .ok 0)

/-- IMAGE_VERIFY's work in its step (R531, Table 17-7). Reasons 1 to 4 are the codes of Table 17-5; a body beyond its limit is a malformed header. -/
def State.imageVerify (s : State) : State :=
  match s.dict.granted .trade with
  | some (2, _) =>
    let arg := (s.dict.cmd 2).arg
    let k := frameByte arg 0
    if 3 < k ∨ (arg.drop 1).any (· != 0) = true then s.stepFail .trade 5
    else
      match s.imageBad k with
      | some 5 => s.stepFail .trade 1
      | some r => s.stepFail .trade r
      | none =>
        let b := s.imageBytes k
        let res := (b.drop 8).take 4 ++ [b.getD 7 0, b.getD 6 0, 0, 0] ++ (sha256 (b.take 128 ++ b.drop 192)).take 24
        let s1 := (s.modDict (fun d => d.setCmd 2 { d.cmd 2 with result := res })).stepN .trade 1
        s1.stepDone .trade 0
  | _ => s

/-- Reads of slots 0x00D and 0x00E (Tables 17-3, 17-8). -/
def State.bootRead (s : State) (slot off : Nat) : Word :=
  let w : World := if slot = 0x00D then .trade else .opn
  if off = 0x1010 then BitVec.ofNat 32 (cdiv (vget s.boot.left w.idx 0) 1000)
  else if slot = 0x00D ∧ off = 0x110C then s.tidle
  else if slot = 0x00D ∧ off = 0x112C then BitVec.ofNat 32 (s.keyrev.toNat * 256 + s.svn)
  else if slot = 0x00D ∧ 0x1140 ≤ off ∧ off < 0x11C0 then BitVec.ofNat 32 (frameVal (Config.keyHash ((off - 0x1140) / 32)) (off % 32) 4)
  else if off = 0x100C ∨ (slot = 0x00D ∧ (off = 0x1100 ∨ off = 0x1104 ∨ off = 0x1108 ∨ off = 0x1128 ∨ off = 0x1130 ∨ off = 0x1134)) then 0
  else s.plainRead .trade slot off

/-- Writes of slots 0x00D and 0x00E. -/
def State.bootWrite (s : State) (q : Req) (slot off : Nat) (v : Word) : State × BusRes :=
  if off < 0x1020 then (s.wdWrite (if slot = 0x00D then .trade else .opn) off v, .ok 0)
  else if slot = 0x00E then (s.plainWrite .trade slot off v, .ok 0)
  else
    match off with
    | 0x1100 => s.wreset q slot v
    | 0x1104 => s.treset q v
    | 0x1108 => s.tstart q v
    | 0x1110 => s.bootControl off v
    | 0x1114 => s.bootControl off v
    | 0x1118 => (s.vecLock v, .ok 0)
    | 0x1120 => s.bootControl off v
    | 0x1128 => s.devRst v
    | 0x1130 => s.svnBurn v
    | 0x1134 => s.keyrevBurn v
    | _ => (s.plainWrite .trade slot off v, .ok 0)

/-- Reads of slot 0x02B (Tables 16-8, 17-3). -/
def State.pdcRead (s : State) (w : World) (off : Nat) : Word :=
  match off with
  | 0x1000 => s.pstateNow
  | 0x100C =>
    let deep := s.dev.st == .banked || s.dev.st == .dormant
    let tiles := (allTiles.map (fun t => b2n (s.tile t).sys.powered * 2 ^ (t.toNat + 1))).sum
    let rest := if s.dev.st = .dormant then 2 ^ 21 else 31 * 2 ^ 17 + 2 ^ 24 + (if deep then 0 else 3 * 2 ^ 22)
    BitVec.ofNat 32 (1 + tiles + rest)
  | 0x1008 => 0
  | 0x1100 => 0
  | 0x1108 => 0
  | 0x110C => s.tidle
  | 0x1020 => if w = .opn then 0 else s.plainRead w 0x02B off
  | 0x1024 => if w = .opn then 0 else s.plainRead w 0x02B off
  | _ => s.plainRead w 0x02B off

/-- Writes of slot 0x02B. -/
def State.pdcWrite (s : State) (q : Req) (off : Nat) (v : Word) : State × BusRes :=
  match off with
  | 0x1004 => s.wpermit q.world v
  | 0x1008 => (s.tgate q, .ok 0)
  | 0x1020 => if q.world = .opn then (s, .ok 0) else (s.plainWrite .trade 0x02B off v, .ok 0)
  | 0x1024 => if q.world = .opn then (s, .ok 0) else (s.plainWrite .trade 0x02B off v, .ok 0)
  | 0x1100 => s.wreset q 0x02B v
  | 0x1108 => s.tstart q v
  | _ => (s.plainWrite .trade 0x02B off v, .ok 0)

end Sys2Proof.Machine
end

