-- ==== Sys2Proof/Machine/Debug.lean ====
section
/-!
DEFINITION. Machine/Debug.lean: the TAP, the DAPCTL registers, halts, the token and the Trade debug unlock (R537–R545).
-/
namespace Sys2Proof.Machine

/-- The debug port changed. -/
def State.modDap (s : State) (f : Dap → Dap) : State := { s with dap := f s.dap }
/-- Whether a Trade debug unlock is open. -/
def State.unlockedDap (s : State) : Bool := s.dap.unlockEnd.isSome
/-- Bit k of the unlock's SCOPE (R542). -/
def State.scopeBit (s : State) (k : Nat) : Bool := s.unlockedDap && s.dap.scope / 2 ^ k % 2 == 1

/-- TAP activity (DAPSTAT HOST). -/
def State.tapActive (s : State) : State := s.modDap (fun d => { d with active := some s.now })

/-- A TAP instruction selected (R537, R538): EXTEST, CLAMP and HIGHZ take the lands only while RESET_N is low. -/
def State.tapInstr (s : State) (code : Nat) : State :=
  let takes := (code == 0 || code == 4 || code == 5) && s.boot.rst == .held
  s.tapActive.modDap (fun d => { d with ir := code, lands := if takes then some code else none })

/-- IDCODE (R537, Table 17-9): the identification register is selected, and its 32 bits captured. -/
def State.tapIdcode (s : State) : State := { s.tapInstr 2 with resp := some (.ok 0x2771636F) }

/-- TRST_N falls (R537): the TAP controller and its instruction register are reset. -/
def State.trstN (s : State) : State := s.modDap (fun d => { d with ir := 2, lands := none })

/-- An operation of DAPCTL: the instruction is selected, and the register's value from before the operation is captured (R540). -/
def State.dapCtl (s : State) (old : Word) : State := { s.tapInstr 0x11 with resp := some (.ok old) }

/-- The tiles that are halted, a bit each (HALTED). -/
def State.haltedTiles (s : State) : Word := BitVec.ofNat 32 (s.tileBits (·.sys.halted))

/-- A HALTREQ of one tile (R541, R542): it halts at its next boundary in an Open context or without one; for a tile that runs a Trade context the
halt is deferred and counted, unless SCOPE bit 2 reaches it. -/
def State.haltTile (s : State) (t : TileId) : State :=
  let any := s.scopeBit 2
  let trade := (s.tile t).run.isSome && (s.tile t).world == .trade && !any
  let s1 := s.modTile t (·.modSys (fun y => { y with haltReq := true, haltAny := any }))
  let s2 := if trade then s1.modDap (fun d => { d with deferred := min (d.deferred + 1) 0xFFFF }) else s1
  s2.settleTile t

/-- A write of HALTREQ (R540, R541). -/
def State.haltReqWrite (s : State) (v : Word) : State :=
  let s1 := (s.dapCtl (s.dap.haltreq.setWidth 32)).modDap (fun d => { d with haltreq := d.haltreq ||| v.setWidth 16 })
  allTiles.foldl (fun s t => if bit v t.toNat then s.haltTile t else s) s1

/-- A write of RESUME (R541). -/
def State.resumeWrite (s : State) (v : Word) : State :=
  let s1 := (s.dapCtl 0).modDap (fun d => { d with haltreq := d.haltreq &&& ~~~ v.setWidth 16 })
  allTiles.foldl (fun s t => if bit v t.toNat then s.unhalt t else s) s1

/-- A write of DRESET (R540): a debug reset. -/
def State.dreset (s : State) (v : Word) : State := if bit v 0 then (s.dapCtl 0).deviceReset (some 5) false else s.dapCtl 0

/-- A token word appended (R540, R543): the 32nd completes the token and raises IRQ46. -/
def State.tokenAppend (s : State) (v : Word) : State :=
  let s1 := s.dapCtl (s.dap.token.getLastD 0)
  if 32 ≤ s.dap.token.length then s1
  else
    let s2 := s1.modDap (fun d => { d with token := d.token ++ [v] })
    if s2.dap.token.length = 32 then s2.raise 46 else s2

/-- A write of TOKCLR (R540, Table 17-10): the token is emptied and the nonce drawn afresh. -/
def State.tokClr (s : State) : State := ((s.dapCtl 0).modDap (fun d => { d with token := [] })).newNonce

/-- A read of NONCE (R540): successive reads return NONCE0 to NONCE3. -/
def State.nonceRead (s : State) : State :=
  (s.dapCtl (s.dap.nonce.getD s.dap.nonceAt 0)).modDap (fun d => { d with nonceAt := (d.nonceAt + 1) % 4 })

/-- A write of UNLOCK (R543, R545). -/
def State.unlockWrite (s : State) (v : Word) : State × BusRes :=
  let d := fld v 15 0
  let scope := fld v 18 16
  if !bit v 31 then (s.relock, .ok 0)
  else if s.dap.token.length ≠ 32 ∨ (s.dap.token.drop 4).take 4 ≠ s.dap.nonce ∨ scope = 0 ∨ d = 0 ∨ 28800 < d then (s, .err busErr)
  else ((s.modDap (fun x => { x with unlockEnd := some (s.now + d * 1000000), scope := scope, token := [] })).newNonce, .ok 0)

/-- The unlock's time is over (R545). -/
def State.uleftExpiry (s : State) : State := if s.dap.unlockEnd.any (fun t => decide (t ≤ s.now)) then s.relock else s

/-- DAPSTAT (Table 17-10). -/
def State.dapStat (s : State) : Word :=
  BitVec.ofNat 32 (b2n s.unlockedDap * 2 ^ 31 + b2n (s.dap.token.length == 32) * 2 ^ 30
    + b2n (s.dap.active.any (fun t => decide (s.now < t + 1000000))) * 2 ^ 29 + (if s.unlockedDap then s.dap.scope % 8 else 0) * 2 ^ 16 + s.dap.deferred)

/-- Reads of slot 0x038 (Table 17-10). -/
def State.dapRead (s : State) (off : Nat) : Word :=
  if off = 0x1000 then s.dapStat
  else if 0x1010 ≤ off ∧ off < 0x1020 then s.dap.nonce.getD ((off - 0x1010) / 4) 0
  else if off = 0x1024 then
    match s.dap.unlockEnd with
    | some t => BitVec.ofNat 32 (cdiv (t - s.now) 1000000)
    | none => 0
  else if 0x1040 ≤ off ∧ off < 0x10C0 then s.dap.token.getD ((off - 0x1040) / 4) 0
  else if off = 0x1020 then 0
  else s.plainRead .trade 0x038 off

/-- Writes of slot 0x038. -/
def State.dapWrite (s : State) (off : Nat) (v : Word) : State × BusRes :=
  if off = 0x1020 then s.unlockWrite v else (s.plainWrite .trade 0x038 off v, .ok 0)

/-- Word k of a context slot as the debug port sees it: what the slot holds. -/
def Ctx.slotWord (c : Ctx) (k : Nat) : Word := let d := (c.dword (k / 2)).bits; if k % 2 = 0 then dlo d else dhi d

/-- A context slot with word k written as raw storage: its doubleword loses its tag (R56). -/
def Ctx.setSlotWord (c : Ctx) (k : Nat) (v : Word) : Ctx :=
  if k = 90 then { c with ident := v }
  else
    let d := (c.dword (k / 2)).bits
    c.setDword (k / 2) { bits := if k % 2 = 0 then dw v (dhi d) else dw (dlo d) v, tag := false }

/-- A refusal of the debug port's unit (R111, R112): counted, IRQ46, an error response. -/
def State.dapRefuse (s : State) (count : Bool) : State :=
  let s1 := if count then s.modReg 0x005 0x1104 (· + 1) else s
  (s1.raise 46).modDap (fun d => { d with status := 2 })

/-- The context of a context-store address, and its word. -/
def slotAddr (pa : Nat) : CtxId × Nat := (BitVec.ofNat 12 ((pa - 0x4000000) / 384), (pa - 0x4000000) % 384 / 4)

/-- DAPACC: the address is set (R539); one that is no multiple of 4 is an error. -/
def State.dapAddr (s : State) (a : BitVec 36) : State :=
  let s1 := s.tapInstr 0x10
  if a.toNat % 4 = 0 then s1.modDap (fun d => { d with addr := a.toNat, status := 0 }) else s1.modDap (fun d => { d with status := 2 })

/-- Who the debug port is to a block's own checks: a supervisor, of the Trade world while an unlock is open. -/
def State.dapReq (s : State) : Req := { world := if s.unlockedDap then .trade else .opn, sup := true, cmr := 0xFFFF, tile := none }

/-- Whether the unit lets an access of the debug port through (R108, R111, R542): none where it does, else whether the refusal counts. -/
def State.dapCheck (s : State) (pa : Nat) (write : Bool) : Option Bool :=
  if s.dapTrade pa && !s.scopeBit (b2n write) then some true
  else if !s.masterAllows 3 pa 4 write then some false
  else
    match s.place pa with
    | .ctxStore =>
      if write && (s.store.slot (slotAddr pa).1).world == .trade && !s.scopeBit 1 then some true else none
    | .reserved | .emberPrivate => some false
    | .rom => if write then some false else none
    | _ => none

end Sys2Proof.Machine
end

