-- ==== Sys2Proof/Machine/Bus.lean ====
section
/-!
DEFINITION. Machine/Bus.lean: the peripheral bridge. Every register access passes its gate and reaches its block's own read or write; a tile's
access, the words of a general DMA request and the accesses of the debug port come here (R31, R100, R101, R462, R539, R559, R567).
-/
namespace Sys2Proof.Machine

/-- Whether the bridge is in retention or off (R492). -/
def State.bridgeDown (s : State) : Bool := s.dev.st == .banked || s.dev.st == .dormant

/-- LPSTAT as it reads: UPSETS is the number of upsets in the window that slides (R423). -/
def State.lpstatRead (s : State) (p : Nat) : Word :=
  let l := s.lane p
  setFld (s.reg (0x060 + p) 0x1004) 23 16 (l.ups.filter (fun t => decide (s.now < t + l.window * 1000000))).length

/-- Whether an offset of a DMA queue slot is a KICK, which reads as zero. -/
def kickOff (slot off : Nat) : Bool :=
  off % 64 == 0x1C && ((slot == 0x070 && within 0x1000 0x4FFF off) || (slot == 0x078 && within 0x2000 0x23FF off))

/-- What a read of a register answers, behind its gate. -/
def State.slotRead (s : State) (q : Req) (slot off : Nat) : State × Word :=
  let w := q.world
  if off < 0x1000 ∧ !(within 0x07C 0x07D slot) then (s, Config.unlisted slot off)
  else if slot = 0 then (s, if off < 0x9000 then s.reg 0 off else Config.unlisted slot off)
  else if within 0x008 0x00B slot then (s, s.irqRead w slot off)
  else if slot = 0x00C then (s, s.timerRead w off)
  else if slot = 0x00D ∨ slot = 0x00E then (s, s.bootRead slot off)
  else if slot = 0x00F then s.ledgerRead off
  else if slot = 0x024 ∧ off = 0x1000 then (s, s.emStat)
  else if slot = 0x028 then ((if off = 0x1108 then s.hsAdvance w else s), s.dictRead w off)
  else if slot = 0x029 then s.rtcRead off
  else if slot = 0x02A then (s, s.wakeRead off)
  else if slot = 0x02B then (s, s.pdcRead w off)
  else if slot = 0x02C then (s, s.stepRead w off)
  else if slot = 0x030 then (s, s.sealRead off)
  else if slot = 0x038 then (s, s.dapRead off)
  else if within 0x060 0x06F slot then
    (s, if off = 0x1004 then s.lpstatRead (slot - 0x060) else if off = 0x1014 then 0 else s.plainRead w slot off)
  else if kickOff slot off then (s, 0)
  else if slot = 0x07B then s.tbRead off
  else if within 0x07C 0x07D slot then (s, s.usbRead (slot - 0x07C) off)
  else if within 0x080 0x083 slot || within 0x090 0x09F slot then (s, s.powerRead slot off)
  else (s, s.plainRead w slot off)

/-- What a write of a register does, behind its gate. -/
def State.slotWrite (s : State) (q : Req) (slot off : Nat) (v : Word) : State × BusRes :=
  let w := q.world
  if off < 0x1000 ∧ !(within 0x07C 0x07D slot) then (s, .ok 0)
  else if slot = 0 then (if off < 0x9000 then s.gateWrite q ((off - 0x1000) / 8) (off / 4 % 2 == 1) v else (s, .ok 0))
  else if slot = 0x001 then s.colourWrite q off v
  else if within 0x002 0x005 slot then s.masterWrite q (slot - 2) off v
  else if slot = 0x008 then
    let r := s.irqWrite q slot off v
    (if off < 0x1800 then r.1.mirrorScfg ((off - 0x1000) / 4) else r.1, r.2)
  else if within 0x009 0x00B slot then s.irqWrite q slot off v
  else if slot = 0x00C then s.timerWrite q off v
  else if slot = 0x00D ∨ slot = 0x00E then s.bootWrite q slot off v
  else if slot = 0x00F then (s.ledgerRegWrite off v, .ok 0)
  else if within 0x010 0x01F slot then
    let t : TileId := BitVec.ofNat 4 (slot - 0x010)
    if off = 0x1000 then (s.tdvfsWrite t v, .ok 0)
    else if off = 0x1004 then s.tfloorWrite q t v
    else s.xlateWrite q t off v
  else if slot = 0x021 then s.sweepWrite q off v
  else if slot = 0x022 then
    if off = 0x1000 then (s.eventClear slot off 50 v, .ok 0)
    else if off = 0x1800 then s.tlbi q v
    else (s.plainWrite w slot off v, .ok 0)
  else if slot = 0x023 ∧ off = 0x1004 then (s.eventClear slot off 51 v, .ok 0)
  else if slot = 0x024 ∧ off = 0x1004 then (s.eventClear slot off 52 v, .ok 0)
  else if slot = 0x028 then (s.dictWrite w off v, .ok 0)
  else if slot = 0x029 then s.rtcWrite off v
  else if slot = 0x02A then (s.wakeWrite off v, .ok 0)
  else if slot = 0x02B then s.pdcWrite q off v
  else if slot = 0x02C then (s.stepWrite w off v, .ok 0)
  else if slot = 0x030 then s.sealWrite off v
  else if slot = 0x038 then s.dapWrite off v
  else if within 0x040 0x05F slot then s.chanWrite q (slot - 0x040) off v
  else if within 0x060 0x06F slot then s.laneWrite q (slot - 0x060) off v
  else if slot = 0x070 then s.laneDmaWrite q off v
  else if slot = 0x078 then s.switchWrite q off v
  else if within 0x079 0x07A slot then (s.bbPortWrite (slot - 0x079) off v, .ok 0)
  else if slot = 0x07B then s.tbWrite off v
  else if within 0x07C 0x07D slot then s.usbWrite q (slot - 0x07C) off v
  else if within 0x080 0x083 slot || within 0x090 0x09F slot then s.powerWrite slot off v
  else (s.plainWrite w slot off v, .ok 0)

/-- Whether an access to a slot finds nobody who answers: the causeway is lost (R462). -/
def State.unreachable (s : State) (slot : Nat) : Bool := behindCauseway slot && s.bus.cwLost

/-- A completed access over the causeway is a valid frame (R13). -/
def State.cwSeen (s : State) (slot : Nat) : State := if behindCauseway slot then s.modBus (fun b => { b with cwLast := s.now }) else s

/-- A register read at the bridge (R100, R101, R462, R567). -/
def State.busRead (s : State) (q : Req) (slot off : Nat) : State × BusRes :=
  if s.bridgeDown then (s, .err busErr)
  else
    match s.gateDecide q slot off false with
    | some e => (s.countRefused slot, .err e)
    | none =>
      if off % 4 ≠ 0 ∨ s.unreachable slot then (s, .err busErr)
      else
        let r := (s.cwSeen slot).slotRead q slot off
        (r.1, .ok r.2)

/-- A register write at the bridge. -/
def State.busWrite (s : State) (q : Req) (slot off : Nat) (v : Word) : State × BusRes :=
  if s.bridgeDown then (s, .err busErr)
  else
    match s.gateDecide q slot off true with
    | some e => (s.countRefused slot, .err e)
    | none => if off % 4 ≠ 0 ∨ s.unreachable slot then (s, .err busErr) else (s.cwSeen slot).slotWrite q slot off v

/-- A register write commanded from outside, with its answer shown. -/
def State.regWrite (s : State) (q : Req) (slot off : Nat) (v : Word) : State :=
  let r := s.busWrite q slot off v
  { r.1 with resp := some r.2 }

/-- An access of a tile at the place it names: a register, or a place that answers no access (R31, R46, R567). -/
def State.accessPlace (s : State) (t : TileId) (a : PerAcc) : State × BusRes :=
  let q := (s.tile t).req t
  match s.place a.pa with
  | .periph slot off =>
    match s.gateDecide q slot off a.write with
    | some e => (s.countRefused slot, .err e)
    | none =>
      if a.size ≠ 4 then (s, .err busErr)
      else if a.write then s.busWrite q slot off a.v else s.busRead q slot off
  | .reserved => (s.reservedEvent, .err busErr)
  | _ => (s, .err busErr)

/-- The answer to a tile's access set out on its way back; PERIPHERAL_RESPONSE brings it. -/
def State.accessAnswer (s : State) (t : TileId) (ea : Word) (r : BusRes) : State :=
  ({ s with seq := s.seq + 1 }).modFlow t (fun f => { f with freeze := .response s.seq r ea })

/-- A tile's access is performed (R31): the tile waits for the answer. -/
def State.accessPerform (s : State) (t : TileId) : State :=
  match (s.tile t).flow.freeze with
  | .access a =>
    match a.stored with
    | some r => s.accessAnswer t a.ea r
    | none =>
      let p := s.accessPlace t a
      p.1.accessAnswer t a.ea p.2
  | _ => s

/-- PERIPHERAL_ACCESS (R567). -/
def execPeripheralAccess (t : TileId) (s : State) : Host.Outcome State Fault Refusal := .next (s.accessPerform t)

/-- A frame of tile t's access over the causeway fails its check (R559): it is counted in CWSTAT and the request is repeated, up to 3 times,
then answered with an error. response: the request was applied and its response is lost, which a repeat finds stored. -/
def State.causewayRepeat (s : State) (t : TileId) (response : Bool) : State :=
  match (s.tile t).flow.freeze with
  | .access a =>
    match s.place a.pa with
    | .periph slot off =>
      if !behindCauseway slot || a.size ≠ 4 || s.unreachable slot || (s.gateDecide ((s.tile t).req t) slot off a.write).isSome then s
      else
        let s1 := s.modReg 0x080 0x1000 (fun v => setFld v 15 0 (min (fld v 15 0 + 1) 0xFFFF))
        let p : State × Option BusRes :=
          if response && a.stored.isNone then let p := s1.accessPlace t a; (p.1, some p.2) else (s1, a.stored)
        if 3 ≤ a.tries then p.1.accessAnswer t a.ea (.err busErr)
        else p.1.modFlow t (fun f => { f with freeze := .access { a with tries := a.tries + 1, stored := p.2 } })
    | _ => s
  | _ => s

/-- CAUSEWAY_REPEAT (R559). -/
def execCausewayRepeat (t : TileId) (response : Bool) (s : State) : Host.Outcome State Fault Refusal := .next (s.causewayRepeat t response)

/-- A master's read of n words of a slot, in ascending order up to the first refused one: the bytes, and the refusal (R567). -/
def State.busReadWords (s : State) (q : Req) (slot : Nat) : Nat → Nat → State × List Byte × Option Code
  | 0, _ => (s, [], none)
  | n + 1, off =>
    match s.busRead q slot off with
    | (s1, .err e) => (s1, [], some e)
    | (s1, .ok w) =>
      let r := s1.busReadWords q slot n (off + 4)
      (r.1, toBytes 4 w.toNat ++ r.2.1, r.2.2)

/-- A master's write of words to a slot, up to the first refused one (R567). -/
def State.busWriteWords (s : State) (q : Req) (slot : Nat) : List Word → Nat → State × Option Code
  | [], _ => (s, none)
  | v :: vs, off =>
    match s.busWrite q slot off v with
    | (s1, .err e) => (s1, some e)
    | (s1, .ok _) => s1.busWriteWords q slot vs (off + 4)

/-- The bytes one request of channel c writes, n of them at o: the pattern, the words of a slot, or memory (R107). -/
def State.chanData (s : State) (c n o : Nat) : State × List Byte × Option Code :=
  if fld (s.chan c 0x1000) 25 24 = 1 then (s, (List.replicate (n / 4) (toBytes 4 (s.chan c 0x1010).toNat)).flatten, none)
  else
    let src := (s.chan c 0x1004).toNat * 16
    let dst := (s.chan c 0x1008).toNat * 16
    match s.place (src + o) with
    | .periph slot off => s.busReadWords (s.chanReq c) slot (n / 4) off
    | _ =>
      match s.chanCheck c (src + o) n with
      | some e => (s, [], some e)
      | none =>
        let r := s.masterRead (src + o) n
        let s1 := if r.2.2 then r.1.raise (65 + 2 * c) else r.1
        let d := s1.overlapFree src dst (fld (s.chan c 0x100C) 23 0) (dst + o) r.2.1
        (d.1, d.2, none)

/-- The write of one request of channel c (R102, R107): none where it is performed, else why the channel stops. -/
def State.chanStore (s : State) (c pa : Nat) (bs : List Byte) : State × Option Code :=
  match s.place pa with
  | .periph slot off => s.busWriteWords (s.chanReq c) slot (wordsOf 4 bs) off
  | _ =>
    match s.chanCheck c pa bs.length with
    | some e => (s, some e)
    | none =>
      let w := s.masterStore pa bs
      (w.1, if w.2 then some busErr else none)

/-- One request of channel c completes (R107): its read, its write. It waits while an eMRAM bank it names programs a line. -/
def State.dmaRequest (s : State) (c : Nat) : State :=
  if !s.chanBusy c then s
  else
    let o := fld (s.chan c 0x100C) 23 0 - s.chanLeft c
    let src := (s.chan c 0x1004).toNat * 16
    let dst := (s.chan c 0x1008).toNat * 16
    let fill := fld (s.chan c 0x1000) 25 24 == 1
    let wide := (fill || (src + o) % 64 == 0) && (dst + o) % 64 == 0 && decide (64 ≤ s.chanLeft c)
    let n := if wide then 64 else 16
    if s.bankBusy (dst + o) || (!fill && s.bankBusy (src + o)) then s
    else
      match s.chanData c n o with
      | (s1, _, some e) => s1.chanStop c e
      | (s1, bs, none) =>
        match s1.chanStore c (dst + o) bs with
        | (s2, some e) => s2.chanStop c e
        | (s2, none) => s2.chanMoved c n

/-- DMA_REQUEST_COMPLETE (R107). -/
def execDmaRequestComplete (c : BitVec 5) (s : State) : Host.Outcome State Fault Refusal := .next (s.dmaRequest c.toNat)

/-- The debug port's read of a context slot's word (R542): zero for a Trade context but its IDENT, without the unlock's scope. -/
def State.dapSlotRead (s : State) (pa : Nat) : State × Word :=
  let (n, k) := slotAddr pa
  let c := s.store.slot n
  if c.world == .trade && k != 90 && !s.scopeBit 0 then (s, 0)
  else if Sparse.get false (48 * n.toNat + k / 2) s.store.damaged then ({ s with free := s.free + 1 }, Config.freeWord s.free)
  else (s, c.slotWord k)

/-- The debug port's write of a context slot's word: a doubleword that holds an uncorrectable error keeps it (R566). -/
def State.dapSlotWrite (s : State) (pa : Nat) (v : Word) : State :=
  let (n, k) := slotAddr pa
  if Sparse.get false (48 * n.toNat + k / 2) s.store.damaged then s
  else s.modStore (fun x => x.setSlot n ((x.slot n).setSlotWord k v))

/-- What a debug access answers. -/
def State.dapSet (s : State) (status : Nat) (data : Option Word) : State :=
  s.modDap (fun d => { d with status := status, data := data.getD d.data })

/-- The debug port's access of 4 bytes at its address (R111, R112, R539, R542); then the address rises by 4. No access runs while the mesh is
in retention or off. -/
def State.dapAccess (s : State) (write : Option Word) : State :=
  let s0 := s.tapInstr 0x10
  let pa := s0.dap.addr
  let s1 :=
    if s0.bridgeDown then s0.dapSet 2 none
    else
      match s0.dapCheck pa write.isSome with
      | some count => s0.dapRefuse count
      | none =>
        match s0.place pa, write with
        | .periph slot off, none =>
          if s0.unreachable slot then s0.dapSet 2 none
          else
            let r := (s0.cwSeen slot).slotRead s0.dapReq slot off
            r.1.dapSet 0 (some r.2)
        | .periph slot off, some v =>
          if s0.unreachable slot then s0.dapSet 2 none
          else
            match (s0.cwSeen slot).slotWrite s0.dapReq slot off v with
            | (s2, .ok _) => s2.dapSet 0 none
            | (s2, .err _) => s2.dapSet 2 none
        | .ctxStore, none =>
          let r := s0.dapSlotRead pa
          r.1.dapSet 0 (some r.2)
        | .ctxStore, some v => (s0.dapSlotWrite pa v).dapSet 0 none
        | _, none =>
          let r := s0.masterRead pa 4
          (if r.2.2 then r.1.raise 46 else r.1).dapSet (if r.2.2 then 2 else 0) (some (BitVec.ofNat 32 (ofBytes r.2.1)))
        | _, some v =>
          let r := s0.masterStore pa (toBytes 4 v.toNat)
          if r.2 then (r.1.raise 46).dapSet 2 none else r.1.dapSet 0 none
  s1.modDap (fun d => { d with addr := (d.addr + 4) % 2 ^ 36 })

/-- DAPACC_READ (R539). -/
def execDapaccRead (s : State) : Host.Outcome State Fault Refusal := .next (s.dapAccess none)
/-- DAPACC_WRITE (R539). -/
def execDapaccWrite (v : Word) (s : State) : Host.Outcome State Fault Refusal := .next (s.dapAccess (some v))

end Sys2Proof.Machine
end

