-- ==== Sys2Proof/Machine/RowsBridge.lean ====
section
/-!
DEFINITION. Machine/RowsBridge.lean: the commands of the mesh, the memories, the gates, the colour controller, general DMA, the master-side units, the interrupt controller, the timers and address translation (chapters 1, 3, 4, 9, 10).
-/
namespace Sys2Proof.Machine

/-- TARGET_TIMEOUT (R30). -/
def execTargetTimeout (r : Requester) (target : Target) (bank : BitVec 5) (s : State) : Host.Outcome State Fault Refusal :=
  .next (s.targetTimeout r target bank)

/-- WRITE_BUFFER_DRAIN (R18). -/
def execWriteBufferDrain (t : TileId) (s : State) : Host.Outcome State Fault Refusal := .next (s.writeDrain t)

/-- EMRAM_LINE_PROGRAMMED (R17). -/
def execEmramLineProgrammed (bank : BitVec 2) (ok1 : Bool) (ok2 : Bool) (s : State) : Host.Outcome State Fault Refusal :=
  .next (s.progEnd bank.toNat ok1 ok2)

/-- TDVFS_WRITE (R150). -/
def execTdvfsWrite (q : Req) (t : TileId) (v : Word) (s : State) : Host.Outcome State Fault Refusal := .next (s.regWrite q (tileSlot t) 0x1000 v)

/-- TFLOOR_WRITE (R151). -/
def execTfloorWrite (q : Req) (t : TileId) (v : Word) (s : State) : Host.Outcome State Fault Refusal := .next (s.regWrite q (tileSlot t) 0x1004 v)

/-- RC_GO (R84). -/
def execRcGo (q : Req) (v : Word) (s : State) : Host.Outcome State Fault Refusal := .next (s.regWrite q 0x001 0x1010 v)

/-- TDR_OPR_WRITE (R83): a word of the Trade DRAM ranges or the Open pool ranges, at 0x1100. -/
def execTdrOprWrite (q : Req) (off : BitVec 9) (v : Word) (s : State) : Host.Outcome State Fault Refusal :=
  .next (s.regWrite q 0x001 (0x1100 + off.toNat / 4 * 4) v)

/-- SWEEP_PROGRAM_WRITE (R86): a register of the sweep engine. -/
def execSweepProgramWrite (q : Req) (off : BitVec 16) (v : Word) (s : State) : Host.Outcome State Fault Refusal :=
  .next (s.regWrite q 0x021 off.toNat v)

/-- SWEEP_START (R91). -/
def execSweepStart (q : Req) (s : State) : Host.Outcome State Fault Refusal := .next (s.regWrite q 0x021 0x1200 1)

/-- SWEEP_ABORT (R93). -/
def execSweepAbort (q : Req) (s : State) : Host.Outcome State Fault Refusal := .next (s.regWrite q 0x021 0x1200 2)

/-- GATE_WRITE (R98). -/
def execGateWrite (q : Req) (n : BitVec 12) (word : Bool) (v : Word) (s : State) : Host.Outcome State Fault Refusal :=
  .next (s.regWrite q 0 (0x1000 + 8 * n.toNat + (if word then 4 else 0)) v)

/-- CCTL_WRITE (R106). -/
def execCctlWrite (q : Req) (c : BitVec 5) (v : Word) (s : State) : Host.Outcome State Fault Refusal :=
  .next (s.regWrite q (0x040 + c.toNat) 0x1000 v)

/-- CGO (R107). -/
def execCgo (q : Req) (c : BitVec 5) (v : Word) (s : State) : Host.Outcome State Fault Refusal := .next (s.regWrite q (0x040 + c.toNat) 0x1018 v)

/-- DMA_WINDOW_WRITE (R104). -/
def execDmaWindowWrite (q : Req) (c : BitVec 5) (k : BitVec 2) (v : Word) (s : State) : Host.Outcome State Fault Refusal :=
  .next (s.regWrite q (0x040 + c.toNat) (0x1020 + 4 * k.toNat) v)

/-- MASTER_REGION_WRITE (R110). -/
def execMasterRegionWrite (q : Req) (u : BitVec 2) (n : BitVec 3) (word : BitVec 2) (v : Word) (s : State) : Host.Outcome State Fault Refusal :=
  .next (s.regWrite q (2 + u.toNat) (0x1000 + 16 * n.toNat + 4 * word.toNat) v)

/-- SCFG_WRITE (R282). -/
def execScfgWrite (q : Req) (n : BitVec 9) (v : Word) (s : State) : Host.Outcome State Fault Refusal :=
  .next (s.regWrite q 0x008 (0x1000 + 4 * n.toNat) v)

/-- IPSET (R286). -/
def execIpset (q : Req) (k : BitVec 4) (v : Word) (s : State) : Host.Outcome State Fault Refusal :=
  .next (s.regWrite q 0x009 (0x1000 + 4 * k.toNat) v)

/-- IPCLR (R286). -/
def execIpclr (q : Req) (k : BitVec 4) (v : Word) (s : State) : Host.Outcome State Fault Refusal :=
  .next (s.regWrite q 0x009 (0x1100 + 4 * k.toNat) v)

/-- IESET (R286). -/
def execIeset (q : Req) (k : BitVec 4) (v : Word) (s : State) : Host.Outcome State Fault Refusal :=
  .next (s.regWrite q 0x009 (0x1200 + 4 * k.toNat) v)

/-- IECLR (R286). -/
def execIeclr (q : Req) (k : BitVec 4) (v : Word) (s : State) : Host.Outcome State Fault Refusal :=
  .next (s.regWrite q 0x009 (0x1300 + 4 * k.toNat) v)

/-- IOVR_CLEAR (R286). -/
def execIovrClear (q : Req) (k : BitVec 4) (v : Word) (s : State) : Host.Outcome State Fault Refusal :=
  .next (s.regWrite q 0x009 (0x1400 + 4 * k.toNat) v)

/-- IRQ_LINE_EDGE (R284). -/
def execIrqLineEdge (n : BitVec 9) (level : Bool) (s : State) : Host.Outcome State Fault Refusal := .next (s.setLine n.toNat level)

/-- IHOLDSET (R303). -/
def execIholdset (q : Req) (v : Word) (s : State) : Host.Outcome State Fault Refusal := .next (s.regWrite q 0x00A 0x1004 v)

/-- IHOLDCLR (R303). -/
def execIholdclr (q : Req) (v : Word) (s : State) : Host.Outcome State Fault Refusal := .next (s.regWrite q 0x00A 0x1008 v)

/-- TIMER_ENABLE (R305): the word written to TCTL. -/
def execTimerEnable (q : Req) (k : BitVec 5) (v : Word) (s : State) : Host.Outcome State Fault Refusal :=
  .next (s.regWrite q 0x00C (timOff k.toNat) v)

/-- TLOAD_WRITE (R305). -/
def execTloadWrite (q : Req) (k : BitVec 5) (v : Word) (s : State) : Host.Outcome State Fault Refusal :=
  .next (s.regWrite q 0x00C (timOff k.toNat + 4) v)

/-- TIMER_EXPIRY (R305). -/
def execTimerExpiry (k : BitVec 5) (s : State) : Host.Outcome State Fault Refusal := .next (s.timerExpire k.toNat)

/-- BLOCK_REGISTER_WRITE (R310). -/
def execBlockRegisterWrite (q : Req) (t : TileId) (k : BitVec 3) (word : BitVec 2) (v : Word) (s : State) : Host.Outcome State Fault Refusal :=
  .next (s.regWrite q (tileSlot t) (0x1100 + 16 * k.toNat + 4 * word.toNat) v)

/-- XBASE_XCTL_WRITE (R326). -/
def execXbaseXctlWrite (q : Req) (t : TileId) (xbase : Bool) (v : Word) (s : State) : Host.Outcome State Fault Refusal :=
  .next (s.regWrite q (tileSlot t) (if xbase then 0x1184 else 0x1180) v)

/-- TLBI (R323). -/
def execTlbi (q : Req) (v : Word) (s : State) : Host.Outcome State Fault Refusal := .next (s.regWrite q 0x022 0x1800 v)

/-- DRAM_REFRESH_RATE_CHANGE (R20). -/
def execDramRefreshRateChange (rate : BitVec 3) (temp : BitVec 8) (s : State) : Host.Outcome State Fault Refusal := .next (s.refreshRate rate temp)

/-- DRAM_BACKGROUND_ZEROING (R514). -/
def execDramBackgroundZeroing (s : State) : Host.Outcome State Fault Refusal := .next (s.zeroStep)

/-- WRITE_BACK_RESPONSE (R32). -/
def execWriteBackResponse (t : TileId) (line : Nat) (err : Bool) (s : State) : Host.Outcome State Fault Refusal := .next (s.writeResponse t line err)

/-- DRAM_REFRESH (R568): bank k modulo 8 of channel k / 8. -/
def execDramRefresh (k : BitVec 4) (s : State) : Host.Outcome State Fault Refusal := .next (s.refreshBank k.toNat)

/-- REGISTER_WRITE (R8): any register by its slot and offset. -/
def execRegisterWrite (q : Req) (sl : BitVec 12) (off : BitVec 16) (v : Word) (s : State) : Host.Outcome State Fault Refusal :=
  .next (s.regWrite q sl.toNat off.toNat v)

end Sys2Proof.Machine
end

