-- ==== Sys2Proof/Machine/Tick.lean ====
section
/-!
DEFINITION. Machine/Tick.lean: one microsecond of the block, which a step on an empty queue takes. It counts what runs by itself from the clock; what
an expiry does is a command's effect (DESIGN CHOICE, log 2).
-/
namespace Sys2Proof.Machine

/-- Whether the logic side runs: out of reset and not in retention or off (R492, R517). -/
def State.logicRuns (s : State) : Bool := s.boot.rst != .held && !s.bridgeDown

/-- A tile's CYCLES and FROZEN after one µs at its DVFS point (R149, Table 4-13). -/
def State.tileCycles (s : State) (t : TileId) : State :=
  let x := s.tile t
  if x.sys.powered && !x.sys.gated && !x.sys.ashed then
    let n := BitVec.ofNat 32 (250 * (s.dvfsActive t + 1))
    let s1 := s.modReg (tileSlot t) 0x1008 (· + n)
    if x.flow.freeze != .none || x.clockFrozen then s1.modReg (tileSlot t) 0x1010 (· + n) else s1
  else s

/-- The hold-off of a USB port ends. -/
def State.usbTick (s : State) (u : Nat) : State :=
  s.modUsb u (fun x => { x with hold := if x.hold.any (fun t => t != 0 && decide (t ≤ s.now)) then none else x.hold })

/-- What the logic side counts in one µs: the time block, the timers, the watchdogs, the tiles (R149, R305, R429, R493, R536). -/
def State.logicTick (s : State) : State :=
  let s1 := (List.range 32).foldl (fun s k => s.timerTick k) s.tbTick.wdTick
  let s2 := allTiles.foldl (fun s t => (s.tileCycles t).settleTile t) s1
  ((s2.usbTick 0).usbTick 1).worldResetWaits

/-- One microsecond. -/
def State.tick (s : State) : State :=
  let s1 : State := { s with now := s.now + 1 }
  let s2 := if s1.logicRuns then s1.logicTick else s1
  let s3 := s2.fwdStarts
  if s3.rtcLocked then s3.modRtc (fun r => { r with hold := some s3.now }) else s3

end Sys2Proof.Machine
end

