-- ==== Sys2Proof/Machine/RowsDebug.lean ====
section
/-!
DEFINITION. Machine/RowsDebug.lean: the commands of the TAP and the debug access port (chapter 17).
-/
namespace Sys2Proof.Machine

/-- EXTEST (R538). -/
def execExtest (s : State) : Host.Outcome State Fault Refusal := .next (s.tapInstr 0x00)

/-- SAMPLE_PRELOAD (R537). -/
def execSamplePreload (s : State) : Host.Outcome State Fault Refusal := .next (s.tapInstr 0x01)

/-- IDCODE (R537). -/
def execIdcode (s : State) : Host.Outcome State Fault Refusal := .next (s.tapIdcode)

/-- CLAMP (R538). -/
def execClamp (s : State) : Host.Outcome State Fault Refusal := .next (s.tapInstr 0x04)

/-- HIGHZ (R538). -/
def execHighz (s : State) : Host.Outcome State Fault Refusal := .next (s.tapInstr 0x05)

/-- BYPASS (R537). -/
def execBypass (s : State) : Host.Outcome State Fault Refusal := .next (s.tapInstr 0x1F)

/-- DAPACC_SET_ADDRESS (R539). -/
def execDapaccSetAddress (a : BitVec 36) (s : State) : Host.Outcome State Fault Refusal := .next (s.dapAddr a)

/-- HALTREQ (R541). -/
def execHaltreq (v : Word) (s : State) : Host.Outcome State Fault Refusal := .next (s.haltReqWrite v)

/-- RESUME (R541). -/
def execResume (v : Word) (s : State) : Host.Outcome State Fault Refusal := .next (s.resumeWrite v)

/-- DRESET (R540). -/
def execDreset (v : Word) (s : State) : Host.Outcome State Fault Refusal := .next (s.dreset v)

/-- TOKEN_APPEND (R543). -/
def execTokenAppend (v : Word) (s : State) : Host.Outcome State Fault Refusal := .next (s.tokenAppend v)

/-- TOKCLR (R540). -/
def execTokclr (s : State) : Host.Outcome State Fault Refusal := .next (s.tokClr)

/-- NONCE_READ (R540). -/
def execNonceRead (s : State) : Host.Outcome State Fault Refusal := .next (s.nonceRead)

/-- UNLOCK (R543): bit 31 set. -/
def execUnlock (q : Req) (v : Word) (s : State) : Host.Outcome State Fault Refusal := .next (s.regWrite q 0x038 0x1020 (setBit v 31 true))

/-- RELOCK (R545): bit 31 clear. -/
def execRelock (q : Req) (v : Word) (s : State) : Host.Outcome State Fault Refusal := .next (s.regWrite q 0x038 0x1020 (setBit v 31 false))

/-- ULEFT_EXPIRY (R545). -/
def execUleftExpiry (s : State) : Host.Outcome State Fault Refusal := .next (s.uleftExpiry)

/-- TRST_N (R537). -/
def execTrstN (s : State) : Host.Outcome State Fault Refusal := .next (s.trstN)

end Sys2Proof.Machine
end

