-- ==== Sys2Proof/Machine/RowsDict.lean ====
section
/-!
DEFINITION. Machine/RowsDict.lean: the commands of the dictionary engine and the step engine (chapter 11).
-/
namespace Sys2Proof.Machine

/-- A request that a world has placed in a local slot of its mailbox (Table 11-7), taken where it is one that the command names. -/
def State.localRow (s : State) (w : World) (slot : BitVec 5) (p : Nat → Nat → Bool) : State :=
  if p (s.localOp w slot.toNat) (s.localKey w slot.toNat) then s.localRequest w slot.toNat else s

/-- The first byte of the value that the record in a local slot carries. -/
def State.localByte (s : State) (w : World) (slot : Nat) : Nat :=
  let a := mailboxOf w + 64 * slot
  let voff := s.mem.val (a + 10) 2
  s.mem.val (if voff = 0 then a + 16 else mailboxOf w + voff) 1

/-- Whether a local slot writes v to the control entry of a command (R363–R365). -/
def State.localControl (s : State) (w : World) (slot : BitVec 5) (v op key : Nat) : Bool :=
  op == 2 && key % 256 == 1 && (cmdOf (key / 256)).isSome && s.localByte w slot.toNat == v

/-- An expiry of the dictionary engine takes effect while the engine's clock runs (R347, R348). -/
def State.engineRow (s : State) (t : State) : State := if s.engineOn then t else s

/-- DICT_READ (R343). -/
def execDictRead (w : World) (slot : BitVec 5) (s : State) : Host.Outcome State Fault Refusal := .next (s.localRow w slot (fun op _ => op == 1))

/-- DICT_WRITE (R337). -/
def execDictWrite (w : World) (slot : BitVec 5) (s : State) : Host.Outcome State Fault Refusal := .next (s.localRow w slot (fun op _ => op == 2))

/-- DESCRIBE (R350). -/
def execDescribe (w : World) (slot : BitVec 5) (s : State) : Host.Outcome State Fault Refusal := .next (s.localRow w slot (fun op _ => op == 3))

/-- UPDATE (R352). -/
def execUpdate (w : World) (slot : BitVec 5) (s : State) : Host.Outcome State Fault Refusal := .next (s.localRow w slot (fun op _ => op == 4))

/-- REGISTER (R349). -/
def execRegister (w : World) (slot : BitVec 5) (s : State) : Host.Outcome State Fault Refusal := .next (s.localRow w slot (fun op _ => op == 5))

/-- UNREGISTER (R349). -/
def execUnregister (w : World) (slot : BitVec 5) (s : State) : Host.Outcome State Fault Refusal := .next (s.localRow w slot (fun op _ => op == 6))

/-- FWD_DONE (R356). -/
def execFwdDone (q : Req) (v : Word) (s : State) : Host.Outcome State Fault Refusal := .next (s.regWrite q 0x028 0x1010 v)

/-- OWNER_TIMEOUT (R356). -/
def execOwnerTimeout (w : World) (slot : BitVec 5) (s : State) : Host.Outcome State Fault Refusal := .next (s.engineRow (s.ownerTimeout w slot.toNat))

/-- WQ_ACK (R354). -/
def execWqAck (q : Req) (v : Word) (s : State) : Host.Outcome State Fault Refusal := .next (s.regWrite q 0x028 0x101C v)

/-- EXPERT_UNLOCK_EXPIRY (R342). -/
def execExpertUnlockExpiry (s : State) : Host.Outcome State Fault Refusal := .next (s.engineRow s.unlocksExpire)

/-- EMBER_DEADLINE_SCAN (R348). -/
def execEmberDeadlineScan (recovered : Bool) (s : State) : Host.Outcome State Fault Refusal := .next (s.deadlineScan recovered)

/-- ENGINE_CLOCK_START (R347). -/
def execEngineClockStart (s : State) : Host.Outcome State Fault Refusal := .next (s.engineStart)

/-- COMMAND_START (R365). -/
def execCommandStart (w : World) (slot : BitVec 5) (s : State) : Host.Outcome State Fault Refusal :=
  .next (s.localRow w slot (s.localControl w slot 1))

/-- COMMAND_ABORT (R367). -/
def execCommandAbort (w : World) (slot : BitVec 5) (s : State) : Host.Outcome State Fault Refusal :=
  .next (s.localRow w slot (s.localControl w slot 2))

/-- COMMAND_ACKNOWLEDGE (R366). -/
def execCommandAcknowledge (w : World) (slot : BitVec 5) (s : State) : Host.Outcome State Fault Refusal :=
  .next (s.localRow w slot (s.localControl w slot 3))

/-- STEP_GRANT (R369). -/
def execStepGrant (s : State) : Host.Outcome State Fault Refusal := .next (s.stepGrant)

/-- STEPN (R369). -/
def execStepn (q : Req) (v : Word) (s : State) : Host.Outcome State Fault Refusal := .next (s.regWrite q 0x02C 0x1004 v)

/-- STEPDONE (R369). -/
def execStepdone (q : Req) (v : Word) (s : State) : Host.Outcome State Fault Refusal := .next (s.regWrite q 0x02C 0x1008 v)

/-- STEP_LIMIT_EXPIRY (R370). -/
def execStepLimitExpiry (s : State) : Host.Outcome State Fault Refusal := .next (s.engineRow s.stepLimit)

/-- DEVICE_RESET_COMMAND (R373). -/
def execDeviceResetCommand (s : State) : Host.Outcome State Fault Refusal := .next (s.dictReset)

/-- CHAR_SWEEP_COMMAND (R374). -/
def execCharSweepCommand (s : State) : Host.Outcome State Fault Refusal := .next (s.sweepFollow)

/-- ISLE_ENTRIES_REMOVE (R362). -/
def execIsleEntriesRemove (w : World) (slot : BitVec 5) (s : State) : Host.Outcome State Fault Refusal :=
  .next (s.localRow w slot (fun op key => op == 2 && key == 0x240001))

end Sys2Proof.Machine
end

