-- ==== Sys2Proof/Machine/RowsEmber.lean ====
section
/-!
DEFINITION. Machine/RowsEmber.lean: the commands of the ember domain, the sleep states and the parameter store (chapter 16).
-/
namespace Sys2Proof.Machine

/-- EMBER_TICK (R489). -/
def execEmberTick (s : State) : Host.Outcome State Fault Refusal := .next (s.emberTick)

/-- EMBER_CLOCK_FAIL (R486). -/
def execEmberClockFail (s : State) : Host.Outcome State Fault Refusal := .next (s.clockFail true)

/-- EMBER_CLOCK_RETURN (R486). -/
def execEmberClockReturn (s : State) : Host.Outcome State Fault Refusal := .next (s.clockFail false)

/-- RTC_FOLLOW (R490). -/
def execRtcFollow (ticks : BitVec 16) (s : State) : Host.Outcome State Fault Refusal := .next (s.rtcFollow ticks.toNat)

/-- RTCSET (R491). -/
def execRtcset (q : Req) (v : Word) (s : State) : Host.Outcome State Fault Refusal := .next (s.regWrite q 0x029 0x1018 v)

/-- RTC_ALARM (R489). -/
def execRtcAlarm (s : State) : Host.Outcome State Fault Refusal := .next (s.rtcAlarm)

/-- OPEN_WAKE_TIME (R503). -/
def execOpenWakeTime (s : State) : Host.Outcome State Fault Refusal := .next (s.openWake)

/-- TGATE (R495). -/
def execTgate (q : Req) (v : Word) (s : State) : Host.Outcome State Fault Refusal := .next (s.regWrite q 0x02B 0x1008 v)

/-- TILE_GATE_RESTART (R495). -/
def execTileGateRestart (t : TileId) (s : State) : Host.Outcome State Fault Refusal := .next (s.gateRestart t)

/-- WPERMIT_WRITE (R496). -/
def execWpermitWrite (q : Req) (v : Word) (s : State) : Host.Outcome State Fault Refusal := .next (s.regWrite q 0x02B 0x1004 v)

/-- TARGET_EVALUATION (R497). -/
def execTargetEvaluation (s : State) : Host.Outcome State Fault Refusal := .next (s.evalTarget)

/-- IDLE_ENTRY (R492). -/
def execIdleEntry (s : State) : Host.Outcome State Fault Refusal := .next (s.idleEntry)

/-- SLEEP_ENTRY (R498). -/
def execSleepEntry (s : State) : Host.Outcome State Fault Refusal := .next (s.sleepEntry)

/-- ENTRY_STOP (R499). -/
def execEntryStop (s : State) : Host.Outcome State Fault Refusal := .next (s.entryStop)

/-- WAKE_EVENT (R500). -/
def execWakeEvent (b : BitVec 5) (s : State) : Host.Outcome State Fault Refusal := .next (s.wakeEvent b.toNat)

/-- DOZE_EXIT (R294). -/
def execDozeExit (n : BitVec 9) (s : State) : Host.Outcome State Fault Refusal := .next (s.dozeExit n.toNat)

/-- BANKED_EXIT (R501). -/
def execBankedExit (s : State) : Host.Outcome State Fault Refusal := .next (s.bankedExit)

/-- DORMANT_EXIT (R506). -/
def execDormantExit (s : State) : Host.Outcome State Fault Refusal := .next (s.dormantExit)

/-- TILE_RESUME (R502). -/
def execTileResume (t : TileId) (s : State) : Host.Outcome State Fault Refusal := .next (s.tileResume t)

/-- EXIT_TO_ASHED_TILE (R501). -/
def execExitToAshedTile (n : BitVec 9) (s : State) : Host.Outcome State Fault Refusal := .next (s.ashedExit n.toNat)

/-- WLCLR (R503). -/
def execWlclr (q : Req) (v : Word) (s : State) : Host.Outcome State Fault Refusal := .next (s.regWrite q 0x02A 0x1004 v)

/-- SCRUB_LINE (R504). -/
def execScrubLine (ce : Bool) (ue : Option (BitVec 3)) (s : State) : Host.Outcome State Fault Refusal := .next (s.scrubLine ce ue)

/-- STORE (R510). -/
def execStore (own : List (Nat × List Byte)) (fail : Bool) (s : State) : Host.Outcome State Fault Refusal := .next (s.storeStep own fail)

/-- RESTORE_DEFAULTS (R511). -/
def execRestoreDefaults (s : State) : Host.Outcome State Fault Refusal := .next (s.restoreDefaults)

/-- AUTO_STORE (R512). -/
def execAutoStore (s : State) : Host.Outcome State Fault Refusal := .next (s.autoStore)

/-- PARAMETER_STORE_LOAD (R509). -/
def execParameterStoreLoad (refused : List Nat) (s : State) : Host.Outcome State Fault Refusal := .next (s.storeLoad refused)

end Sys2Proof.Machine
end

