-- ==== Sys2Proof/Machine/RowsFerry.lean ====
section
/-!
DEFINITION. Machine/RowsFerry.lean: the commands of the Ferry protocol (chapter 12).
-/
namespace Sys2Proof.Machine

/-- HELLO (R394). -/
def execHello (f : FerryFrame) (s : State) : Host.Outcome State Fault Refusal := .next (s.ferryHello f)

/-- HELLO_ACK_DELAY_EXPIRY (R394). -/
def execHelloAckDelayExpiry (s : State) : Host.Outcome State Fault Refusal := .next (s.helloExpiry)

/-- INIT (R385). -/
def execInit (f : FerryFrame) (s : State) : Host.Outcome State Fault Refusal := .next (s.ferryInit f)

/-- HS_DONE (R385). -/
def execHsDone (q : Req) (v : Word) (s : State) : Host.Outcome State Fault Refusal := .next (s.regWrite q 0x028 0x110C v)

/-- CONFIRM (R387). -/
def execConfirm (f : FerryFrame) (s : State) : Host.Outcome State Fault Refusal := .next (s.ferryConfirm f)

/-- HANDSHAKE_EXPIRY (R389). -/
def execHandshakeExpiry (j : BitVec 2) (s : State) : Host.Outcome State Fault Refusal := .next (s.hsExpiry j.toNat)

/-- FERRY_READ (R395). -/
def execFerryRead (f : FerryFrame) (s : State) : Host.Outcome State Fault Refusal := .next (s.ferryRead f)

/-- FERRY_WRITE (R395). -/
def execFerryWrite (f : FerryFrame) (s : State) : Host.Outcome State Fault Refusal := .next (s.ferryWrite f)

/-- SEG_READ (R396). -/
def execSegRead (f : FerryFrame) (s : State) : Host.Outcome State Fault Refusal := .next (s.ferrySegRead f)

/-- SEG_WRITE (R397). -/
def execSegWrite (f : FerryFrame) (s : State) : Host.Outcome State Fault Refusal := .next (s.ferrySegWrite f)

/-- SNAPSHOT_EXPIRY (R396). -/
def execSnapshotExpiry (n : BitVec 16) (x : BitVec 8) (s : State) : Host.Outcome State Fault Refusal := .next (s.xferExpiry false n.toNat x.toNat)

/-- SEG_WRITE_DISCARD (R397). -/
def execSegWriteDiscard (n : BitVec 16) (x : BitVec 8) (s : State) : Host.Outcome State Fault Refusal := .next (s.xferExpiry true n.toNat x.toNat)

/-- FERRY_COMMAND (R400). -/
def execFerryCommand (f : FerryFrame) (s : State) : Host.Outcome State Fault Refusal := .next (s.ferryCommand f)

/-- SUBSCRIBE (R398). -/
def execSubscribe (f : FerryFrame) (s : State) : Host.Outcome State Fault Refusal := .next (s.ferrySubscribe f)

/-- UNSUBSCRIBE (R398). -/
def execUnsubscribe (f : FerryFrame) (s : State) : Host.Outcome State Fault Refusal := .next (s.ferryUnsubscribe f)

/-- MININT_EXPIRY (R399). -/
def execMinintExpiry (n : BitVec 16) (id : BitVec 8) (s : State) : Host.Outcome State Fault Refusal := .next (s.minintExpiry n.toNat id.toNat)

/-- PERIOD_EXPIRY (R399). -/
def execPeriodExpiry (n : BitVec 16) (id : BitVec 8) (s : State) : Host.Outcome State Fault Refusal := .next (s.periodExpiry n.toNat id.toNat)

/-- KEEPALIVE (R390). -/
def execKeepalive (f : FerryFrame) (s : State) : Host.Outcome State Fault Refusal := .next (s.ferryKeepalive f)

/-- CLOSE (R391). -/
def execClose (f : FerryFrame) (s : State) : Host.Outcome State Fault Refusal := .next (s.ferryClose f)

/-- SESSION_IDLE_EXPIRY (R390). -/
def execSessionIdleExpiry (n : BitVec 16) (s : State) : Host.Outcome State Fault Refusal := .next (s.sessionExpiry n.toNat)

/-- SESSION_CLOSE_WRITE (R390). -/
def execSessionCloseWrite (w : World) (slot : BitVec 5) (s : State) : Host.Outcome State Fault Refusal :=
  .next (if s.localOp w slot.toNat = 2 ∧ s.localKey w slot.toNat = 0x023003 then s.localRequest w slot.toNat else s)

/-- ISLAND_BLOCK_WRITE (R379). -/
def execIslandBlockWrite (w : World) (slot : BitVec 5) (s : State) : Host.Outcome State Fault Refusal :=
  .next (if s.localOp w slot.toNat = 2 ∧ s.localKey w slot.toNat = 0x020001 then s.localRequest w slot.toNat else s)

/-- FERRY_UNDEFINED_TYPE (R381). -/
def execFerryUndefinedType (f : FerryFrame) (s : State) : Host.Outcome State Fault Refusal := .next (s.ferryBadType f)

/-- NO_SESSION (R402). -/
def execNoSession (f : FerryFrame) (s : State) : Host.Outcome State Fault Refusal := .next (s.ferryNoSession f)

end Sys2Proof.Machine
end

