-- ==== Sys2Proof/Machine/RowsLink.lean ====
section
/-!
DEFINITION. Machine/RowsLink.lean: the commands of the lane ports, the lane DMA, the backbone switch, the time block and the USB ports (chapter 13).
-/
namespace Sys2Proof.Machine

/-- The offset of queue n's registers in a slot of DMA queues (Table 13-6): lane DMA, backbone host queues, USB endpoint queues. -/
def queueOff (slot n : Nat) : Option Nat :=
  if slot = 0x070 then some (0x1000 + 64 * n)
  else if slot = 0x078 ∧ n < 16 then some (0x2000 + 64 * n)
  else if (slot = 0x07C ∨ slot = 0x07D) ∧ n < 32 then some (0x1000 + 64 * n)
  else none

/-- A write of register off of queue n of a slot; nothing where the slot has no such queue. -/
def State.queueRegWrite (s : State) (q : Req) (slot n off : Nat) (v : Word) : State :=
  match queueOff slot n with
  | some o => s.regWrite q slot (o + off) v
  | none => s

/-- LPCTL_WRITE (R406). -/
def execLpctlWrite (q : Req) (p : BitVec 4) (v : Word) (s : State) : Host.Outcome State Fault Refusal :=
  .next (s.regWrite q (0x060 + p.toNat) 0x1000 v)

/-- PLCA_CYCLE (R410). -/
def execPlcaCycle (p : BitVec 4) (s : State) : Host.Outcome State Fault Refusal := .next (s.plcaCycle p.toNat)

/-- LANE_FRAME_RECEIVE (R413). -/
def execLaneFrameReceive (p : BitVec 4) (k : BitVec 3) (fcs : Bool) (frame : List Byte) (s : State) : Host.Outcome State Fault Refusal :=
  .next (s.laneReceive p.toNat k.toNat fcs frame)

/-- RECEIVE_DESCRIPTOR_COMPLETE (R417). -/
def execReceiveDescriptorComplete (p : BitVec 4) (s : State) : Host.Outcome State Fault Refusal := .next (s.laneDeliver p.toNat)

/-- ENROLMENT_ROW_WRITE (R414): rows 1 to 7. -/
def execEnrolmentRowWrite (q : Req) (p : BitVec 4) (k : BitVec 3) (word : Bool) (v : Word) (s : State) : Host.Outcome State Fault Refusal :=
  .next (s.regWrite q (0x060 + p.toNat) (0x1020 + 8 * k.toNat + (if word then 4 else 0)) v)

/-- QCTL_WRITE (R416). -/
def execQctlWrite (q : Req) (sl : BitVec 12) (n : BitVec 8) (v : Word) (s : State) : Host.Outcome State Fault Refusal :=
  .next (s.queueRegWrite q sl.toNat n.toNat 0 v)

/-- KICK (R420). -/
def execKick (q : Req) (sl : BitVec 12) (n : BitVec 8) (s : State) : Host.Outcome State Fault Refusal :=
  .next (s.queueRegWrite q sl.toNat n.toNat 0x1C 1)

/-- TX_EXAMINATION (R420): of a lane port, or of the host queues of the switch. -/
def execTxExamination (p : Option (BitVec 4)) (s : State) : Host.Outcome State Fault Refusal :=
  .next (match p with | some k => s.laneExamine k.toNat | none => s.hostExamine)

/-- LANE_FRAME_TRANSMIT (R420). -/
def execLaneFrameTransmit (p : BitVec 4) (s : State) : Host.Outcome State Fault Refusal := .next (s.laneTransmit p.toNat)

/-- LANE_UPSET (R422). -/
def execLaneUpset (p : BitVec 4) (kind : BitVec 4) (sending : Bool) (s : State) : Host.Outcome State Fault Refusal :=
  .next (s.lanePhyUpset p.toNat kind.toNat sending)

/-- LANE_BACKOFF_EXPIRY (R423). -/
def execLaneBackoffExpiry (p : BitVec 4) (s : State) : Host.Outcome State Fault Refusal := .next (s.laneBackoff p.toNat)

/-- LANE_LINE_TEST_END (R423). -/
def execLaneLineTestEnd (p : BitVec 4) (pass : Bool) (s : State) : Host.Outcome State Fault Refusal := .next (s.laneTestEnd p.toNat pass)

/-- LANE_CLEAR_PERMIT (R425). -/
def execLaneClearPermit (w : World) (slot : BitVec 5) (s : State) : Host.Outcome State Fault Refusal :=
  .next (if s.localOp w slot.toNat = 2 ∧ s.localKey w slot.toNat % 0x10000 = 6 ∧ 0x30 ≤ s.localKey w slot.toNat / 0x10000 ∧ s.localKey w slot.toNat / 0x10000 < 0x40 then s.localRequest w slot.toNat else s)

/-- ASHCLR (R425). -/
def execAshclr (q : Req) (p : BitVec 4) (v : Word) (s : State) : Host.Outcome State Fault Refusal := .next (s.regWrite q (0x060 + p.toNat) 0x1014 v)

/-- PERMIT_EXPIRY (R471). -/
def execPermitExpiry (k : BitVec 5) (s : State) : Host.Outcome State Fault Refusal := .next (s.permitExpiry k.toNat)

/-- BACKBONE_FRAME_FORWARD (R426). -/
def execBackboneFrameForward (p : BitVec 1) (fcs : Bool) (frame : List Byte) (s : State) : Host.Outcome State Fault Refusal :=
  .next (s.bbReceive p.toNat fcs frame)

/-- ADDRESS_AGEING (R426). -/
def execAddressAgeing (s : State) : Host.Outcome State Fault Refusal := .next (s.ageing)

/-- SWITCH_REGISTER_WRITE (R431): of slots 0x078 to 0x07A. -/
def execSwitchRegisterWrite (q : Req) (sl : BitVec 2) (off : BitVec 16) (v : Word) (s : State) : Host.Outcome State Fault Refusal :=
  .next (if sl = 3 then s else s.regWrite q (0x078 + sl.toNat) off.toNat v)

/-- BACKBONE_LINK_UPSET (R431). -/
def execBackboneLinkUpset (p : BitVec 1) (kind : BitVec 4) (s : State) : Host.Outcome State Fault Refusal := .next (s.bbUpset p.toNat kind.toNat)

/-- HOST_FRAME_IN_SLEEP (R430). -/
def execHostFrameInSleep (frame : List Byte) (s : State) : Host.Outcome State Fault Refusal := .next (if s.bridgeDown then s.hostSleep frame else s)

/-- TBOFS (R429). -/
def execTbofs (q : Req) (v : Word) (s : State) : Host.Outcome State Fault Refusal := .next (s.regWrite q 0x07B 0x1010 v)

/-- TBADJ_WRITE (R429). -/
def execTbadjWrite (q : Req) (v : Word) (s : State) : Host.Outcome State Fault Refusal := .next (s.regWrite q 0x07B 0x100C v)

/-- TBSTEP (R429). -/
def execTbstep (q : Req) (v : Word) (s : State) : Host.Outcome State Fault Refusal := .next (s.regWrite q 0x07B 0x1014 v)

/-- TBSET (R429). -/
def execTbset (q : Req) (v : Word) (s : State) : Host.Outcome State Fault Refusal := .next (s.regWrite q 0x07B 0x1020 v)

/-- LOCK_LOSS (R429). -/
def execLockLoss (s : State) : Host.Outcome State Fault Refusal := .next (s.lockLoss)

/-- PTP_TIMESTAMP (R429). -/
def execPtpTimestamp (p : BitVec 1) (tx : Bool) (mtype : BitVec 4) (sid : BitVec 16) (s : State) : Host.Outcome State Fault Refusal :=
  .next (s.ptpStamp p.toNat tx mtype.toNat sid.toNat)

/-- UCTL_WRITE (R434). -/
def execUctlWrite (q : Req) (u : BitVec 1) (v : Word) (s : State) : Host.Outcome State Fault Refusal :=
  .next (s.regWrite q (0x07C + u.toNat) 0x0800 v)

/-- UPORT_RESET (R434). -/
def execUportReset (q : Req) (u : BitVec 1) (s : State) : Host.Outcome State Fault Refusal :=
  .next (s.regWrite q (0x07C + u.toNat) 0x0808 (s.reg (0x07C + u.toNat) 0x0808 &&& 2 ||| 1))

/-- UPORT_SUSPEND (R434). -/
def execUportSuspend (q : Req) (u : BitVec 1) (on : Bool) (s : State) : Host.Outcome State Fault Refusal :=
  .next (s.regWrite q (0x07C + u.toNat) 0x0808 (if on then 2 else 0))

/-- UPORT_RESUME (R434). -/
def execUportResume (q : Req) (u : BitVec 1) (s : State) : Host.Outcome State Fault Refusal := .next (s.regWrite q (0x07C + u.toNat) 0x0808 4)

/-- USB_PORT_EVENT (R434). -/
def execUsbPortEvent (u : BitVec 1) (e : UsbEvent) (s : State) : Host.Outcome State Fault Refusal := .next (s.usbLine u.toNat e)

/-- USB_TRANSFER_COMPLETE (R433). -/
def execUsbTransferComplete (u : BitVec 1) (e : BitVec 5) (inn : Bool) (ep : BitVec 8) (bytes : List Byte) (s : State) : Host.Outcome State Fault Refusal :=
  .next (s.usbTransfer u.toNat e.toNat inn ep bytes)

/-- BACKBONE_LINK_CHANGE (R431). -/
def execBackboneLinkChange (p : BitVec 1) (up : Bool) (speed : BitVec 2) (lpi : Bool) (mdix : Bool) (s : State) : Host.Outcome State Fault Refusal :=
  .next (s.bbLinkChange p.toNat up speed.toNat lpi mdix)

/-- LANE_LINK_UP (R561). -/
def execLaneLinkUp (p : BitVec 4) (s : State) : Host.Outcome State Fault Refusal := .next (s.laneLinkUp p.toNat)

end Sys2Proof.Machine
end

