-- ==== Sys2Proof/Machine/RowsPower.lean ====
section
/-!
DEFINITION. Machine/RowsPower.lean: the commands of the bus die, the causeway, the hot-swap controllers, the budget, ride-through and the fault ledger (chapter 15).
-/
namespace Sys2Proof.Machine

/-- BUS_UVLO_RISING (R456). -/
def execBusUvloRising (s : State) : Host.Outcome State Fault Refusal := .next (s.uvloRising)

/-- BUS_UVLO_FALLING (R456). -/
def execBusUvloFalling (s : State) : Host.Outcome State Fault Refusal := .next (s.busReset false)

/-- OVERVOLTAGE_LOCKOUT (R456). -/
def execOvervoltageLockout (s : State) : Host.Outcome State Fault Refusal := .next (s.ovlo)

/-- OVERVOLTAGE_RELEASE (R456). -/
def execOvervoltageRelease (s : State) : Host.Outcome State Fault Refusal := .next (s.ovloRelease)

/-- LOGIC_SUPPLY_LIMIT (R460). -/
def execLogicSupplyLimit (mw : BitVec 16) (s : State) : Host.Outcome State Fault Refusal := .next (s.logicLimit mw)

/-- LOGIC_BROWN_OUT (R460). -/
def execLogicBrownOut (s : State) : Host.Outcome State Fault Refusal := .next (s.brownOut)

/-- CAUSEWAY_LOST (R13). -/
def execCausewayLost (s : State) : Host.Outcome State Fault Refusal := .next (s.causewayLost)

/-- CAUSEWAY_RESUME (R13). -/
def execCausewayResume (s : State) : Host.Outcome State Fault Refusal := .next (s.causewayResume)

/-- CAUSEWAY_KEEPALIVE (R560). -/
def execCausewayKeepalive (s : State) : Host.Outcome State Fault Refusal := .next (s.causewayAlive)

/-- CWCLR (R462). -/
def execCwclr (q : Req) (v : Word) (s : State) : Host.Outcome State Fault Refusal := .next (s.regWrite q 0x080 0x1004 v)

/-- PCTL_WRITE (R463). -/
def execPctlWrite (q : Req) (p : BitVec 4) (v : Word) (s : State) : Host.Outcome State Fault Refusal :=
  .next (s.regWrite q (0x090 + p.toNat) 0x1000 v)

/-- INRUSH_COMPLETE (R464). -/
def execInrushComplete (p : BitVec 4) (s : State) : Host.Outcome State Fault Refusal := .next (s.inrushComplete p.toNat)

/-- PORT_UPSET (R467). -/
def execPortUpset (p : BitVec 4) (kind : BitVec 4) (s : State) : Host.Outcome State Fault Refusal := .next (s.portUpset p.toNat kind.toNat)

/-- HARD_SIGNATURE (R467). -/
def execHardSignature (p : BitVec 4) (kind : BitVec 4) (s : State) : Host.Outcome State Fault Refusal := .next (s.hardSignature p.toNat kind.toNat)

/-- PORT_BACKOFF_EXPIRY (R467). -/
def execPortBackoffExpiry (p : BitVec 4) (s : State) : Host.Outcome State Fault Refusal := .next (s.portBackoff p.toNat)

/-- ASHLOAD (R469). -/
def execAshload (q : Req) (v : Word) (s : State) : Host.Outcome State Fault Refusal := .next (s.regWrite q 0x081 0x100C v)

/-- PORT_CLEAR_PERMIT (R471). -/
def execPortClearPermit (w : World) (slot : BitVec 5) (s : State) : Host.Outcome State Fault Refusal :=
  .next (if s.localOp w slot.toNat = 2 ∧ s.localKey w slot.toNat = 0x110301 then s.localRequest w slot.toNat else s)

/-- PASHCLR (R471). -/
def execPashclr (q : Req) (p : BitVec 4) (v : Word) (s : State) : Host.Outcome State Fault Refusal := .next (s.regWrite q (0x090 + p.toNat) 0x1018 v)

/-- BUDGET_TICK (R472). -/
def execBudgetTick (m : PowerMeas) (s : State) : Host.Outcome State Fault Refusal := .next (s.budgetTick m)

/-- BUDGET_SHED (R472). -/
def execBudgetShed (s : State) : Host.Outcome State Fault Refusal := .next (s.budgetShed)

/-- BUDGET_RESTORE (R473). -/
def execBudgetRestore (s : State) : Host.Outcome State Fault Refusal := .next (s.budgetRestore)

/-- CEIL_WRITE (R472). -/
def execCeilWrite (q : Req) (v : Word) (s : State) : Host.Outcome State Fault Refusal := .next (s.regWrite q 0x081 0x1008 v)

/-- CHARGE_EVALUATION (R474). -/
def execChargeEvaluation (own : BitVec 8) (s : State) : Host.Outcome State Fault Refusal := .next (s.chargeEval own)

/-- CHARGE_FULL (R474). -/
def execChargeFull (s : State) : Host.Outcome State Fault Refusal := .next (s.chargeFull)

/-- CONVERTER_UPSET (R475). -/
def execConverterUpset (s : State) : Host.Outcome State Fault Refusal := .next (s.convUpset)

/-- SWITCH_OVER (R476). -/
def execSwitchOver (vbus : BitVec 16) (s : State) : Host.Outcome State Fault Refusal := .next (s.switchOver vbus)

/-- CLASS_SHED_DELAY_EXPIRY (R476). -/
def execClassShedDelayExpiry (c : BitVec 2) (s : State) : Host.Outcome State Fault Refusal := .next (s.classShed c.toNat)

/-- PMAX_SHED (R476). -/
def execPmaxShed (s : State) : Host.Outcome State Fault Refusal := .next (s.pmaxShed)

/-- FINISH_WINDOW_WARNING (R476). -/
def execFinishWindowWarning (s : State) : Host.Outcome State Fault Refusal := .next (s.windowWarning)

/-- FINISH_WINDOW_EXPIRY (R476). -/
def execFinishWindowExpiry (s : State) : Host.Outcome State Fault Refusal := .next (s.windowExpiry)

/-- STORAGE_FLOOR (R476). -/
def execStorageFloor (vstore : BitVec 16) (s : State) : Host.Outcome State Fault Refusal := .next (s.storageFloor vstore)

/-- BUS_RETURN (R476). -/
def execBusReturn (vbus : BitVec 16) (s : State) : Host.Outcome State Fault Refusal := .next (s.busReturn vbus)

/-- RESTORE_STEP (R476). -/
def execRestoreStep (s : State) : Host.Outcome State Fault Refusal := .next (s.restoreStep)

/-- STORAGE_REGISTER_WRITE (R476): SCTL, RTCTL, SFLOOR or SCAP. -/
def execStorageRegisterWrite (q : Req) (off : BitVec 4) (v : Word) (s : State) : Host.Outcome State Fault Refusal :=
  .next (s.regWrite q 0x083 (0x1000 + off.toNat / 4 * 4) v)

/-- TAPPLY (R478). -/
def execTapply (q : Req) (v : Word) (s : State) : Host.Outcome State Fault Refusal := .next (s.regWrite q 0x082 0x1004 v)

/-- LLOCK_SET (R482): the word written to LCTL. -/
def execLlockSet (q : Req) (v : Word) (s : State) : Host.Outcome State Fault Refusal := .next (s.regWrite q 0x00F 0x1000 v)

/-- LEDGER_UPSET_RECORD (R479). -/
def execLedgerUpsetRecord (bad : BitVec 7) (s : State) : Host.Outcome State Fault Refusal := .next (s.ledgerRecord bad)

/-- LEDGER_COPY_WRITE (R483). -/
def execLedgerCopyWrite (fail : Bool) (s : State) : Host.Outcome State Fault Refusal := .next (s.ledgerWrite fail)

/-- LCLR (R484). -/
def execLclr (q : Req) (v : Word) (s : State) : Host.Outcome State Fault Refusal := .next (s.regWrite q 0x00F 0x1204 v)

/-- LEDGER_CLEAR (R484). -/
def execLedgerClear (s : State) : Host.Outcome State Fault Refusal := .next (s.ledgerClearStep)

/-- LPOL_WRITE (R479): word j of class c. -/
def execLpolWrite (q : Req) (c : BitVec 4) (j : BitVec 2) (v : Word) (s : State) : Host.Outcome State Fault Refusal :=
  .next (s.regWrite q 0x00F (0x1100 + 16 * c.toNat + 4 * j.toNat) v)

/-- FET_COOLED (R467). -/
def execFetCooled (p : BitVec 4) (temp : BitVec 8) (s : State) : Host.Outcome State Fault Refusal := .next (s.fetCooled p.toNat temp)

/-- LOGIC_RAIL_RETURN (R460). -/
def execLogicRailReturn (s : State) : Host.Outcome State Fault Refusal := .next (s.railReturn)

end Sys2Proof.Machine
end

