-- ==== Sys2Proof/Machine/RowsReset.lean ====
section
/-!
DEFINITION. Machine/RowsReset.lean: the commands of resets, boot and the watchdogs (chapter 17).
-/
namespace Sys2Proof.Machine

/-- BUS_POWER_ON_RESET (R515). -/
def execBusPowerOnReset (s : State) : Host.Outcome State Fault Refusal := .next (s.busReset true)

/-- RESET_N (R517). -/
def execResetN (low : Bool) (s : State) : Host.Outcome State Fault Refusal := .next (s.resetN low)

/-- TRADE_WATCHDOG_EXPIRY (R536). -/
def execTradeWatchdogExpiry (s : State) : Host.Outcome State Fault Refusal := .next (s.wdDue .trade)

/-- OPEN_WATCHDOG_EXPIRY (R536). -/
def execOpenWatchdogExpiry (s : State) : Host.Outcome State Fault Refusal := .next (s.wdDue .opn)

/-- WATCHDOG_WARNING (R536). -/
def execWatchdogWarning (w : World) (s : State) : Host.Outcome State Fault Refusal := .next (s.wdWarn w)

/-- WDKICK (R536). -/
def execWdkick (q : Req) (w : World) (v : Word) (s : State) : Host.Outcome State Fault Refusal := .next (s.regWrite q (wdSlot w) 0x100C v)

/-- WATCHDOG_REGISTER_WRITE (R536): WDCTL, WDTIME or WDWARN. -/
def execWatchdogRegisterWrite (q : Req) (w : World) (off : BitVec 4) (v : Word) (s : State) : Host.Outcome State Fault Refusal :=
  .next (s.regWrite q (wdSlot w) (0x1000 + off.toNat / 4 * 4) v)

/-- DEVICE_RESET_SEQUENCE (R519). -/
def execDeviceResetSequence (bist : List (BitVec 4)) (phy : BitVec 16) (s : State) : Host.Outcome State Fault Refusal :=
  .next (s.resetSequence bist phy)

/-- TINDER_ROM_BOOT (R527). -/
def execTinderRomBoot (rcvry : Bool) (s : State) : Host.Outcome State Fault Refusal := .next (s.tinderBoot rcvry)

/-- RECOVERY_TRANSFER (R528). -/
def execRecoveryTransfer (b : List Byte) (complete : Bool) (s : State) : Host.Outcome State Fault Refusal := .next (s.recoveryTransfer b complete)

/-- DEVRST (R522). -/
def execDevrst (q : Req) (v : Word) (s : State) : Host.Outcome State Fault Refusal := .next (s.regWrite q 0x00D 0x1128 v)

/-- VECLOCK (R522). -/
def execVeclock (q : Req) (v : Word) (s : State) : Host.Outcome State Fault Refusal := .next (s.regWrite q 0x00D 0x1118 v)

/-- BOOT_CONTROL_WRITE (R522): TRVEC, ORVEC or TILEEXCL. -/
def execBootControlWrite (q : Req) (k : BitVec 2) (v : Word) (s : State) : Host.Outcome State Fault Refusal :=
  .next (s.regWrite q 0x00D (if k = 0 then 0x1110 else if k = 1 then 0x1114 else 0x1120) v)

/-- SVNBURN (R524). -/
def execSvnburn (q : Req) (v : Word) (s : State) : Host.Outcome State Fault Refusal := .next (s.regWrite q 0x00D 0x1130 v)

/-- KEYREVBURN (R524). -/
def execKeyrevburn (q : Req) (v : Word) (s : State) : Host.Outcome State Fault Refusal := .next (s.regWrite q 0x00D 0x1134 v)

/-- WRESET (R533): in slot 0x00D, or in slot 0x02B. -/
def execWreset (q : Req) (pdc : Bool) (v : Word) (s : State) : Host.Outcome State Fault Refusal :=
  .next (s.regWrite q (if pdc then 0x02B else 0x00D) 0x1100 v)

/-- TRESET (R534). -/
def execTreset (q : Req) (v : Word) (s : State) : Host.Outcome State Fault Refusal := .next (s.regWrite q 0x00D 0x1104 v)

/-- TSTART (R535): in slot 0x00D, or in slot 0x02B. -/
def execTstart (q : Req) (pdc : Bool) (v : Word) (s : State) : Host.Outcome State Fault Refusal :=
  .next (s.regWrite q (if pdc then 0x02B else 0x00D) 0x1108 v)

/-- IMAGE_VERIFY (R531). -/
def execImageVerify (s : State) : Host.Outcome State Fault Refusal := .next (s.imageVerify)

/-- TILE_RESET_COMPLETE (R534). -/
def execTileResetComplete (t : TileId) (bist : BitVec 4) (s : State) : Host.Outcome State Fault Refusal := .next (s.tresetDone t bist)

/-- SVN_BURN_COMPLETE (R524). -/
def execSvnBurnComplete (s : State) : Host.Outcome State Fault Refusal := .next (s.svnBurned)

end Sys2Proof.Machine
end

