-- ==== Sys2Proof/Machine/RowsSeal.lean ====
section
/-!
DEFINITION. Machine/RowsSeal.lean: the commands of the seal engine, the journal and pairing (chapter 14).
-/
namespace Sys2Proof.Machine

/-- JSUBMIT (R439). -/
def execJsubmit (q : Req) (v : Word) (s : State) : Host.Outcome State Fault Refusal := .next (s.regWrite q 0x030 0x1004 v)

/-- SEAL_JOB_RUN (R440). -/
def execSealJobRun (s : State) : Host.Outcome State Fault Refusal := .next (s.sealRun)

/-- LOAD_CLEAR (R437). -/
def execLoadClear (q : Req) (s : State) : Host.Outcome State Fault Refusal := .next (s.regWrite q 0x030 0x1104 1)

/-- LOAD_WRAPPED (R437). -/
def execLoadWrapped (q : Req) (s : State) : Host.Outcome State Fault Refusal := .next (s.regWrite q 0x030 0x1104 2)

/-- WRAP_OUT (R438). -/
def execWrapOut (q : Req) (s : State) : Host.Outcome State Fault Refusal := .next (s.regWrite q 0x030 0x1104 3)

/-- ERASE (R436). -/
def execErase (q : Req) (s : State) : Host.Outcome State Fault Refusal := .next (s.regWrite q 0x030 0x1104 4)

/-- EXTEND (R438). -/
def execExtend (q : Req) (s : State) : Host.Outcome State Fault Refusal := .next (s.regWrite q 0x030 0x1104 5)

/-- JLOCK (R449). -/
def execJlock (q : Req) (v : Word) (s : State) : Host.Outcome State Fault Refusal := .next (s.regWrite q 0x030 0x1204 v)

/-- JEXPSEQ_WRITE (R449). -/
def execJexpseqWrite (q : Req) (v : Word) (s : State) : Host.Outcome State Fault Refusal := .next (s.regWrite q 0x030 0x120C v)

/-- JOURNAL_LINE_CHECK (R450). -/
def execJournalLineCheck (s : State) : Host.Outcome State Fault Refusal := .next (s.journalCheck)

/-- PAIR (R447): the whole exchange with the display's messages. -/
def execPair (target : BitVec 16) (anchors : List (List Byte)) (accept : Option (List Byte)) (done : Option (List Byte)) (s : State) : Host.Outcome State Fault Refusal :=
  .next (s.pair target.toNat anchors accept done)

/-- PAIRING_TIMEOUT (R447). -/
def execPairingTimeout (s : State) : Host.Outcome State Fault Refusal := .next (s.pairTimeout)

/-- UNPAIR (R447). -/
def execUnpair (id : BitVec 16) (s : State) : Host.Outcome State Fault Refusal := .next (s.unpair id.toNat)

/-- JOURNAL_EXPORT (R453). -/
def execJournalExport (s : State) : Host.Outcome State Fault Refusal := .next (s.exportStep)

/-- EXPORT_ACKNOWLEDGE (R454). -/
def execExportAcknowledge (v : Word) (s : State) : Host.Outcome State Fault Refusal := .next (s.exportAck v)

end Sys2Proof.Machine
end

