-- ==== Sys2Proof/Machine/Dispatch.lean ====
section
/-!
DEFINITION. Machine/Dispatch.lean: one arm per command; each arm is one direct call of that command's meaning.
-/
namespace Sys2Proof.Machine

/-- The effect of a command on everything but the queue. -/
def exec (i : Instr) (s : State) : Host.Outcome State Fault Refusal :=
  match i with
  | .bundleIssue t => Sys2Proof.Machine.execBundleIssue t s
  | .pendingResultVisible t => Sys2Proof.Machine.execPendingResultVisible t s
  | .contextFillComplete t => Sys2Proof.Machine.execContextFillComplete t s
  | .spillComplete t => Sys2Proof.Machine.execSpillComplete t s
  | .gateFenceComplete t => Sys2Proof.Machine.execGateFenceComplete t s
  | .fenceComplete t => Sys2Proof.Machine.execFenceComplete t s
  | .dwbinvComplete t => Sys2Proof.Machine.execDwbinvComplete t s
  | .exceptionEntry t => Sys2Proof.Machine.execExceptionEntry t s
  | .impreciseReport t => Sys2Proof.Machine.execImpreciseReport t s
  | .preciseFreezeEnd t => Sys2Proof.Machine.execPreciseFreezeEnd t s
  | .interruptDelivery t => Sys2Proof.Machine.execInterruptDelivery t s
  | .machineCheck t => Sys2Proof.Machine.execMachineCheck t s
  | .crossWorldEntry t => Sys2Proof.Machine.execCrossWorldEntry t s
  | .idleHostEntry t => Sys2Proof.Machine.execIdleHostEntry t s
  | .cacheLineArrival t err => Sys2Proof.Machine.execCacheLineArrival t err s
  | .peripheralResponse t => Sys2Proof.Machine.execPeripheralResponse t s
  | .targetTimeout r target bank => Sys2Proof.Machine.execTargetTimeout r target bank s
  | .writeBufferDrain t => Sys2Proof.Machine.execWriteBufferDrain t s
  | .emramLineProgrammed bank ok1 ok2 => Sys2Proof.Machine.execEmramLineProgrammed bank ok1 ok2 s
  | .pageWalk t => Sys2Proof.Machine.execPageWalk t s
  | .dvfsClockSwitchEnd t => Sys2Proof.Machine.execDvfsClockSwitchEnd t s
  | .dvfsRampEnd t => Sys2Proof.Machine.execDvfsRampEnd t s
  | .tdvfsWrite q t v => Sys2Proof.Machine.execTdvfsWrite q t v s
  | .tfloorWrite q t v => Sys2Proof.Machine.execTfloorWrite q t v s
  | .rcGo q v => Sys2Proof.Machine.execRcGo q v s
  | .tdrOprWrite q off v => Sys2Proof.Machine.execTdrOprWrite q off v s
  | .sweepProgramWrite q off v => Sys2Proof.Machine.execSweepProgramWrite q off v s
  | .sweepStart q => Sys2Proof.Machine.execSweepStart q s
  | .sweepAbort q => Sys2Proof.Machine.execSweepAbort q s
  | .sweepStepEnd => Sys2Proof.Machine.execSweepStepEnd s
  | .sweepPauseExpiry => Sys2Proof.Machine.execSweepPauseExpiry s
  | .fillEngineSlotTest => Sys2Proof.Machine.execFillEngineSlotTest s
  | .sweepDone => Sys2Proof.Machine.execSweepDone s
  | .gateWrite q n word v => Sys2Proof.Machine.execGateWrite q n word v s
  | .peripheralAccess t => Sys2Proof.Machine.execPeripheralAccess t s
  | .cctlWrite q c v => Sys2Proof.Machine.execCctlWrite q c v s
  | .cgo q c v => Sys2Proof.Machine.execCgo q c v s
  | .dmaRequestComplete c => Sys2Proof.Machine.execDmaRequestComplete c s
  | .dmaWindowWrite q c k v => Sys2Proof.Machine.execDmaWindowWrite q c k v s
  | .masterRegionWrite q u n word v => Sys2Proof.Machine.execMasterRegionWrite q u n word v s
  | .scfgWrite q n v => Sys2Proof.Machine.execScfgWrite q n v s
  | .ipset q k v => Sys2Proof.Machine.execIpset q k v s
  | .ipclr q k v => Sys2Proof.Machine.execIpclr q k v s
  | .ieset q k v => Sys2Proof.Machine.execIeset q k v s
  | .ieclr q k v => Sys2Proof.Machine.execIeclr q k v s
  | .iovrClear q k v => Sys2Proof.Machine.execIovrClear q k v s
  | .irqLineEdge n level => Sys2Proof.Machine.execIrqLineEdge n level s
  | .iholdset q v => Sys2Proof.Machine.execIholdset q v s
  | .iholdclr q v => Sys2Proof.Machine.execIholdclr q v s
  | .timerEnable q k v => Sys2Proof.Machine.execTimerEnable q k v s
  | .tloadWrite q k v => Sys2Proof.Machine.execTloadWrite q k v s
  | .timerExpiry k => Sys2Proof.Machine.execTimerExpiry k s
  | .blockRegisterWrite q t k word v => Sys2Proof.Machine.execBlockRegisterWrite q t k word v s
  | .xbaseXctlWrite q t xbase v => Sys2Proof.Machine.execXbaseXctlWrite q t xbase v s
  | .tlbi q v => Sys2Proof.Machine.execTlbi q v s
  | .dramRefreshRateChange rate temp => Sys2Proof.Machine.execDramRefreshRateChange rate temp s
  | .dramBackgroundZeroing => Sys2Proof.Machine.execDramBackgroundZeroing s
  | .dictRead w slot => Sys2Proof.Machine.execDictRead w slot s
  | .dictWrite w slot => Sys2Proof.Machine.execDictWrite w slot s
  | .describe w slot => Sys2Proof.Machine.execDescribe w slot s
  | .update w slot => Sys2Proof.Machine.execUpdate w slot s
  | .register w slot => Sys2Proof.Machine.execRegister w slot s
  | .unregister w slot => Sys2Proof.Machine.execUnregister w slot s
  | .fwdDone q v => Sys2Proof.Machine.execFwdDone q v s
  | .ownerTimeout w slot => Sys2Proof.Machine.execOwnerTimeout w slot s
  | .wqAck q v => Sys2Proof.Machine.execWqAck q v s
  | .expertUnlockExpiry => Sys2Proof.Machine.execExpertUnlockExpiry s
  | .emberDeadlineScan recovered => Sys2Proof.Machine.execEmberDeadlineScan recovered s
  | .engineClockStart => Sys2Proof.Machine.execEngineClockStart s
  | .commandStart w slot => Sys2Proof.Machine.execCommandStart w slot s
  | .commandAbort w slot => Sys2Proof.Machine.execCommandAbort w slot s
  | .commandAcknowledge w slot => Sys2Proof.Machine.execCommandAcknowledge w slot s
  | .stepGrant => Sys2Proof.Machine.execStepGrant s
  | .stepn q v => Sys2Proof.Machine.execStepn q v s
  | .stepdone q v => Sys2Proof.Machine.execStepdone q v s
  | .stepLimitExpiry => Sys2Proof.Machine.execStepLimitExpiry s
  | .deviceResetCommand => Sys2Proof.Machine.execDeviceResetCommand s
  | .charSweepCommand => Sys2Proof.Machine.execCharSweepCommand s
  | .isleEntriesRemove w slot => Sys2Proof.Machine.execIsleEntriesRemove w slot s
  | .hello f => Sys2Proof.Machine.execHello f s
  | .helloAckDelayExpiry => Sys2Proof.Machine.execHelloAckDelayExpiry s
  | .init f => Sys2Proof.Machine.execInit f s
  | .hsDone q v => Sys2Proof.Machine.execHsDone q v s
  | .confirm f => Sys2Proof.Machine.execConfirm f s
  | .handshakeExpiry j => Sys2Proof.Machine.execHandshakeExpiry j s
  | .ferryRead f => Sys2Proof.Machine.execFerryRead f s
  | .ferryWrite f => Sys2Proof.Machine.execFerryWrite f s
  | .segRead f => Sys2Proof.Machine.execSegRead f s
  | .segWrite f => Sys2Proof.Machine.execSegWrite f s
  | .snapshotExpiry n x => Sys2Proof.Machine.execSnapshotExpiry n x s
  | .segWriteDiscard n x => Sys2Proof.Machine.execSegWriteDiscard n x s
  | .ferryCommand f => Sys2Proof.Machine.execFerryCommand f s
  | .subscribe f => Sys2Proof.Machine.execSubscribe f s
  | .unsubscribe f => Sys2Proof.Machine.execUnsubscribe f s
  | .minintExpiry n id => Sys2Proof.Machine.execMinintExpiry n id s
  | .periodExpiry n id => Sys2Proof.Machine.execPeriodExpiry n id s
  | .keepalive f => Sys2Proof.Machine.execKeepalive f s
  | .close f => Sys2Proof.Machine.execClose f s
  | .sessionIdleExpiry n => Sys2Proof.Machine.execSessionIdleExpiry n s
  | .sessionCloseWrite w slot => Sys2Proof.Machine.execSessionCloseWrite w slot s
  | .islandBlockWrite w slot => Sys2Proof.Machine.execIslandBlockWrite w slot s
  | .ferryUndefinedType f => Sys2Proof.Machine.execFerryUndefinedType f s
  | .noSession f => Sys2Proof.Machine.execNoSession f s
  | .lpctlWrite q p v => Sys2Proof.Machine.execLpctlWrite q p v s
  | .plcaCycle p => Sys2Proof.Machine.execPlcaCycle p s
  | .laneFrameReceive p k fcs frame => Sys2Proof.Machine.execLaneFrameReceive p k fcs frame s
  | .receiveDescriptorComplete p => Sys2Proof.Machine.execReceiveDescriptorComplete p s
  | .enrolmentRowWrite q p k word v => Sys2Proof.Machine.execEnrolmentRowWrite q p k word v s
  | .qctlWrite q sl n v => Sys2Proof.Machine.execQctlWrite q sl n v s
  | .kick q sl n => Sys2Proof.Machine.execKick q sl n s
  | .txExamination p => Sys2Proof.Machine.execTxExamination p s
  | .laneFrameTransmit p => Sys2Proof.Machine.execLaneFrameTransmit p s
  | .laneUpset p kind sending => Sys2Proof.Machine.execLaneUpset p kind sending s
  | .laneBackoffExpiry p => Sys2Proof.Machine.execLaneBackoffExpiry p s
  | .laneLineTestEnd p pass => Sys2Proof.Machine.execLaneLineTestEnd p pass s
  | .laneClearPermit w slot => Sys2Proof.Machine.execLaneClearPermit w slot s
  | .ashclr q p v => Sys2Proof.Machine.execAshclr q p v s
  | .permitExpiry k => Sys2Proof.Machine.execPermitExpiry k s
  | .backboneFrameForward p fcs frame => Sys2Proof.Machine.execBackboneFrameForward p fcs frame s
  | .addressAgeing => Sys2Proof.Machine.execAddressAgeing s
  | .switchRegisterWrite q sl off v => Sys2Proof.Machine.execSwitchRegisterWrite q sl off v s
  | .backboneLinkUpset p kind => Sys2Proof.Machine.execBackboneLinkUpset p kind s
  | .hostFrameInSleep frame => Sys2Proof.Machine.execHostFrameInSleep frame s
  | .tbofs q v => Sys2Proof.Machine.execTbofs q v s
  | .tbadjWrite q v => Sys2Proof.Machine.execTbadjWrite q v s
  | .tbstep q v => Sys2Proof.Machine.execTbstep q v s
  | .tbset q v => Sys2Proof.Machine.execTbset q v s
  | .lockLoss => Sys2Proof.Machine.execLockLoss s
  | .ptpTimestamp p tx mtype sid => Sys2Proof.Machine.execPtpTimestamp p tx mtype sid s
  | .uctlWrite q u v => Sys2Proof.Machine.execUctlWrite q u v s
  | .uportReset q u => Sys2Proof.Machine.execUportReset q u s
  | .uportSuspend q u on => Sys2Proof.Machine.execUportSuspend q u on s
  | .uportResume q u => Sys2Proof.Machine.execUportResume q u s
  | .usbPortEvent u e => Sys2Proof.Machine.execUsbPortEvent u e s
  | .usbTransferComplete u e inn ep bytes => Sys2Proof.Machine.execUsbTransferComplete u e inn ep bytes s
  | .jsubmit q v => Sys2Proof.Machine.execJsubmit q v s
  | .sealJobRun => Sys2Proof.Machine.execSealJobRun s
  | .loadClear q => Sys2Proof.Machine.execLoadClear q s
  | .loadWrapped q => Sys2Proof.Machine.execLoadWrapped q s
  | .wrapOut q => Sys2Proof.Machine.execWrapOut q s
  | .erase q => Sys2Proof.Machine.execErase q s
  | .extend q => Sys2Proof.Machine.execExtend q s
  | .jlock q v => Sys2Proof.Machine.execJlock q v s
  | .jexpseqWrite q v => Sys2Proof.Machine.execJexpseqWrite q v s
  | .journalLineCheck => Sys2Proof.Machine.execJournalLineCheck s
  | .pair target anchors accept done => Sys2Proof.Machine.execPair target anchors accept done s
  | .pairingTimeout => Sys2Proof.Machine.execPairingTimeout s
  | .unpair id => Sys2Proof.Machine.execUnpair id s
  | .journalExport => Sys2Proof.Machine.execJournalExport s
  | .exportAcknowledge v => Sys2Proof.Machine.execExportAcknowledge v s
  | .busUvloRising => Sys2Proof.Machine.execBusUvloRising s
  | .busUvloFalling => Sys2Proof.Machine.execBusUvloFalling s
  | .overvoltageLockout => Sys2Proof.Machine.execOvervoltageLockout s
  | .overvoltageRelease => Sys2Proof.Machine.execOvervoltageRelease s
  | .logicSupplyLimit mw => Sys2Proof.Machine.execLogicSupplyLimit mw s
  | .logicBrownOut => Sys2Proof.Machine.execLogicBrownOut s
  | .causewayLost => Sys2Proof.Machine.execCausewayLost s
  | .causewayResume => Sys2Proof.Machine.execCausewayResume s
  | .causewayRepeat t response => Sys2Proof.Machine.execCausewayRepeat t response s
  | .causewayKeepalive => Sys2Proof.Machine.execCausewayKeepalive s
  | .cwclr q v => Sys2Proof.Machine.execCwclr q v s
  | .pctlWrite q p v => Sys2Proof.Machine.execPctlWrite q p v s
  | .inrushComplete p => Sys2Proof.Machine.execInrushComplete p s
  | .portUpset p kind => Sys2Proof.Machine.execPortUpset p kind s
  | .hardSignature p kind => Sys2Proof.Machine.execHardSignature p kind s
  | .portBackoffExpiry p => Sys2Proof.Machine.execPortBackoffExpiry p s
  | .ashload q v => Sys2Proof.Machine.execAshload q v s
  | .portClearPermit w slot => Sys2Proof.Machine.execPortClearPermit w slot s
  | .pashclr q p v => Sys2Proof.Machine.execPashclr q p v s
  | .budgetTick m => Sys2Proof.Machine.execBudgetTick m s
  | .budgetShed => Sys2Proof.Machine.execBudgetShed s
  | .budgetRestore => Sys2Proof.Machine.execBudgetRestore s
  | .ceilWrite q v => Sys2Proof.Machine.execCeilWrite q v s
  | .chargeEvaluation own => Sys2Proof.Machine.execChargeEvaluation own s
  | .chargeFull => Sys2Proof.Machine.execChargeFull s
  | .converterUpset => Sys2Proof.Machine.execConverterUpset s
  | .switchOver vbus => Sys2Proof.Machine.execSwitchOver vbus s
  | .classShedDelayExpiry c => Sys2Proof.Machine.execClassShedDelayExpiry c s
  | .pmaxShed => Sys2Proof.Machine.execPmaxShed s
  | .finishWindowWarning => Sys2Proof.Machine.execFinishWindowWarning s
  | .finishWindowExpiry => Sys2Proof.Machine.execFinishWindowExpiry s
  | .storageFloor vstore => Sys2Proof.Machine.execStorageFloor vstore s
  | .busReturn vbus => Sys2Proof.Machine.execBusReturn vbus s
  | .restoreStep => Sys2Proof.Machine.execRestoreStep s
  | .storageRegisterWrite q off v => Sys2Proof.Machine.execStorageRegisterWrite q off v s
  | .tapply q v => Sys2Proof.Machine.execTapply q v s
  | .llockSet q v => Sys2Proof.Machine.execLlockSet q v s
  | .ledgerUpsetRecord bad => Sys2Proof.Machine.execLedgerUpsetRecord bad s
  | .ledgerCopyWrite fail => Sys2Proof.Machine.execLedgerCopyWrite fail s
  | .lclr q v => Sys2Proof.Machine.execLclr q v s
  | .ledgerClear => Sys2Proof.Machine.execLedgerClear s
  | .lpolWrite q c j v => Sys2Proof.Machine.execLpolWrite q c j v s
  | .emberTick => Sys2Proof.Machine.execEmberTick s
  | .emberClockFail => Sys2Proof.Machine.execEmberClockFail s
  | .emberClockReturn => Sys2Proof.Machine.execEmberClockReturn s
  | .rtcFollow ticks => Sys2Proof.Machine.execRtcFollow ticks s
  | .rtcset q v => Sys2Proof.Machine.execRtcset q v s
  | .rtcAlarm => Sys2Proof.Machine.execRtcAlarm s
  | .openWakeTime => Sys2Proof.Machine.execOpenWakeTime s
  | .tgate q v => Sys2Proof.Machine.execTgate q v s
  | .tileGateRestart t => Sys2Proof.Machine.execTileGateRestart t s
  | .wpermitWrite q v => Sys2Proof.Machine.execWpermitWrite q v s
  | .targetEvaluation => Sys2Proof.Machine.execTargetEvaluation s
  | .idleEntry => Sys2Proof.Machine.execIdleEntry s
  | .sleepEntry => Sys2Proof.Machine.execSleepEntry s
  | .entryStop => Sys2Proof.Machine.execEntryStop s
  | .wakeEvent b => Sys2Proof.Machine.execWakeEvent b s
  | .dozeExit n => Sys2Proof.Machine.execDozeExit n s
  | .bankedExit => Sys2Proof.Machine.execBankedExit s
  | .dormantExit => Sys2Proof.Machine.execDormantExit s
  | .tileResume t => Sys2Proof.Machine.execTileResume t s
  | .exitToAshedTile n => Sys2Proof.Machine.execExitToAshedTile n s
  | .wlclr q v => Sys2Proof.Machine.execWlclr q v s
  | .scrubLine ce ue => Sys2Proof.Machine.execScrubLine ce ue s
  | .store own fail => Sys2Proof.Machine.execStore own fail s
  | .restoreDefaults => Sys2Proof.Machine.execRestoreDefaults s
  | .autoStore => Sys2Proof.Machine.execAutoStore s
  | .parameterStoreLoad refused => Sys2Proof.Machine.execParameterStoreLoad refused s
  | .busPowerOnReset => Sys2Proof.Machine.execBusPowerOnReset s
  | .resetN low => Sys2Proof.Machine.execResetN low s
  | .tradeWatchdogExpiry => Sys2Proof.Machine.execTradeWatchdogExpiry s
  | .openWatchdogExpiry => Sys2Proof.Machine.execOpenWatchdogExpiry s
  | .watchdogWarning w => Sys2Proof.Machine.execWatchdogWarning w s
  | .wdkick q w v => Sys2Proof.Machine.execWdkick q w v s
  | .watchdogRegisterWrite q w off v => Sys2Proof.Machine.execWatchdogRegisterWrite q w off v s
  | .deviceResetSequence bist phy => Sys2Proof.Machine.execDeviceResetSequence bist phy s
  | .tinderRomBoot rcvry => Sys2Proof.Machine.execTinderRomBoot rcvry s
  | .recoveryTransfer b complete => Sys2Proof.Machine.execRecoveryTransfer b complete s
  | .devrst q v => Sys2Proof.Machine.execDevrst q v s
  | .veclock q v => Sys2Proof.Machine.execVeclock q v s
  | .bootControlWrite q k v => Sys2Proof.Machine.execBootControlWrite q k v s
  | .svnburn q v => Sys2Proof.Machine.execSvnburn q v s
  | .keyrevburn q v => Sys2Proof.Machine.execKeyrevburn q v s
  | .wreset q pdc v => Sys2Proof.Machine.execWreset q pdc v s
  | .treset q v => Sys2Proof.Machine.execTreset q v s
  | .tstart q pdc v => Sys2Proof.Machine.execTstart q pdc v s
  | .imageVerify => Sys2Proof.Machine.execImageVerify s
  | .extest => Sys2Proof.Machine.execExtest s
  | .samplePreload => Sys2Proof.Machine.execSamplePreload s
  | .idcode => Sys2Proof.Machine.execIdcode s
  | .clamp => Sys2Proof.Machine.execClamp s
  | .highz => Sys2Proof.Machine.execHighz s
  | .bypass => Sys2Proof.Machine.execBypass s
  | .dapaccSetAddress a => Sys2Proof.Machine.execDapaccSetAddress a s
  | .dapaccRead => Sys2Proof.Machine.execDapaccRead s
  | .dapaccWrite v => Sys2Proof.Machine.execDapaccWrite v s
  | .haltreq v => Sys2Proof.Machine.execHaltreq v s
  | .resume v => Sys2Proof.Machine.execResume v s
  | .dreset v => Sys2Proof.Machine.execDreset v s
  | .tokenAppend v => Sys2Proof.Machine.execTokenAppend v s
  | .tokclr => Sys2Proof.Machine.execTokclr s
  | .nonceRead => Sys2Proof.Machine.execNonceRead s
  | .unlock q v => Sys2Proof.Machine.execUnlock q v s
  | .relock q v => Sys2Proof.Machine.execRelock q v s
  | .uleftExpiry => Sys2Proof.Machine.execUleftExpiry s
  | .registerWrite q sl off v => Sys2Proof.Machine.execRegisterWrite q sl off v s
  | .logicRailReturn => Sys2Proof.Machine.execLogicRailReturn s
  | .backboneLinkChange p up speed lpi mdix => Sys2Proof.Machine.execBackboneLinkChange p up speed lpi mdix s
  | .laneLinkUp p => Sys2Proof.Machine.execLaneLinkUp p s
  | .writeBackResponse t line err => Sys2Proof.Machine.execWriteBackResponse t line err s
  | .dramRefresh k => Sys2Proof.Machine.execDramRefresh k s
  | .tileResetComplete t bist => Sys2Proof.Machine.execTileResetComplete t bist s
  | .svnBurnComplete => Sys2Proof.Machine.execSvnBurnComplete s
  | .fetCooled p temp => Sys2Proof.Machine.execFetCooled p temp s
  | .trstN => Sys2Proof.Machine.execTrstN s

end Sys2Proof.Machine
end

