-- ==== Sys2Proof/WellFormed.lean ====
section
/-!
DEFINITION. WellFormed.lean: which operands a command can carry: what the widths of its fields do not say by themselves.
-/
namespace Sys2Proof

/-- Whether a peer is one its carrier can have (R375): an IPv4 address and a UDP port, on a lane a MAC address and port 0. -/
def FerryFrame.peerOk (f : FerryFrame) : Bool :=
  match f.carrier with
  | .lane _ => decide (f.peer.addr < 2 ^ 48) && f.peer.port == 0
  | _ => decide (f.peer.addr < 2 ^ 32) && decide (f.peer.port < 2 ^ 16)

/-- Whether a slot has DMA queue n (Table 13-6): 256 of the lanes, 16 of the backbone's host, 32 of each USB port. -/
def queueExists (slot : BitVec 12) (n : BitVec 8) : Bool :=
  slot == 0x070 || (slot == 0x078 && decide (n < 16)) || ((slot == 0x07C || slot == 0x07D) && decide (n < 32))

/-- Whether a command's operands are ones that the device's surroundings can bring. -/
def Instr.wellFormed : Instr → Bool
  -- a region has three words (Table 3-12)
  | .masterRegionWrite _ _ _ word _ => word != 3
  -- an address of its carrier (R375)
  | .hello f => f.peerOk
  -- an address of its carrier (R375)
  | .init f => f.peerOk
  -- an address of its carrier (R375)
  | .confirm f => f.peerOk
  -- an address of its carrier (R375)
  | .ferryRead f => f.peerOk
  -- an address of its carrier (R375)
  | .ferryWrite f => f.peerOk
  -- an address of its carrier (R375)
  | .segRead f => f.peerOk
  -- an address of its carrier (R375)
  | .segWrite f => f.peerOk
  -- an address of its carrier (R375)
  | .ferryCommand f => f.peerOk
  -- an address of its carrier (R375)
  | .subscribe f => f.peerOk
  -- an address of its carrier (R375)
  | .unsubscribe f => f.peerOk
  -- an address of its carrier (R375)
  | .keepalive f => f.peerOk
  -- an address of its carrier (R375)
  | .close f => f.peerOk
  -- an address of its carrier (R375)
  | .ferryUndefinedType f => f.peerOk
  -- an address of its carrier (R375)
  | .noSession f => f.peerOk
  -- row 0 has no register (Table 13-2)
  | .enrolmentRowWrite _ _ k _ _ => k != 0
  -- a queue of the slot (Table 13-6)
  | .qctlWrite _ sl n _ => queueExists sl n
  -- a queue of the slot (Table 13-6)
  | .kick _ sl n => queueExists sl n
  -- the switch and its two ports (Table 3-8)
  | .switchRegisterWrite _ sl _ _ => sl != 3
  -- the ports are 16 and the NTC inputs 8 (R472)
  | .budgetTick m => m.imeas.length == 16 && m.vout.length == 16 && m.ntc.length == 8
  -- one result for each tile (R519)
  | .deviceResetSequence bist _ => bist.length == 16
  -- TRVEC, ORVEC, TILEEXCL (Table 17-3)
  | .bootControlWrite _ k _ => k != 3
  -- a multiple of 4 (R539)
  | .dapaccSetAddress a => a.toNat % 4 == 0
  -- 10, 100 or 1000 Mbit/s (Table 13-10b)
  | .backboneLinkChange _ _ speed _ _ => speed != 3
  -- an entry of the write buffer or a write-back is a line (R143)
  | .writeBackResponse _ line _ => line % 64 == 0
  -- every value of the operands
  | .bundleIssue _ | .pendingResultVisible _ | .contextFillComplete _ | .spillComplete _ | .gateFenceComplete _ | .fenceComplete _
  | .dwbinvComplete _ | .exceptionEntry _ | .impreciseReport _ | .preciseFreezeEnd _ | .interruptDelivery _ | .machineCheck _
  | .crossWorldEntry _ | .idleHostEntry _ | .cacheLineArrival _ _ | .peripheralResponse _ | .targetTimeout _ _ _ | .writeBufferDrain _
  | .emramLineProgrammed _ _ _ | .pageWalk _ | .dvfsClockSwitchEnd _ | .dvfsRampEnd _ | .tdvfsWrite _ _ _ | .tfloorWrite _ _ _ | .rcGo _ _
  | .tdrOprWrite _ _ _ | .sweepProgramWrite _ _ _ | .sweepStart _ | .sweepAbort _ | .sweepStepEnd | .sweepPauseExpiry | .fillEngineSlotTest
  | .sweepDone | .gateWrite _ _ _ _ | .peripheralAccess _ | .cctlWrite _ _ _ | .cgo _ _ _ | .dmaRequestComplete _ | .dmaWindowWrite _ _ _ _
  | .scfgWrite _ _ _ | .ipset _ _ _ | .ipclr _ _ _ | .ieset _ _ _ | .ieclr _ _ _ | .iovrClear _ _ _ | .irqLineEdge _ _ | .iholdset _ _
  | .iholdclr _ _ | .timerEnable _ _ _ | .tloadWrite _ _ _ | .timerExpiry _ | .blockRegisterWrite _ _ _ _ _ | .xbaseXctlWrite _ _ _ _
  | .tlbi _ _ | .dramRefreshRateChange _ _ | .dramBackgroundZeroing | .dictRead _ _ | .dictWrite _ _ | .describe _ _ | .update _ _
  | .register _ _ | .unregister _ _ | .fwdDone _ _ | .ownerTimeout _ _ | .wqAck _ _ | .expertUnlockExpiry | .emberDeadlineScan _
  | .engineClockStart | .commandStart _ _ | .commandAbort _ _ | .commandAcknowledge _ _ | .stepGrant | .stepn _ _ | .stepdone _ _
  | .stepLimitExpiry | .deviceResetCommand | .charSweepCommand | .isleEntriesRemove _ _ | .helloAckDelayExpiry | .hsDone _ _
  | .handshakeExpiry _ | .snapshotExpiry _ _ | .segWriteDiscard _ _ | .minintExpiry _ _ | .periodExpiry _ _ | .sessionIdleExpiry _
  | .sessionCloseWrite _ _ | .islandBlockWrite _ _ | .lpctlWrite _ _ _ | .plcaCycle _ | .laneFrameReceive _ _ _ _
  | .receiveDescriptorComplete _ | .txExamination _ | .laneFrameTransmit _ | .laneUpset _ _ _ | .laneBackoffExpiry _ | .laneLineTestEnd _ _
  | .laneClearPermit _ _ | .ashclr _ _ _ | .permitExpiry _ | .backboneFrameForward _ _ _ | .addressAgeing | .backboneLinkUpset _ _
  | .hostFrameInSleep _ | .tbofs _ _ | .tbadjWrite _ _ | .tbstep _ _ | .tbset _ _ | .lockLoss | .ptpTimestamp _ _ _ _ | .uctlWrite _ _ _
  | .uportReset _ _ | .uportSuspend _ _ _ | .uportResume _ _ | .usbPortEvent _ _ | .usbTransferComplete _ _ _ _ _ | .jsubmit _ _ | .sealJobRun
  | .loadClear _ | .loadWrapped _ | .wrapOut _ | .erase _ | .extend _ | .jlock _ _ | .jexpseqWrite _ _ | .journalLineCheck | .pair _ _ _ _
  | .pairingTimeout | .unpair _ | .journalExport | .exportAcknowledge _ | .busUvloRising | .busUvloFalling | .overvoltageLockout
  | .overvoltageRelease | .logicSupplyLimit _ | .logicBrownOut | .causewayLost | .causewayResume | .causewayRepeat _ _ | .causewayKeepalive
  | .cwclr _ _ | .pctlWrite _ _ _ | .inrushComplete _ | .portUpset _ _ | .hardSignature _ _ | .portBackoffExpiry _ | .ashload _ _
  | .portClearPermit _ _ | .pashclr _ _ _ | .budgetShed | .budgetRestore | .ceilWrite _ _ | .chargeEvaluation _ | .chargeFull | .converterUpset
  | .switchOver _ | .classShedDelayExpiry _ | .pmaxShed | .finishWindowWarning | .finishWindowExpiry | .storageFloor _ | .busReturn _
  | .restoreStep | .storageRegisterWrite _ _ _ | .tapply _ _ | .llockSet _ _ | .ledgerUpsetRecord _ | .ledgerCopyWrite _ | .lclr _ _
  | .ledgerClear | .lpolWrite _ _ _ _ | .emberTick | .emberClockFail | .emberClockReturn | .rtcFollow _ | .rtcset _ _ | .rtcAlarm
  | .openWakeTime | .tgate _ _ | .tileGateRestart _ | .wpermitWrite _ _ | .targetEvaluation | .idleEntry | .sleepEntry | .entryStop
  | .wakeEvent _ | .dozeExit _ | .bankedExit | .dormantExit | .tileResume _ | .exitToAshedTile _ | .wlclr _ _ | .scrubLine _ _ | .store _ _
  | .restoreDefaults | .autoStore | .parameterStoreLoad _ | .busPowerOnReset | .resetN _ | .tradeWatchdogExpiry | .openWatchdogExpiry
  | .watchdogWarning _ | .wdkick _ _ _ | .watchdogRegisterWrite _ _ _ _ | .tinderRomBoot _ | .recoveryTransfer _ _ | .devrst _ _ | .veclock _ _
  | .svnburn _ _ | .keyrevburn _ _ | .wreset _ _ _ | .treset _ _ | .tstart _ _ _ | .imageVerify | .extest | .samplePreload | .idcode | .clamp
  | .highz | .bypass | .dapaccRead | .dapaccWrite _ | .haltreq _ | .resume _ | .dreset _ | .tokenAppend _ | .tokclr | .nonceRead | .unlock _ _
  | .relock _ _ | .uleftExpiry | .registerWrite _ _ _ _ | .logicRailReturn | .laneLinkUp _ | .dramRefresh _ | .tileResetComplete _ _
  | .svnBurnComplete | .fetCooled _ _ | .trstN => true

end Sys2Proof
end

