-- ==== Sys2Proof/Safety.lean ====
section
/-!
DEFINITION. Safety.lean: what counts as a safe state and a safe step, and the terms the statements use: an access that its gate admits,
the parts of the state, what a command leaves alone.
-/
namespace Sys2Proof.Machine

/-- A state in order: memory is in its canonical form, and every waiting command has operands its surroundings can bring. -/
def State.ok (s : State) : Bool := s.mem.wf && s.pending.all Instr.wellFormed

/-- A step that ends neither in a fault nor in a refusal. -/
def stepsOn (s : State) : Prop := ∃ t, step s = .next t

/-- n steps in a row. -/
def runN : Nat → State → Host.Outcome State Fault Refusal
  | 0, s => .next s
  | n + 1, s =>
    match step s with
    | .next t => runN n t
    | o => o

/-- A write that passes its gate and reaches a block that answers (R100, R101, R462, R492). -/
def State.admits (s : State) (q : Req) (slot off : Nat) : Prop :=
  s.bridgeDown = false ∧ s.gateDecide q slot off true = none ∧ s.unreachable slot = false

/-- The state with an access answered without an error. -/
def State.done (s : State) : State := { s with resp := some (.ok 0) }

/-- The state with the bits of a mask of a register taken from v, its other bits as they were (R8). -/
def State.takeBits (s : State) (slot off : Nat) (m v : Word) : State := s.setReg slot off ((s.reg slot off &&& ~~~ m) ||| (v &&& m))

/-- The request that the record in a local slot of a world's mailbox asks for (Tables 11-7, 11-8). -/
def State.localRecord (s : State) (w : World) (slot : Nat) : DReq :=
  let a := mailboxOf w + 64 * slot
  let len := s.mem.val (a + 8) 2
  let voff := s.mem.val (a + 10) 2
  { src := .mailbox w slot, op := s.localOp w slot, key := s.localKey w slot, tag := s.mem.val (a + 6) 2
    value := if voff = 0 then s.mem.read (a + 16) (min len 48) else s.mem.read (mailboxOf w + voff) (min len 8192) }

/-- The state in which a local request is judged: its STATUS reads 0xFF (Table 11-8). -/
def State.localTaken (s : State) (w : World) (slot : Nat) : State := s.emberWrite (mailboxOf w + 64 * slot + 5) [0xFF]

/-- A local slot holds a sound record, and nothing waits before it (R338). -/
def State.localReady (s : State) (w : World) (slot : Nat) : Prop :=
  let a := mailboxOf w + 64 * slot
  s.isDamaged a 64 = false ∧ ¬ (48 < s.mem.val (a + 8) 2 ∧ s.mem.val (a + 10) 2 = 0) ∧ s.dict.waiting = []

/-- The parts of the state. -/
inductive Part where
  | pending
  | now
  | seq
  | free
  | resp
  | regs
  | mem
  | irq
  | sweep
  | upsets
  | store
  | ptp
  | errCount
  | errRows
  | dict
  | dev
  | out
  | lanes
  | bb
  | tb
  | usb
  | sealEng
  | bus
  | ledger
  | rtc
  | pdc
  | job
  | boot
  | dap
  | tiles
deriving DecidableEq, Repr

/-- Two states agree on a part. -/
def State.agrees (s t : State) : Part → Prop
  | .pending => t.pending = s.pending
  | .now => t.now = s.now
  | .seq => t.seq = s.seq
  | .free => t.free = s.free
  | .resp => t.resp = s.resp
  | .regs => t.regs = s.regs
  | .mem => t.mem = s.mem
  | .irq => t.irq = s.irq
  | .sweep => t.sweep = s.sweep
  | .upsets => t.upsets = s.upsets
  | .store => t.store = s.store
  | .ptp => t.ptp = s.ptp
  | .errCount => t.errCount = s.errCount
  | .errRows => t.errRows = s.errRows
  | .dict => t.dict = s.dict
  | .dev => t.dev = s.dev
  | .out => t.out = s.out
  | .lanes => t.lanes = s.lanes
  | .bb => t.bb = s.bb
  | .tb => t.tb = s.tb
  | .usb => t.usb = s.usb
  | .sealEng => t.sealEng = s.sealEng
  | .bus => t.bus = s.bus
  | .ledger => t.ledger = s.ledger
  | .rtc => t.rtc = s.rtc
  | .pdc => t.pdc = s.pdc
  | .job => t.job = s.job
  | .boot => t.boot = s.boot
  | .dap => t.dap = s.dap
  | .tiles => t.tiles = s.tiles

/-- t differs from s in the named parts at most. -/
def State.onlyIn (s t : State) (ps : List Part) : Prop := ∀ p, p ∉ ps → s.agrees t p

/-- Every register but those named, as slot and offset, reads in t as in s, in either world's copy. -/
def State.regsBut (s t : State) (l : List (Nat × Nat)) : Prop :=
  ∀ w slot off, slot < 0x1000 → off < 0x10000 → (slot, off) ∉ l → t.regW w slot off = s.regW w slot off

/-- Every tile but tile u is in t as in s. -/
def State.tilesBut (s t : State) (u : TileId) : Prop := ∀ x, x ≠ u → t.tile x = s.tile x

/-- Source i is one that a one of v names in word k, and it belongs to world w (R282, R286). -/
def State.named (s : State) (w : World) (k : Nat) (v : Word) (i : Nat) : Bool :=
  decide (i / 32 = k) && v.getLsbD (i % 32) && (s.irqWorld i == w)

end Sys2Proof.Machine
end

