-- ==== Sys2Proof/Certificates/Slice0/Obligations.lean ====
section
/-!
DEFINITION. Certificates/Slice0/Obligations.lean: the statements for the provers. A command whose condition does not hold changes nothing: where the spec
gives such an event no effect at all, that is the model's choice (log 11).
-/
open Sys2Proof Sys2Proof.Machine

/-- A step with a command in front runs it on the state with the queue's rest (the model's own queue, log 1). -/
def Obligations.StepRunsFront : Prop :=  ∀ (c : Instr) (s : State) (rest : List Instr), s.pending = c :: rest → step s = exec c { s with pending := rest }

/-- A step on an empty queue lets one microsecond pass (the model's choice, log 2): a running watchdog counts, and a side that is held,
in retention or off counts nothing. -/
def Obligations.EmptyQueueTicks : Prop := ∀ (s : State), s.pending = [] →
  ∃ t, step s = .next t ∧ t.now = s.now + 1 ∧ t.pending = [] ∧ t.bus = s.bus
    ∧ (s.boot.rst = .held ∨ s.bridgeDown = true → s.onlyIn t [.now, .dict, .rtc])
    ∧ (∀ w : World, s.wdRuns w = true → s.bridgeDown = false → s.boot.tinder ≠ .recovery → s.boot.waitOpen = false →
        vget t.boot.left w.idx 0 = vget s.boot.left w.idx 0 - 1)

/-- Every command completes from every state, leaves the queue alone and keeps memory in its canonical form. -/
def Obligations.CommandsComplete : Prop := ∀ (c : Instr) (s : State),
  ∃ t, exec c s = .next t ∧ t.pending = s.pending ∧ (s.mem.wf = true → t.mem.wf = true)

/-- The machine right after a bus power-on reset (R454, R491, R515, R536, Table 16-8): nothing runs and nothing waits, the reset sequence is due, no tag is set; that
memory outside the ROM reads zero, eMRAM included, is the model's choice (log 5). -/
def Obligations.PowerOnState : Prop :=  let s := State.reset
  s.ok = true ∧ s.pending = [] ∧ s.boot.rst = .running ∧ s.dev.st = .run ∧ s.dev.resets = 0 ∧ s.dev.resetCode = 0
  ∧ (∀ t : TileId, s.tile t = Tile.reset) ∧ (∀ p, p < 16 → s.pst p = 0) ∧ s.bstate = 0
  ∧ s.rtcNs = 0 ∧ s.rtc.trim = 0 ∧ s.rtcValid = false ∧ s.irq.en = 0 ∧ s.irq.pend = 0
  ∧ s.regW .trade 0x02B 0x1004 = 1 ∧ s.regW .opn 0x02B 0x1004 = 1 ∧ s.reg 0x00D 0x1000 = 0x80000000 ∧ s.reg 0x00E 0x1000 = 0
  ∧ s.reg 0x00D 0x1004 = 0x1388 ∧ s.reg 0x00E 0x1004 = 0x1388
  ∧ (∀ a, s.mem.tagAt a = false) ∧ (∀ a, 0x10000 ≤ a → s.mem.byte a = 0)

/-- Every step keeps a state in order: memory in its canonical form, the waiting commands well-formed. -/
def Obligations.StepsKeepOrder : Prop := ∀ (s t : State), s.ok = true → step s = .next t → t.ok = true

/-- As many steps as commands wait empty the queue, from every state in order, and leave the state in order. -/
def Obligations.QueueRunsDry : Prop := ∀ (s : State), s.ok = true → ∃ t, runN s.pending.length s = .next t ∧ t.pending = [] ∧ t.ok = true

/-- The gate's decision (R97, R99 to R101, Table 3-11): the first failing step decides; a refused access is counted, answered with the step's code and reaches
no register. -/
def Obligations.GateDecides : Prop := ∀ (s : State) (q : Req) (sl : BitVec 12) (off : BitVec 16) (v : Word) (write : Bool),
  let slot := sl.toNat
  let g := s.gate0 slot
  let worldOk := bit g (if q.world = .trade then 4 else 3) = true
  let levelOk := q.sup = true ∨ bit g 5 = true
  let colour : Colour := if bit g 2 = true ∧ q.world = .trade then 15 else s.gateColour slot
  let colourOk := colourPasses q.world q.sup q.cmr colour = true
  let mapped := write = false ∧ (fld g 7 6 = 0 ∧ off.toNat < 0x1000 ∨ fld g 7 6 = 1 ∧ off.toNat < 0x1100)
  let code := s.gateDecide q slot off.toNat write
  (slotKind slot = .empty → code = some 0x25)
  ∧ (slotKind slot ≠ .empty → ¬ worldOk → code = some 0x26)
  ∧ (slotKind slot ≠ .empty → worldOk → ¬ levelOk → code = some 0x27)
  ∧ (slotKind slot = .fixed → worldOk → levelOk → code = none)
  ∧ (slotKind slot ≠ .empty → slotKind slot ≠ .fixed → worldOk → levelOk → colourOk → code = none)
  ∧ (slotKind slot ≠ .empty → slotKind slot ≠ .fixed → worldOk → levelOk → ¬ colourOk → q.sup = false → code = some 0x28)
  ∧ (slotKind slot ≠ .empty → slotKind slot ≠ .fixed → worldOk → levelOk → ¬ colourOk → q.sup = true → code = if mapped then none else some 0x29)
  ∧ (∀ e, s.bridgeDown = false → s.gateDecide q slot off.toNat true = some e → ∃ t, exec (.registerWrite q sl off v) s = .next t
      ∧ t.resp = some (.err e) ∧ fld (t.gate1 slot) 15 0 = min (fld (s.gate1 slot) 15 0 + 1) 0xFFFF ∧ fld (t.gate1 slot) 31 28 = fld (s.gate1 slot) 31 28
      ∧ s.regsBut t [(0, 0x1004 + 8 * slot)] ∧ s.onlyIn t [.regs, .resp])
  ∧ (∀ e, s.bridgeDown = false → s.gateDecide q slot off.toNat false = some e → s.busRead q slot off.toNat = (s.countRefused slot, .err e))

/-- The registers that bound what masters reach: Trade DRAM and Open pool ranges (R83), gates (R97, R98), master-side regions (R110), the windows, control
and start of a general DMA channel (R104 to R107). Each clause names who may write. -/
def Obligations.ProtectionWritten : Prop := ∀ (s : State) (q : Req) (k u : BitVec 2) (n : BitVec 12) (r : BitVec 3) (c : BitVec 5) (v : Word),
  let chan := 0x040 + c.toNat
  let cctl := s.reg chan 0x1000
  let mayChannel := bit cctl 29 = false ∨ q.world = .trade ∧ q.sup = true
  (q.world = .trade → q.sup = true →
    (s.admits q 0x001 (0x1100 + 8 * k.toNat) → exec (.tdrOprWrite q (BitVec.ofNat 9 (8 * k.toNat)) v) s = .next (s.takeBits 0x001 (0x1100 + 8 * k.toNat) 0x800FFFFF v).done)
    ∧ (s.admits q 0x001 (0x1104 + 8 * k.toNat) → exec (.tdrOprWrite q (BitVec.ofNat 9 (8 * k.toNat + 4)) v) s = .next (s.takeBits 0x001 (0x1104 + 8 * k.toNat) 0x000FFFFF v).done)
    ∧ (s.admits q 0x001 (0x1200 + 8 * k.toNat) → exec (.tdrOprWrite q (BitVec.ofNat 9 (0x100 + 8 * k.toNat)) v) s = .next (s.takeBits 0x001 (0x1200 + 8 * k.toNat) 0x8FFFFFFF v).done)
    ∧ (s.admits q 0x001 (0x1204 + 8 * k.toNat) → exec (.tdrOprWrite q (BitVec.ofNat 9 (0x104 + 8 * k.toNat)) v) s = .next (s.takeBits 0x001 (0x1204 + 8 * k.toNat) 0x0FFFFFFF v).done))
  ∧ (s.admits q 0 (0x1000 + 8 * n.toNat) → q.sup = true → slotKind n.toNat ≠ .fixed → fld v 7 6 ≠ 3 →
      (q.world = .trade ∨ bit (s.gate0 n.toNat) 8 = false ∧ bit (s.gate0 n.toNat) 2 = false ∧ bit v 8 = false ∧ bit v 2 = false ∧ bit v 4 = false) →
      exec (.gateWrite q n false v) s = .next (s.takeBits 0 (0x1000 + 8 * n.toNat) 0x1FC v).done)
  ∧ (s.admits q 0 (0x1004 + 8 * n.toNat) → q.sup = true → slotKind n.toNat ≠ .fixed →
      (q.world = .trade ∨ bit (s.gate0 n.toNat) 8 = false ∧ bit (s.gate0 n.toNat) 2 = false ∧ fld v 31 28 ≠ 15) →
      exec (.gateWrite q n true v) s = .next (s.setReg 0 (0x1004 + 8 * n.toNat)
        (setFld (s.gate1 n.toNat) 31 28 (fld v 31 28) &&& ~~~ (v &&& 0xFFFF))).done)
  ∧ (q.world = .trade → q.sup = true →
    (s.admits q (2 + u.toNat) (0x1000 + 16 * r.toNat) → (s.takeBits (2 + u.toNat) (0x1000 + 16 * r.toNat) 0x0FFFFFFF v).regionsClash u.toNat = false →
      exec (.masterRegionWrite q u r 0 v) s = .next (s.takeBits (2 + u.toNat) (0x1000 + 16 * r.toNat) 0x0FFFFFFF v).done)
    ∧ (s.admits q (2 + u.toNat) (0x1004 + 16 * r.toNat) → (s.takeBits (2 + u.toNat) (0x1004 + 16 * r.toNat) 0x0FFFFFFF v).regionsClash u.toNat = false →
      exec (.masterRegionWrite q u r 1 v) s = .next (s.takeBits (2 + u.toNat) (0x1004 + 16 * r.toNat) 0x0FFFFFFF v).done)
    ∧ (s.admits q (2 + u.toNat) (0x1008 + 16 * r.toNat) → (s.takeBits (2 + u.toNat) (0x1008 + 16 * r.toNat) 0xFFFF0007 v).regionsClash u.toNat = false →
      exec (.masterRegionWrite q u r 2 v) s = .next (s.takeBits (2 + u.toNat) (0x1008 + 16 * r.toNat) 0xFFFF0007 v).done))
  ∧ (mayChannel → bit (s.reg chan 0x1014) 31 = false → q.sup = true →
    (s.admits q chan 0x1020 → q.cmr.getLsbD (fld (s.reg chan 0x1024) 31 28) = true → exec (.dmaWindowWrite q c 0 v) s = .next (s.takeBits chan 0x1020 0x800FFFFF v).done)
    ∧ (s.admits q chan 0x1024 → q.cmr.getLsbD (fld v 31 28) = true → exec (.dmaWindowWrite q c 1 v) s = .next (s.takeBits chan 0x1024 0xF00FFFFF v).done)
    ∧ (s.admits q chan 0x1028 → q.cmr.getLsbD (fld (s.reg chan 0x102C) 31 28) = true → exec (.dmaWindowWrite q c 2 v) s = .next (s.takeBits chan 0x1028 0x800FFFFF v).done)
    ∧ (s.admits q chan 0x102C → q.cmr.getLsbD (fld v 31 28) = true → exec (.dmaWindowWrite q c 3 v) s = .next (s.takeBits chan 0x102C 0xF00FFFFF v).done))
  ∧ (s.admits q chan 0x1000 → mayChannel → (bit (s.reg chan 0x1014) 31 = true → fld v 25 24 = fld cctl 25 24) →
      exec (.cctlWrite q c v) s = .next (s.setReg chan 0x1000 ((v &&& 0x93000000) ||| (if bit v 31 = true then 0 else cctl &&& 0x40FF0000)
        ||| (if q.world = .trade then 0x20000000 else 0) ||| ((v.setWidth 16 &&& q.cmr).setWidth 32))).done)
  ∧ (s.admits q chan 0x1018 → mayChannel → bit cctl 31 = true → bit cctl 25 = false → bit (s.reg chan 0x1014) 31 = false →
      fld (s.reg chan 0x100C) 23 0 ≠ 0 → fld (s.reg chan 0x100C) 23 0 % 16 = 0 →
      exec (.cgo q c v) s = .next (s.modReg chan 0x1014 (fun w => setFld (setBit w 31 true) 23 0 (fld (s.reg chan 0x100C) 23 0))).done)

/-- A recolour that R84 permits: every granule of the range that carries OLD takes NEW, no other granule changes, CHANGED and SKIPPED count them,
and no tile's cache keeps a line of the range (R84, R85). -/
def Obligations.RecolourDone : Prop := ∀ (s : State) (q : Req) (v : Word),
  let base := (s.reg 0x001 0x1000).toNat * 16
  let count := (s.reg 0x001 0x1004).toNat
  let old : Colour := BitVec.ofNat 4 (fld (s.reg 0x001 0x1008) 3 0)
  let new : Colour := BitVec.ofNat 4 (fld (s.reg 0x001 0x100C) 3 0)
  let g := (s.granuleSize base).getD 256
  let n := ((List.range count).filter (fun i => s.mem.colourOf (base + i * g) == old)).length
  s.admits q 0x001 0x1010 → s.recolourOk q base count old new = true →
  ∃ t, exec (.rcGo q v) s = .next t ∧ t.resp = some (.ok 0) ∧ s.onlyIn t [.mem, .regs, .tiles, .resp]
    ∧ s.regsBut t [(0x001, 0x1014), (0x001, 0x1018)] ∧ t.mem.bytes = s.mem.bytes ∧ t.mem.tags = s.mem.tags ∧ t.mem.damaged = s.mem.damaged
    ∧ (∀ i, i < count → t.mem.colourOf (base + i * g) = if s.mem.colourOf (base + i * g) = old then new else s.mem.colourOf (base + i * g))
    ∧ (∀ a, (∀ i, i < count → a ≠ base + i * g) → t.mem.colourOf a = s.mem.colourOf a)
    ∧ t.reg 0x001 0x1014 = BitVec.ofNat 32 n ∧ t.reg 0x001 0x1018 = BitVec.ofNat 32 (count - n)
    ∧ ∀ u, ∀ l ∈ (t.tile u).caches.ic ++ (t.tile u).caches.dc, ¬ (base ≤ l.2.pa ∧ l.2.pa < base + count * g)

/-- The sweep engine is programmed, started and aborted (R86, R91, R93): a range is its enabled world's, an area its writer's; START filters what the tiles and
the isle descriptors hold, clears K and COUNT, fixes N and runs; ABORT ends at the end of the current step, between steps at once. -/
def Obligations.SweepCommanded : Prop := ∀ (s : State) (q : Req) (off : BitVec 16) (k j : BitVec 2) (a : BitVec 4) (v : Word),
  let old := s.reg 0x021 (0x100C + 16 * k.toNat)
  let rmask : Word := if j = 3 then 0xC000000F else 0xFFFFFFFF
  let amask : Word := if j = 2 then 0x8000FFFF else 0xFFFFFFFF
  (s.admits q 0x021 (0x1000 + 16 * k.toNat + 4 * j.toNat) → off.toNat = 0x1000 + 16 * k.toNat + 4 * j.toNat → s.sweepState ≠ 1 →
      (bit old 31 = true → bit old 30 = q.world.bit) → (j = 3 → bit v 30 = q.world.bit) →
      exec (.sweepProgramWrite q off v) s = .next (s.takeBits 0x021 off.toNat rmask v).done)
  ∧ (s.admits q 0x021 (0x1100 + 16 * a.toNat + 4 * j.toNat) → off.toNat = 0x1100 + 16 * a.toNat + 4 * j.toNat → j ≠ 3 → s.sweepState ≠ 1 →
      s.areaRefused q (s.sweepArea a.toNat) = false →
      (s.takeBits 0x021 off.toNat amask v).areaRefused q ((s.takeBits 0x021 off.toNat amask v).sweepArea a.toNat) = false →
      exec (.sweepProgramWrite q off v) s = .next (s.takeBits 0x021 off.toNat amask v).done)
  ∧ (s.admits q 0x021 0x1204 → 4 ≤ fld v 15 0 → fld v 15 0 ≤ 1024 →
      exec (.sweepProgramWrite q 0x1204 v) s = .next (s.takeBits 0x021 0x1204 0xFFFFFFFF v).done)
  ∧ (s.admits q 0x021 0x1200 → s.sweepState ≠ 1 → ((List.range 16).map s.sweepArea).any s.areaTagless = false →
      ∃ t, exec (.sweepStart q) s = .next t ∧ t.resp = some (.ok 0) ∧ s.onlyIn t [.regs, .sweep, .tiles, .store, .resp]
        ∧ s.regsBut t [(0x021, 0x1208), (0x021, 0x120C), (0x021, 0x1210), (0x021, 0x1214)] ∧ t.reg 0x021 0x1208 = 1 ∧ t.reg 0x021 0x120C = 0
        ∧ t.reg 0x021 0x1214 = 0 ∧ t.reg 0x021 0x1210 = BitVec.ofNat 32 ((((List.range 16).map s.sweepArea).map s.areaSteps).sum)
        ∧ t.sweep = { Sweep.reset with world := q.world } ∧ (∀ u, t.tile u = s.sweepTile (s.tile u))
        ∧ t.store = { s.store with isles := s.store.isles.map (fun p => (p.1, { p.2 with root := if s.condemned p.2.mask p.2.root = true then p.2.root.untag else p.2.root })) })
  ∧ (s.admits q 0x021 0x1200 → s.sweepState = 1 → (s.sweep.pause.isSome = true ∨ s.reg 0x021 0x120C = s.reg 0x021 0x1210) →
      ∃ t, exec (.sweepAbort q) s = .next t ∧ t.resp = some (.ok 0) ∧ s.onlyIn t [.regs, .sweep, .irq, .resp] ∧ s.regsBut t [(0x021, 0x1208)]
        ∧ t.reg 0x021 0x1208 = 7 ∧ t.sweep = { s.sweep with abort := false, pause := none }
        ∧ t.irq = (s.raise (if s.sweep.world = .trade then 48 else 49)).irq)
  ∧ (s.admits q 0x021 0x1200 → s.sweepState = 1 → s.sweep.pause = none → s.reg 0x021 0x120C ≠ s.reg 0x021 0x1210 →
      exec (.sweepAbort q) s = .next (s.modSweep (fun e => { e with abort := true })).done)

/-- The sweep engine goes on (R91, R93, R94): a step's lines are done one after another, K rises and the pause begins; the walk of the context store filters a
context in no bank against its own mask; the last step and the last slot end the sweep, and the ranges swept are no longer enabled.
The sweep's work on one line (R87, R89): of the eight doublewords only the tags it clears change, and COUNT rises by their number. -/
def Obligations.SweepAdvances : Prop :=
  (∀ (s : State),
  (∀ a lo, s.sweepState = 1 → s.sweep.pause = none → s.sweepLocate (s.reg 0x021 0x120C).toNat (List.range 16) = some (a, lo) →
      (s.sweepLines a (s.stepBytes / 64) lo).2 = 0 → s.sweep.abort = false →
      ∃ t, exec .sweepStepEnd s = .next t ∧ t.reg 0x021 0x120C = BitVec.ofNat 32 ((s.reg 0x021 0x120C).toNat + 1)
        ∧ t.mem = (s.sweepLines a (s.stepBytes / 64) lo).1.mem
        ∧ t.sweep.pause = (if fld (s.reg 0x021 0x1204) 31 16 = 0 then none else some (s.now + fld (s.reg 0x021 0x1204) 31 16)))
  ∧ (∀ e, s.sweep.pause = some e → e ≤ s.now → exec .sweepPauseExpiry s = .next (s.modSweep (fun y => { y with pause := none })))
  ∧ (s.sweepState = 1 → s.sweep.slot < 4096 → (∀ t b, s.dir (BitVec.ofNat 12 s.sweep.slot) ≠ .resident t b) →
      (∀ t b, s.dir (BitVec.ofNat 12 s.sweep.slot) ≠ .running t b) →
      exec .fillEngineSlotTest s = .next ((s.modSweep (fun e => { e with slot := s.sweep.slot + 1 })).modCtx (BitVec.ofNat 12 s.sweep.slot)
        (fun x => x.mapCaps (fun c => if s.condemned x.cmr c = true then c.untag else c))))
  ∧ (∀ t b, s.sweepState = 1 → s.sweep.slot < 4096 → (s.dir (BitVec.ofNat 12 s.sweep.slot) = .resident t b ∨ s.dir (BitVec.ofNat 12 s.sweep.slot) = .running t b) →
      exec .fillEngineSlotTest s = .next (s.modSweep (fun e => { e with slot := s.sweep.slot + 1 })))
  ∧ (s.sweepState = 1 → s.sweep.pause = none → s.reg 0x021 0x120C = s.reg 0x021 0x1210 → 4096 ≤ s.sweep.slot →
      ∃ t, exec .sweepDone s = .next t ∧ s.onlyIn t [.regs, .sweep, .irq]
        ∧ s.regsBut t [(0x021, 0x1208), (0x021, 0x100C), (0x021, 0x101C), (0x021, 0x102C), (0x021, 0x103C)] ∧ t.reg 0x021 0x1208 = 2
        ∧ (∀ k : BitVec 2, t.reg 0x021 (0x100C + 16 * k.toNat) = setBit (s.reg 0x021 (0x100C + 16 * k.toNat)) 31 false)
        ∧ t.irq = (s.raise (if s.sweep.world = .trade then 48 else 49)).irq))
  ∧ (∀ (s : State) (a : SweepArea) (pa : Nat), pa % 64 = 0 →
  let gone (p : Nat) : Bool := decide (pa ≤ p / 8 * 8) && decide (p / 8 * 8 < pa + 64) && s.mem.tagAt p && s.sweepClears a (p / 8 * 8)
  let t := s.sweepLine a pa
  (∀ p, t.mem.tagAt p = (s.mem.tagAt p && !gone p)) ∧ (∀ p, t.mem.byte p = s.mem.byte p)
    ∧ t.reg 0x021 0x1214 = s.reg 0x021 0x1214 + BitVec.ofNat 32 (((List.range 8).filter (fun i => gone (pa + 8 * i))).length)
    ∧ s.onlyIn t [.mem, .regs] ∧ s.regsBut t [(0x021, 0x1214)])

/-- The DVFS points (R150, R151): a write of POINT or FLOOR in a settled tile asks for the higher of the two; upwards the voltage rises first, downwards
the clock switches first; BUSY is 1 until the change ends. -/
def Obligations.PointChanged : Prop := ∀ (s : State) (q : Req) (t : TileId) (v : Word),
  let slot := tileSlot t
  let a := s.dvfsActive t
  let toward (g : Nat) : Dvfs := if g = a then .steady else if a < g then .rampUp (BitVec.ofNat 2 g) else .switching (BitVec.ofNat 2 g)
  (s.admits q slot 0x1000 → (s.tile t).sys.dvfs = .steady →
    let g := max (fld v 1 0) (fld (s.reg slot 0x1004) 1 0)
    ∃ r, exec (.tdvfsWrite q t v) s = .next r ∧ r.resp = some (.ok 0) ∧ s.onlyIn r [.regs, .tiles, .resp] ∧ s.regsBut r [(slot, 0x1000)]
      ∧ s.tilesBut r t ∧ fld (r.reg slot 0x1000) 1 0 = fld v 1 0 ∧ r.dvfsActive t = a ∧ bit (r.reg slot 0x1000) 7 = (g != a)
      ∧ (r.tile t).sys.dvfs = toward g)
  ∧ (s.admits q slot 0x1004 → q.world = .trade → q.sup = true → (s.tile t).sys.dvfs = .steady →
    let g := max (fld (s.reg slot 0x1000) 1 0) (fld v 1 0)
    ∃ r, exec (.tfloorWrite q t v) s = .next r ∧ r.resp = some (.ok 0) ∧ s.onlyIn r [.regs, .tiles, .resp]
      ∧ s.regsBut r [(slot, 0x1000), (slot, 0x1004)] ∧ s.tilesBut r t ∧ r.reg slot 0x1004 = v &&& 3 ∧ r.dvfsActive t = a
      ∧ bit (r.reg slot 0x1000) 7 = (g != a) ∧ (r.tile t).sys.dvfs = toward g)
  ∧ (∀ p, (s.tile t).sys.dvfs = .switching p → s.dvfsTarget t = p.toNat →
    ∃ r, exec (.dvfsClockSwitchEnd t) s = .next r ∧ s.onlyIn r [.regs, .tiles] ∧ s.regsBut r [(slot, 0x1000)] ∧ s.tilesBut r t
      ∧ r.dvfsActive t = p.toNat ∧ bit (r.reg slot 0x1000) 7 = decide (p.toNat < a)
      ∧ (r.tile t).sys.dvfs = if p.toNat < a then .rampDown else .steady)
  ∧ (∀ p, (s.tile t).sys.dvfs = .rampUp p → s.dvfsTarget t = p.toNat → a < p.toNat →
    ∃ r, exec (.dvfsRampEnd t) s = .next r ∧ s.onlyIn r [.regs, .tiles] ∧ s.regsBut r [(slot, 0x1000)] ∧ s.tilesBut r t
      ∧ r.dvfsActive t = a ∧ bit (r.reg slot 0x1000) 7 = true ∧ (r.tile t).sys.dvfs = .switching p)
  ∧ ((s.tile t).sys.dvfs = .rampDown → s.dvfsTarget t = a →
    ∃ r, exec (.dvfsRampEnd t) s = .next r ∧ s.onlyIn r [.regs, .tiles] ∧ s.regsBut r [(slot, 0x1000)] ∧ s.tilesBut r t
      ∧ r.dvfsActive t = a ∧ bit (r.reg slot 0x1000) 7 = false ∧ (r.tile t).sys.dvfs = .steady)

/-- The words of pending, enable and overrun state (R286, R304): a one names a source; only sources of the writer's own world answer to it, and
IPSET only where the source exists. -/
def Obligations.InterruptWordsWritten : Prop := ∀ (s : State) (q : Req) (k : BitVec 4) (v : Word),
  (s.admits q 0x009 (0x1000 + 4 * k.toNat) → ∃ t, exec (.ipset q k v) s = .next t ∧ t.resp = some (.ok 0) ∧ s.onlyIn t [.irq, .resp]
    ∧ t.irq.en = s.irq.en ∧ t.irq.ovr = s.irq.ovr ∧ t.irq.line = s.irq.line
    ∧ ∀ i, i < 512 → t.irq.pend.getLsbD i = (s.irq.pend.getLsbD i || (s.named q.world k.toNat v i && irqPresent i)))
  ∧ (s.admits q 0x009 (0x1100 + 4 * k.toNat) → ∃ t, exec (.ipclr q k v) s = .next t ∧ t.resp = some (.ok 0) ∧ s.onlyIn t [.irq, .resp]
    ∧ t.irq.en = s.irq.en ∧ t.irq.ovr = s.irq.ovr ∧ t.irq.line = s.irq.line
    ∧ ∀ i, i < 512 → t.irq.pend.getLsbD i = (s.irq.pend.getLsbD i && !s.named q.world k.toNat v i))
  ∧ (s.admits q 0x009 (0x1200 + 4 * k.toNat) → ∃ t, exec (.ieset q k v) s = .next t ∧ t.resp = some (.ok 0) ∧ s.onlyIn t [.irq, .resp]
    ∧ t.irq.pend = s.irq.pend ∧ t.irq.ovr = s.irq.ovr ∧ t.irq.line = s.irq.line
    ∧ ∀ i, i < 512 → t.irq.en.getLsbD i = (s.irq.en.getLsbD i || s.named q.world k.toNat v i))
  ∧ (s.admits q 0x009 (0x1300 + 4 * k.toNat) → ∃ t, exec (.ieclr q k v) s = .next t ∧ t.resp = some (.ok 0) ∧ s.onlyIn t [.irq, .resp]
    ∧ t.irq.pend = s.irq.pend ∧ t.irq.ovr = s.irq.ovr ∧ t.irq.line = s.irq.line
    ∧ ∀ i, i < 512 → t.irq.en.getLsbD i = (s.irq.en.getLsbD i && !s.named q.world k.toNat v i))
  ∧ (s.admits q 0x009 (0x1400 + 4 * k.toNat) → ∃ t, exec (.iovrClear q k v) s = .next t ∧ t.resp = some (.ok 0) ∧ s.onlyIn t [.irq, .resp]
    ∧ t.irq.pend = s.irq.pend ∧ t.irq.en = s.irq.en ∧ t.irq.line = s.irq.line
    ∧ ∀ i, i < 512 → t.irq.ovr.getLsbD i = (s.irq.ovr.getLsbD i && !s.named q.world k.toNat v i))

/-- A write that its writer may make of a source's configuration takes WAKE, WORLD, SENSE, LEVEL and TILE; a change of WORLD clears pending,
enable and overrun, a change of SENSE pending and overrun (R282, R283). The word is mirrored for the wake logic (R500).
What an edge at a source's line does (R284): the line takes its level; an edge that SENSE selects makes the source pending, or sets its
overrun where it is pending already. -/
def Obligations.SourceConfigured : Prop :=
  (∀ (s : State) (q : Req) (n : BitVec 9) (v : Word),
  s.admits q 0x008 (0x1000 + 4 * n.toNat) → irqPresent n.toNat = true →
  (s.irqWorld n.toNat = q.world ∧ World.ofBit (bit v 18) = q.world ∨ irqFixed n.toNat = false ∧ q.world = .trade ∧ q.sup = true
    ∧ (s.irqWorld n.toNat = .trade ∨ World.ofBit (bit v 18) = .trade)) →
  ∃ t, exec (.scfgWrite q n v) s = .next t ∧ t.resp = some (.ok 0) ∧ s.onlyIn t [.irq, .regs, .pdc, .resp]
    ∧ s.regsBut t [(0x008, 0x1000 + 4 * n.toNat)] ∧ t.scfg n.toNat = v &&& 0x000F0F0F ∧ t.mirror n.toNat = v &&& 0x000F0F0F
    ∧ t.irq.line = s.irq.line ∧ ∀ i, i < 512 →
      t.irq.en.getLsbD i = (s.irq.en.getLsbD i && (i != n.toNat || bit v 18 == bit (s.scfg i) 18))
      ∧ t.irq.pend.getLsbD i = (s.irq.pend.getLsbD i && (i != n.toNat || (bit v 18 == bit (s.scfg i) 18 && fld v 17 16 == s.irqSense i)))
      ∧ t.irq.ovr.getLsbD i = (s.irq.ovr.getLsbD i && (i != n.toNat || (bit v 18 == bit (s.scfg i) 18 && fld v 17 16 == s.irqSense i))))
  ∧ (∀ (s : State) (n : BitVec 9) (level : Bool),
  s.irq.line.getLsbD n.toNat ≠ level → ∃ t, exec (.irqLineEdge n level) s = .next t ∧ s.onlyIn t [.irq] ∧ t.irq.en = s.irq.en
    ∧ ∀ i, i < 512 →
      let chosen := i == n.toNat && ((level && (s.irqSense i == 1 || s.irqSense i == 3)) || (!level && (s.irqSense i == 2 || s.irqSense i == 3)))
      t.irq.line.getLsbD i = (if i = n.toNat then level else s.irq.line.getLsbD i)
      ∧ t.irq.pend.getLsbD i = (s.irq.pend.getLsbD i || chosen)
      ∧ t.irq.ovr.getLsbD i = (s.irq.ovr.getLsbD i || (chosen && s.irq.pend.getLsbD i)))

/-- Delivery holds and timers (R303, R305). -/
def Obligations.HoldsAndTimers : Prop := ∀ (s : State) (q : Req) (k : BitVec 5) (v : Word),
  (s.admits q 0x00A 0x1004 → exec (.iholdset q v) s = .next (s.setRegW q.world 0x00A 0x1000 (s.ihold q.world ||| (v &&& 0xFFFF))).done)
  ∧ (s.admits q 0x00A 0x1008 → exec (.iholdclr q v) s = .next (s.setRegW q.world 0x00A 0x1000 (s.ihold q.world &&& ~~~ (v &&& 0xFFFF))).done)
  ∧ (s.admits q 0x00C (0x1000 + 16 * k.toNat) → bit v 31 = true → s.reg 0x00C (0x1004 + 16 * k.toNat) ≠ 0 →
      bit (s.reg 0x00C (0x1000 + 16 * k.toNat)) 31 = false → exec (.timerEnable q k v) s = .next
        ((s.setReg 0x00C (0x1000 + 16 * k.toNat) (setBit (v &&& 0xC0000000) 29 q.world.bit)).setReg 0x00C (0x1008 + 16 * k.toNat)
          (s.reg 0x00C (0x1004 + 16 * k.toNat))).done)
  ∧ (s.admits q 0x00C (0x1004 + 16 * k.toNat) → v ≠ 0 →
      (bit (s.reg 0x00C (0x1000 + 16 * k.toNat)) 31 = false ∨ World.ofBit (bit (s.reg 0x00C (0x1000 + 16 * k.toNat)) 29) = q.world) →
      exec (.tloadWrite q k v) s = .next (s.setReg 0x00C (0x1004 + 16 * k.toNat) v).done)
  ∧ (bit (s.reg 0x00C (0x1000 + 16 * k.toNat)) 31 = true → s.reg 0x00C (0x1008 + 16 * k.toNat) = 0 →
      exec (.timerExpiry k) s = .next (if bit (s.reg 0x00C (0x1000 + 16 * k.toNat)) 30 = true
        then (s.raise k.toNat).setReg 0x00C (0x1008 + 16 * k.toNat) (s.reg 0x00C (0x1004 + 16 * k.toNat))
        else (s.raise k.toNat).setReg 0x00C (0x1000 + 16 * k.toNat) (setBit (s.reg 0x00C (0x1000 + 16 * k.toNat)) 31 false)))

/-- A target timeout (R19, R30 to R32): MSTIMEOUT counts it, MSTOTARGET names the target, MSEVENT bit 2 rises, and the requester meets the error it takes for
a failed access.
What a refused access does to its master (R105, R107, R419): a general DMA channel is STOPPED with the cause, its transfer ends and its error source is
raised; a queue is STOPPED with the cause. -/
def Obligations.MasterErrorsTaken : Prop :=
  (∀ (s : State) (g : Target) (bank : BitVec 5),
  let s1 := ((s.modReg 0x022 0x100C (· + 1)).setReg 0x022 0x1010
    (BitVec.ofNat 32 (targetCode g + (if g = .sram then bank.toNat * 256 else 0)))).event 0x022 0x1000 50 4
  (exec (.targetTimeout .engine g bank) s = .next s1) ∧ (exec (.targetTimeout .ledger g bank) s = .next s1)
  ∧ (∃ t, exec (.targetTimeout .dap g bank) s = .next t ∧ t.dap.status = 2 ∧ s1.onlyIn t [.dap])
  ∧ (∀ c : BitVec 5, bit (s.reg (0x040 + c.toNat) 0x1014) 31 = true → exec (.targetTimeout (.dma c) g bank) s = .next (s1.chanStop c.toNat 0x75))
  ∧ (∀ (p : BitVec 4) (k : BitVec 3) (tx : Bool),
      exec (.targetTimeout (.lane p k tx) g bank) s = .next (s1.qStop (laneQ p.toNat k.toNat tx) (some (132 + 8 * p.toNat)) 0x75))
  ∧ (∀ n : BitVec 4, exec (.targetTimeout (.backbone n) g bank) s = .next (s1.qStop (hostQ n.toNat) none 0x75))
  ∧ (∀ (u : BitVec 1) (e : BitVec 5), exec (.targetTimeout (.usb u e) g bank) s = .next (s1.qStop (usbQ u.toNat e.toNat) none 0x75))
  ∧ (fld (s.reg 0x021 0x1208) 1 0 = 1 → exec (.targetTimeout .sweep g bank) s = .next (s1.sweepEnd 3 4))
  ∧ (∀ j rest, s.sealEng.jobs = j :: rest →
      exec (.targetTimeout .seal g bank) s = .next (((s1.modSeal (fun e => { e with jobs := rest })).raise 45).jobEnd j 0 4 0))
  ∧ (∀ (t : TileId) (a : PerAcc), (s.tile t).flow.freeze = .access a → (s1.place a.pa).target = some g →
      exec (.targetTimeout (.tile t) g bank) s = .next (s1.setTile t ((s.tile t).squash ⟨0x75, a.ea⟩)))
  ∧ (∀ (t : TileId) (e : WbEnt), (s.tile t).flow.freeze = .none →
      (s.tile t).caches.wbuf.find? (fun e => e.sent && ((s1.place e.line).target == some g)) = some e →
      exec (.targetTimeout (.tile t) g bank) s = .next ((s1.dropEntry t e.seq).mcPost t 0x71 e.line)))
  ∧ (∀ (s : State) (code : Code),
  (∀ c : BitVec 5, let t := s.chanStop c.toNat code
    bit (t.reg (0x040 + c.toNat) 0x1000) 30 = true ∧ fld (t.reg (0x040 + c.toNat) 0x1000) 23 16 = code.toNat ∧ bit (t.reg (0x040 + c.toNat) 0x1014) 31 = false
      ∧ t.irq = (s.raise (65 + 2 * c.toNat)).irq ∧ s.onlyIn t [.regs, .irq, .free] ∧ s.regsBut t [(0x040 + c.toNat, 0x1000), (0x040 + c.toNat, 0x1014)])
  ∧ (∀ (q : QRef) (i : Nat), q.slot < 0x1000 → q.off < 0x10000 → let t := s.qStop q (some i) code
    bit (t.reg q.slot q.off) 30 = true ∧ fld (t.reg q.slot q.off) 23 16 = code.toNat ∧ s.onlyIn t [.regs, .irq, .free] ∧ s.regsBut t [(q.slot, q.off)]))

/-- The memories' own events: a drained write, a line programmed, the DRAM's temperature, zeroing and refresh, the response to a write-back (R17, R18, R20,
R32, R144, R514, R568). -/
def Obligations.MemoryEventsTaken : Prop := ∀ (s : State) (t : TileId),
  (∀ e : WbEnt, (s.tile t).caches.wbuf.find? (fun e => !e.sent && !(s.tile t).caches.wbuf.any (fun f => f.sent && f.ember == e.ember)) = some e → e.ember = true →
      ∃ r, exec (.writeBufferDrain t) s = .next r ∧ s.tilesBut r t ∧
        r.mem = ((s.modTile t (·.modCaches (fun c => { c with wbuf := c.wbuf.map (fun f => if f.seq = e.seq then { f with sent := true } else f) }))).mergeEntry t e).mem
        ∧ (r.tile t).caches.wbuf = (s.tile t).caches.wbuf.map (fun f => if f.seq = e.seq then { f with sent := true } else f))
  ∧ (∀ e : WbEnt, (s.tile t).caches.wbuf.find? (fun e => !e.sent && !(s.tile t).caches.wbuf.any (fun f => f.sent && f.ember == e.ember)) = some e → e.ember = false →
      s.inJournal e.line = false → s.inLedger e.line = false → vget s.mem.progs (emBank e.line) none = none →
      ∃ r, exec (.writeBufferDrain t) s = .next r
        ∧ vget r.mem.progs (emBank e.line) none = some { line := e.line, mask := e.mask, who := .tile t, old := s.mem.read e.line 64 }
        ∧ (r.tile t).caches.wbuf = (s.tile t).caches.wbuf.map (fun f => if f.seq = e.seq then { f with sent := true } else f))
  ∧ (∀ (bank : BitVec 2) (ok1 ok2 : Bool) (p : Prog), vget s.mem.progs bank.toNat none = some p →
      (∀ u, ∀ e ∈ (s.tile u).caches.wbuf, e.sent = true → e.ember = true ∨ emBank e.line ≠ bank.toNat ∨ (p.who = .tile u ∧ e.line = p.line)) →
      ∃ r, exec (.emramLineProgrammed bank ok1 ok2) s = .next r ∧ vget r.mem.progs bank.toNat none = none
        ∧ r.reg 0x024 0x100C = s.reg 0x024 0x100C + (if ok1 = true then 1 else 2)
        ∧ r.reg 0x024 0x1010 = s.reg 0x024 0x1010 + (if ok1 = true then 0 else 1)
        ∧ (∀ u, p.who = .tile u → (r.tile u).caches.wbuf = (s.tile u).caches.wbuf.filter (fun e => !(e.sent && e.line == p.line)))
        ∧ (p.who = .seal → r.sealEng.busy = false)
        ∧ (ok1 = true ∨ ok2 = true → r.mem.bytes = s.mem.bytes ∧ r.reg 0x024 0x1004 = s.reg 0x024 0x1004)
        ∧ (ok1 = false → ok2 = false → r.reg 0x024 0x1008 = paWord p.line ∧ r.reg 0x024 0x1004 = s.reg 0x024 0x1004 ||| 1
            ∧ r.upsets = s.upsets ++ [.upset { cls := 9, num := 0, kind := none, pa := p.line / 4096 * 4096, hard := true }]))
  ∧ (∀ (rate : BitVec 3) (temp : BitVec 8),
      let s1 := s.setReg 0x023 0x1000 (setFld (setFld (s.reg 0x023 0x1000) 23 16 temp.toNat) 2 0 rate.toNat)
      exec (.dramRefreshRateChange rate temp) s
        = .next (if 85 < temp.toInt ∧ (BitVec.ofNat 8 (fld (s.reg 0x023 0x1000) 23 16)).toInt ≤ 85 then s1.event 0x023 0x1004 51 4 else s1))
  ∧ (bit (s.reg 0x023 0x1000) 30 = true → 1 < (s.reg 0x023 0x1014).toNat →
      exec .dramBackgroundZeroing s = .next (s.setReg 0x023 0x1014 (s.reg 0x023 0x1014 - 1)))
  ∧ (bit (s.reg 0x023 0x1000) 30 = true → (s.reg 0x023 0x1014).toNat ≤ 1 →
      exec .dramBackgroundZeroing s
        = .next (((s.setReg 0x023 0x1014 0).setReg 0x023 0x1000 (setBit (s.reg 0x023 0x1000) 30 false)).event 0x023 0x1004 51 8))
  ∧ (∀ (line : Nat) (err : Bool), (s.tile t).caches.wbacks.contains line = true →
      ∃ r, exec (.writeBackResponse t line err) s = .next r ∧ s.onlyIn r [.tiles] ∧ s.tilesBut r t
        ∧ (r.tile t).caches = { (s.tile t).caches with wbacks := (s.tile t).caches.wbacks.erase line }
        ∧ (r.tile t).flow.mcs = (s.tile t).flow.mcs ++ (if err = true then [⟨0x71, paWord (line / 64 * 64)⟩] else []))
  ∧ (∀ (line : Nat) (err : Bool) (e : WbEnt), (s.tile t).caches.wbacks.contains line = false →
      (s.tile t).caches.wbuf.find? (fun e => e.line == line && s.entryReady e) = some e →
      ∃ r, exec (.writeBackResponse t line err) s = .next r ∧ s.onlyIn r [.tiles] ∧ s.tilesBut r t
        ∧ (r.tile t).caches = { (s.tile t).caches with wbuf := (s.tile t).caches.wbuf.filter (fun f => f.seq != e.seq) }
        ∧ (r.tile t).flow.mcs = (s.tile t).flow.mcs ++ (if err = true then [⟨0x71, paWord (line / 64 * 64)⟩] else []))
  ∧ (∀ k : BitVec 4, exec (.dramRefresh k) s = .next { s with mem := { s.mem with rows := Sparse.erase k.toNat s.mem.rows } })

/-- Translation commanded (R306, R310, R311, R322, R323, R326): a block register's word is the writer's world's own copy; XBASE and XCTL empty the tile's
structures; TLBI takes the range's entries out of every tile and counts itself; a walk fills the micro-TLB or faults the bundle that waits. -/
def Obligations.TranslationCommanded : Prop := ∀ (s : State) (q : Req) (t : TileId) (k : BitVec 3) (j : BitVec 2) (v : Word),
  let slot := tileSlot t
  let mask : Word := if j = 0 ∨ j = 1 then 0xFFFF0000 else if j = 2 then 0x000FFFFF else 0x80000F7C
  let off := 0x1100 + 16 * k.toNat + 4 * j.toNat
  (s.admits q slot off → exec (.blockRegisterWrite q t k j v) s
      = .next (s.setRegW q.world slot off ((s.regW q.world slot off &&& ~~~ mask) ||| (v &&& mask))).done)
  ∧ (s.admits q slot 0x1184 → ∃ r, exec (.xbaseXctlWrite q t true v) s = .next r ∧ r.resp = some (.ok 0) ∧ s.onlyIn r [.regs, .tiles, .resp]
      ∧ s.regsBut r [(slot, 0x1184)] ∧ s.tilesBut r t ∧ fld (r.regW q.world slot 0x1184) 24 0 = fld v 24 0
      ∧ r.tile t = { s.tile t with tlbs := { (s.tile t).tlbs with iu := [], du := [], l2 := [], wc := [] } })
  ∧ (s.admits q slot 0x1180 → q.world = .opn → ∃ r, exec (.xbaseXctlWrite q t false v) s = .next r ∧ r.resp = some (.ok 0) ∧ s.onlyIn r [.regs, .tiles, .resp]
      ∧ s.regsBut r [(slot, 0x1180)] ∧ s.tilesBut r t ∧ bit (r.regW .opn slot 0x1180) 31 = bit v 31
      ∧ r.tile t = { s.tile t with tlbs := { (s.tile t).tlbs with iu := [], du := [], l2 := [], wc := [] } })
  ∧ (s.admits q 0x022 0x1800 → q.sup = true → ∃ r, exec (.tlbi q v) s = .next r ∧ r.resp = some (.ok 0) ∧ s.onlyIn r [.regs, .tiles, .resp]
      ∧ s.regsBut r [(0x022, 0x1804)] ∧ r.reg 0x022 0x1804 = s.reg 0x022 0x1804 + 1
      ∧ ∀ u, ∀ e, (e ∈ (r.tile u).tlbs.iu ++ (r.tile u).tlbs.du ++ (r.tile u).tlbs.l2 ↔
          e ∈ (s.tile u).tlbs.iu ++ (s.tile u).tlbs.du ++ (s.tile u).tlbs.l2
            ∧ (e.2.va + 2 ^ e.2.size ≤ (tlbiRange v).1 ∨ (tlbiRange v).2 ≤ e.2.va)))
  ∧ (∀ va fetch store s1, (s.tile t).flow.freeze = .walk va fetch store → s.fillXlate t va fetch = (s1, none) →
      exec (.pageWalk t) s = .next (s1.modTile t (·.modFlow (fun f => { f with freeze := .none }))))
  ∧ (∀ va fetch store s1 c, (s.tile t).flow.freeze = .walk va fetch store → s.fillXlate t va fetch = (s1, some c) →
      ∃ r, exec (.pageWalk t) s = .next r ∧ s1.onlyIn r [.tiles] ∧ s1.tilesBut r t ∧ (r.tile t).flow.freeze = .none
        ∧ (r.tile t).flow.fault = some ⟨c, va⟩ ∧ (r.tile t).flow.issuing = false)

/-- A tile's access to a register (R31, R100, R101, R559, R567): it is performed at the bridge and its answer set on its way; a refused one is counted at its gate
and answered with the cause; the answer lets the bundle be judged again, an error faults it; a frame over the causeway that fails its check is counted and
repeated.
One request of a general DMA channel completes (R102, R107): a fill writes its pattern, 64 bytes where the line is whole and 16 else; the count of bytes left
falls, and the last request clears BUSY, sets DONE and raises the channel's source where it is enabled. -/
def Obligations.AccessesPerformed : Prop :=
  (∀ (s : State) (t : TileId) (a : PerAcc) (slot off : Nat),
  let q := (s.tile t).req t
  ((s.tile t).flow.freeze = .access a → a.stored = none → s.place a.pa = .periph slot off → (∀ c, s.gateDecide q slot off a.write = some c →
      exec (.peripheralAccess t) s = .next ((s.countRefused slot).accessAnswer t a.ea (.err c))))
  ∧ ((s.tile t).flow.freeze = .access a → a.stored = none → s.place a.pa = .periph slot off → a.size = 4 → off % 4 = 0 → s.bridgeDown = false →
      s.unreachable slot = false → s.gateDecide q slot off a.write = none →
      exec (.peripheralAccess t) s = .next (if a.write = true
        then ((s.cwSeen slot).slotWrite q slot off a.v).1.accessAnswer t a.ea ((s.cwSeen slot).slotWrite q slot off a.v).2
        else ((s.cwSeen slot).slotRead q slot off).1.accessAnswer t a.ea (.ok ((s.cwSeen slot).slotRead q slot off).2)))
  ∧ (∀ n c ea, (s.tile t).flow.freeze = .response n (.err c) ea → exec (.peripheralResponse t) s = .next (s.setTile t ((s.tile t).squash ⟨c, ea⟩)))
  ∧ (∀ n w ea, (s.tile t).flow.freeze = .response n (.ok w) ea → ∃ r, exec (.peripheralResponse t) s = .next r ∧ s.onlyIn r [.tiles] ∧ s.tilesBut r t
      ∧ (r.tile t).flow.freeze = .none ∧ (r.tile t).flow.presp = (s.tile t).flow.presp ++ [.ok w])
  ∧ ((s.tile t).flow.freeze = .access a → s.place a.pa = .periph slot off → behindCauseway slot = true → a.size = 4 → s.unreachable slot = false →
      s.gateDecide q slot off a.write = none → a.tries < 3 → ∃ r, exec (.causewayRepeat t false) s = .next r ∧ s.onlyIn r [.regs, .tiles]
      ∧ s.regsBut r [(0x080, 0x1000)] ∧ fld (r.reg 0x080 0x1000) 15 0 = min (fld (s.reg 0x080 0x1000) 15 0 + 1) 0xFFFF
      ∧ s.tilesBut r t ∧ (r.tile t).flow.freeze = .access { a with tries := a.tries + 1 })
  ∧ (∀ (q : Req) (c : BitVec 5) (k : BitVec 2) (v : Word), s.admits q (0x040 + c.toNat) (0x1004 + 4 * k.toNat) →
      (bit (s.reg (0x040 + c.toNat) 0x1000) 29 = false ∨ q.world = .trade ∧ q.sup = true) → bit (s.reg (0x040 + c.toNat) 0x1014) 31 = false →
      exec (.registerWrite q (BitVec.ofNat 12 (0x040 + c.toNat)) (BitVec.ofNat 16 (0x1004 + 4 * k.toNat)) v) s
        = .next (s.takeBits (0x040 + c.toNat) (0x1004 + 4 * k.toNat) (if k = 2 then 0x00FFFFFF else 0xFFFFFFFF) v).done)
  ∧ (∀ (q : Req) (k : BitVec 2) (v : Word), s.admits q 0x001 (0x1000 + 4 * k.toNat) →
      exec (.registerWrite q 0x001 (BitVec.ofNat 16 (0x1000 + 4 * k.toNat)) v) s
        = .next (s.takeBits 0x001 (0x1000 + 4 * k.toNat) (if k = 0 ∨ k = 1 then 0xFFFFFFFF else 0xF) v).done))
  ∧ (∀ (s : State) (c : BitVec 5),
  let chan := 0x040 + c.toNat
  let left := fld (s.reg chan 0x1014) 23 0
  let dst := (s.reg chan 0x1008).toNat * 16 + (fld (s.reg chan 0x100C) 23 0 - left)
  let n := if dst % 64 = 0 ∧ 64 ≤ left then 64 else 16
  let bytes := (List.replicate (n / 4) (toBytes 4 (s.reg chan 0x1010).toNat)).flatten
  bit (s.reg chan 0x1014) 31 = true → fld (s.reg chan 0x1000) 25 24 = 1 → s.place dst = .sram → s.chanCheck c.toNat dst n = none →
  ∃ t, exec (.dmaRequestComplete c) s = .next t ∧ t.mem = ((s.dropCopies dst n).memWrite dst bytes).mem
    ∧ fld (t.reg chan 0x1014) 23 0 = left - n ∧ bit (t.reg chan 0x1014) 31 = !decide (left ≤ n)
    ∧ (left ≤ n → bit (t.reg chan 0x1014) 30 = true)
    ∧ (n < left → bit (t.reg chan 0x1014) 30 = bit (s.reg chan 0x1014) 30)
    ∧ t.irq = (if left ≤ n ∧ bit (s.reg chan 0x1000) 28 = true then (s.raise (64 + 2 * c.toNat)).irq else s.irq)
    ∧ s.regsBut t [(chan, 0x1014)] ∧ s.onlyIn t [.mem, .regs, .irq, .tiles])

/-- The issue of a bundle (R119, R157, R169, Table 5-8): a tile that may not issue stays as it is; a misaligned PCC squashes the bundle with its fault; a bundle
whose one move takes an immediate into a word register writes that register, but W0, and advances PCC past the bundle. -/
def Obligations.BundlesIssue : Prop := ∀ (s : State) (t : TileId),
  let x := s.tile t
  let pc := x.ctx.pcc.addr
  (x.mayIssue = false → exec (.bundleIssue t) s = .next s)
  ∧ (x.mayIssue = true → s.inTinder = false → pc.toNat % 4 ≠ 0 → exec (.bundleIssue t) s = .next ((s.idleOver.setTile t (x.squash ⟨0x46, pc⟩)).fetchNoted t x
      (.fault ⟨0x46, pc⟩)))
  ∧ (∀ raw len m n v b, x.mayIssue = true → s.inTinder = false → x.flow.repSkip = false → s.idleOver.decodeBundle t x = .ok (raw, len, [m]) → m.src = .imm v →
      m.dst = .w n → n < 32 → guardTrue x.tick.ctx.pred m.guard = true → x.run = some b → b < 7 → x.ctx.lstat = 0 → x.ctx.bsh = 0 → x.flow.modeSh = none →
      x.flow.armWin = Vector.replicate 4 0 → x.flow.infl = [] →
      ∃ r, exec (.bundleIssue t) s = .next r ∧ (r.tile t).ctx.getW n = (if n = 0 then 0 else v)
        ∧ (r.tile t).ctx.pcc = x.ctx.pcc.jumpTo (pc + BitVec.ofNat 32 (4 * len)) ∧ (∀ k, k ≠ n → (r.tile t).ctx.getW k = x.ctx.getW k)
        ∧ (∀ k, (r.tile t).ctx.getC k = x.ctx.getC k) ∧ (r.tile t).ctx.status = x.ctx.status ∧ r.mem = s.mem ∧ s.tilesBut r t
        ∧ r.reg (tileSlot t) 0x100C = s.reg (tileSlot t) 0x100C + 1)

/-- What ends a freeze or lets results land (R34, R114, R115, R131, R146, R147, R268). -/
def Obligations.FreezesEnd : Prop := ∀ (s : State) (t : TileId),
  let x := s.tile t
  let thawed := s.modFlow t (fun f => { f with freeze := .none })
  (x.run.isSome = true → exec (.pendingResultVisible t) s = .next (s.setTile t
      { x.modCtx (fun c => { c with pred := x.ports.cmpPreds x.ctx.pred }) with ports := x.ports.revealAll, att := x.att.reveal }))
  ∧ (∀ n, x.flow.freeze = .gfence n → (∀ u, (s.tile u).outstanding n = false) → exec (.gateFenceComplete t) s = .next thawed)
  ∧ (∀ n u, x.flow.freeze = .gfence n → (s.tile u).outstanding n = true → exec (.gateFenceComplete t) s = .next s)
  ∧ (∀ i n, x.flow.freeze = .mfence i n → exec (.fenceComplete t) s = .next (if x.outstanding n = true then s else thawed))
  ∧ (x.flow.freeze = .dwbinv → exec (.dwbinvComplete t) s = .next (if x.caches.wbacks = [] then thawed else s))
  ∧ (x.flow.freeze = .precise → exec (.preciseFreezeEnd t) s = .next ((s.modFlow t (fun f => { f with freeze := .none, preciseDone := true })).issue t))
  ∧ (∀ pa own ea, x.flow.freeze = .line pa false own ea → s.bankBusy pa = false → s.isDamaged (lineOf pa) 64 = false →
      ∃ r, exec (.cacheLineArrival t .ok) s = .next r ∧ (r.tile t).flow = { x.flow with freeze := .none }
        ∧ (∃ l, (r.tile t).dataHit x.world pa = some l ∧ (own = true → l = .exclusive)) ∧ r.mem.bytes = s.mem.bytes
        ∧ (own = true → ∀ u, u ≠ t → ∀ w, (r.tile u).dataHit w pa = none))
  ∧ (∀ pa fetch own ea, x.flow.freeze = .line pa fetch own ea → s.bankBusy pa = true → exec (.cacheLineArrival t .ok) s = .next s)

/-- Contexts on their way to and from their slots (R90, R210, R211, R212, R220): a fill loads the slot, filtered, into the victim bank and starts it where a start
waits; a slot that holds an error is marked and starts nothing; a spill writes the oldest queued copy to its slot. -/
def Obligations.ContextsMove : Prop := ∀ (s : State) (t : TileId) (n : CtxId),
  let x := s.tile t
  (∀ v, x.flow.freeze = .fill n .run → (s.dir n = .stored ∨ s.dir n = .recorded t) → s.store.slotBad n = false → x.victim = some v →
      (vget x.banks v Bank.reset).st ≠ .dirty → (∀ b, x.run = some b → b < 7) →
      ∃ r, exec (.contextFillComplete t) s = .next r ∧ (r.tile t).run = some v ∧ (r.tile t).ctxNum = n ∧ (r.tile t).ctx = s.filterCtx (s.store.slot n)
        ∧ (r.tile t).ports = Image.clear ∧ (r.tile t).flow.freeze = .none ∧ s.tilesBut r t ∧ r.mem = s.mem)
  ∧ (x.flow.freeze = .fill n .run → (s.dir n = .stored ∨ s.dir n = .recorded t) → s.store.slotBad n = true → x.flow.issuing = false →
      ∃ r, exec (.contextFillComplete t) s = .next r ∧ r.store.slot n = (s.store.slot n).damage ∧ r.store.slotBad n = false
        ∧ (r.tile t).run = x.run ∧ (r.tile t).flow.freeze = .none ∧ (r.tile t).sys.recorded = (if x.sys.recorded = some n then none else x.sys.recorded)
        ∧ r.upsets = s.upsets ++ [.upset { cls := 6, num := b2n (2048 ≤ n.toNat), kind := none, pa := 0, hard := true }])
  ∧ (∀ c r, x.spill = c :: r → ∃ y, exec (.spillComplete t) s = .next y ∧ y.store.slot c.num = c.ctx ∧ (∀ m, m ≠ c.num → y.store.slot m = s.store.slot m)
        ∧ (y.tile t).spill = r ∧ y.mem = s.mem ∧ (∀ u, (s.tile u).flow.freeze = .spill → (y.tile u).flow.freeze = .none)
        ∧ (∀ u, (y.tile u).banks = (s.tile u).banks))

/-- Taking an exception (R136, R137, R247 to R252, R266, R279): the pending fault, the report that is due and the machine check that may be taken enter through
the running world's descriptor: the ports go to the shadow, the frame is pushed below the stack, and the handler's entry, mask and level are loaded; the first of
the failing steps leads to the double fault. -/
def Obligations.ExceptionsTaken : Prop := ∀ (s : State) (t : TileId),
  let x := s.tile t
  (∀ f, x.flow.fault = some f → x.live = true → x.run.isSome = true → x.flow.report = none →
      exec (.exceptionEntry t) s = .next (s.enter t ⟨16 + f.code.toNat / 8, BitVec.ofNat 32 ((b2n x.flow.modeSh.isSome <<< 28) + f.code.toNat), f.faddr, true, false⟩))
  ∧ (∀ e, x.run.isSome = true → x.boundary = true → x.haltDue = false → x.flow.reportDue = true → x.flow.report = some e →
      exec (.impreciseReport t) s = .next ((s.setTile t (x.drain.modFlow (fun f => { f with infl := [], fault := none }))).enter t e))
  ∧ (∀ m, s.mcDue t = some m → x.flow.report = none → exec (.machineCheck t) s = .next (s.mcTake t m))
  ∧ (∀ e : Entry, let y := x.drain
      let w := y.world
      let s1 := s.setTile t y
      (e.sync = true → y.efheld w = true → s.enter t e = s1.haltWorld t w (e.cause.setWidth 8) 0)
      ∧ ((e.sync = true → y.efheld w = false) → y.shadowHeld w y.sup = true → s.enter t e = s1.doubleFault t e 4)
      ∧ (∀ s2 d s3 pas, (e.sync = true → y.efheld w = false) → y.shadowHeld w y.sup = false →
          (s1.setTile t y.copyImage).readDesc t w e.idx = (s2, some d) → d.usable w = true →
          (e.sync = true → (s2.tile t).flat w = false → (s2.tile t).ctx.mlvl ≤ d.level) →
          let c := (s2.tile t).ctx
          let stk := if c.sup = false ∨ d.stk = true then d.stack else c.getC 15
          let fr := c.frame e.cause e.faddr e.xw (s2.tile t).flow.modeSh
          s2.ownStoreCheck t w d.mask stk fr (stk.addr - 64) = (s3, .ok pas) →
          s.enter t e = (s3.ownStores t w (pas.zip fr)).modTile t (fun x =>
            (x.modCtx (fun c => c.loadHandler d (stk.withAddr (stk.addr - 64)) d.ie d.mlvl)).modFlow (·.fresh true))))

/-- Interrupts, hosts and cross-world entries (R264, R277, R291, R295 to R298): a delivery starts at a boundary where a source may be taken; its commit takes the
source that is deliverable then, or abandons it; an idle tile and a tile whose world halted enter the host. -/
def Obligations.InterruptsDelivered : Prop := ∀ (s : State) (t : TileId),
  let x := s.tile t
  (x.flow.deliv = none → s.irqDue t = true → x.flow.report = none → exec (.interruptDelivery t) s
      = .next (s.setTile t (x.drain.copyImage.modFlow (fun f => { f with deliv := some ⟨x.world, false, false⟩ }))))
  ∧ (∀ i, x.flow.deliv = some ⟨x.world, false, false⟩ → s.deliverable t x.world (maskPasses (x.flat x.world) x.ctx.status) = some i →
      exec (.interruptDelivery t) s = .next ((s.commitIrq t x.world i).enterNow t ⟨s.irqLevel i, BitVec.ofNat 32 ((1 <<< 31) + (i <<< 9)), 0, false, false⟩))
  ∧ (x.flow.deliv = some ⟨x.world, false, false⟩ → s.deliverable t x.world (maskPasses (x.flat x.world) x.ctx.status) = none →
      exec (.interruptDelivery t) s
        = .next ((s.setTile t ((x.restoreImage x.world x.sup).modFlow (fun f => { f with deliv := none }))).countTstat t x.world false))
  ∧ (∀ s1 b, x.flow.enter = none → s.crossDue t = true → x.flow.report = none → s.bring t (x.hctx .trade) = .bank s1 b →
      exec (.crossWorldEntry t) s = .next ((((s1.modTile t (fun y => { y.drain.copyImage with link := .interrupt x.ctxNum (x.hctx .trade) })).runBank t b).modTile t
        (·.switched)).modTile t (fun y => y.copyImage.modFlow (fun f => { f with deliv := some ⟨.trade, true, false⟩ }))))
  ∧ (∀ w i s1 b, x.flow.enter = some (w, i) → x.live = true → x.flow.freeze = .none → s.hostReady t w = true → s.bring t (x.hctx w) = .bank s1 b →
      let s2 := (s1.runBank t b).modTile t (·.switched)
      exec (.crossWorldEntry t) s = .next ((s2.modTile t (·.copyImage)).enterNow t (entryIrq s2 i false)))
  ∧ (∀ w s1 b, s.idleDue t = some (w, none) →
      let s0 := s.idleOver.modTile t (·.modSys (fun y => { y with gated := false, halted := false }))
      s0.bring t (x.hctx w) = .bank s1 b → exec (.idleHostEntry t) s = .next (((s1.runBank t b).modTile t (·.switched)).modTile t (fun y =>
        y.drain.copyImage.modFlow (fun f => { f with deliv := some ⟨w, false, true⟩ }))))

/-- Local requests (R337, R339, R343, R349, R350, R352, Tables 11-2, 11-7, 11-8): what a sound record in a local slot, with nothing waiting before it, does and
with which status it is answered.
What an answer to a local request leaves (Tables 11-7 to 11-9): in the slot the STATUS, and the LENGTH and an inline value where there is one; bit n of
LDONE. -/
def Obligations.LocalRequestsAnswered : Prop :=
  (∀ (s : State) (w : World) (slot : BitVec 5), s.localReady w slot.toNat →
  let r := s.localRecord w slot.toNat
  let s1 := s.localTaken w slot.toNat
  let role := if w = .trade then 5 else 4
  let answer (t : State) (status : Nat) (v : List Byte) := t.localAnswer w slot.toNat status v
  (∀ e, r.op = 1 → s.dict.entry r.key = some e → s1.checkReq r e role = 0 → s.dict.fwds.any (fun f => f.req.op == 2 && f.req.key == r.key) = false →
      e.ember = true → ((s1.dictVal (s1.unlocked r.src) e).length ≤ 48 ∨ s.dict.areaBusy w = false) →
      exec (.dictRead w slot) s = .next (answer s1 0 (s1.dictVal (s1.unlocked r.src) e)))
  ∧ (r.op = 1 → s.dict.entry r.key = none → exec (.dictRead w slot) s = .next (answer s1 1 []))
  ∧ (∀ e, (r.op = 1 ∨ r.op = 2) → s.dict.entry r.key = some e → s1.checkReq r e role ≠ 0 →
      exec (if r.op = 1 then .dictRead w slot else .dictWrite w slot) s = .next (answer s1 (s1.checkReq r e role) []))
  ∧ (∀ e, r.op = 2 → s.dict.entry r.key = some e → s1.checkReq r e role = 0 → s.dict.fwds.any (fun f => f.req.op == 2 && f.req.key == r.key) = false →
      e.ember = true → e.owner = 0 → e.expert = false → cmdOf e.index = none → e.key < 0x110000 →
      e.key ∉ [0x01F001, 0x012003, 0x240001, 0x023003, 0x020001] → let v := e.written (s.dict.val e) r.value
      exec (.dictWrite w slot) s = .next (answer (((s1.modDict (·.setVal e.key v)).publish e.key v).noteRws e) 0 []))
  ∧ (∀ e, r.op = 2 → s.dict.entry r.key = some e → s1.checkReq r e role = 0 → s.dict.fwds.any (fun f => f.req.op == 2 && f.req.key == r.key) = false →
      e.ember = true → e.owner ≠ 0 → (s1.queueWrite r e role).2 = 0 →
      exec (.dictWrite w slot) s = .next (answer (((s1.queueWrite r e role).1.accepted r e).noteRws e) 0 []))
  ∧ (∀ e, r.op = 3 → s.dict.entry r.key = some e → s.dict.areaBusy w = false → exec (.describe w slot) s = .next (answer s1 0 e.bytes))
  ∧ (∀ e, r.op = 4 → s.dict.entry r.key = some e → s1.mayUpdate w e = true → e.ember = true → e.typeOk r.value = true → e.rangeOk r.value = true →
      cmdOf e.index = none → exec (.update w slot) s = .next (answer ((s1.modDict (·.setVal r.key r.value)).publish r.key r.value) 0 []))
  ∧ (r.op = 5 → r.value.length = 64 → s.dict.cat.length < 1024 → s1.registerOk w r.value = true →
      exec (.register w slot) s = .next (answer (s1.modDict (fun d => { d with cat := d.cat ++ [DictDesc.ofBytes r.value] })) 0 []))
  ∧ (r.op = 5 → r.value.length = 64 → 1024 ≤ s.dict.cat.length → exec (.register w slot) s = .next (answer s1 12 []))
  ∧ (∀ e, r.op = 6 → s.dict.cat.find? (fun e => e.key == r.key) = some e → ownerWorld e.owner = w →
      exec (.unregister w slot) s = .next (answer (s1.modDict (fun d => { d with cat := d.cat.filter (fun e => e.key != r.key), vals := Sparse.erase r.key d.vals })) 0 []))
  ∧ (r.op = 2 → r.key = 0x240001 → s1.checkReq r (mkEnt 0x240001 2 2 0 4 true 1 0 255 0) role = 0 →
      s.dict.fwds.any (fun f => f.req.op == 2 && f.req.key == r.key) = false →
      exec (.isleEntriesRemove w slot) s = .next (answer ((s1.isleRemove (ofBytes r.value)).setUnlock r.src (some (s.now + 600000000))) 0 [])))
  ∧ (∀ (s : State) (w : World) (slot : BitVec 5) (status : BitVec 8) (v : List Byte),
  let a := mailboxOf w + 64 * slot.toNat
  let t := s.localAnswer w slot.toNat status.toNat v
  s.isDamaged a 64 = false → v.length ≤ 48 →
  t.mem.byte (a + 5) = status ∧ (∀ i, i < v.length → t.mem.byte (a + 16 + i) = v.getD i 0)
    ∧ (v ≠ [] → t.mem.val (a + 8) 2 = v.length ∧ t.mem.val (a + 10) 2 = 0)
    ∧ (∀ p, (p < a ∨ a + 64 ≤ p) → t.mem.byte p = s.mem.byte p)
    ∧ bit (t.regW w 0x028 0x1008) slot.toNat = true ∧ s.regsBut t [(0x028, 0x1008)] ∧ s.onlyIn t [.mem, .regs, .tiles])

/-- The dictionary engine's own events (R342, R347, R348, R354, R356, R373): a forwarded request is answered by its owner or times out, a write-queue record is
retired, unlocks end, the clock starts, a device reset follows. -/
def Obligations.DictionaryEventsTaken : Prop := ∀ (s : State) (q : Req) (v : Word) (w : World) (slot : BitVec 5),
  let free (t : State) (j : Nat) (w : World) := t.modDict (fun d => { d with fwds := d.fwds.filter (fun g => !(g.world == w && g.slot == j)) })
  (∀ f, s.admits q 0x028 0x1010 → 32 ≤ fld v 5 0 → s.dict.fwds.find? (fun f => f.world == q.world && f.slot == fld v 5 0 - 32) = some f →
      let a := mailboxOf q.world + 0x800 + 64 * (fld v 5 0 - 32)
      let st := s.mem.val (a + 5) 1
      let voff := s.mem.val (a + 10) 2
      let data := if st ≠ 0 then [] else if voff = 0 then s.mem.read (a + 16) (min (s.mem.val (a + 8) 2) 48)
        else s.mem.read (mailboxOf q.world + voff) (min (s.mem.val (a + 8) 2) 8192)
      s.isDamaged a 64 = false → st ≠ 0xFF → f.req.op ≠ 2 →
      exec (.fwdDone q v) s = .next (((free s (fld v 5 0 - 32) q.world).answer f.req st data).resubmit).done)
  ∧ (∀ f e, s.admits q 0x028 0x1010 → 32 ≤ fld v 5 0 → s.dict.fwds.find? (fun f => f.world == q.world && f.slot == fld v 5 0 - 32) = some f →
      s.isDamaged (mailboxOf q.world + 0x800 + 64 * (fld v 5 0 - 32)) 64 = false → f.req.op = 2 → s.dict.entry f.req.key = some e →
      s.mem.val (mailboxOf q.world + 0x800 + 64 * (fld v 5 0 - 32) + 5) 1 = 0 → exec (.fwdDone q v) s
        = .next ((((((free s (fld v 5 0 - 32) q.world).noteRws e).lanePolicy f.req.key f.req.value).answer f.req 0 []).resubmit).done))
  ∧ (∀ f t0, s.dict.clk ≠ .stopped → s.dict.fwds.find? (fun f => f.world == w && f.slot == slot.toNat) = some f → f.start = some t0 →
      t0 + s.dict.num 0x016004 * 1000 ≤ s.now → exec (.ownerTimeout w slot) s
        = .next ((((free s slot.toNat w).errRow 4 0 w 0 (BitVec.ofNat 32 (f.req.key / 256 + 0x10000 * (f.req.key % 256)))).answer f.req 0x0A []).resubmit))
  ∧ (∀ k rest, s.admits q 0x028 0x101C → vget s.dict.wq q.world.idx [] = k :: rest → exec (.wqAck q v) s
      = .next (s.modDict (fun d => { d with wq := vset d.wq q.world.idx rest, wqHead := vset d.wqHead q.world.idx ((vget d.wqHead q.world.idx 0 + 1) % 64) })).done)
  ∧ (s.dict.clk ≠ .stopped → ∃ t, exec .expertUnlockExpiry s = .next t ∧ s.onlyIn t [.dict]
      ∧ (∀ i : Fin 2, vget t.dict.unlock i none = if (vget s.dict.unlock i none).any (fun e => decide (e ≤ s.now)) = true then none else vget s.dict.unlock i none)
      ∧ t.dict.sess = s.dict.sess.map (fun y => { y with unlock := if y.unlock.any (fun e => decide (e ≤ s.now)) = true then none else y.unlock }))
  ∧ (∀ recovered, s.dict.clk = .stopped → s.deadlinePassed = true →
      exec (.emberDeadlineScan recovered) s = .next (s.modDict (fun d => { d with clk := if recovered = true then .recovered else .rc })))
  ∧ ((s.dict.clk = .stopped ∨ s.dict.clk = .rc) → exec .engineClockStart s = .next (s.modDict (fun d => { d with clk := .recovered })))
  ∧ (∀ t0, s.dict.devReset = some t0 → (s.dict.grant = none ∨ t0 + 10000 ≤ s.now) → exec .deviceResetCommand s = .next (s.deviceReset (some 4) false))

/-- Long commands (R364 to R370, R374): the control entry starts, aborts and acknowledges; a started one waits in the queue; steps are granted one at a time, k
counts them, the last one, a failed one or a late one ends the command. -/
def Obligations.LongCommandsRun : Prop := ∀ (s : State) (q : Req) (v : Word) (w : World) (slot : BitVec 5) (i : Nat) (e : DictDesc),
  let r := s.localRecord w slot.toNat
  let s1 := s.localTaken w slot.toNat
  let role := if w = .trade then 5 else 4
  let answer (t : State) (status : Nat) := t.localAnswer w slot.toNat status []
  (s.localReady w slot.toNat → r.op = 2 → r.key % 256 = 1 → cmdOf (r.key / 256) = some i → i < 7 → s.dict.entry r.key = some e → s1.checkReq r e role = 0 →
      s.dict.fwds.any (fun f => f.req.op == 2 && f.req.key == r.key) = false →
    (∀ t, s.localByte w slot.toNat = 1 → ofBytes r.value = 1 → s1.cmdStart i role = (t, 0) → exec (.commandStart w slot) s = .next (answer t 0))
    ∧ (s.localByte w slot.toNat = 2 → ofBytes r.value = 2 → exec (.commandAbort w slot) s = .next (answer (s1.cmdAbort i) 0))
    ∧ (s.localByte w slot.toNat = 3 → ofBytes r.value = 3 → exec (.commandAcknowledge w slot) s = .next (answer (s1.cmdAck i) 0)))
  ∧ (i ≠ 6 → i ≠ 4 → i < 7 → (s.dict.cmd i).st ≠ 1 → s.dict.queue.length < 8 → ∃ t, s.cmdStart i role = (t, 0) ∧ t.dict.queue = s.dict.queue ++ [i]
      ∧ t.dict.cmd i = { s.dict.cmd i with st := 1, k := 0, n := 0, reason := 0, result := [] })
  ∧ ((s.dict.cmd i).st = 1 → s.dict.queue.head? ≠ some i → s.cmdAbort i = s.cmdEnd i 3 0x8001)
  ∧ (∀ g, (s.dict.cmd i).st = 1 → s.dict.queue.head? = some i → s.dict.follow = false → s.dict.grant = some g →
      s.cmdAbort i = s.modDict (fun d => { d with grant := some { g with abort := true } }))
  ∧ (((s.dict.cmd i).st = 2 ∨ (s.dict.cmd i).st = 3) → s.cmdAck i = s.putCmd i { s.dict.cmd i with st := 0 })
  ∧ (∀ rest, s.dict.queue = i :: rest → s.dict.grant = none → s.dict.follow = false → s.dict.lastDone + 2 ≤ s.now →
      s.dict.fwds.any (fun f => f.world == s.dict.cmdWorld i && decide (f.num < s.dict.barrier)) = false →
      exec .stepGrant s = .next ((s.modDict (fun d => { d.count 0x015002 with
        grant := some { first := !d.started, abort := false, since := s.now }, started := true })).notifyWorld 0x02C (s.dict.cmdWorld i)))
  ∧ (∀ g, s.admits q 0x02C 0x1004 → s.dict.granted q.world = some (i, g) → g.first = true →
      exec (.stepn q v) s = .next (s.putCmd i { s.dict.cmd i with n := v.toNat }).done)
  ∧ (∀ g, s.admits q 0x02C 0x1008 → s.dict.granted q.world = some (i, g) → i ≠ 4 →
      let s2 := (s.stepCount q.world (s.now - g.since)).modDict (fun d => { d with grant := none, lastDone := s.now, barrier := s.seq })
      let c := s2.dict.cmd i
      let s3 := s2.putCmd i { c with k := c.k + 1 }
      exec (.stepdone q v) s = .next (if bit v 0 = true then s2.cmdEnd i 3 (fld v 31 16) else if g.abort = true then s3.cmdEnd i 3 0x8001
        else if c.n = 0 ∨ c.k + 1 = c.n then s3.cmdEnd i 2 0 else s3).done)
  ∧ (∀ g, s.dict.clk ≠ .stopped → s.dict.queue.head? = some i → s.dict.grant = some g → g.since + 10000 ≤ s.now →
      exec .stepLimitExpiry s = .next (s.cmdEnd i 3 0x8002))
  ∧ (s.dict.follow = true → exec .charSweepCommand s =
      let s2 := s.putCmd 4 { s.dict.cmd 4 with k := (s.reg 0x021 0x120C).toNat, n := (s.reg 0x021 0x1210).toNat }
      .next (if s.sweepState = 2 then s2.cmdEnd 4 2 0 else if s.sweepState = 3 then s2.cmdEnd 4 3 (fld (s.reg 0x021 0x1208) 7 2) else s2))

/-- A frame that arrives (R375, R377, R380, R381): one for another address changes nothing; a malformed one, one for another node and the hundred and first
unprotected one of a second are dropped and counted in their own counters. -/
def Obligations.FramesAdmitted : Prop := ∀ (s : State) (f : FerryFrame),
  let dst := frameVal f.bytes 2 2
  let s1 := s.engineWake f.carrier
  let mine := dst = s.dict.node ∨ (frameByte f.bytes 1 = 1 ∧ dst = 0)
  let recent := s.dict.unprot.filter (fun t => decide (s.now < t + 1000000))
  (s.ferryAddressed f = false → s.ferryAdmit f = (s, false))
  ∧ (s.ferryAddressed f = true → ferryMalformed f = true → s.ferryAdmit f = (s1.modDict (·.count 0x024004), false))
  ∧ (s.ferryAddressed f = true → ferryMalformed f = false → ¬ mine → s.ferryAdmit f = (s1.modDict (·.count 0x024003), false))
  ∧ (s.ferryAddressed f = true → ferryMalformed f = false → mine → ferryProtected f = true → s.ferryAdmit f = (s1, true))
  ∧ (s.ferryAddressed f = true → ferryMalformed f = false → mine → ferryProtected f = false → recent.length < 100 →
      s.ferryAdmit f = (s1.modDict (fun d => { d with unprot := s.now :: recent }), true))
  ∧ (s.ferryAddressed f = true → ferryMalformed f = false → mine → ferryProtected f = false → 100 ≤ recent.length →
      s.ferryAdmit f = (s1.modDict (fun d => { d.count 0x024005 with unprot := recent }), false))

/-- The receive window (R388): a SEQ that was accepted is never accepted again, one 64 or more below the highest is refused, and one above it always
passes. -/
def Obligations.ReplayRefused : Prop := ∀ (y : Session) (n : Nat) (w : Nat × BitVec 64),
  (y.accept n = some w → ({ y with hi := w.1, window := w.2 } : Session).accept n = none ∧ w.1 = max y.hi n)
  ∧ (n + 64 ≤ y.hi → y.accept n = none) ∧ (y.hi < n → (y.accept n).isSome = true)

/-- The handshake (R381, R384 to R390, R394, R402): what HELLO, INIT, the owner's HS_DONE, CONFIRM and the expiry do, and how a frame outside every session is
answered. -/
def Obligations.HandshakeRuns : Prop := ∀ (s s1 : State) (f : FerryFrame) (q : Req) (v : Word) (j : BitVec 2),
  let ty := frameByte f.bytes 1
  let node := frameVal f.bytes 4 2
  let num := frameVal f.bytes 6 2
  let pay := (f.bytes.drop 16).take (frameVal f.bytes 12 2)
  let role := frameByte pay 0
  let w : World := if role = 5 then .trade else .opn
  let usb := match f.carrier with | .usb _ => true | _ => false
  (ty = 1 → s.ferryAdmit f = (s1, true) → frameVal f.bytes 12 2 = 4 → frameVal f.bytes 17 3 = 0 → s1.dict.num 0x020005 = 1 →
      (frameByte f.bytes 16 = 0 ∨ frameByte f.bytes 16 = s1.dict.num 0x020001) →
      ∃ t due, exec (.hello f) s = .next t ∧ s1.now ≤ due ∧ due ≤ s1.now + 50000 ∧ s1.onlyIn t [.dict, .free]
        ∧ t.dict = { s1.dict with hello := s1.dict.hello ++ [{ carrier := f.carrier, peer := f.peer, node := node, due := due }] })
  ∧ (∀ h, s.dict.hello = [h] → h.due ≤ s.now → ∃ t, exec .helloAckDelayExpiry s = .next t ∧ t.dict = { s.dict with hello := [] } ∧ s.onlyIn t [.dict, .out]
      ∧ t.out = s.out ++ [.ferry h.carrier h.peer (ferryHeader 0x02 h.node s.dict.node 0 0 s.helloAck.length ++ s.helloAck)])
  ∧ (∀ k, ty = 0x10 → s.ferryAdmit f = (s1, true) → initForm pay = true →
      (List.range 4).find? (fun j => (vget s1.dict.hs j none).any (fun h => (h.init.drop 4).take 16 == (pay.drop 4).take 16 && h.node == node)) = none →
      s1.dict.sessCount none < 32 → s1.dict.sessCount (some node) < 4 → (s1.dict.noAnchors = true → usb = true ∧ role ≤ 3) → s1.worldState w = 2 →
      (List.range 4).find? (fun j => (vget s1.dict.hs j none).isNone) = some k →
      ∃ t h, exec (.init f) s = .next t ∧ vget t.dict.hs k none = some h ∧ h.world = w ∧ h.carrier = f.carrier ∧ h.peer = f.peer ∧ h.node = node
        ∧ h.init = pay ∧ h.reply = none ∧ h.role = role ∧ h.comm = s1.dict.noAnchors ∧ s1.onlyIn t [.dict, .free, .irq])
  ∧ (∀ h, s.admits q 0x028 0x110C → vget s.dict.hs (fld v 1 0) none = some h → h.world = q.world → h.reply = none → bit v 8 = true →
      exec (.hsDone q v) s = .next (((s.modDict (fun d => { d.count 0x024006 with hs := vset d.hs (fld v 1 0) none })).ferryError h.carrier h.peer h.node
        (fld v 23 16) 0x10 0).done))
  ∧ (∀ h, s.admits q 0x028 0x110C → vget s.dict.hs (fld v 1 0) none = some h → h.world = q.world → h.reply = none → bit v 8 = false →
      let reply := (((List.range 360).map (fun i => toBytes 4 (Sparse.get 0#32 (360 + i) h.words).toNat)).flatten).take (min (Sparse.get 0#32 720 h.words).toNat 1440)
      let h1 : Hs := { h with reply := some reply, role := fld v 31 24, deadline := s.now + 2000000 }
      exec (.hsDone q v) s
        = .next ((s.modDict (fun d => { d with hs := vset d.hs (fld v 1 0) (some h1) })).ferryPlain h.carrier h.peer h.node h.session 0x11 reply).done)
  ∧ (∀ k h reply plain, ty = 0x12 → (List.range 4).find? (fun j => (vget s.dict.hs j none).any (fun h => h.session == num && h.reply.isSome)) = some k →
      s.ferryAdmit f = (s1, true) → ferryProtected f = true → vget s1.dict.hs k none = some h → h.reply = some reply →
      ferryOpen h.keys f.bytes = some plain → plain = sha256 (h.init ++ reply) → frameVal f.bytes 8 4 ≠ 0 →
      let y : Session := { num := num, role := h.role, carrier := f.carrier, peer := f.peer, node := h.node, keys := h.keys, out := 1, hi := frameVal f.bytes 8 4,
                           window := 1, unlock := none, comm := h.comm, last := s1.now, frames := 1, answered := [], pendTags := [], xfers := [], subs := [],
                           evseq := 1, notes := [] }
      exec (.confirm f) s = .next ((s1.modDict (fun d => { d with hs := vset d.hs k none, sess := d.sess ++ [y] })).ferrySend num 0x13
        (toBytes 1 h.role ++ toBytes 2 (s1.dict.num 0x020004))))
  ∧ (∀ h, s.dict.clk ≠ .stopped → vget s.dict.hs j.toNat none = some h → h.reply.isSome = true → h.deadline ≤ s.now →
      exec (.handshakeExpiry j) s = .next (s.modDict (fun d => { d with hs := vset d.hs j.toNat none })))
  ∧ (ferryPlainTypes.contains ty = false → ferryProtected f = false → s.ferryAdmit f = (s1, true) →
      exec (.ferryUndefinedType f) s = .next (s1.ferryError f.carrier f.peer node 2 ty (plainTag f)))
  ∧ (ferryProtected f = true → s.dict.session num = none →
      (ty = 0x12 → ∀ j, j < 4 → (vget s.dict.hs j none).any (fun h => h.session == num && h.reply.isSome) = false) → s.ferryAdmit f = (s1, true) →
      exec (.noSession f) s = .next (s1.ferryError f.carrier f.peer node 0x0E ty 0))

/-- Requests inside a session (R390, R395 to R401): what each does with a frame that the session accepts and whose TAG is new. -/
def Obligations.SessionRequestsTaken : Prop := ∀ (s s1 : State) (f : FerryFrame) (n tag : Nat) (pay : List Byte),
  let key := reqKey pay
  (s.ferryRequest f 0x20 = (s1, some (n, tag, pay)) → pay.length = 6 → frameByte pay 5 = 0 →
      exec (.ferryRead f) s = .next (s1.ferrySubmit n tag .read 1 key []))
  ∧ (s.ferryRequest f 0x22 = (s1, some (n, tag, pay)) → frameByte pay 5 = 0 → frameVal pay 6 2 ≤ 1024 → pay.length = 8 + frameVal pay 6 2 →
      exec (.ferryWrite f) s = .next (s1.ferrySubmit n tag .write 2 key (pay.drop 8)))
  ∧ (s.ferryRequest f 0x24 = (s1, some (n, tag, pay)) → pay.length = 8 → frameByte pay 5 ≠ 0 → frameByte pay 6 = 0 → frameByte pay 7 = 0 →
      s1.dict.xferRoom n (frameByte pay 5) = true → exec (.segRead f) s = .next (s1.ferrySubmit n tag (.segRead (frameByte pay 5)) 1 key []))
  ∧ (∀ e, s.ferryRequest f 0x24 = (s1, some (n, tag, pay)) → pay.length = 8 → frameByte pay 5 ≠ 0 → 0 < frameByte pay 6 → frameByte pay 6 ≤ 7 →
      frameByte pay 7 = 0 → s1.dict.xfer n (frameByte pay 5) = some e → e.write = false → e.key = key → 1024 * (frameByte pay 6 + 1) < e.total →
      let seg := segment e.data (frameByte pay 6)
      exec (.segRead f) s = .next ((s1.ferryAnswer n tag 0x25 (rspHead tag 0 0 ++ toBytes 2 e.total ++ toBytes 1 (frameByte pay 6) ++ [0]
        ++ toBytes 2 seg.length ++ [0, 0] ++ seg)).modXfer n (frameByte pay 5) (fun e => { e with last := s1.now })))
  ∧ (∀ e, s.ferryRequest f 0x26 = (s1, some (n, tag, pay)) → frameByte pay 5 ≠ 0 → frameByte pay 6 ≤ 7 → frameByte pay 7 = 0 → frameVal pay 8 2 ≤ 8192 →
      frameVal pay 10 2 ≤ 1024 → pay.length = 12 + frameVal pay 10 2 → s1.dict.xfer n (frameByte pay 5) = some e → e.write = true → frameByte pay 6 = e.next →
      frameVal pay 8 2 = e.total → key = e.key → e.data.length + frameVal pay 10 2 < e.total →
      exec (.segWrite f) s = .next ((s1.modXfer n (frameByte pay 5) (fun x => { x with data := e.data ++ pay.drop 12, next := x.next + 1, last := s1.now })).ferryAnswer
        n tag 0x27 (rspHead tag 0 0)))
  ∧ (s.ferryRequest f 0x28 = (s1, some (n, tag, pay)) → frameByte pay 5 ≤ 1 → frameByte pay 6 ≤ 32 → frameByte pay 7 = 0 → pay.length = 8 + frameByte pay 6 →
      (cmdOf (frameVal pay 2 2)).isSome = true →
      exec (.ferryCommand f) s = .next (s1.ferrySubmit n tag (.command (frameByte pay 5 == 1)) 0x15 key (pay.drop 8)))
  ∧ (∀ y e, s.ferryRequest f 0x30 = (s1, some (n, tag, pay)) → pay.length = 10 → frameByte pay 5 ≤ 1 →
      (frameByte pay 5 = 1 → 100 ≤ frameVal pay 6 2 ∧ frameVal pay 6 2 ≤ 60000) → frameVal pay 8 2 ≤ 60000 → s1.dict.session n = some y →
      s1.dict.entry key = some e → e.ember = true → roleReads y.role e.rrole = true → y.subs.length < 16 → (s1.dict.sess.map (fun z => z.subs.length)).sum < 64 →
      let b : Subn := { id := y.freeSub, key := e.key, periodic := frameByte pay 5 == 1, period := frameVal pay 6 2, minint := frameVal pay 8 2,
                        last := if frameByte pay 5 = 1 then some s1.now else none, waiting := false, gap := false }
      exec (.subscribe f) s = .next ((s1.modSess n (fun z => { z with subs := z.subs ++ [b] })).ferryAnswer n tag 0x31 (rspHead tag 0 0 ++ toBytes 1 y.freeSub)))
  ∧ (∀ y, s.ferryRequest f 0x32 = (s1, some (n, tag, pay)) → pay.length = 4 → frameByte pay 3 = 0 → s1.dict.session n = some y →
      y.subs.any (fun b => b.id == frameByte pay 2) = true →
      exec (.unsubscribe f) s = .next ((s1.modSess n (fun y => { y with subs := y.subs.filter (fun b => b.id != frameByte pay 2) })).ferryAnswer n tag 0x33 (rspHead tag 0 0)))
  ∧ (s.ferryRequest f 0x40 = (s1, some (n, tag, pay)) → pay.length = 2 → exec (.keepalive f) s = .next (s1.ferryAnswer n tag 0x41 (rspHead tag 0 0)))
  ∧ (s.ferrySession f 0x42 = (s1, some (n, pay)) → exec (.close f) s = .next (s1.sessionEnd n))

/-- What time and the dictionary end (R379, R390, R396, R397, R399). -/
def Obligations.SessionTimersRun : Prop := ∀ (s : State) (n : BitVec 16) (x : BitVec 8) (w : World) (slot : BitVec 5), s.dict.clk ≠ .stopped →
  (∀ e, s.dict.xfer n.toNat x.toNat = some e → e.write = false → e.last + 2000000 ≤ s.now → exec (.snapshotExpiry n x) s = .next (s.endXfer n.toNat x.toNat))
  ∧ (∀ e, s.dict.xfer n.toNat x.toNat = some e → e.write = true → e.last + 2000000 ≤ s.now → exec (.segWriteDiscard n x) s = .next (s.endXfer n.toNat x.toNat))
  ∧ (∀ y b e l, s.dict.session n.toNat = some y → y.subs.find? (fun b => b.id == x.toNat) = some b → s.dict.entry b.key = some e → b.waiting = true →
      b.last = some l → l + b.minint * 1000 ≤ s.now → exec (.minintExpiry n x) s
        = .next ((s.ferryEvent n.toNat x.toNat 0 b.key ((s.dictVal false e).take 48)).modSess n.toNat (fun y =>
          { y with subs := y.subs.map (fun c => if c.id = x.toNat then { c with last := some s.now, waiting := false } else c) })))
  ∧ (∀ y b e l, s.dict.session n.toNat = some y → y.subs.find? (fun b => b.id == x.toNat) = some b → s.dict.entry b.key = some e → b.periodic = true →
      b.last = some l → l + b.period * 1000 ≤ s.now → s.dev.st ≠ .banked → s.dev.st ≠ .dormant → exec (.periodExpiry n x) s
        = .next ((s.ferryEvent n.toNat x.toNat (if b.gap = true then 1 else 0) b.key ((s.dictVal false e).take 48)).modSess n.toNat (fun y =>
          { y with subs := y.subs.map (fun c => if c.id = x.toNat then { c with last := some s.now, gap := false } else c) })))
  ∧ (∀ y, s.dict.session n.toNat = some y → y.last + s.dict.num 0x020004 * 1000000 ≤ s.now → ∃ t, exec (.sessionIdleExpiry n) s = .next t
      ∧ s.onlyIn t [.dict] ∧ t.dict.session n.toNat = none ∧ t.dict.sess = s.dict.sess.filter (fun y => y.num != n.toNat))
  ∧ (∀ e, s.localReady w slot.toNat → (s.localRecord w slot.toNat).op = 2 → (s.localRecord w slot.toNat).key = 0x023003 → s.dict.entry 0x023003 = some e →
      (s.localTaken w slot.toNat).checkReq (s.localRecord w slot.toNat) e (if w = .trade then 5 else 4) = 0 →
      s.dict.fwds.any (fun f => f.req.op == 2 && f.req.key == 0x023003) = false →
      exec (.sessionCloseWrite w slot) s = .next (((s.localTaken w slot.toNat).localAnswer w slot.toNat 0 []).sessionEnd (ofBytes (s.localRecord w slot.toNat).value)))
  ∧ (let r := s.localRecord w slot.toNat
      let e := mkEnt 0x020001 2 5 1 3 false 1 0 127 0
      s.localReady w slot.toNat → r.op = 2 → r.key = 0x020001 → (s.localTaken w slot.toNat).checkReq r e (if w = .trade then 5 else 4) = 0 →
      s.dict.fwds.any (fun f => f.req.op == 2 && f.req.key == r.key) = false →
      let v := e.written (s.dict.val e) r.value
      let u := ((((s.localTaken w slot.toNat).modDict (·.setVal 0x020001 v)).publish 0x020001 v).noteRws e).localAnswer w slot.toNat 0 []
      exec (.islandBlockWrite w slot) s = .next (if s.dict.val e = r.value then u else u.dict.sess.foldl (fun t y => t.sessionEnd y.num) u))

/-- The registers of a lane port (R406, R414 to R416, R420, R425): LPCTL with PEN = 0 takes new values and the burst in force; with PEN = 1 a change of what is
fixed is refused; a reserved mode is refused; word 0 of a row is held until word 1 puts both in force; ASHCLR works only under a permit; a QCTL write takes the
writer's colours and world and clears STOPPED where it sets EN; a KICK of a receive queue changes nothing, one of a transmit queue examines its port. -/
def Obligations.LaneRegistersWritten : Prop := ∀ (s : State) (q : Req) (p : BitVec 4) (k : BitVec 3) (v : Word),
  let slot := 0x060 + p.toNat
  let old := s.reg slot 0x1000
  let legal := fld v 30 29 ≠ 3 ∧ 20 ≤ fld v 23 16 ∧ 2 ≤ fld v 11 8 ∧ fld v 11 8 ≤ 8
  (s.admits q slot 0x1000 → bit old 31 = false → legal → bit v 31 = true → exec (.lpctlWrite q p v) s
      = .next ((s.setReg slot 0x1000 (v &&& 0xF0FF0F07)).modLane p.toNat (fun l => { l with burst := fld v 2 0 })).done)
  ∧ (s.admits q slot 0x1000 → bit old 31 = true → (fld v 30 28 ≠ fld old 30 28 ∨ fld v 11 8 ≠ fld old 11 8 ∨ ¬ legal) →
      exec (.lpctlWrite q p v) s = .next { s with resp := some (.err busErr) })
  ∧ (s.admits q slot 0x1000 → bit old 31 = true → legal → fld v 30 28 = fld old 30 28 → fld v 11 8 = fld old 11 8 → bit v 31 = false →
      fld (s.reg slot 0x1004) 31 30 = 1 → ∃ t, exec (.lpctlWrite q p v) s = .next t ∧ fld (t.reg slot 0x1004) 31 30 = 0 ∧ t.reg slot 0x1000 = v &&& 0xF0FF0F07
        ∧ t.resp = some (.ok 0))
  ∧ (s.admits q slot (0x1020 + 8 * k.toNat) → k ≠ 0 → (bit (s.q (laneQ p.toNat k.toNat false) 0) 29 = true → q.world = .trade ∧ q.sup = true) →
      exec (.enrolmentRowWrite q p k false v) s = .next (s.modLane p.toNat (fun l => { l with held := Sparse.put k.toNat v l.held })).done)
  ∧ (s.admits q slot (0x1024 + 8 * k.toNat) → k ≠ 0 → (bit (s.q (laneQ p.toNat k.toNat false) 0) 29 = true → q.world = .trade ∧ q.sup = true) →
      (fld v 31 30 = 0 ∨ fld v 31 30 = 2) → exec (.enrolmentRowWrite q p k true v) s
        = .next (((s.setReg slot (0x1020 + 8 * k.toNat) ((Sparse.find? k.toNat (s.lane p.toNat).held).getD (s.reg slot (0x1020 + 8 * k.toNat)))).setReg slot
            (0x1024 + 8 * k.toNat) (v &&& 0xC000FFFF)).modLane p.toNat (fun l => { l with held := Sparse.erase k.toNat l.held })).done)
  ∧ (s.admits q slot 0x1014 → s.permitted (16 + p.toNat) = true → fld (s.reg slot 0x1004) 31 30 = 3 → ∃ t, exec (.ashclr q p v) s = .next t
      ∧ fld (t.reg slot 0x1004) 31 30 = 0 ∧ fld (t.reg slot 0x1004) 23 16 = 0 ∧ fld (t.reg slot 0x1004) 9 8 = 0 ∧ (t.lane p.toNat).ups = []
      ∧ t.upsets = s.upsets ++ [.clear (16 + p.toNat)])
  ∧ (s.admits q slot 0x1014 → s.permitted (16 + p.toNat) = false → exec (.ashclr q p v) s = .next s.done)
  ∧ (∀ n : BitVec 8, s.admits q 0x070 (0x1000 + 64 * n.toNat) → (bit (s.reg 0x070 (0x1000 + 64 * n.toNat)) 29 = true → q.world = .trade ∧ q.sup = true) →
      let o := s.reg 0x070 (0x1000 + 64 * n.toNat)
      ∃ t, exec (.qctlWrite q 0x070 n v) s = .next t ∧ s.regsBut t [(0x070, 0x1000 + 64 * n.toNat)] ∧ s.onlyIn t [.regs, .resp]
        ∧ let c := t.reg 0x070 (0x1000 + 64 * n.toNat)
          bit c 31 = bit v 31 ∧ bit c 29 = q.world.bit ∧ bit c 28 = bit v 28 ∧ c.setWidth 16 = v.setWidth 16 &&& q.cmr
          ∧ (bit v 31 = true → bit c 30 = false) ∧ (bit v 31 = false → bit c 30 = bit o 30 ∧ fld c 23 16 = fld o 23 16))
  ∧ (∀ n : BitVec 8, s.admits q 0x070 (0x101C + 64 * n.toNat) → (bit (s.reg 0x070 (0x1000 + 64 * n.toNat)) 29 = true → q.world = .trade ∧ q.sup = true) →
      exec (.kick q 0x070 n) s = .next (if 128 ≤ n.toNat then s.laneExamine ((n.toNat - 128) / 8) else s).done)

/-- Frames on a lane (R408, R410, R412, R413, R417 to R421, R561). -/
def Obligations.LaneFramesMove : Prop := ∀ (s : State) (p : BitVec 4) (k : BitVec 3) (frame : List Byte),
  let slot := 0x060 + p.toNat
  let l := s.lane p.toNat
  let up := s.pen p.toNat = true ∧ s.lstate p.toNat = 1
  let s0 := s.modLane p.toNat (fun l => { l with armed := false })
  let tag := if s.laneMode p.toNat = 2 then 1 else k.toNat
  let room := (l.fifo.map (fun x => x.frame.length)).sum + frame.length ≤ 4096
  let good := frame.length ≤ 1518 ∧ (frame.take 6 = macAddr (3 + p.toNat) ∨ groupAddr frame = true)
  (¬ up → exec (.laneFrameReceive p k true frame) s = .next s)
  ∧ (up → 1518 < frame.length → exec (.laneFrameReceive p k true frame) s = .next (s0.modReg slot 0x106C (· + 1)))
  ∧ (up → (l.fcs.filter (fun t => decide (s.now < t + 1000000))).length < 15 → exec (.laneFrameReceive p k false frame) s
      = .next ((s0.modReg slot 0x1068 (· + 1)).modLane p.toNat (fun l => { l with fcs := s.now :: l.fcs.filter (fun t => decide (s.now < t + 1000000)) })))
  ∧ (up → good → room → tag ≠ 0 → fld (s.reg slot (0x1024 + 8 * tag)) 31 30 = 2 → (frame.drop 6).take 6 = s.enrAddr p.toNat tag →
      exec (.laneFrameReceive p k true frame) s = .next (s0.modLane p.toNat (fun l =>
        { l with fifo := l.fifo ++ [{ queue := tag, stat := 0, tag := tag, time := s.ptp % 2 ^ 32, frame := frame }] })))
  ∧ (up → good → room → tag ≠ 0 → fld (s.reg slot (0x1024 + 8 * tag)) 31 30 = 2 → (frame.drop 6).take 6 ≠ s.enrAddr p.toNat tag →
      exec (.laneFrameReceive p k true frame) s = .next ((s0.modReg slot 0x1074 (· + 1)).modLane p.toNat (fun l =>
        { l with fifo := l.fifo ++ [{ queue := 0, stat := 6, tag := tag, time := s.ptp % 2 ^ 32, frame := frame }] })))
  ∧ (∀ x r, l.fifo = x :: r → s.qRuns (laneQ p.toNat x.queue false) = false →
      ∃ t, exec (.receiveDescriptorComplete p) s = .next t ∧ (t.lane p.toNat).fifo = r
        ∧ t.q (laneQ p.toNat x.queue false) 6 = s.q (laneQ p.toNat x.queue false) 6 + 1 ∧ t.mem = s.mem)
  ∧ (∀ x r s1 d, l.fifo = x :: r → let q := laneQ p.toNat x.queue false
      s.qRuns q = true → (s.modLane p.toNat (fun l => { l with fifo := r })).qFetch q (some (132 + 8 * p.toNat)) = (s1, some d) → d.own = true →
      x.frame.length ≤ d.buflen → s1.qCheck q d.buf x.frame.length = none → bit (s.q q 0) 28 = false →
      exec (.receiveDescriptorComplete p) s
        = .next (((s1.masterWriteMem d.buf x.frame).qComplete q x.stat x.frame.length x.tag x.time).modReg slot 0x1060 (· + 1)))
  ∧ (∀ x, l.tx = some x → s.lstate p.toNat = 1 → (s.laneMode p.toNat = 1 → l.armed = true) → ∃ t, exec (.laneFrameTransmit p) s = .next t
      ∧ t.out = s.out ++ [.lane p (laneFrame p.toNat x.frame)] ∧ (t.lane p.toNat).tx = none ∧ (t.lane p.toNat).lastQ = x.queue
      ∧ t.reg slot 0x1064 = s.reg slot 0x1064 + 1)
  ∧ (l.tx = none → exec (.laneFrameTransmit p) s = .next s)
  ∧ (s.lstate p.toNat = 2 → exec (.txExamination (some p)) s = .next s)
  ∧ (s.lstate p.toNat = 1 → exec (.txExamination (some p)) s
      = .next ((List.range 8).foldl (fun s i => s.txExamine p.toNat (((s.lane p.toNat).lastQ + 1 + i) % 8)) s))
  ∧ (exec (.txExamination none) s = .next s.hostExamine)
  ∧ (up → s.laneMode p.toNat = 1 → exec (.plcaCycle p) s = .next (s.modLane p.toNat (fun l =>
      { l with burst := fld (s.reg slot 0x1000) 2 0, armed := l.tx.isSome, burstLeft := fld (s.reg slot 0x1000) 2 0 })))
  ∧ (s.pen p.toNat = true → s.laneMode p.toNat = 2 → s.lstate p.toNat = 0 → ∃ t, exec (.laneLinkUp p) s = .next t ∧ s.regsBut t [(slot, 0x1004)]
      ∧ t.reg slot 0x1004 = setFld (s.reg slot 0x1004) 31 30 1 ∧ s.onlyIn t [.regs, .irq])

/-- A lane link's upsets (R422 to R425, R471): an upset of a link that is UP leads to SMOULDERING with the back-off of its retry table, or to ASHED at its
threshold; the back-off ends in the line test, a pass in UP, a failure in the next back-off or, the third time, in ASHED; a permit opens and ends. -/
def Obligations.LaneLinksBackOff : Prop := ∀ (s : State) (p : BitVec 4),
  let slot := 0x060 + p.toNat
  let l := s.lane p.toNat
  let ups := s.now :: l.ups.filter (fun t => decide (s.now < t + l.window * 1000000))
  (∀ kind : BitVec 4, 1 ≤ kind.toNat → kind.toNat ≤ 6 → s.lstate p.toNat = 1 → ups.length < l.thresh →
      ∃ t, exec (.laneUpset p kind false) s = .next t ∧ t.lstate p.toNat = 2 ∧ fld (t.reg slot 0x1004) 3 0 = kind.toNat
        ∧ (ups.length < 256 → fld (t.reg slot 0x1004) 23 16 = ups.length) ∧ fld (t.reg slot 0x1004) 9 8 = min (ups.length - 1) 3
        ∧ (t.lane p.toNat).due = some (s.now + l.retry.getD (min (ups.length - 1) 3) 0 * 1000) ∧ (t.lane p.toNat).ups = ups
        ∧ t.upsets = s.upsets ++ [.outcome (16 + p.toNat) kind.toNat ups.length (min (ups.length - 1) 3) false])
  ∧ (∀ kind : BitVec 4, 1 ≤ kind.toNat → kind.toNat ≤ 6 → s.lstate p.toNat = 1 → l.thresh ≤ ups.length →
      ∃ t, exec (.laneUpset p kind false) s = .next t ∧ t.lstate p.toNat = 3 ∧ (t.lane p.toNat).due = none)
  ∧ (∀ d, s.lstate p.toNat = 2 → l.test = none → l.due = some d → d ≤ s.now →
      exec (.laneBackoffExpiry p) s = .next (s.modLane p.toNat (fun l => { l with due := none, test := some (s.now + 2000) })))
  ∧ (∀ d, l.test = some d → d ≤ s.now → ∃ t, exec (.laneLineTestEnd p true) s = .next t ∧ t.lstate p.toNat = 1 ∧ (t.lane p.toNat).test = none
      ∧ (t.lane p.toNat).fails = 0)
  ∧ (∀ d, l.test = some d → d ≤ s.now → l.fails < 2 → exec (.laneLineTestEnd p false) s = .next (s.modLane p.toNat (fun x => { x with
      test := none, fails := x.fails + 1, due := some (s.now + l.retry.getD (fld (s.reg slot 0x1004) 9 8) 0 * 1000) })))
  ∧ (∀ d, l.test = some d → d ≤ s.now → 2 ≤ l.fails → ∃ t, exec (.laneLineTestEnd p false) s = .next t ∧ t.lstate p.toNat = 3)
  ∧ (∀ (w : World) (slot : BitVec 5) (e : DictDesc), let r := s.localRecord w slot.toNat
      s.localReady w slot.toNat → r.op = 2 → r.key = 0x300006 + 0x10000 * p.toNat → s.dict.entry r.key = some e → e.key = r.key → ofBytes r.value = 1 →
      (s.localTaken w slot.toNat).checkReq r e (if w = .trade then 5 else 4) = 0 → s.dict.fwds.any (fun f => f.req.op == 2 && f.req.key == r.key) = false →
      e.ember = false → e.expert = false → s.dict.areaBusy (ownerWorld e.owner) = false →
      ∃ t, exec (.laneClearPermit w slot) s = .next t ∧ t.dev.permits = (16 + p.toNat, s.now + 1000000) :: s.dev.permits.filter (fun x => x.1 != 16 + p.toNat))
  ∧ (∀ k : BitVec 5, ∃ t, exec (.permitExpiry k) s = .next t ∧ s.onlyIn t [.dev] ∧ t.dev.permits = s.dev.permits.filter (fun x => !(x.1 == k.toNat && decide (x.2 ≤ s.now)))
      ∧ ∀ j, t.permitted j = s.permitted j)

/-- The backbone switch (R426, R427, R430, R431): frames at a port, ageing, its registers, its links. -/
def Obligations.BackboneRuns : Prop := ∀ (s : State) (p : BitVec 1) (frame : List Byte),
  let slot := 0x079 + p.toNat
  let up := bit (s.reg slot 0x1000) 31 = true ∧ bit (s.reg slot 0x1004) 31 = true
  let fcsTimes := s.now :: (vget s.bb.fcs p.toNat []).filter (fun t => decide (s.now < t + 1000000))
  (¬ up → exec (.backboneFrameForward p true frame) s = .next s)
  ∧ (up → (bit (s.reg 0x078 0x1000) 31 = false ∨ 1518 < frame.length) →
      exec (.backboneFrameForward p true frame) s = .next ((s.modReg slot 0x1008 (· + 1)).modReg slot 0x1014 (· + 1)))
  ∧ (up → bit (s.reg 0x078 0x1000) 31 = true → frame.length ≤ 1518 →
      exec (.backboneFrameForward p true frame) s = .next ((s.modReg slot 0x1008 (· + 1)).forwardFrom State.hostSleep p.toNat frame))
  ∧ (up → 16 ≤ fcsTimes.length → ∃ t, exec (.backboneFrameForward p false frame) s = .next t ∧ bit (t.reg slot 0x1004) 31 = false ∧ fld (t.reg slot 0x1004) 3 0 = 2
      ∧ bit (t.reg slot 0x1018) 1 = true ∧ t.reg slot 0x1010 = s.reg slot 0x1010 + 1
      ∧ t.upsets = s.upsets ++ [.upset { cls := 2, num := p.toNat, kind := some 2, pa := 0, hard := false }])
  ∧ (∀ row d a, s.vlanRow (s.vlanOf p.toNat frame).1 = some row → bit row (20 + p.toNat) = true → groupAddr frame = false →
      s.bb.addrs.find? (fun x => x.mac == ofBytesBE ((frame.drop 6).take 6)) = some d → d.port = p.toNat → d.seen = s.now →
      s.bb.addrs.Pairwise (fun x y => x.mac ≠ y.mac) →
      groupAddr ((frame.drop 6).take 6) = false → s.bb.addrs.find? (fun x => x.mac == ofBytesBE (frame.take 6)) = some a →
      s.forwardFrom State.hostSleep p.toNat frame
        = if a.port ≠ p.toNat ∧ bit row (20 + a.port) = true then s.egress State.hostSleep row (s.vlanOf p.toNat frame).2 frame a.port else s)
  ∧ (s.vlanRow (s.vlanOf p.toNat frame).1 = none →
      s.forwardFrom State.hostSleep p.toNat frame = (s.modReg slot 0x1014 (· + 1)).newEvent 0x078 0x1200 256 2)
  ∧ (∃ t, exec .addressAgeing s = .next t ∧ s.onlyIn t [.bb]
      ∧ t.bb.addrs = s.bb.addrs.filter (fun a => decide (s.now < a.seen + (s.reg 0x078 0x1004).toNat * 1000000)))
  ∧ (∀ q v k, k < 64 → s.admits q 0x078 (0x1100 + 4 * k) →
      (bit v 31 = true → ∀ j, j < 64 → j ≠ k → bit (s.reg 0x078 (0x1100 + 4 * j)) 31 = true → fld (s.reg 0x078 (0x1100 + 4 * j)) 11 0 ≠ fld v 11 0) →
      exec (.switchRegisterWrite q 0 (BitVec.ofNat 16 (0x1100 + 4 * k)) v) s = .next (s.plainWrite .trade 0x078 (0x1100 + 4 * k) v).done)
  ∧ (∀ q v k j, k < 64 → j < 64 → j ≠ k → s.admits q 0x078 (0x1100 + 4 * k) → bit v 31 = true → bit (s.reg 0x078 (0x1100 + 4 * j)) 31 = true →
      fld (s.reg 0x078 (0x1100 + 4 * j)) 11 0 = fld v 11 0 →
      exec (.switchRegisterWrite q 0 (BitVec.ofNat 16 (0x1100 + 4 * k)) v) s = .next { s with resp := some (.err busErr) })
  ∧ (∀ kind : BitVec 4, ∃ t, exec (.backboneLinkUpset p kind) s = .next t ∧ bit (t.reg slot 0x1004) 31 = false ∧ fld (t.reg slot 0x1004) 3 0 = kind.toNat
      ∧ bit (t.reg slot 0x1018) 1 = true ∧ t.upsets = s.upsets ++ [.upset { cls := 2, num := p.toNat, kind := some kind.toNat, pa := 0, hard := false }]
      ∧ s.regsBut t [(slot, 0x1004), (slot, 0x1018)])
  ∧ (∀ speed : BitVec 2, ∀ lpi mdix, speed.toNat ≤ 2 → bit (s.reg slot 0x1000) 31 = true → bit (s.reg slot 0x1000) (16 + speed.toNat) = true →
      bit (s.reg slot 0x1004) 31 = false → vget s.bb.hold p.toNat 0 ≤ s.now → (Sparse.get LRec.reset (32 + p.toNat) s.ledger.recs).st ≠ 2 →
      ∃ t, exec (.backboneLinkChange p true speed lpi mdix) s = .next t ∧ bit (t.reg slot 0x1004) 31 = true ∧ fld (t.reg slot 0x1004) 29 28 = speed.toNat
        ∧ bit (t.reg slot 0x1018) 0 = true ∧ s.regsBut t [(slot, 0x1004), (slot, 0x1018)])
  ∧ (s.bridgeDown = true → arpFor frame s.dict.address = false → exec (.hostFrameInSleep frame) s = .next s)
  ∧ (s.bridgeDown = true → s.dict.clk ≠ .stopped → arpFor frame s.dict.address = true →
      exec (.hostFrameInSleep frame) s = .next (s.forwardFrom (fun s _ => s) 2 (arpReply frame s.dict.address)))

/-- The IEEE 1588 time block (R429): offsets and the lock, the trim, steps, a set time, the loss of the lock, time stamps. -/
def Obligations.TimeBlockRuns : Prop := ∀ (s : State) (q : Req) (v : Word),
  let ofs := ((v.toInt, s.now) :: s.tb.ofs).take 4
  let good := 4 ≤ ofs.length ∧ ∀ o ∈ ofs, -1000 ≤ o.1 ∧ o.1 ≤ 1000
  (s.admits q 0x07B 0x1010 → good → ∃ t, exec (.tbofs q v) s = .next t ∧ t.tb.locked = true ∧ t.tb.holdover = none ∧ t.tb.ofs = ofs ∧ s.onlyIn t [.tb, .rtc, .resp])
  ∧ (s.admits q 0x07B 0x1010 → ¬ good → s.tb.locked = true → ∃ t, exec (.tbofs q v) s = .next t ∧ t.tb.locked = false ∧ t.tb.holdover = some s.now ∧ t.tb.ofs = ofs
      ∧ s.onlyIn t [.tb, .resp])
  ∧ (s.admits q 0x07B 0x100C → -500000 ≤ v.toInt → v.toInt ≤ 500000 → exec (.tbadjWrite q v) s = .next (s.setReg 0x07B 0x100C v).done)
  ∧ (s.admits q 0x07B 0x100C → (v.toInt < -500000 ∨ 500000 < v.toInt) → exec (.tbadjWrite q v) s = .next { s with resp := some (.err busErr) })
  ∧ (s.admits q 0x07B 0x1014 → ∃ t, exec (.tbstep q v) s = .next t ∧ (t.ptp : Int) = ((s.ptp : Int) + v.toInt) % 2 ^ 64
      ∧ t.tb.locked = false ∧ t.tb.ofs = [] ∧ s.onlyIn t [.tb, .ptp, .resp])
  ∧ (s.admits q 0x07B 0x1020 → ∃ t, exec (.tbset q v) s = .next t
      ∧ t.ptp = (s.reg 0x07B 0x101C).toNat * 2 ^ 32 + (s.reg 0x07B 0x1018).toNat ∧ t.tb.locked = false ∧ t.tb.ofs = [] ∧ s.onlyIn t [.tb, .ptp, .resp])
  ∧ (∀ o, s.tb.ofs.head? = some o → o.2 + 2000000 ≤ s.now → s.tb.locked = true → ∃ t, exec .lockLoss s = .next t ∧ s.onlyIn t [.tb]
      ∧ t.tb = { s.tb with locked := false, holdover := some s.now })
  ∧ (∀ (p : BitVec 1) (tx : Bool) (mtype : BitVec 4) (sid : BitVec 16), let o := 0x1100 + 32 * p.toNat + (if tx = true then 0x10 else 0)
      (bit (s.reg 0x07B (o + 8)) 31 = true → exec (.ptpTimestamp p tx mtype sid) s = .next s)
      ∧ (bit (s.reg 0x07B (o + 8)) 31 = false → ∃ t, exec (.ptpTimestamp p tx mtype sid) s = .next t ∧ t.reg 0x07B o = BitVec.ofNat 32 s.ptp
          ∧ t.reg 0x07B (o + 4) = BitVec.ofNat 32 (s.ptp / 2 ^ 32) ∧ bit (t.reg 0x07B (o + 8)) 31 = true ∧ fld (t.reg 0x07B (o + 8)) 19 16 = mtype.toNat
          ∧ fld (t.reg 0x07B (o + 8)) 15 0 = sid.toNat ∧ s.regsBut t [(0x07B, o), (0x07B, o + 4), (0x07B, o + 8)]))

/-- The USB ports (R432 to R434, Tables 13-10a to 13-10d): the role, the bus reset, suspend and resume, what happens at the lines, a transfer. -/
def Obligations.UsbPortsRun : Prop := ∀ (s : State) (q : Req) (u : BitVec 1) (v : Word),
  let slot := 0x07C + u.toNat
  let x := s.usbPort u.toNat
  (s.admits q slot 0x0800 → x.attached = false → exec (.uctlWrite q u v) s
      = .next ((s.setReg slot 0x0800 (v &&& 3)).modUsb u.toNat (fun x => { x with role := fld v 1 0, addr := 0 })).done)
  ∧ (s.admits q slot 0x0800 → x.attached = true → exec (.uctlWrite q u v) s = .next (s.setReg slot 0x0800 (v &&& 3)).done)
  ∧ (s.admits q slot 0x0808 → x.host = true → exec (.uportReset q u) s
      = .next ((s.setReg slot 0x0808 (s.reg slot 0x0808 &&& 2)).modUsb u.toNat (fun x => { x with resetEnd := some (s.now + 50000) })).done)
  ∧ (∀ on, s.admits q slot 0x0808 → x.host = true → exec (.uportSuspend q u on) s = .next (s.setReg slot 0x0808 (if on = true then 2 else 0)).done)
  ∧ (s.admits q slot 0x0808 → x.host = true → exec (.uportResume q u) s = .next (s.setReg slot 0x0808 0).done)
  ∧ (s.admits q slot 0x0808 → x.host = false → exec (.uportResume q u) s = .next s.done)
  ∧ (∀ sp : BitVec 2, s.usbState u.toNat = 1 → ∃ t, exec (.usbPortEvent u (.attach sp)) s = .next t ∧ (t.usbPort u.toNat).attached = true
      ∧ (t.usbPort u.toNat).speed = sp.toNat ∧ bit (t.reg slot 0x080C) 0 = true ∧ (x.host = true → t.reg slot 0x1020 = 0))
  ∧ (x.attached = true → ∃ t, exec (.usbPortEvent u .detach) s = .next t ∧ (t.usbPort u.toNat).attached = false
      ∧ (t.usbPort u.toNat).role = fld (s.reg slot 0x0800) 1 0 ∧ bit (t.reg slot 0x080C) 1 = true)
  ∧ (s.usbState u.toNat < 3 → ∃ t, exec (.usbPortEvent u .overcurrent) s = .next t ∧ (t.usbPort u.toNat).hold = some 0 ∧ bit (t.reg slot 0x080C) 2 = true
      ∧ t.upsets = s.upsets ++ [.upset { cls := 3, num := u.toNat, kind := none, pa := 0, hard := false }])
  ∧ (∀ on, exec (.usbPortEvent u (.vbus on)) s = .next (s.modUsb u.toNat (fun x => { x with vbus := on })))
  ∧ (∀ (e : BitVec 5) (ep : BitVec 8) (bytes : List Byte) s1 d, let tgt := s.reg slot (0x1020 + 64 * e.toNat)
      let n := fld tgt 11 8 + 128 * b2n (bit tgt 14)
      x.attached = true → s.qRuns (usbQ u.toNat e.toNat) = true → x.resetEnd = none → s.qFetch (usbQ u.toNat e.toNat) none = (s1, some d) → d.own = true →
      (x.host = false → e.toNat < 4 → 0 < bytes.length → bytes.length ≤ d.buflen → s1.qCheck (usbQ u.toNat e.toNat) d.buf bytes.length = none →
        exec (.usbTransferComplete u e true ep bytes) s
          = .next ((s1.masterWriteMem d.buf bytes).qComplete (usbQ u.toNat e.toNat) 0 bytes.length ep.toNat s1.time32))
      ∧ (x.host = true → fld tgt 13 12 = 1 ∨ fld tgt 13 12 = 2 → bit tgt 14 = true → 0 < bytes.length → bytes.length ≤ d.buflen →
          s1.qCheck (usbQ u.toNat e.toNat) d.buf bytes.length = none → exec (.usbTransferComplete u e true ep bytes) s
            = .next ((s1.masterWriteMem d.buf bytes).qComplete (usbQ u.toNat e.toNat) 0 bytes.length n s1.time32))
      ∧ (x.host = true → fld tgt 13 12 = 0 → 8 + bytes.length ≤ d.buflen → s1.qCheck (usbQ u.toNat e.toNat) d.buf (8 + bytes.length) = none →
          exec (.usbTransferComplete u e true ep bytes) s
            = .next ((((s1.masterRead d.buf 8).1.send (.usb u (BitVec.ofNat 4 n) (s1.masterRead d.buf 8).2.1)).masterWriteMem (d.buf + 8) bytes).qComplete
                (usbQ u.toNat e.toNat) 0 (8 + bytes.length) n s1.time32)))
  ∧ (∀ (e : BitVec 5) (ep : BitVec 8) (bytes : List Byte), x.attached = false → exec (.usbTransferComplete u e true ep bytes) s = .next s)

/-- The seal engine (R436 to R442, Tables 14-2 and 14-3): its key commands on the slot that KSEL names, a submitted job and the job that runs: a frame sealed under
the slot's key with its next SEQ, or a status and no frame.
The end of a seal job (R440 step 6): it is counted, a refusal in LASTERR too, and JSTAT and SEQOUT go to the descriptor. -/
def Obligations.SealEngineCommanded : Prop :=
  (∀ (s : State) (q : Req) (v : Word),
  let k := fld (s.reg 0x030 0x1100) 4 0
  let x := s.keySlot k
  let hidden := s.modSeal (fun e => { e with shown := false })
  let refused (t : State) : State := { t with resp := some (.err busErr) }
  (s.admits q 0x030 0x1104 →
    (∀ id seq, id = fld (s.kdata 4) 15 0 → seq = (s.kdata 5).toNat → id ≠ 0 → s.pairHeld k id = false → seq ≤ 0xFFFEFFFF →
        exec (.loadClear q) s = .next ((hidden.setKeySlot k { key := ((List.range 4).map (fun i => toBytes 4 (s.kdata i).toNat)).flatten, pairid := id, seq := seq
                                                              limit := seq + 65536, valid := true, armed := false }).setKdata [] false).done)
    ∧ (fld (s.kdata 4) 15 0 = 0 → ∃ t, exec (.loadClear q) s = .next t ∧ t.resp = some (.err busErr) ∧ t.sealEng.slots = s.sealEng.slots)
    ∧ (exec (.loadWrapped q) s = .next (match keyUnwrap wrapKey ((List.range 10).map (fun i => toBytes 4 (s.kdata i).toNat)).flatten with
        | some p => if s.pairHeld k (frameVal p 16 2) = true ∨ 0xFFFEFFFF < frameVal p 20 4 then refused s
          else ((hidden.setKeySlot k { key := p.take 16, pairid := frameVal p 16 2, seq := frameVal p 20 4, limit := frameVal p 20 4 + 65536, valid := true
                                       armed := false }).setKdata [] false).done
        | none => refused s))
    ∧ (x.valid = true → ∃ t, exec (.wrapOut q) s = .next t ∧ t.keySlot k = { x with armed := true } ∧ t.sealEng.shown = true ∧ t.resp = some (.ok 0)
        ∧ (∀ i, i < 10 → t.kdata i = BitVec.ofNat 32 (frameVal x.wrapped (4 * i) 4)))
    ∧ (x.valid = false → ∃ t, exec (.wrapOut q) s = .next t ∧ t.resp = some (.err busErr) ∧ t.sealEng.slots = s.sealEng.slots)
    ∧ (exec (.erase q) s = .next (hidden.setKeySlot k KeySlot.reset).done)
    ∧ (x.valid = true → x.limit ≤ 0xFFFEFFFF → exec (.extend q) s = .next (hidden.setKeySlot k { x with limit := x.limit + 65536, armed := false }).done))
  ∧ (s.admits q 0x030 0x1004 → s.sealEng.jobs.length < 8 → exec (.jsubmit q v) s = .next (s.modSeal (fun e => { e with jobs := e.jobs ++ [v.toNat * 16] })).done)
  ∧ (s.admits q 0x030 0x1004 → 8 ≤ s.sealEng.jobs.length → exec (.jsubmit q v) s = .next (refused s))
  ∧ (s.sealEng.jobs = [] → exec .sealJobRun s = .next s)
  ∧ (∀ a r, s.sealEng.jobs = a :: r → let s0 := s.modSeal (fun e => { e with jobs := r })
      let b := s.mem.read a 48
      let y := s.keySlot (frameByte b 0x24)
      let dest := frameVal b 0x20 4 * 16
      s0.sealMay a 48 false = true → s.isDamaged a 48 = false →
      ((y.valid = false ∨ y.armed = false) → exec .sealJobRun s = .next (s0.jobEnd a (frameByte b 0x25) 1 0))
      ∧ (y.valid = true → y.armed = true → y.seq = y.limit → exec .sealJobRun s = .next (s0.jobEnd a (frameByte b 0x25) 2 0))
      ∧ (y.valid = true → y.armed = true → y.seq ≠ y.limit → jobValid b = false → exec .sealJobRun s = .next (s0.jobEnd a (frameByte b 0x25) 3 0))
      ∧ (y.valid = true → y.armed = true → y.seq ≠ y.limit → jobValid b = true → s0.sealMay dest 40 true = true →
          (s0.masterStore dest (s0.sealFrame y b)).2 = false → exec .sealJobRun s
            = .next ((((s0.masterStore dest (s0.sealFrame y b)).1.setKeySlot (frameByte b 0x24) { y with seq := y.seq + 1 }).jobEnd a (frameByte b 0x25) 0 y.seq)))))
  ∧ (∀ (s : State) (a flags seq : Nat) (st : Nat), st < 256 → seq < 2 ^ 32 →
  s.sealMay (a + 0x26) 6 true = true → s.place (a + 0x26) = .sram → s.place (a + 0x28) = .sram → s.isDamaged (a + 0x20) 16 = false → a % 16 = 0 →
  let t := s.jobEnd a flags st seq
  t.reg 0x030 (if st = 0 then 0x1008 else 0x100C) = s.reg 0x030 (if st = 0 then 0x1008 else 0x100C) + 1
  ∧ (st ≠ 0 → fld (t.reg 0x030 0x1000) 7 0 = st)
  ∧ t.mem.val (a + 0x26) 1 = st ∧ t.mem.val (a + 0x28) 4 = seq
  ∧ (∀ p, p ≠ a + 0x26 → (p < a + 0x28 ∨ a + 0x2C ≤ p) → t.mem.byte p = s.mem.byte p)
  ∧ t.sealEng = s.sealEng)

/-- The journal (R448 to R450, R453, R454): JLOCK locks, JEXPSEQ moves only forward, a gathered line is programmed where it is the next record, an export names
its records, an acknowledgement moves JEXPSEQ. -/
def Obligations.JournalKept : Prop := ∀ (s : State) (q : Req) (v : Word),
  let jnext := s.reg 0x030 0x1208
  let jexp := s.reg 0x030 0x120C
  let locked := bit (s.reg 0x030 0x1204) 0 = true
  let bank := (s.journalBase - 0x8000000) / 0x100000 % 4
  let bs := s.sealEng.gather.map (·.2)
  let line := s.journalLine jnext.toNat
  let emptied := s.modSeal (fun e => { e with gather := [] })
  (s.admits q 0x030 0x1204 → exec (.jlock q v) s = .next (s.setReg 0x030 0x1204 (s.reg 0x030 0x1204 ||| (v &&& 1))).done)
  ∧ (s.admits q 0x030 0x120C → (locked → jexp < v ∧ v ≤ jnext) → exec (.jexpseqWrite q v) s = .next (s.setReg 0x030 0x120C v).done)
  ∧ (s.admits q 0x030 0x120C → locked → (v ≤ jexp ∨ jnext < v) → exec (.jexpseqWrite q v) s = .next { s with resp := some (.err busErr) })
  ∧ (s.sealEng.gather.length < 64 → exec .journalLineCheck s = .next s)
  ∧ (locked → s.sealEng.gather.length = 64 → vget s.mem.progs bank none = none → (ofBytes (bs.take 4) ≠ jnext.toNat ∨ 16384 ≤ (jnext - jexp).toNat) →
      exec .journalLineCheck s = .next (emptied.journalRefuse line))
  ∧ (locked → s.sealEng.gather.length = 64 → vget s.mem.progs bank none = none → ofBytes (bs.take 4) = jnext.toNat → (jnext - jexp).toNat < 16384 →
      ∃ t, exec .journalLineCheck s = .next t ∧ t.reg 0x030 0x1208 = jnext + 1 ∧ t.sealEng.gather = [] ∧ t.sealEng.busy = true
        ∧ vget t.mem.progs bank none = some { line := line, mask := BitVec.allOnes 64, who := .seal, old := s.mem.read line 64 }
        ∧ t.mem.bytes = (emptied.memWrite line bs).mem.bytes)
  ∧ (∀ k r, s.dict.granted .trade = some (3, k) → s.exportOf (s.dict.cmd 3).arg = .error r →
      exec .journalExport s = .next (s.stepDone .trade (BitVec.ofNat 32 (1 + r * 2 ^ 16))))
  ∧ (∀ k e res, s.dict.granted .trade = some (3, k) → s.exportOf (s.dict.cmd 3).arg = .ok (e, res) →
      let s1 := (s.stepN .trade 1).stepDone .trade 0
      (s1.dict.cmd 3).st = 2 → ∃ t, exec .journalExport s = .next t ∧ t.sealEng.exported = some e ∧ (t.dict.cmd 3).result = res ∧ s1.onlyIn t [.dict, .sealEng, .free])
  ∧ (∀ e, s.sealEng.exported = some e → e.first ≤ v.toNat → v.toNat < e.first + e.count → jexp ≤ v → exec (.exportAcknowledge v) s
      = .next (((s.journalAppend 11 0 0xFF (toBytes 4 v.toNat ++ toBytes 4 (v.toNat + 1))).jexpWrite (v + 1)).1.tradeAnswer 0x801201 0))
  ∧ (s.sealEng.exported = none → exec (.exportAcknowledge v) s = .next (s.tradeAnswer 0x801201 6))

/-- Pairing (R446, R447): a target outside the lanes is answered RANGE, a pairing in progress BUSY; one with every message loads the slot, and DONE records
it; the timeout and UNPAIR erase the slot. -/
def Obligations.DisplaysPaired : Prop := ∀ (s : State) (target : BitVec 16) (anchors : List (List Byte)) (accept done : Option (List Byte)),
  let lane := target.toNat / 256
  let node := target.toNat % 256
  ((15 < lane ∨ node = 0 ∨ 7 < node) → exec (.pair target anchors accept done) s = .next (s.tradeAnswer 0x800201 6))
  ∧ (lane ≤ 15 → 1 ≤ node → node ≤ 7 → s.sealEng.pairing.isSome = true → exec (.pair target anchors accept done) s = .next (s.tradeAnswer 0x800201 8))
  ∧ (∀ k, lane ≤ 15 → 1 ≤ node → node ≤ 7 → s.sealEng.pairing = none → let s0 := s.tradeAnswer 0x800201 0
      (List.range 32).find? (fun k => !(s0.keySlot k).valid) = some k →
      exec (.pair target anchors none done) s = .next { s0.modSeal (fun e => { e with
        pairing := some { lane := lane, node := node, slot := k, pairid := s0.newPairid, since := s0.now }, pairResult := 7 }) with free := s0.free + 5 })
  ∧ (∀ (p : Pairing) (d : List Byte), d.length = 6 → frameVal d 0 2 = p.pairid → frameVal d 2 4 = 1 → s.pairDone p d
      = (s.modSeal (fun e => { e with pairing := none, pairResult := 1, pairings := Sparse.put p.pairid p e.pairings })).journalAppend 6 0 p.lane (s.pairData p))
  ∧ (∀ (p : Pairing) (key : List Byte), key.length = 16 → 0 < p.pairid → p.pairid < 65536 → p.slot < 32 → s.pairHeld p.slot p.pairid = false →
      ∃ x, (s.pairLoad p key).keySlot p.slot = x ∧ x.key = key ∧ x.pairid = p.pairid ∧ x.seq = 2 ∧ x.limit = 65537 ∧ x.valid = true ∧ x.armed = true)
  ∧ (∀ p, s.sealEng.pairing = some p → p.since + 10000000 ≤ s.now → ∃ t, exec .pairingTimeout s = .next t ∧ t.sealEng.pairing = none ∧ t.sealEng.pairResult = 2
      ∧ (p.slot < 32 → (t.keySlot p.slot).valid = false))
  ∧ (∀ p, s.sealEng.pairing = some p → s.now < p.since + 10000000 → exec .pairingTimeout s = .next s)
  ∧ (∀ id : BitVec 16, s.sealEng.slots.find? (fun x => x.2.valid && x.2.pairid == id.toNat) = none → exec (.unpair id) s = .next (s.tradeAnswer 0x800202 6))
  ∧ (∀ (id : BitVec 16) x p, s.sealEng.slots.find? (fun x => x.2.valid && x.2.pairid == id.toNat) = some x → Sparse.find? id.toNat s.sealEng.pairings = some p →
      exec (.unpair id) s = .next (((((s.setReg 0x030 0x1100 (BitVec.ofNat 32 x.1)).keyErase.modSeal (fun e =>
        { e with pairings := Sparse.erase id.toNat e.pairings })).journalAppend 6 4 p.lane (s.pairData p)).tradeAnswer 0x800202 0)))

/-- The hot-swap controllers (R463 to R471, Table 15-7): switching on, ramps, upsets with their back-off or ashing, hard signatures, the end of a back-off, the
ash load, a clear under a permit. Each answered access is a frame of the causeway (R13). -/
def Obligations.PortsSwitched : Prop := ∀ (s : State) (q : Req) (p : BitVec 4) (v : Word),
  let slot := 0x090 + p.toNat
  let seen := s.modBus (fun b => { b with cwLast := s.now })
  let h := s.hot p.toNat
  let legal := 10 ≤ fld v 23 16 ∧ fld v 23 16 ≤ 250 ∧ 5 ≤ fld v 7 0 ∧ fld v 7 0 ≤ 50
  let ups := s.now :: h.ups.filter (fun t => decide (s.now < t + s.portWindow))
  (s.admits q slot 0x1000 → legal → bit v 31 = true → s.bus.ashloaded = true → s.pst p.toNat = 0 → s.bstate ≠ 4 → s.over = false →
      exec (.pctlWrite q p v) s = .next ((seen.plainWrite .trade slot 0x1000 v).portInrush p.toNat).done)
  ∧ (s.admits q slot 0x1000 → (¬ legal ∨ (bit v 31 = true ∧ s.bus.ashloaded = false)) →
      exec (.pctlWrite q p v) s = .next { seen with resp := some (.err busErr) })
  ∧ (s.pst p.toNat = 1 → exec (.inrushComplete p) s = .next ((s.modHot p.toNat (fun h => { h with inrush := none })).setPst p.toNat 2).restoreCheck)
  ∧ (∀ kind : BitVec 4, s.upsetApplies p.toNat kind.toNat = true → ups.length < s.portThresh → ups.length < 256 → ∃ t, exec (.portUpset p kind) s = .next t
      ∧ t.pst p.toNat = 3 ∧ fld (t.preg p.toNat 0x1004) 15 12 = kind.toNat ∧ fld (t.preg p.toNat 0x1004) 23 16 = ups.length
      ∧ fld (t.preg p.toNat 0x1004) 11 10 = min (ups.length - 1) 3 ∧ (t.hot p.toNat).ups = ups
      ∧ (t.hot p.toNat).due = some (s.now + s.portRetry (min (ups.length - 1) 3) * 1000)
      ∧ t.upsets = s.upsets ++ [.outcome p.toNat kind.toNat ups.length (min (ups.length - 1) 3) false])
  ∧ (∀ kind : BitVec 4, s.upsetApplies p.toNat kind.toNat = true → s.portThresh ≤ ups.length →
      ∃ t, exec (.portUpset p kind) s = .next t ∧ t.pst p.toNat = 5 ∧ (t.hot p.toNat).due = none)
  ∧ (∀ kind : BitVec 4, s.hardApplies p.toNat kind.toNat = true → ∃ t, exec (.hardSignature p kind) s = .next t ∧ t.pst p.toNat = 5
      ∧ fld (t.preg p.toNat 0x1004) 15 12 = kind.toNat ∧ fld (t.preg p.toNat 0x1004) 23 16 = fld (s.preg p.toNat 0x1004) 23 16)
  ∧ (∀ d, s.pst p.toNat = 3 → h.hot = false → s.bus.cwLost = false → h.due = some d → d ≤ s.now →
      exec (.portBackoffExpiry p) s = .next (s.portInrush p.toNat))
  ∧ (s.bus.cwLost = true → exec (.portBackoffExpiry p) s = .next s)
  ∧ (∀ temp : BitVec 8, s.pst p.toNat = 3 → h.hot = true → temp.toInt ≤ s.tfet - 15 →
      exec (.fetCooled p temp) s = .next ((s.modHot p.toNat (fun h => { h with hot := false })).portBackoff p.toNat))
  ∧ (s.admits q 0x081 0x100C → exec (.ashload q v) s = .next ((List.range 16).foldl (fun s p => if bit v p = true then s.portAsh p else s)
      ((seen.modReg 0x081 0x100C (· ||| (v &&& 0xFFFF))).modBus (fun b => { b with ashloaded := true }))).done)
  ∧ (∀ (w : World) (slot : BitVec 5) (e : DictDesc), let r := s.localRecord w slot.toNat
      s.localReady w slot.toNat → r.op = 2 → r.key = 0x110301 → s.dict.entry r.key = some e → e.key = r.key → ofBytes r.value = p.toNat →
      (s.localTaken w slot.toNat).checkReq r e (if w = .trade then 5 else 4) = 0 → s.dict.fwds.any (fun f => f.req.op == 2 && f.req.key == r.key) = false →
      (e.ember = false → s.dict.areaBusy (ownerWorld e.owner) = false) →
      ∃ t, exec (.portClearPermit w slot) s = .next t ∧ t.dev.permits = (p.toNat, s.now + 1000000) :: s.dev.permits.filter (fun x => x.1 != p.toNat))
  ∧ (s.admits q slot 0x1018 → s.permitted p.toNat = true → s.pst p.toNat = 5 → ∃ t, exec (.pashclr q p v) s = .next t ∧ t.pst p.toNat = 0
      ∧ bit (t.preg p.toNat 0x1000) 31 = false ∧ fld (t.preg p.toNat 0x1004) 23 16 = 0 ∧ fld (t.preg p.toNat 0x1004) 11 10 = 0 ∧ (t.hot p.toNat).ups = []
      ∧ t.upsets = s.upsets ++ [.clear p.toNat])
  ∧ (s.admits q slot 0x1018 → s.permitted p.toNat = false → exec (.pashclr q p v) s = .next seen.done)

/-- The budget and charging (R472 to R475, R478): measurements, the shed and the restore of one port, CEIL, the charge row for the temperature, a full bank, an
upset of the converter, its registers, the sequencer tables. -/
def Obligations.BudgetKept : Prop := ∀ (s : State) (q : Req) (v : Word),
  let seen := s.modBus (fun b => { b with cwLast := s.now })
  (∀ m : PowerMeas, let i := busCurrent m
      let ceil := fld (s.reg 0x081 0x1008) 15 0 * 10
      ∃ t, exec (.budgetTick m) s = .next t ∧ t.reg 0x081 0x1004 = BitVec.ofNat 32 (min (i / 10) 0xFFFF) ∧ t.over = decide (ceil < i)
        ∧ fld (t.reg 0x081 0x1000) 15 0 = m.vbus.toNat ∧ t.vstore = m.vstore.toNat ∧ t.bus.overSince = (if ceil < i then some (s.bus.overSince.getD s.now) else none)
        ∧ t.bus.lowSince = (if 10 * i ≤ 9 * ceil then some (s.bus.lowSince.getD s.now) else none)
        ∧ (∀ p, p < 16 → t.preg p 0x1008 = (m.imeas.getD p 0).setWidth 32 ∧ t.pst p = s.pst p))
  ∧ (∀ d p, s.bus.overSince = some d → d + s.btime ≤ s.now → s.charging = false → s.shedPick 1 = some p →
      exec .budgetShed s = .next (((s.modBus (fun b => { b with overSince := some s.now })).portShed p 0).restoreCheck))
  ∧ (∀ d, s.bus.overSince = some d → d + s.btime ≤ s.now → s.charging = true → ∃ t, exec .budgetShed s = .next t ∧ s.onlyIn t [.bus]
      ∧ t.bus.charge = some (s.bus.charge.getD s.rowCurrent - (fld (s.reg 0x081 0x1004) 15 0 - fld (s.reg 0x081 0x1008) 15 0) * 10))
  ∧ (∀ p, s.shedPick 1 = some p → p < 16 ∧ 1 ≤ s.pclass p ∧ (s.pst p = 1 ∨ s.pst p = 2)
      ∧ ∀ r, r < 16 → (s.pst r = 1 ∨ s.pst r = 2) → 1 ≤ s.pclass r → s.pclass r < s.pclass p ∨ (s.pclass r = s.pclass p ∧ r ≤ p))
  ∧ (∀ d p, s.bstate = 0 → s.bus.cwLost = false → s.bus.lowSince = some d → d + 1000000 ≤ s.now → s.restorePick (· == 0) = some p →
      ∃ t, exec .budgetRestore s = .next t ∧ t.pst p = 1 ∧ t.bus.lowSince = some s.now ∧ bit (t.preg p 0x101C) 4 = true)
  ∧ (∀ p, s.restorePick (· == 0) = some p → p < 16 ∧ s.pst p = 4 ∧ s.shr p = 0
      ∧ ∀ r, r < 16 → s.pst r = 4 → s.shr r = 0 → s.pclass p < s.pclass r ∨ (s.pclass p = s.pclass r ∧ p ≤ r))
  ∧ (s.admits q 0x081 0x1008 → 100 ≤ fld v 15 0 → fld v 15 0 ≤ 4000 → exec (.ceilWrite q v) s = .next (seen.setReg 0x081 0x1008 (v &&& 0xFFFF)).done)
  ∧ (s.admits q 0x081 0x1008 → (fld v 15 0 < 100 ∨ 4000 < fld v 15 0) → exec (.ceilWrite q v) s = .next { seen with resp := some (.err busErr) })
  ∧ (∀ own : BitVec 8, (s.bus.convAshed = true ∨ s.sstate = 4) → exec (.chargeEvaluation own) s = .next s)
  ∧ (∀ (own : BitVec 8) r, s.bus.convAshed = false → s.sstate ≠ 4 → bit (s.reg 0x083 0x1000) 31 = true → s.bstate = 0 →
      (∀ k, k < 8 → bit (s.tab (0x1340 + 4 * k)) 16 = false) → s.chargeRow own.toInt = some r → s.vstore < s.rowVcv r → 100 * s.vstore < 98 * s.rowVcv r →
      ∃ t, exec (.chargeEvaluation own) s = .next t ∧ t.sstate = 1 ∧ t.bus.row = some r ∧ t.bus.fullSince = none)
  ∧ (∀ own : BitVec 8, s.bus.convAshed = false → s.sstate ≠ 4 → bit (s.reg 0x083 0x1000) 31 = true → s.bstate = 0 →
      (∀ k, k < 8 → bit (s.tab (0x1340 + 4 * k)) 16 = false) → s.chargeRow own.toInt = none →
      ∃ t, exec (.chargeEvaluation own) s = .next t ∧ t.sstate = 5 ∧ t.bus.row = none ∧ (s.sstate ≠ 5 → bit (t.reg 0x083 0x1024) 1 = true))
  ∧ (∀ d, s.sstate = 2 → s.bus.fullSince = some d → d + 10000000 ≤ s.now → exec .chargeFull s = .next ((s.setSstate 3).sevent 1))
  ∧ (exec .converterUpset s = .next ((s.sevent 4).report { cls := 7, num := 1, kind := none, pa := 0, hard := false }))
  ∧ (∀ off : BitVec 4, s.admits q 0x083 (0x1000 + off.toNat / 4 * 4) → s.bus.convAshed = false →
      exec (.storageRegisterWrite q off v) s = .next (seen.plainWrite .trade 0x083 (0x1000 + off.toNat / 4 * 4) v).done)
  ∧ (s.admits q 0x082 0x1004 → s.tableOk (fld v 3 0) = true → ∃ t, exec (.tapply q v) s = .next t ∧ t.reg 0x082 0x1000 = BitVec.ofNat 32 (fld v 3 0)
      ∧ (∀ off, off ∈ tableWords (fld v 3 0) → t.tab off = s.reg 0x082 off) ∧ (∀ off, off ∉ tableWords (fld v 3 0) → t.tab off = s.tab off)
      ∧ t.resp = some (.ok 0))
  ∧ (s.admits q 0x082 0x1004 → s.tableOk (fld v 3 0) = false → ∃ t, exec (.tapply q v) s = .next t ∧ bit (t.reg 0x082 0x1000) 31 = true
      ∧ t.bus.tabs = s.bus.tabs ∧ t.resp = some (.err busErr))

/-- The ride-through (R476): the switch-over, the classes shed after their delays, PMAX, the window's warning and expiry, the floor, the return of the bus and
the restores.
Shedding and restoring a port (R464, R465): SHED with its reason and no retry under way; INRUSH from now on. -/
def Obligations.RideThroughRuns : Prop :=
  (∀ (s : State) (x : BitVec 16) (c : BitVec 2),
  let rt := s.reg 0x083 0x1004
  let floor := fld (s.reg 0x083 0x1008) 15 0
  (x.toNat < fld rt 15 0 → bit (s.reg 0x083 0x1000) 30 = true → floor + 100 ≤ s.vstore → (s.bstate = 0 ∨ s.bstate = 3) →
      ∃ t, exec (.switchOver x) s = .next t ∧ t.bstate = 1 ∧ t.sstate = 4 ∧ t.reg 0x081 0x1014 = s.reg 0x081 0x1014 + 1 ∧ bit (t.reg 0x081 0x1018) 1 = true
        ∧ (∃ r, t.bus.ride = some r ∧ r.start = s.now ∧ r.vrt = fld rt 15 0 ∧ r.fwin = fld rt 31 16 * 1000000 ∧ r.floor = floor ∧ r.warned = false
            ∧ ∀ k, k < 4 → (r.shed.contains k = true ↔ s.shedDelay k = 0))
        ∧ ∀ p, p < 16 → 1 ≤ s.pst p → s.pst p ≤ 3 → s.shedDelay (s.pclass p) = 0 → t.pst p = 4 ∧ t.shr p = 1)
  ∧ (fld rt 15 0 ≤ x.toNat → exec (.switchOver x) s = .next s)
  ∧ (∀ r d, s.bus.ride = some r → r.delays.getD c.toNat 0xFFFFFFFF = d → d ≠ 0xFFFFFFFF → r.shed.contains c.toNat = false → r.start + d * 1000 ≤ s.now →
      exec (.classShedDelayExpiry c) s = .next ((s.modBus (fun b => { b with ride := some { r with shed := c.toNat :: r.shed } })).shedClass c.toNat 1))
  ∧ (∀ p, s.bstate = 1 → s.shedPick 0 = some p → exec .pmaxShed s = .next (s.portShed p 1))
  ∧ (∀ r, s.bus.ride = some r → r.warned = false → s.bstate = 1 → r.start + (r.fwin - r.fwarn) ≤ s.now → exec .finishWindowWarning s
      = .next (((s.modBus (fun b => { b with ride := some { r with warned := true } })).bevent 8).raise 294))
  ∧ (∀ r, s.bus.ride = some r → s.bstate = 1 → r.start + r.fwin ≤ s.now → exec .finishWindowExpiry s = .next (((s.shedClass 0 3).setBstate 2).bevent 16))
  ∧ (∀ r, s.bus.ride = some r → s.sstate = 4 → x.toNat ≤ r.floor →
      exec (.storageFloor x) s = .next (((s.modReg 0x083 0x1010 (fun v => setFld v 15 0 x.toNat)).setSstate 0).sevent 8))
  ∧ (∀ r, s.bus.ride = some r → (s.bstate = 1 ∨ s.bstate = 2) → r.vrt + 200 ≤ x.toNat → (∃ p, p < 16 ∧ s.pst p = 4 ∧ s.shr p ≠ 0) →
      ∃ t, exec (.busReturn x) s = .next t ∧ t.bstate = 3 ∧ t.bus.ride = none ∧ t.bus.nextRestore = some s.now ∧ t.sstate ≠ 4
        ∧ bit (t.reg 0x081 0x1018) 2 = true)
  ∧ (∀ d p, s.bstate = 3 → s.bus.cwLost = false → s.bus.nextRestore = some d → d ≤ s.now → s.restorePick (· != 0) = some p →
      exec .restoreStep s = .next ((s.portRestore p).modBus (fun b => { b with nextRestore := some (s.now + s.rstep), restored := some p })))
  ∧ (s.bstate = 3 → s.bus.cwLost = true → exec .restoreStep s = .next s))
  ∧ (∀ (s : State) (p : Nat) (reason : Nat), p < 16 → reason < 4 →
  let t := s.portShed p reason
  let r := s.portInrush p
  t.pst p = 4 ∧ t.shr p = reason ∧ (t.hot p).due = none ∧ bit (t.preg p 0x101C) 3 = true ∧ s.regsBut t [(0x090 + p, 0x1004), (0x090 + p, 0x101C)]
  ∧ r.pst p = 1 ∧ (r.hot p).inrush = some s.now ∧ (r.hot p).due = none ∧ s.regsBut r [(0x090 + p, 0x1004), (0x090 + p, 0x101C)]
  ∧ ∀ k, k ≠ p → t.hot k = s.hot k ∧ r.hot k = s.hot k)

/-- What happens at the bus die and on the causeway (R13, R456, R460, R462, R515, R560, Table 15-1). -/
def Obligations.BusDieEvents : Prop := ∀ (s : State) (q : Req) (v : Word),
  (s.bus.started = false → ∃ t, exec .busUvloRising s = .next t ∧ t.bus.started = true ∧ t.boot.rst = .running ∧ s.onlyIn t [.bus, .boot])
  ∧ (s.bus.started = true → exec .busUvloRising s = .next s)
  ∧ (∃ t, exec .busUvloFalling s = .next t ∧ t.bus = { BusDie.reset with started := false } ∧ t.boot.rst = .held ∧ t.boot.burned = s.boot.burned
      ∧ (∀ p, p < 16 → t.pst p = 0) ∧ t.pending = s.pending ∧ ∀ u, t.tile u = Tile.reset)
  ∧ (s.bstate ≠ 4 → ∃ t, exec .overvoltageLockout s = .next t ∧ t.bstate = 4 ∧ t.bus.ride = none ∧ bit (t.reg 0x081 0x1018) 5 = true
      ∧ (∀ p, p < 16 → s.pst p ≠ 0 → s.pst p ≠ 5 → t.pst p = 4 ∧ t.shr p = 2) ∧ (∀ p, p < 16 → s.pst p = 0 ∨ s.pst p = 5 → t.pst p = s.pst p))
  ∧ (s.bstate = 4 → (∃ p, p < 16 ∧ s.pst p = 4 ∧ s.shr p ≠ 0) → ∃ t, exec .overvoltageRelease s = .next t ∧ t.bstate = 3 ∧ t.bus.nextRestore = some s.now)
  ∧ (s.bstate ≠ 4 → exec .overvoltageRelease s = .next s)
  ∧ (∀ mw : BitVec 16, 16000 < mw.toNat → exec (.logicSupplyLimit mw) s
      = .next (((s.setReg 0x081 0x1010 (mw.setWidth 32)).bevent 0x80).report { cls := 7, num := 0, kind := none, pa := 0, hard := false }))
  ∧ (∀ mw : BitVec 16, mw.toNat ≤ 16000 → exec (.logicSupplyLimit mw) s = .next s)
  ∧ (∃ t, exec .logicBrownOut s = .next t ∧ t.boot.rst = .held ∧ (∀ p, p < 16 → bit (t.preg p 0x1000) 31 = false)
      ∧ (∀ p, p < 16 → t.pst p = if s.pst p = 5 then 5 else 0) ∧ t.dev.resetCode ≤ 1 ∧ t.dev.resets = 0 ∧ t.pending = s.pending ∧ ∀ u, t.tile u = Tile.reset)
  ∧ (s.boot.rst = .held → s.bus.started = true → exec .logicRailReturn s = .next (s.modBoot (fun b => { b with rst := .running })))
  ∧ (s.bus.cwLast + 10000 ≤ s.now → exec .causewayLost s
      = .next (((s.modReg 0x080 0x1000 (fun v => setBit v 31 true)).setLine 288 true).modBus (fun b => { b with cwLost := true })))
  ∧ (s.now < s.bus.cwLast + 10000 → exec .causewayLost s = .next s)
  ∧ (s.bus.cwLost = true → ∃ t, exec .causewayResume s = .next t ∧ t.bus.cwLost = false ∧ t.bus.cwLast = s.now ∧ bit (t.reg 0x080 0x1000) 31 = false
      ∧ bit (t.reg 0x081 0x1018) 0 = true)
  ∧ ((s.dev.st = .banked ∨ s.dev.st = .dormant) → s.bus.cwLost = false → exec .causewayKeepalive s = .next (s.modBus (fun b => { b with cwLast := s.now })))
  ∧ (s.admits q 0x080 0x1004 → exec (.cwclr q v) s = .next (s.modReg 0x080 0x1000 (fun w => setFld w 15 0 0)).done)

/-- The fault ledger's commands (R479 to R484): LLOCK locks the region and loads the later valid copy, the next message is recorded, a copy is written, records
are cleared, policies are written. -/
def Obligations.LedgerKept : Prop := ∀ (s : State) (q : Req) (v : Word) (bad : BitVec 7),
  let old := s.reg 0x00F 0x1000
  let ready := bit (s.reg 0x00F 0x1004) 31 = true
  (s.admits q 0x00F 0x1000 → bit old 31 = false → bit v 31 = false → exec (.llockSet q v) s = .next (s.setReg 0x00F 0x1000 (v &&& 0x80FFFFFF)).done)
  ∧ (s.admits q 0x00F 0x1000 → bit old 31 = false → bit v 31 = true →
      exec (.llockSet q v) s = .next (s.setReg 0x00F 0x1000 (v &&& 0x80FFFFFF)).ledgerLoad.done)
  ∧ (s.admits q 0x00F 0x1000 → bit old 31 = true → exec (.llockSet q v) s = .next s.done)
  ∧ (¬ ready → exec (.ledgerUpsetRecord bad) s = .next s)
  ∧ (∀ rid r, ready → s.upsets = .clear rid :: r → exec (.ledgerUpsetRecord bad) s = .next (({ s with upsets := r } : State).setLrec rid LRec.reset))
  ∧ (∀ rid kind n retry ashed r, ready → s.upsets = .outcome rid kind n retry ashed :: r → ∃ t, exec (.ledgerUpsetRecord bad) s = .next t ∧ t.upsets = r
      ∧ (t.lrec rid).st = (if ashed = true then 2 else 1) ∧ (t.lrec rid).kind = kind ∧ (t.lrec rid).upsets = min n 255 ∧ (t.lrec rid).retry = retry
      ∧ (t.lrec rid).total = ((s.lrec rid).total + 1) % 2 ^ 32 ∧ (t.lrec rid).last = s.ptp ∧ (∀ i, i ≠ rid → t.lrec i = s.lrec i)
      ∧ bit (t.reg 0x00F 0x1200) 0 = true ∧ (ashed = true → (s.lrec rid).st ≠ 2 → bit (t.reg 0x00F 0x1200) 1 = true))
  ∧ (∀ u r, ready → s.upsets = .upset u :: r → u.cls < 8 →
      exec (.ledgerUpsetRecord bad) s = .next (({ s with upsets := r } : State).countUpset (classBase u.cls + u.num) u bad))
  ∧ (ready → s.ledger.dirty.isSome = true → ∃ t, exec (.ledgerCopyWrite false) s = .next t ∧ t.ledger.dirty = none ∧ t.ledger.copy = 1 - s.ledger.copy
      ∧ t.ledger.seq = (s.ledger.seq + 1) % 2 ^ 32 ∧ t.ledger.recs = s.ledger.recs ∧ t.reg 0x024 0x100C = s.reg 0x024 0x100C + 93)
  ∧ (ready → s.ledger.dirty.isSome = true → ∃ t, exec (.ledgerCopyWrite true) s = .next t ∧ t.ledger = s.ledger ∧ bit (t.reg 0x00F 0x1200) 3 = true
      ∧ t.mem.bytes = s.mem.bytes)
  ∧ (s.admits q 0x00F 0x1204 → fld v 15 0 < 184 → exec (.lclr q v) s = .next (s.clearRec (fld v 15 0) (bit v 16)).done)
  ∧ (s.admits q 0x00F 0x1204 → fld v 15 0 = 0xFFFF → exec (.lclr q v) s = .next ((List.range 184).foldl (fun s i => s.clearRec i (bit v 16)) s).done)
  ∧ (∀ g, s.dict.granted .opn = some (5, g) → frameVal (s.dict.cmd 5).arg 0 2 < 184 → frameByte (s.dict.cmd 5).arg 2 ≤ 1 →
      (∀ b ∈ (s.dict.cmd 5).arg.drop 3, b = 0) → (s.dict.cmd 5).k = 0 → g.first = false →
      exec .ledgerClear s = .next ((s.clearRec (frameVal (s.dict.cmd 5).arg 0 2) (frameByte (s.dict.cmd 5).arg 2 == 1)).stepDone .opn 0))
  ∧ (∀ (c : BitVec 4) (j : BitVec 2), s.admits q 0x00F (0x1100 + 16 * c.toNat + 4 * j.toNat) →
      exec (.lpolWrite q c j v) s = .next (s.plainWrite .trade 0x00F (0x1100 + 16 * c.toNat + 4 * j.toNat) v).done)

/-- An upset counted in a record (R479, R480): the total rises, LEVENT bit 0 rises, and at the threshold of its class the record is ASHED, which LEVENT bit 1
says.
A record cleared (R484, Table 15-17): all of it with ash, else its counts unless it is ASHED. -/
def Obligations.RecordsCounted : Prop :=
  (∀ (s : State) (rid : Nat) (u : Upset) (bad : BitVec 7) (k : Nat),
  let c := ridClass rid
  let r0 := s.lrec rid
  let win := s.lwindow c
  let times := s.now :: r0.times.filter (fun t => decide (s.now < t + win))
  let t := s.countUpset rid u bad
  u.kind = some k → c ≠ 5 → c ≠ 8 → 0 < win →
  (t.lrec rid).total = (r0.total + 1) % 2 ^ 32 ∧ (t.lrec rid).last = s.ptp ∧ (t.lrec rid).kind = k ∧ (t.lrec rid).upsets = min times.length 255
  ∧ bit (t.reg 0x00F 0x1200) 0 = true ∧ (∀ i, i ≠ rid → t.lrec i = s.lrec i)
  ∧ (s.lthresh rid ≠ 0 → s.lthresh rid ≤ times.length → (t.lrec rid).st = 2)
  ∧ (r0.st ≠ 2 → s.lthresh rid = 0 → (t.lrec rid).st = 3)
  ∧ (r0.st ≠ 2 → times.length < s.lthresh rid → (u.hard = true → c ≠ 4) → (t.lrec rid).st = (if c = 2 ∨ c = 3 then 1 else 0)))
  ∧ (∀ (s : State) (rid : Nat),
  let r := s.lrec rid
  (s.clearRec rid true).lrec rid = LRec.reset
  ∧ (r.st = 2 → (s.clearRec rid false).lrec rid = { r with upsets := 0, retry := 0, total := 0, first := 0, last := 0, times := [] })
  ∧ (r.st ≠ 2 → (s.clearRec rid false).lrec rid = LRec.reset)
  ∧ (∀ i ash, i ≠ rid → (s.clearRec rid ash).lrec i = s.lrec i))

/-- The RTC (R486, R489 to R491, Tables 16-2, 16-8): its ticks, the clock it counts, following the time block, RTCSET, the alarm and the Open wake time. -/
def Obligations.EmberClockRuns : Prop := ∀ (s : State) (q : Req) (v : Word) (n : BitVec 16),
  let alarm := (s.reg 0x029 0x1020).toNat + (s.reg 0x029 0x1024).toNat * 2 ^ 32
  let wake := (s.reg 0x02B 0x1040).toNat + (s.reg 0x02B 0x1044).toNat * 2 ^ 32
  let setTime := (s.reg 0x029 0x1010).toNat + (s.reg 0x029 0x1014).toNat * 2 ^ 32
  exec .emberTick s = .next { s with rtc := { s.rtc with
      time := (s.rtc.time + ((0x773594000000 : Int) * (1000000000 + s.rtc.trim) / 1000000000).toNat) % 2 ^ 96 } }
  ∧ exec .emberClockFail s = .next { s with rtc := { s.rtc with fail := true } }
  ∧ exec .emberClockReturn s = .next { s with rtc := { s.rtc with fail := false } }
  ∧ (s.rtcLocked = true → 0 < n.toNat → ∃ t, exec (.rtcFollow n) s = .next t ∧ t.rtcNs = s.ptp % 2 ^ 64 ∧ t.rtcValid = true
      ∧ 2 * t.rtc.trim * n.toNat ≤ 2 * (524288 - n.toNat : Int) * 1000000000 + n.toNat
      ∧ 2 * (524288 - n.toNat : Int) * 1000000000 + n.toNat < 2 * (t.rtc.trim + 1) * n.toNat ∧ s.onlyIn t [.rtc])
  ∧ (s.rtcLocked = false → exec (.rtcFollow n) s = .next s)
  ∧ (s.admits q 0x029 0x1018 → s.rtcLocked = false → ∃ t, exec (.rtcset q v) s = .next t ∧ t.rtcNs = setTime ∧ t.rtcValid = true
      ∧ t.rtc.trim = s.rtc.trim ∧ t.resp = some (.ok 0) ∧ s.onlyIn t [.rtc, .resp])
  ∧ (s.admits q 0x029 0x1018 → s.rtcLocked = true → exec (.rtcset q v) s = .next { s with resp := some (.err busErr) })
  ∧ (bit (s.reg 0x029 0x1028) 0 = true → alarm ≤ s.rtcNs → exec .rtcAlarm s = .next ((s.raise 54).setReg 0x029 0x1028 0))
  ∧ ((bit (s.reg 0x029 0x1028) 0 = true → s.rtcNs < alarm) → exec .rtcAlarm s = .next s)
  ∧ (bit (s.reg 0x02B 0x1048) 0 = true → wake ≤ s.rtcNs →
      exec .openWakeTime s = .next (((s.modReg 0x02A 0x1014 (· ||| 1)).raise 55).setReg 0x02B 0x1048 0))
  ∧ ((bit (s.reg 0x02B 0x1048) 0 = true → s.rtcNs < wake) → exec .openWakeTime s = .next s)

/-- Gating tiles and entering a low-power state (R492, R495 to R499, Tables 16-4, 16-6). -/
def Obligations.SleepEntered : Prop := ∀ (s : State) (q : Req) (v : Word) (t : TileId),
  let ready := s.dev.st = .idle ∧ s.allQuiet = true ∧ s.wakeAny = false ∧ ∃ t0, s.pdc.idleSince = some t0 ∧ t0 + 100 ≤ s.now
  let off (r : State) : Prop := ∀ u, (s.tile u).inService = true → (s.tile u).sys.powered = true →
    (r.tile u).sys.powered = false ∧ (r.tile u).run = none ∧ (r.tile u).spill = []
      ∧ (r.tile u).sys.recorded = (match (s.tile u).runNum with | some n => some n | none => (s.tile u).sys.recorded)
  (s.admits q 0x02B 0x1008 → q.tile = some t →
      exec (.tgate q v) s = .next (s.modTile t (fun x => x.modSys (fun y => { y with gateReq := true }))).done)
  ∧ ((s.tile t).sys.powered = true → (s.tile t).sys.gated = true ∨ (s.tile t).sys.gateReq = true → s.restartDue t = true →
      ∃ r, exec (.tileGateRestart t) s = .next r ∧ (r.tile t).sys.gated = false ∧ (r.tile t).sys.gateReq = false ∧ s.tilesBut r t
        ∧ r.dev.st = (if s.dev.st = .idle then .run else s.dev.st) ∧ s.onlyIn r [.tiles, .dev, .pdc])
  ∧ (s.restartDue t = false → exec (.tileGateRestart t) s = .next s)
  ∧ (s.admits q 0x02B 0x1004 → 1 ≤ fld v 2 0 → fld v 2 0 ≤ 4 → ∃ r, exec (.wpermitWrite q v) s = .next r
      ∧ r.regW q.world 0x02B 0x1004 = BitVec.ofNat 32 (fld v 2 0) ∧ fld (r.reg 0x02B 0x1000) 2 0 = r.target ∧ r.resp = some (.ok 0))
  ∧ (s.admits q 0x02B 0x1004 → fld v 2 0 = 0 ∨ 4 < fld v 2 0 → exec (.wpermitWrite q v) s = .next { s with resp := some (.err busErr) })
  ∧ (∃ r, exec .targetEvaluation s = .next r ∧ fld (r.reg 0x02B 0x1000) 2 0 = s.target ∧ fld (r.reg 0x02B 0x1000) 7 3 = s.blocks ∧ s.onlyIn r [.regs]
      ∧ s.regsBut r [(0x02B, 0x1000)])
  ∧ (s.dev.st = .run → s.boot.rst = .off → s.allQuiet = true → exec .idleEntry s
      = .next { s with dev := { s.dev with st := .idle }, pdc := { s.pdc with idleSince := some s.now } })
  ∧ (s.allQuiet = false → exec .idleEntry s = .next s)
  ∧ (s.pdc.entry = none → ready → s.target = 2 → ∃ r, exec .sleepEntry s = .next r ∧ r.dev.st = .doze ∧ r.pdc.entry = none ∧ off r)
  ∧ (s.pdc.entry = none → ready → 3 ≤ s.target → ∃ r, exec .sleepEntry s = .next r ∧ r.dev.st = .idle ∧ r.pdc.entry = some (1, s.target) ∧ off r)
  ∧ (s.pdc.entry = none → s.target ≤ 1 → exec .sleepEntry s = .next s)
  ∧ (s.pdc.entry = some (1, 4) → s.wakeAny = false → ∃ r, exec .sleepEntry s = .next r ∧ r.pdc.entry = some (2, 4) ∧ r.dev.st = s.dev.st
      ∧ r.pdc.dseq = (s.pdc.dseq + 1) % 2 ^ 32 ∧ r.pdc.dkey.length = 16 ∧ fld (r.reg 0x02B 0x1028) 11 0 = s.claimedCtxs.length % 4096)
  ∧ (s.pdc.entry = some (1, 3) ∨ s.pdc.entry = some (2, 4) → s.wakeAny = false → ∃ r, exec .sleepEntry s = .next r
      ∧ r.dev.st = (if s.pdc.entry = some (2, 4) then .dormant else .banked) ∧ r.pdc.entry = none ∧ r.pdc.waking = none ∧ r.reg 0x02A 0x1000 = 0
      ∧ r.tb.locked = false ∧ ∀ p, p < 16 → (r.lane p).fifo = [] ∧ (r.lane p).tx = none ∧ (s.lstate p ≠ 3 → r.lstate p = 0) ∧ (s.lstate p = 3 → r.lstate p = 3))
  ∧ (s.pdc.entry.isSome = true → s.wakeAny = true → exec .sleepEntry s = .next s)
  ∧ (∀ k g, s.pdc.entry = some (k, g) → s.wakeAny = true → ∃ r, exec .entryStop s = .next r ∧ r.dev.st = .doze ∧ r.pdc.entry = none
      ∧ (k = 2 → bit (r.reg 0x02B 0x1028) 31 = false) ∧ r.tiles = s.tiles ∧ r.mem = s.mem)
  ∧ (s.wakeAny = false → exec .entryStop s = .next s)

/-- The target is the deepest state that both worlds permit and no BLOCK condition caps, and PSTATE reads it as it is now (R497, Table 16-6). -/
def Obligations.TargetChosen : Prop := ∀ (s : State) (q : Req) (n : Nat),
  let cap (k c : Nat) : Prop := s.block k = true → n ≤ c
  (n ≤ s.target ↔ n ≤ 4 ∧ n ≤ fld (s.regW .trade 0x02B 0x1004) 2 0 ∧ n ≤ fld (s.regW .opn 0x02B 0x1004) 2 0
    ∧ cap 0 1 ∧ cap 1 1 ∧ cap 2 2 ∧ cap 3 2 ∧ cap 4 3)
  ∧ fld (s.slotRead q 0x02B 0x1000).2 2 0 = s.target

/-- Wake events and exits (R294, R500 to R503, R506, Tables 16-6a, 16-7). -/
def Obligations.WakesAndExits : Prop := ∀ (s : State) (q : Req) (v : Word) (b : BitVec 5) (n : BitVec 9) (t : TileId),
  let deep := s.dev.st = .banked ∨ s.dev.st = .dormant
  let i := n.toNat
  let left (r : State) (j : Nat) : Prop := r.reg 0x02A 0x1000 = 0 ∧ r.reg 0x02A 0x100C = BitVec.ofNat 32 (2 ^ 31 + j)
    ∧ r.pdc.waking = none ∧ r.pdc.entry = none
  let counts (r : State) : Prop := r.reg 0x02A 0x1010 = s.reg 0x02A 0x1010 + 1
  (∀ j, s.heldSource b.toNat = some j → deep → s.irqPending j = true → ∃ r, exec (.wakeEvent b) s = .next r ∧ bit (r.reg 0x02A 0x1000) b.toNat = true
      ∧ r.pdc.waking = (if bit (s.mirror j) 19 = true then some (s.pdc.waking.getD j) else s.pdc.waking) ∧ s.onlyIn r [.regs, .pdc]
      ∧ s.regsBut r [(0x02A, 0x1000)])
  ∧ (¬ deep → exec (.wakeEvent b) s = .next s)
  ∧ (s.wakes i = true → s.dev.st = .doze → s.pdc.entry = none → (s.tile (s.irqTile i)).inService = true → (s.tile (s.irqTile i)).sys.powered = false →
      ∃ r, exec (.dozeExit n) s = .next r ∧ r.dev.st = .run ∧ (r.tile (s.irqTile i)).sys.powered = true ∧ s.tilesBut r (s.irqTile i) ∧ left r i ∧ counts r
        ∧ r.pdc.log = [])
  ∧ (s.wakes i = true → s.dev.st = .run ∨ s.dev.st = .idle → s.pdc.entry = none → (s.tile (s.irqTile i)).inService = true →
      (s.tile (s.irqTile i)).sys.powered = false → ∃ r, exec (.dozeExit n) s = .next r ∧ r.dev.st = .run ∧ (r.tile (s.irqTile i)).sys.powered = true
        ∧ s.tilesBut r (s.irqTile i) ∧ s.onlyIn r [.tiles, .dev, .pdc])
  ∧ (s.wakes i = false → exec (.dozeExit n) s = .next s)
  ∧ (∀ j, s.dev.st = .banked → s.pdc.waking = some j → let u : TileId := BitVec.ofNat 4 (fld (s.mirror j) 3 0)
      (s.tile u).inService = true → ∃ r, exec .bankedExit s = .next r ∧ r.dev.st = .run ∧ (r.tile u).sys.powered = true ∧ s.tilesBut r u
        ∧ left r j ∧ counts r ∧ r.ptp = s.rtcNs ∧ r.tb.locked = false)
  ∧ (∀ j, s.dev.st = .banked → s.pdc.waking = some j → (s.tile (BitVec.ofNat 4 (fld (s.mirror j) 3 0))).inService = false →
      exec .bankedExit s = .next s ∧ ∃ r, exec (.exitToAshedTile n) s = .next r ∧ r.dev.st = .idle ∧ r.pdc.idleSince = some s.now ∧ r.tiles = s.tiles
        ∧ bit (r.reg 0x02A 0x1014) 2 = true ∧ counts r)
  ∧ (s.dev.st = .doze → s.wakes i = true → (s.tile (s.irqTile i)).inService = false → s.pdc.entry = none →
      ∃ r, exec (.exitToAshedTile n) s = .next r ∧ r.dev.st = .idle ∧ r.tiles = s.tiles ∧ bit (r.reg 0x02A 0x1014) 2 = true ∧ left r i)
  ∧ (∀ j, s.dev.st = .dormant → s.pdc.waking = some j → ∃ r, exec .dormantExit s = .next r ∧ r.dev.st = .run ∧ left r j ∧ counts r
      ∧ r.ptp = s.rtcNs ∧ r.tb.locked = false ∧ r.rtc = s.rtc ∧ r.bus = s.bus ∧ r.ledger = s.ledger ∧ r.dict = s.dict
      ∧ (∀ p ∈ r.mem.bytes, inEmram p.1 = true ∨ (0x6000000 ≤ p.1 ∧ p.1 < 0x6040000)) ∧ (∀ u, (r.tile u).run = none))
  ∧ (∀ c, (s.tile t).sys.recorded = some c → (s.tile t).inService = true → (s.tile t).sys.powered = true → (s.tile t).sys.resetting = false →
      (s.tile t).sys.halted = false → (s.tile t).run = none → (s.tile t).flow.freeze = .none →
      exec (.tileResume t) s = .next (s.modFlow t (fun f => { f with freeze := .fill c .run })))
  ∧ ((s.tile t).sys.recorded = none → exec (.tileResume t) s = .next s)
  ∧ (s.admits q 0x02A 0x1004 → exec (.wlclr q v) s = .next (s.modReg 0x02A 0x1000 (fun w => w &&& ~~~ v)).done)

/-- The retention scrubber's visit of a line (R504). -/
def Obligations.LineScrubbed : Prop := ∀ (s : State) (ce : Bool) (ue : Option (BitVec 3)),
  (s.dev.st ≠ .dormant → ∃ r, exec (.scrubLine ce ue) s = .next r ∧ r.pdc.scrubAt = (s.pdc.scrubAt + 1) % 159744
    ∧ r.reg 0x02B 0x1034 = s.reg 0x02B 0x1034 + (if ce = true then 1 else 0) ∧ r.reg 0x02B 0x1038 = s.reg 0x02B 0x1038 + (if ue.isSome = true then 1 else 0)
    ∧ (ue.isSome = true → bit (r.reg 0x02A 0x1014) 1 = true) ∧ (ue = none → r.irq = s.irq ∧ r.mem = s.mem ∧ r.store = s.store)
    ∧ r.mem.bytes = s.mem.bytes ∧ r.store.slots = s.store.slots
    ∧ r.pdc.log.length = max s.pdc.log.length (min 16 (s.pdc.log.length + (if ce = true then 1 else 0) + (if ue.isSome = true then 1 else 0)))
    ∧ s.regsBut r [(0x02B, 0x1034), (0x02B, 0x1038), (0x02A, 0x1014)])
  ∧ (s.dev.st = .dormant → exec (.scrubLine ce ue) s = .next s)

/-- Which store bank is valid, and which is in use; with none valid the load applies no record and notes the defaults (R508, Tables 16-9, 16-12). -/
def Obligations.StoreBankChosen : Prop := ∀ (s : State) (k seq : Nat) (refused : List Nat),
  let a := if k = 0 then 0x8380000 else 0x83C0000
  let len := s.mem.val (a + 12) 4
  let later (x y : Nat) : Prop := 1 ≤ (x + 2 ^ 32 - y) % 2 ^ 32 ∧ (x + 2 ^ 32 - y) % 2 ^ 32 ≤ 2 ^ 31 - 1
  (s.storeSeq k = some seq ↔ s.isDamaged a 32 = false ∧ s.mem.val a 4 = 0x53505A4B ∧ s.mem.val (a + 4) 2 = 1 ∧ len ≤ 262112
      ∧ s.isDamaged (a + 32) len = false ∧ s.mem.val (a + 16) 4 = (crc32c (s.mem.read (a + 32) len)).toNat ∧ seq = s.mem.val (a + 8) 4)
  ∧ (∀ x y, s.storeSeq 0 = some x → s.storeSeq 1 = some y →
      (later y x → s.storeInUse = some (1, y)) ∧ (¬ later y x → s.storeInUse = some (0, x)))
  ∧ (∀ x, s.storeSeq 0 = some x → s.storeSeq 1 = none → s.storeInUse = some (0, x))
  ∧ (∀ y, s.storeSeq 0 = none → s.storeSeq 1 = some y → s.storeInUse = some (1, y))
  ∧ (s.storeSeq 0 = none → s.storeSeq 1 = none → s.storeInUse = none
      ∧ exec (.parameterStoreLoad refused) s = .next ((s.storeNote 1 [0xFF]).storeNote 5 [2]))

/-- The parameter store's commands (R507, R509 to R512, Table 16-12): STORE's first step gathers and fixes bank and SEQ, its steps write the payload and then
the header, RESTORE_DEFAULTS, the automatic store, and the load at start.
A record of the store at the load (R509): one whose entry is gone, whose type differs or whose value is refused is ignored and counted; the others are
applied. -/
def Obligations.ParametersStored : Prop :=
  (∀ (s : State) (own : List (Nat × List Byte)) (fail : Bool) (refused : List Nat) (g : Grant),
  let c := s.dict.cmd 0
  let j := s.job
  let a := storeBase j.bank
  let parts := ((j.payload.length + 63) / 64 + 3) / 4
  let wr := s.masterStore (a + 32 + 256 * c.k) ((j.payload.drop (256 * c.k)).take 256)
  let hd := s.masterStore a (toBytes 4 0x53505A4B ++ toBytes 2 1 ++ [0, 0] ++ toBytes 4 j.seq ++ toBytes 4 j.payload.length
    ++ toBytes 4 (crc32c j.payload).toNat ++ List.replicate 12 0)
  let failed (t : State) (reason : Nat) := t.stepDone .opn (BitVec.ofNat 32 (1 + reason * 2 ^ 16))
  let d := s.dict.num 0x160007
  (s.dict.granted .opn = some (0, g) →
    ((∃ b ∈ c.arg, b ≠ 0) → exec (.store own fail) s = .next (failed s 2))
    ∧ ((∀ b ∈ c.arg, b = 0) → g.first = true → ∃ t, exec (.store own fail) s = .next t ∧ t.job.payload = s.storeGather own
        ∧ (s.storeInUse = none → t.job.bank = 0 ∧ t.job.seq = 1)
        ∧ (∀ b q, s.storeInUse = some (b, q) → t.job.bank = 1 - b ∧ t.job.seq = (q + 1) % 2 ^ 32)
        ∧ (262112 < (s.storeGather own).length → t = failed (s.storeBegin own) 1))
    ∧ ((∀ b ∈ c.arg, b = 0) → g.first = false → c.k < parts → fail = true → exec (.store own fail) s = .next (failed wr.1 3))
    ∧ ((∀ b ∈ c.arg, b = 0) → g.first = false → c.k + 1 < parts → fail = false → wr.2 = false → s.sectorAshed (a + 32 + 256 * c.k) 256 = false →
        exec (.store own fail) s = .next (wr.1.stepDone .opn 0))
    ∧ ((∀ b ∈ c.arg, b = 0) → g.first = false → c.k + 1 = parts → fail = false → wr.2 = false → s.sectorAshed (a + 32 + 256 * c.k) 256 = false →
        (wr.1.mem.read (a + 32) j.payload.length ≠ j.payload → exec (.store own fail) s = .next (failed wr.1 4))
        ∧ (wr.1.isDamaged (a + 32) j.payload.length = false → wr.1.mem.read (a + 32) j.payload.length = j.payload →
          exec (.store own fail) s = .next (wr.1.stepDone .opn 0)))
    ∧ ((∀ b ∈ c.arg, b = 0) → g.first = false → parts ≤ c.k → (fail = true ∨ hd.2 = true) → exec (.store own fail) s = .next (failed hd.1 3))
    ∧ ((∀ b ∈ c.arg, b = 0) → g.first = false → parts ≤ c.k → fail = false → hd.2 = false → s.sectorAshed a 32 = false →
        exec (.store own fail) s = .next ((((((hd.1.modDict (fun x => x.setCmd 0 { x.cmd 0 with
          result := toBytes 1 j.bank ++ [0, 0, 0] ++ toBytes 4 j.seq ++ toBytes 4 j.payload.length })).stepDone .opn 0).storeNote 1 (toBytes 1 j.bank)).storeNote 2
            (toBytes 4 j.seq)).storeNote 3 (toBytes 4 j.payload.length)).storeNote 4 [0])))
  ∧ (s.dict.granted .opn = some (1, g) → 1 < frameByte (s.dict.cmd 1).arg 0 ∨ (∃ b ∈ (s.dict.cmd 1).arg.drop 1, b ≠ 0) →
      exec .restoreDefaults s = .next (failed s 2))
  ∧ (s.dict.granted .opn = some (1, g) → frameByte (s.dict.cmd 1).arg 0 = 0 → (∀ b ∈ (s.dict.cmd 1).arg.drop 1, b = 0) → exec .restoreDefaults s
      = .next (((((s.dict.defaultEntries.filter (·.ember)).foldl (fun t e =>
          (t.modDict (fun x => { x with vals := Sparse.erase e.key x.vals })).publish e.key e.defaultBytes) s).modDict (fun x => x.setCmd 1 { x.cmd 1 with
            result := toBytes 2 s.dict.defaultEntries.length })).stepN .opn 1).stepDone .opn 0))
  ∧ (∀ t0, d ≠ 0 → c.st ≠ 1 → s.dict.rws = some t0 → t0 + d * 1000000 ≤ s.now → s.dict.queue.length < 8 → ∃ t, exec .autoStore s = .next t
      ∧ t.dict.queue = s.dict.queue ++ [0] ∧ (t.dict.cmd 0).st = 1 ∧ (t.dict.cmd 0).arg = List.replicate 32 0 ∧ t.dict.rws = none)
  ∧ (d = 0 ∨ s.dict.rws = none → exec .autoStore s = .next s)
  ∧ (s.storeInUse = none → exec (.parameterStoreLoad refused) s = .next ((s.storeNote 1 [0xFF]).storeNote 5 [2]))
  ∧ (∀ b q t n, s.storeInUse = some (b, q) →
      let len := s.mem.val (storeBase b + 12) 4
      s.storeRecords refused ((len + 7) / 8) (s.mem.read (storeBase b + 32) len) 0 = (t, n) → exec (.parameterStoreLoad refused) s
        = .next (((((t.storeNote 1 (toBytes 1 b)).storeNote 2 (toBytes 4 q)).storeNote 3 (toBytes 4 len)).storeNote 5 (toBytes 1 b)).storeNote 6
          (toBytes 2 (min n 65535)))))
  ∧ (∀ (s : State) (refused : List Nat) (n k key : Nat) (v rest : List Byte) (ty : BitVec 8),
  let t := s.storeApply refused key ty.toNat v
  let pad := List.replicate ((4 - v.length % 4) % 4) (0 : Byte)
  key < 2 ^ 24 → v.length < 2 ^ 16 →
  s.storeRecords refused (n + 1) (toBytes 2 (key / 256) ++ toBytes 1 (key % 256) ++ toBytes 1 ty.toNat ++ toBytes 2 v.length ++ [0, 0] ++ v ++ pad ++ rest) k
    = t.1.storeRecords refused n rest (k + b2n t.2)
  ∧ (s.dict.entry key = none → t = (s, true))
  ∧ (∀ e, s.dict.entry key = some e → e.type ≠ ty.toNat ∨ e.owner = 1 ∨ key ∈ refused → t = (s, true))
  ∧ (∀ e, s.dict.entry key = some e → e.type = ty.toNat → 2 ≤ e.owner → key ∉ refused → e.typeOk v = false ∨ e.rangeOk v = false → t = (s, true))
  ∧ (∀ e, s.dict.entry key = some e → e.type = ty.toNat → 2 ≤ e.owner → key ∉ refused → e.typeOk v = true → e.rangeOk v = true → e.ember = true →
      t = ((s.modDict (fun d => d.setVal key v)).lanePolicy key v, false)))

/-- What a device reset and a bus power-on reset leave (R454, R513 to R518, R536, Tables 16-10, 17-1): every source of a device reset acts alike. -/
def Obligations.ResetsLeave : Prop := ∀ (s : State) (q : Req) (v : Word),
  let reset (r : State) (code : Option Nat) (held : Bool) : Prop :=
    r.boot.rst = (if held = true then .held else .running) ∧ r.boot.burned = s.boot.burned ∧ r.boot.revoked = s.boot.revoked ∧ r.dev.st = .run
    ∧ r.dev.resets = s.dev.resets + (if code.isSome = true then 1 else 0) ∧ (code = none → r.dev.resetCode = s.dev.resetCode)
    ∧ (∀ c, code = some c → s.boot.rst = .off → s.boot.tinder ≠ .ready → r.dev.resetCode = c)
    ∧ r.rtc = s.rtc ∧ r.bus = s.bus ∧ r.ledger = s.ledger ∧ (∀ p, p < 16 → r.pst p = s.pst p)
    ∧ (∀ a, inEmram a = true ∨ inScratch a = true → r.mem.byte a = s.mem.byte a)
    ∧ (∀ a, 0x10000 ≤ a → inEmram a = false → inScratch a = false → r.mem.byte a = 0)
    ∧ r.dict = Dict.reset ∧ r.irq = Irq.reset ∧ r.store = CtxStore.reset ∧ r.dap.unlockEnd = none
    ∧ (∀ u, (r.tile u).run = none ∧ (r.tile u).sys.mccount = (s.tile u).sys.mccount)
    ∧ r.reg 0x00D 0x1000 = 0x80000000 ∧ r.reg 0x00D 0x1004 = 5000 ∧ vget r.boot.left 0 0 = 5000000 ∧ r.pending = s.pending
  (∃ r, exec (.resetN true) s = .next r ∧ reset r (some 2) true)
  ∧ (s.boot.rst = .held → s.bus.started = true → exec (.resetN false) s
      = .next { s with dap := { s.dap with lands := none }, boot := { s.boot with rst := .running } })
  ∧ (s.wdRuns .trade = true → vget s.boot.left 0 0 = 0 → ∃ r, exec .tradeWatchdogExpiry s = .next r ∧ reset r (some 3) false)
  ∧ ((s.wdRuns .trade = false ∨ vget s.boot.left 0 0 ≠ 0) → exec .tradeWatchdogExpiry s = .next s)
  ∧ (s.admits q 0x00D 0x1128 → bit (s.reg 0x00D 0x1118) 0 = false → bit v 0 = true → ∃ r, exec (.devrst q v) s = .next r ∧ reset r none false)
  ∧ (s.admits q 0x00D 0x1128 → bit (s.reg 0x00D 0x1118) 0 = false → bit v 0 = false → exec (.devrst q v) s = .next s.done)
  ∧ (s.admits q 0x00D 0x1128 → bit (s.reg 0x00D 0x1118) 0 = true → exec (.devrst q v) s = .next { s with resp := some (.err busErr) })
  ∧ (bit v 0 = true → ∃ r, exec (.dreset v) s = .next r ∧ reset r (some 5) false)
  ∧ (∃ r, exec .busPowerOnReset s = .next r ∧ r.boot.rst = .running ∧ r.bus = { BusDie.reset with started := true } ∧ r.rtc = Rtc.reset
      ∧ r.ledger = Ledger.reset ∧ r.dev.resets = 0 ∧ r.dev.resetCode = 0 ∧ r.boot.burned = s.boot.burned ∧ (∀ u, r.tile u = Tile.reset)
      ∧ ((∀ b, b < 4 → vget s.mem.progs b none = none) → ∀ a, inEmram a = true → r.mem.byte a = s.mem.byte a)
      ∧ (∀ a, 0x10000 ≤ a → inEmram a = false → r.mem.byte a = 0) ∧ (∀ g, r.mem.colours = [] ∧ r.mem.tagAt g = false) ∧ r.pending = s.pending)

/-- From the reset sequence to kindling (R519 to R521, R526 to R528): self-test results, the boot tiles, context 0 at TRVEC, the tinder ROM's choice of a copy,
recovery. -/
def Obligations.BootRuns : Prop := ∀ (s : State) (bist : List (BitVec 4)) (phy : BitVec 16) (rcvry complete : Bool) (b : List Byte),
  let good (n : Nat) : Prop := bist.getD n 0xF = 0xF ∧ bit (s.reg 0x00D 0x1120) n = false
  let due := s.boot.rst = .running ∧ s.bus.started = true
  let ok (c : Nat) : Bool := (s.imageBad c).isNone && decide (fld (s.reg 0x00D 0x1124) (2 * c + 1) (2 * c) < 3)
  let version (c : Nat) : Nat := frameVal (s.imageBytes c) 8 4
  (¬ due → exec (.deviceResetSequence bist phy) s = .next s)
  ∧ (due → ∃ r, exec (.deviceResetSequence bist phy) s = .next r ∧ r.boot.rst = .off
      ∧ (∀ t : TileId, (r.tile t).sys.bist = bist.getD t.toNat 0xF ∧ (r.tile t).sys.excluded = bit (s.reg 0x00D 0x1120) t.toNat)
      ∧ ((∀ n, n < 16 → ¬ good n) → ∀ t, (r.tile t).run = (s.tile t).run)
      ∧ (∀ t : TileId, good t.toNat → (∀ m, m < t.toNat → ¬ good m) → fld (r.reg 0x00D 0x111C) 3 0 = t.toNat ∧ (r.tile t).run = some 0
          ∧ (vget (r.tile t).banks 0 Bank.reset).num = 0 ∧ (vget (r.tile t).banks 0 Bank.reset).ctx = bootCtx .trade (s.reg 0x00D 0x1110)
          ∧ r.boot.tinder = .ready ∧ vget r.dev.started 0 false = true ∧ (∀ u, u ≠ t → (r.tile u).run = (s.tile u).run)
          ∧ ((∀ m, m < 16 → m ≠ t.toNat → ¬ good m) → fld (r.reg 0x00D 0x111C) 7 4 = t.toNat)
          ∧ (∀ m, t.toNat < m → m < 16 → good m → (∀ k, t.toNat < k → k < m → ¬ good k) → fld (r.reg 0x00D 0x111C) 7 4 = m)))
  ∧ (s.boot.tinder ≠ .ready → exec (.tinderRomBoot rcvry) s = .next s)
  ∧ (s.boot.tinder = .ready → rcvry = true → exec (.tinderRomBoot rcvry) s = .next s.recover)
  ∧ (s.boot.tinder = .ready → rcvry = false → exec (.tinderRomBoot rcvry) s
      = .next (if ok 0 = true ∧ (ok 1 = false ∨ version 1 ≤ version 0) then s.runCopy 0 else if ok 1 = true then s.runCopy 1 else s.recover))
  ∧ (s.recover.boot.tinder = .recovery ∧ (s.recover.usbPort 0).role = 2)
  ∧ (∀ c, c ≤ 1 → (s.runCopy c).boot.tinder = .done ∧ bit ((s.runCopy c).reg 0x00D 0x1124) 8 = (c == 1) ∧ bit ((s.runCopy c).reg 0x00D 0x1124) 9 = false
      ∧ fld ((s.runCopy c).reg 0x00D 0x1124) (2 * c + 1) (2 * c) = min 3 (fld (s.reg 0x00D 0x1124) (2 * c + 1) (2 * c) + 1)
      ∧ let body := ((s.imageBytes c).drop 192).take (frameVal (s.imageBytes c) 12 4)
        ∀ i, i < body.length → (s.runCopy c).mem.byte (0x1000000 + i) = body.getD i 0)
  ∧ (s.boot.tinder ≠ .recovery → exec (.recoveryTransfer b complete) s = .next s)
  ∧ (s.boot.tinder = .recovery → complete = false → exec (.recoveryTransfer b complete) s = .next (s.send (.usb 0 1 (toBytes 4 5))))
  ∧ (s.boot.tinder = .recovery → complete = true → let bad := s.imageFault 0x4E4B5A4B 261952 b
      ∃ r, exec (.recoveryTransfer b complete) s = .next r ∧ r.out = s.out ++ [.usb 0 1 (toBytes 4 (bad.getD 0))]
        ∧ (bad.isSome = true → r = s.send (.usb 0 1 (toBytes 4 (bad.getD 0))))
        ∧ (bad = none → r.boot.tinder = .done ∧ bit (r.reg 0x00D 0x1124) 9 = true))

/-- The boot controls, the burns, tile reset, TSTART and IMAGE_VERIFY (R522, R524, R531, R534, R535, Table 17-3). -/
def Obligations.BootControlsHeld : Prop := ∀ (s : State) (q : Req) (v : Word) (k : BitVec 2) (pdc : Bool) (bist : BitVec 4),
  let locked := bit (s.reg 0x00D 0x1118) 0
  let off := if k = 0 then 0x1110 else if k = 1 then 0x1114 else 0x1120
  let refused : State := { s with resp := some (.err busErr) }
  let slot := if pdc = true then 0x02B else 0x00D
  let t : TileId := BitVec.ofNat 4 (fld v 3 0)
  let n : CtxId := BitVec.ofNat 12 (fld v 27 16)
  let key : BitVec 4 := v.setWidth 4
  (s.admits q 0x00D 0x1118 → bit v 0 = true → ∃ r, exec (.veclock q v) s = .next r ∧ bit (r.reg 0x00D 0x1118) 0 = true
      ∧ fld (r.reg 0x00D 0x1124) 3 0 = 0 ∧ s.regsBut r [(0x00D, 0x1118), (0x00D, 0x1124)] ∧ s.onlyIn r [.regs, .resp])
  ∧ (s.admits q 0x00D 0x1118 → bit v 0 = false → exec (.veclock q v) s = .next s.done)
  ∧ (k ≠ 3 → s.admits q 0x00D off → locked = false → ∃ r, exec (.bootControlWrite q k v) s = .next r
      ∧ r.reg 0x00D off = (s.takeBits 0x00D off (if k = 2 then 0xFFFF else 0xFFFFFFFC) v).reg 0x00D off ∧ s.regsBut r [(0x00D, off)] ∧ s.onlyIn r [.regs, .resp, .tiles]
      ∧ ∀ u : TileId, k = 2 → (s.tile u).run = none → (r.tile u).sys.excluded = bit v u.toNat)
  ∧ (s.admits q 0x00D off → locked = true → exec (.bootControlWrite q k v) s = .next refused)
  ∧ (s.admits q 0x00D 0x1130 → bit v 0 = true → s.boot.burn = none →
      exec (.svnburn q v) s = .next (if 63 ≤ s.svn then refused else (s.modBoot (fun b => { b with burn := some s.now })).done))
  ∧ (s.admits q 0x00D 0x1130 → bit v 0 = false → exec (.svnburn q v) s = .next s.done)
  ∧ (∀ t0, s.boot.burn = some t0 → t0 + 1000 ≤ s.now → ∃ r, exec .svnBurnComplete s = .next r ∧ r.svn = s.svn + 1 ∧ r.boot.burn = none ∧ s.onlyIn r [.boot])
  ∧ (∀ t0, s.boot.burn = some t0 → s.now < t0 + 1000 → exec .svnBurnComplete s = .next s)
  ∧ (s.admits q 0x00D 0x1134 → ∃ r, exec (.keyrevburn q v) s = .next r ∧ (s.keyrev ||| key = 0xF → r = refused)
      ∧ (s.keyrev ||| key ≠ 0xF → r.keyrev = s.keyrev ||| key ∧ r.resp = some (.ok 0) ∧ s.onlyIn r [.boot, .resp]))
  ∧ (s.admits q 0x00D 0x1104 → q.world = .trade → q.sup = true → (s.tile t).sys.ashed = false → ∃ r, exec (.treset q v) s = .next r
      ∧ (r.tile t).run = none ∧ (r.tile t).sys.resetting = true ∧ (r.tile t).sys.recorded = none ∧ (r.tile t).float = FloatState.reset
      ∧ (r.tile t).link = .none ∧ s.tilesBut r t ∧ (∃ e, (t.toNat, s.now, e) ∈ r.boot.selfTest) ∧ r.regs = s.regs)
  ∧ (s.admits q 0x00D 0x1104 → ¬ (q.world = .trade ∧ q.sup = true) → exec (.treset q v) s = .next refused)
  ∧ (∀ (u : TileId) t0, s.boot.selfTest.find? (fun e => e.1 == u.toNat) = some (u.toNat, t0, none) → t0 + 2000 ≤ s.now →
      ∃ r, exec (.tileResetComplete u bist) s = .next r ∧ (r.tile u).sys.resetting = false ∧ (r.tile u).sys.bist = bist
        ∧ (r.tile u).run = (s.tile u).run ∧ s.tilesBut r u ∧ (∀ e ∈ r.boot.selfTest, e.1 ≠ u.toNat))
  ∧ (∀ (u : TileId) t0 e, s.boot.selfTest.find? (fun e => e.1 == u.toNat) = some (u.toNat, t0, e) → s.now < t0 + 2000 →
      exec (.tileResetComplete u bist) s = .next s)
  ∧ (s.admits q slot 0x1108 → (s.tile t).tidle = true → (s.tile t).flow.freeze = .none → (s.ctx n).claimed = true → (s.ctx n).world = q.world →
      (s.ctx n).parked = false → (∀ u b, s.dir n ≠ .running u b) → (∀ u, s.dir n ≠ .recorded u) → ∃ r, exec (.tstart q pdc v) s = .next r
        ∧ (r.tile t).sys.recorded = some n ∧ (r.tile t).sys.powered = true ∧ s.tilesBut r t ∧ r.resp = some (.ok 0)
        ∧ ((s.tile t).sys.halted = false → (r.tile t).flow.freeze = .fill n .run))
  ∧ (s.admits q slot 0x1108 → ((s.tile t).tidle = false ∨ (s.ctx n).claimed = false ∨ (s.ctx n).world ≠ q.world ∨ (s.ctx n).parked = true) →
      exec (.tstart q pdc v) s = .next refused)
  ∧ (∀ g, s.dict.granted .trade = some (2, g) → frameByte (s.dict.cmd 2).arg 0 ≤ 3 → (∀ b ∈ (s.dict.cmd 2).arg.drop 1, b = 0) →
      let m := s.imageBytes (frameByte (s.dict.cmd 2).arg 0)
      exec .imageVerify s = .next (match s.imageBad (frameByte (s.dict.cmd 2).arg 0) with
        | some r => s.stepDone .trade (BitVec.ofNat 32 (1 + (if r = 5 then 1 else r) * 2 ^ 16))
        | none => ((s.modDict (fun d => d.setCmd 2 { d.cmd 2 with
            result := (m.drop 8).take 4 ++ [m.getD 7 0, m.getD 6 0, 0, 0] ++ (sha256 (m.take 128 ++ m.drop 192)).take 24 })).stepN .trade 1).stepDone .trade 0))
  ∧ (∀ g, s.dict.granted .trade = some (2, g) → (3 < frameByte (s.dict.cmd 2).arg 0 ∨ ∃ b ∈ (s.dict.cmd 2).arg.drop 1, b ≠ 0) →
      exec .imageVerify s = .next (s.stepDone .trade (BitVec.ofNat 32 (1 + 5 * 2 ^ 16))))

/-- World resets and watchdogs (R493, R532, R533, R536, Table 17-8). -/
def Obligations.WorldsReset : Prop := ∀ (s : State) (q : Req) (v : Word) (pdc : Bool) (w : World),
  let slot := if pdc = true then 0x02B else 0x00D
  let wd := wdSlot w
  let lead := fld (s.reg wd 0x1008) 19 0
  let waits := ∃ t, s.openCaller t = true
  let reset (r : State) (w : World) : Prop :=
    (∀ u b, b < 7 → (vget (r.tile u).banks b Bank.reset).st ≠ .empty → (vget (r.tile u).banks b Bank.reset).ctx.world ≠ w)
    ∧ (∀ n : CtxId, 16 ≤ n.toNat → (r.store.slot n).claimed = true → (r.store.slot n).world ≠ w)
    ∧ (∀ i, i < 512 → s.irqWorld i = w → r.irq.en.getLsbD i = false)
    ∧ (r.tile (s.bootTile w)).sys.recorded = some (bootCtxNum w) ∧ r.store.slot (bootCtxNum w) = bootCtx w (s.vector w)
    ∧ vget r.dev.started w.idx false = true ∧ (∀ u, vget (r.tile u).cfg w.idx WorldCfg.reset = WorldCfg.reset)
    ∧ (w = .trade → r.sealEng.slots = [] ∧ r.dap.unlockEnd = none)
  (s.admits q slot 0x1100 → q.sup = true → (q.world = .trade ∧ pdc = false) ∨ (pdc = true ∧ bit v 0 = false) →
    (bit v 0 = true → ∃ r, exec (.wreset q pdc v) s = .next r ∧ reset r .trade ∧ r.resp = some (.ok 0))
    ∧ (bit v 0 = false → ¬ waits → ∃ r, exec (.wreset q pdc v) s = .next r ∧ reset r .opn ∧ r.resp = some (.ok 0))
    ∧ (bit v 0 = false → waits → exec (.wreset q pdc v) s = .next (s.modBoot (fun b => { b with waitOpen := true })).done))
  ∧ (s.admits q slot 0x1100 → q.sup = false ∨ (pdc = false ∧ q.world ≠ .trade) ∨ (pdc = true ∧ bit v 0 = true) →
      exec (.wreset q pdc v) s = .next { s with resp := some (.err busErr) })
  ∧ (s.wdRuns .opn = true → vget s.boot.left 1 0 = 0 → ¬ waits → ∃ r, exec .openWatchdogExpiry s = .next r ∧ reset r .opn
      ∧ r.reg 0x00E 0x1014 = s.reg 0x00E 0x1014 + 1 ∧ vget r.boot.left 1 0 = fld (s.reg 0x00E 0x1004) 19 0 * 1000)
  ∧ ((s.wdRuns .opn = false ∨ vget s.boot.left 1 0 ≠ 0) → exec .openWatchdogExpiry s = .next s)
  ∧ (s.wdRuns w = true → lead ≠ 0 → vget s.boot.warned w.idx false = false → vget s.boot.left w.idx 0 ≤ lead * 1000 → exec (.watchdogWarning w) s
      = .next ((s.modBoot (fun b => { b with warned := vset b.warned w.idx true })).raise (if w = .trade then 32 else 33)))
  ∧ (vget s.boot.warned w.idx false = true ∨ lead = 0 ∨ lead * 1000 < vget s.boot.left w.idx 0 → exec (.watchdogWarning w) s = .next s)
  ∧ (s.admits q wd 0x100C → v = 0xA5C3 → exec (.wdkick q w v) s = .next (s.modBoot (fun b => { b with primed := vset b.primed w.idx true })).done)
  ∧ (s.admits q wd 0x100C → v = 0x3C5A → vget s.boot.primed w.idx false = true → ∃ r, exec (.wdkick q w v) s = .next r
      ∧ vget r.boot.left w.idx 0 = fld (s.reg wd 0x1004) 19 0 * 1000 ∧ vget r.boot.primed w.idx false = false ∧ s.onlyIn r [.boot, .resp])
  ∧ (s.admits q wd 0x100C → v ≠ 0xA5C3 → (v = 0x3C5A → vget s.boot.primed w.idx false = false) → bit (s.reg wd 0x1000) 30 = false →
      exec (.wdkick q w v) s = .next (s.modBoot (fun b => { b with primed := vset b.primed w.idx false })).done)
  ∧ (s.admits q wd 0x100C → v ≠ 0xA5C3 → (v = 0x3C5A → vget s.boot.primed w.idx false = false) → bit (s.reg wd 0x1000) 30 = true →
      bit (s.reg wd 0x1000) 31 = true → exec (.wdkick q w v) s = .next ((s.modBoot (fun b => { b with primed := vset b.primed w.idx false })).wdExpire w).done)
  ∧ (s.admits q wd 0x1000 → bit (s.reg wd 0x1000) 30 = false → bit v 31 = true → bit (s.reg wd 0x1000) 31 = false →
      ∃ r, exec (.watchdogRegisterWrite q w 0 v) s = .next r ∧ r.reg wd 0x1000 = v &&& 0xC0000000
        ∧ vget r.boot.left w.idx 0 = fld (s.reg wd 0x1004) 19 0 * 1000 ∧ s.regsBut r [(wd, 0x1000)])
  ∧ (s.admits q wd 0x1000 → bit (s.reg wd 0x1000) 30 = true → exec (.watchdogRegisterWrite q w 0 v) s = .next s.done)
  ∧ (s.admits q wd 0x1004 → bit (s.reg wd 0x1000) 30 = false → exec (.watchdogRegisterWrite q w 4 v) s = .next (s.takeBits wd 0x1004 0xFFFFF v).done)
  ∧ (s.admits q wd 0x1004 → bit (s.reg wd 0x1000) 30 = true → exec (.watchdogRegisterWrite q w 4 v) s = .next s.done)
  ∧ (s.admits q wd 0x1008 → exec (.watchdogRegisterWrite q w 8 v) s = .next (s.takeBits wd 0x1008 0xFFFFF v).done)

/-- The TAP and the debug port's accesses (R537 to R539, R542, Tables 17-9, 17-10): an instruction takes the lands only while RESET_N is low; an access passes
its unit, has its status, and the address rises by 4. -/
def Obligations.TapOperates : Prop := ∀ (s : State) (v : Word) (a : BitVec 36),
  let tap (code : Nat) (lands : Option Nat) : State := { s with dap := { s.dap with active := some s.now, ir := code, lands := lands } }
  let held (code : Nat) : Option Nat := if s.boot.rst = .held then some code else none
  let s0 := tap 0x10 none
  let pa := s.dap.addr
  let rises (r : State) : Prop := r.dap.addr = (pa + 4) % 2 ^ 36
  exec .extest s = .next (tap 0 (held 0)) ∧ exec .samplePreload s = .next (tap 1 none) ∧ exec .idcode s = .next { tap 2 none with resp := some (.ok 0x2771636F) }
  ∧ exec .clamp s = .next (tap 4 (held 4)) ∧ exec .highz s = .next (tap 5 (held 5)) ∧ exec .bypass s = .next (tap 0x1F none)
  ∧ exec .trstN s = .next { s with dap := { s.dap with ir := 2, lands := none } }
  ∧ (a.toNat % 4 = 0 → exec (.dapaccSetAddress a) s = .next { s0 with dap := { s0.dap with addr := a.toNat, status := 0 } })
  ∧ (a.toNat % 4 ≠ 0 → exec (.dapaccSetAddress a) s = .next { s0 with dap := { s0.dap with status := 2 } })
  ∧ (s.bridgeDown = true → exec .dapaccRead s = .next { s0 with dap := { s0.dap with status := 2, addr := (pa + 4) % 2 ^ 36 } }
      ∧ exec (.dapaccWrite v) s = .next { s0 with dap := { s0.dap with status := 2, addr := (pa + 4) % 2 ^ 36 } })
  ∧ (∀ count, s.bridgeDown = false → s0.dapCheck pa false = some count → ∃ r, exec .dapaccRead s = .next r ∧ r.dap.status = 2 ∧ rises r
      ∧ r.dap.data = s.dap.data ∧ r.irq = (s0.raise 46).irq ∧ r.reg 0x005 0x1104 = s.reg 0x005 0x1104 + (if count = true then 1 else 0)
      ∧ r.mem = s.mem ∧ r.store = s.store ∧ r.tiles = s.tiles)
  ∧ (∀ count, s.bridgeDown = false → s0.dapCheck pa true = some count → ∃ r, exec (.dapaccWrite v) s = .next r ∧ r.dap.status = 2 ∧ rises r
      ∧ r.irq = (s0.raise 46).irq ∧ r.reg 0x005 0x1104 = s.reg 0x005 0x1104 + (if count = true then 1 else 0)
      ∧ r.mem = s.mem ∧ r.store = s.store ∧ r.tiles = s.tiles)
  ∧ (s.bridgeDown = false → s0.dapCheck pa false = none → s0.place pa = .sram ∨ s0.place pa = .dram ∨ s0.place pa = .ember → s.isDamaged pa 4 = false →
      ∃ r, exec .dapaccRead s = .next r ∧ r.dap.status = 0 ∧ rises r ∧ r.dap.data = BitVec.ofNat 32 (s.mem.val pa 4))
  ∧ (s.bridgeDown = false → s0.dapCheck pa true = none → s0.place pa = .sram ∨ s0.place pa = .dram ∨ s0.place pa = .ember → pa % 4 = 0 → s.mergeFails pa 4 = false →
      ∃ r, exec (.dapaccWrite v) s = .next r ∧ r.dap.status = 0 ∧ rises r ∧ r.mem.val pa 4 = v.toNat ∧ r.mem.tagAt pa = false
        ∧ ∀ b, 0x10000 ≤ b → b < pa ∨ pa + 4 ≤ b → r.mem.byte b = s.mem.byte b)
  ∧ (s.bridgeDown = false → s0.dapCheck pa false = none → s0.place pa = .ctxStore →
      (s.store.slot (slotAddr pa).1).world = .trade → s.scopeBit 0 = false → (slotAddr pa).2 ≠ 90 →
      ∃ r, exec .dapaccRead s = .next r ∧ r.dap.status = 0 ∧ rises r ∧ r.dap.data = 0)
  ∧ ((s.store.slot (slotAddr pa).1).world = .trade → s.scopeBit 1 = false → s0.place pa = .ctxStore → s0.dapCheck pa true ≠ none)

/-- Halts, the debug token and the unlock (R540 to R543, R545, Table 17-10). -/
def Obligations.DebugUnlocked : Prop := ∀ (s : State) (q : Req) (v : Word),
  let d := fld v 15 0
  let scope := fld v 18 16
  let trades := (allTiles.filter (fun t => bit v t.toNat && (s.tile t).run.isSome && (s.tile t).world == .trade)).length
  let valid := s.dap.token.length = 32 ∧ (s.dap.token.drop 4).take 4 = s.dap.nonce ∧ scope ≠ 0 ∧ 1 ≤ d ∧ d ≤ 28800
  let shows (r : State) (w : Word) : Prop := r.resp = some (.ok w) ∧ r.dap.ir = 0x11
  let renewed (r : State) : Prop := r.dap.nonce = (List.range 4).map (fun i => Config.entropy (s.free + i)) ∧ r.dap.nonceAt = 0 ∧ r.free = s.free + 4
  (∃ r, exec (.haltreq v) s = .next r ∧ shows r (s.dap.haltreq.setWidth 32) ∧ r.dap.haltreq = s.dap.haltreq ||| v.setWidth 16
      ∧ (∀ t : TileId, bit v t.toNat = false → r.tile t = s.tile t) ∧ (∀ t : TileId, bit v t.toNat = true → (r.tile t).sys.haltReq = true)
      ∧ (s.scopeBit 2 = false → s.dap.deferred ≤ 0xFFFF → r.dap.deferred = min (s.dap.deferred + trades) 0xFFFF)
      ∧ (s.scopeBit 2 = true → r.dap.deferred = s.dap.deferred) ∧ r.mem = s.mem ∧ r.regs = s.regs)
  ∧ (∃ r, exec (.resume v) s = .next r ∧ shows r 0 ∧ r.dap.haltreq = s.dap.haltreq &&& ~~~ v.setWidth 16
      ∧ (∀ t : TileId, bit v t.toNat = false → r.tile t = s.tile t)
      ∧ (∀ t : TileId, bit v t.toNat = true → (r.tile t).sys.haltReq = false ∧ (r.tile t).sys.halted = false
          ∧ (∀ n, (s.tile t).sys.halted = true → (s.tile t).sys.recorded = some n → (r.tile t).flow.freeze = .fill n .goOn))
      ∧ s.onlyIn r [.dap, .resp, .tiles])
  ∧ (bit v 0 = false → ∃ r, exec (.dreset v) s = .next r ∧ shows r 0 ∧ s.onlyIn r [.dap, .resp])
  ∧ (s.dap.token.length < 32 → ∃ r, exec (.tokenAppend v) s = .next r ∧ shows r (s.dap.token.getLastD 0) ∧ r.dap.token = s.dap.token ++ [v]
      ∧ (s.dap.token.length = 31 → r.irq = (s.raise 46).irq) ∧ (s.dap.token.length ≠ 31 → r.irq = s.irq) ∧ s.onlyIn r [.dap, .resp, .irq])
  ∧ (32 ≤ s.dap.token.length → ∃ r, exec (.tokenAppend v) s = .next r ∧ r.dap.token = s.dap.token ∧ s.onlyIn r [.dap, .resp])
  ∧ (∃ r, exec .tokclr s = .next r ∧ shows r 0 ∧ r.dap.token = [] ∧ renewed r ∧ s.onlyIn r [.dap, .resp, .free])
  ∧ (∃ r, exec .nonceRead s = .next r ∧ shows r (s.dap.nonce.getD s.dap.nonceAt 0) ∧ r.dap.nonce = s.dap.nonce
      ∧ r.dap.nonceAt = (s.dap.nonceAt + 1) % 4 ∧ s.onlyIn r [.dap, .resp])
  ∧ (s.admits q 0x038 0x1020 → valid → ∃ r, exec (.unlock q v) s = .next r ∧ r.dap.unlockEnd = some (s.now + d * 1000000) ∧ r.dap.scope = scope
      ∧ r.dap.token = [] ∧ renewed r ∧ r.resp = some (.ok 0) ∧ s.onlyIn r [.dap, .resp, .free])
  ∧ (s.admits q 0x038 0x1020 → ¬ valid → exec (.unlock q v) s = .next { s with resp := some (.err busErr) })
  ∧ (s.admits q 0x038 0x1020 → s.dap.unlockEnd.isSome = true → ∃ r, exec (.relock q v) s = .next r ∧ r.dap.unlockEnd = none ∧ r.dap.scope = 0
      ∧ renewed r ∧ r.irq = (s.raise 46).irq ∧ s.onlyIn r [.dap, .resp, .free, .irq])
  ∧ (s.admits q 0x038 0x1020 → s.dap.unlockEnd = none → exec (.relock q v) s = .next s.done)
  ∧ (∀ t, s.dap.unlockEnd = some t → t ≤ s.now → ∃ r, exec .uleftExpiry s = .next r ∧ r.dap.unlockEnd = none ∧ r.dap.scope = 0 ∧ renewed r
      ∧ r.irq = (s.raise 46).irq ∧ s.onlyIn r [.dap, .free, .irq])
  ∧ (∀ t, s.dap.unlockEnd = some t → s.now < t → exec .uleftExpiry s = .next s)
end

