-- ==== Sys2Proof/Laws/Bits.lean ====
section
/-!
SUPPORT. Laws/Bits.lean: what a set bit and a set field read as, and that the bits outside them stay.
-/
namespace Sys2Proof.Machine

/-- A bit of a word with one bit set to v. -/
theorem getLsbD_setBit {n : Nat} (w : BitVec n) (b i : Nat) (v : Bool) :
    (setBit w b v).getLsbD i = if i = b ∧ i < n then v else w.getLsbD i := by
  unfold setBit
  cases v
  · simp only [Bool.false_eq_true, if_false, BitVec.getLsbD_and, BitVec.getLsbD_not, BitVec.getLsbD_ofNat, Nat.one_shiftLeft, Nat.testBit_two_pow]
    by_cases hi : i < n
    · by_cases hb : i = b
      · subst hb; simp [hi]
      · simp [hi, hb, Ne.symm hb]
    · simp [hi, BitVec.getLsbD_of_ge w i (by omega)]
  · simp only [if_true, BitVec.getLsbD_or, BitVec.getLsbD_ofNat, Nat.one_shiftLeft, Nat.testBit_two_pow]
    by_cases hi : i < n
    · by_cases hb : i = b
      · subst hb; simp [hi]
      · simp [hi, hb, Ne.symm hb]
    · simp [hi]

/-- The bit that was set reads as set. -/
theorem bit_setBit_self {n : Nat} (w : BitVec n) (b : Nat) (v : Bool) (h : b < n) : bit (setBit w b v) b = v := by
  rw [bit, getLsbD_setBit, if_pos ⟨rfl, h⟩]
/-- Every other bit reads as before. -/
theorem bit_setBit_ne {n : Nat} (w : BitVec n) (b i : Nat) (v : Bool) (h : i ≠ b) : bit (setBit w b v) i = bit w i := by
  rw [bit, getLsbD_setBit, if_neg (fun e => h e.1), bit]

/-- A bit of a word with a field replaced. -/
theorem getLsbD_setFld {n : Nat} (w : BitVec n) (hi lo v i : Nat) :
    (setFld w hi lo v).getLsbD i = if lo ≤ i ∧ i < lo + (hi - lo + 1) ∧ i < n then v.testBit (i - lo) else w.getLsbD i := by
  unfold setFld
  by_cases hn : i < n
  · simp only [BitVec.getLsbD_or, BitVec.getLsbD_and, BitVec.getLsbD_not, BitVec.getLsbD_ofNat, Nat.testBit_shiftLeft, Nat.testBit_two_pow_sub_one, Nat.testBit_mod_two_pow]
    by_cases h1 : lo ≤ i
    · by_cases h2 : i < lo + (hi - lo + 1)
      · have : i - lo < hi - lo + 1 := by omega
        simp [hn, h1, h2, this]
      · have : ¬ i - lo < hi - lo + 1 := by omega
        simp [hn, h1, h2, this]
    · simp [hn, h1]
  · rw [BitVec.getLsbD_of_ge _ i (by omega), BitVec.getLsbD_of_ge w i (by omega), if_neg (by omega)]

/-- A bit of a field. -/
theorem testBit_fld {n : Nat} (w : BitVec n) (hi lo i : Nat) : (fld w hi lo).testBit i = (decide (i < hi - lo + 1) && w.getLsbD (lo + i)) := by
  rw [fld, Nat.testBit_mod_two_pow, Nat.testBit_shiftRight]; rfl

/-- A field is below its bound. -/
theorem fld_lt {n : Nat} (w : BitVec n) (hi lo : Nat) : fld w hi lo < 2 ^ (hi - lo + 1) := by
  rw [fld]; exact Nat.mod_lt _ (Nat.two_pow_pos _)

/-- The field that was set reads as set. -/
theorem fld_setFld_self {n : Nat} (w : BitVec n) (hi lo v : Nat) (h : lo ≤ hi) (hn : hi < n) : fld (setFld w hi lo v) hi lo = v % 2 ^ (hi - lo + 1) := by
  apply Nat.eq_of_testBit_eq
  intro i
  rw [testBit_fld, getLsbD_setFld, Nat.testBit_mod_two_pow]
  by_cases h1 : i < hi - lo + 1
  · rw [if_pos ⟨by omega, by omega, by omega⟩]; simp [h1]
  · simp [h1]
/-- A field apart from the one that was set reads as before. -/
theorem fld_setFld_ne {n : Nat} (w : BitVec n) (hi lo v hi' lo' : Nat) (h : lo ≤ hi) (h' : lo' ≤ hi') (hd : hi' < lo ∨ hi < lo') :
    fld (setFld w hi lo v) hi' lo' = fld w hi' lo' := by
  apply Nat.eq_of_testBit_eq
  intro i
  rw [testBit_fld, testBit_fld, getLsbD_setFld]
  by_cases h1 : i < hi' - lo' + 1
  · rw [if_neg (by omega)]
  · simp [h1]
/-- A field apart from a bit that was set reads as before. -/
theorem fld_setBit_ne {n : Nat} (w : BitVec n) (b : Nat) (v : Bool) (hi lo : Nat) (h : lo ≤ hi) (hd : b < lo ∨ hi < b) :
    fld (setBit w b v) hi lo = fld w hi lo := by
  apply Nat.eq_of_testBit_eq
  intro i
  rw [testBit_fld, testBit_fld, getLsbD_setBit]
  by_cases h1 : i < hi - lo + 1
  · rw [if_neg (by omega)]
  · simp [h1]
/-- A bit apart from a field that was set reads as before. -/
theorem bit_setFld_ne {n : Nat} (w : BitVec n) (hi lo v b : Nat) (h : lo ≤ hi) (hd : b < lo ∨ hi < b) : bit (setFld w hi lo v) b = bit w b := by
  rw [bit, getLsbD_setFld, if_neg (by omega), bit]

/-- Bits set one by one. -/
theorem getLsbD_foldl_setBit {n : Nat} (f : Nat → Bool) (w : BitVec n) (m i : Nat) :
    ((List.range m).foldl (fun a j => setBit a j (f j)) w).getLsbD i = if i < m ∧ i < n then f i else w.getLsbD i := by
  induction m with
  | zero => simp
  | succ m ih =>
    rw [List.range_succ, List.foldl_append, List.foldl_cons, List.foldl_nil, getLsbD_setBit, ih]
    by_cases h1 : i = m
    · subst h1; by_cases h2 : i < n <;> simp [h2]
    · by_cases h2 : i < m
      · have : i < m + 1 := by omega
        simp [h1, h2, this]
      · have : ¬ i < m + 1 := by omega
        simp [h1, h2, this]

/-- A bit of a word placed as word k of the 512 sources. -/
theorem getLsbD_irqPlace (v : Word) (k i : Nat) : (irqPlace v k).getLsbD i = (decide (i < 512) && (decide (i / 32 = k) && v.getLsbD (i % 32))) := by
  unfold irqPlace
  rw [BitVec.getLsbD_shiftLeft]
  by_cases h : i / 32 = k
  · have h1 : ¬ i < 32 * k := by omega
    have h2 : i - 32 * k = i % 32 := by omega
    have h3 : i % 32 < 512 := by omega
    by_cases h4 : i < 512 <;> simp [h, h1, h2, h3, h4]
  · by_cases h1 : i < 32 * k
    · simp [h, h1]
    · have h2 : 32 ≤ i - 32 * k := by omega
      simp [h, h1, BitVec.getLsbD_of_ge v _ h2]

/-- A bit of ownMask: the source belongs to the world. -/
theorem State.getLsbD_ownMask (s : State) (w : World) (k i : Nat) : (s.ownMask w k).getLsbD i = (decide (i < 32) && (s.irqWorld (32 * k + i) == w)) := by
  rw [State.ownMask, getLsbD_foldl_setBit]; by_cases h : i < 32 <;> simp [h]
/-- A bit of presentWord: the source exists. -/
theorem getLsbD_presentWord (k i : Nat) : (presentWord k).getLsbD i = (decide (i < 32) && irqPresent (32 * k + i)) := by
  rw [presentWord, getLsbD_foldl_setBit]; by_cases h : i < 32 <;> simp [h]
/-- A bit of pendWord: the source is pending. -/
theorem State.getLsbD_pendWord (s : State) (k i : Nat) : (s.pendWord k).getLsbD i = (decide (i < 32) && s.irqPending (32 * k + i)) := by
  rw [State.pendWord, getLsbD_foldl_setBit]; by_cases h : i < 32 <;> simp [h]

/-- A bit of the 512 sources with one set to v. -/
theorem getLsbD_setIrqBit (w : BitVec 512) (i j : Nat) (v : Bool) : (setIrqBit w i v).getLsbD j = if j = i ∧ j < 512 then v else w.getLsbD j :=
  getLsbD_setBit w i j v

/-- The bits of a word that its writer may change, placed among the sources: those it names of its own (R282, R286). -/
theorem State.getLsbD_place_own (s : State) (w : World) (k : Nat) (v : Word) (i : Nat) :
    (irqPlace (v &&& s.ownMask w k) k).getLsbD i = (decide (i < 512) && (decide (i / 32 = k) && v.getLsbD (i % 32) && (s.irqWorld i == w))) := by
  rw [getLsbD_irqPlace, BitVec.getLsbD_and, State.getLsbD_ownMask]
  by_cases h : i / 32 = k
  · have e : 32 * k + i % 32 = i := by omega
    have e2 : i % 32 < 32 := by omega
    simp [h, e, e2]
  · simp [h]

/-- The same, of the sources that exist. -/
theorem State.getLsbD_place_present (s : State) (w : World) (k : Nat) (v : Word) (i : Nat) :
    (irqPlace (v &&& s.ownMask w k &&& presentWord k) k).getLsbD i
      = (decide (i < 512) && (decide (i / 32 = k) && v.getLsbD (i % 32) && (s.irqWorld i == w) && irqPresent i)) := by
  rw [getLsbD_irqPlace, BitVec.getLsbD_and, BitVec.getLsbD_and, State.getLsbD_ownMask, getLsbD_presentWord]
  by_cases h : i / 32 = k
  · have e : 32 * k + i % 32 = i := by omega
    have e2 : i % 32 < 32 := by omega
    simp [h, e, e2, Bool.and_assoc]
  · simp [h]

end Sys2Proof.Machine
end

