-- ==== Sys2Proof/Laws/Sparse.lean ====
section
/-!
SUPPORT. Laws/Sparse.lean: reading after writing, and the canonical form, for the sparse maps.
-/
namespace Sys2Proof.Machine

variable {V : Type}

/-- What a put key reads as, and that every other key reads as before. -/
theorem Sparse.get_put (d : V) (k j : Nat) (v : V) (m : List (Nat × V)) :
    Sparse.get d j (Sparse.put k v m) = if j = k then v else Sparse.get d j m := by
  induction m with
  | nil => simp only [Sparse.put, Sparse.get]; by_cases hj : j = k <;> simp [hj, Ne.symm]
  | cons p r ih =>
    obtain ⟨a, w⟩ := p
    simp only [Sparse.put]
    split
    · by_cases hj : j = k
      · simp [Sparse.get, hj]
      · simp [Sparse.get, hj, Ne.symm hj]
    · split
      · rename_i h1 h2; subst h2
        by_cases hj : j = k
        · simp [Sparse.get, hj]
        · simp [Sparse.get, hj, Ne.symm hj]
      · by_cases hj : j = k
        · subst hj
          simp only [Sparse.get, ih, if_true]
          rw [if_neg (by omega)]
        · simp only [Sparse.get, ih, if_neg hj]

/-- A key above every listed key's bound reads as unlisted. -/
theorem Sparse.get_of_lt (d : V) (k : Nat) (m : List (Nat × V)) (h : ∀ p ∈ m, k < p.1) : Sparse.get d k m = d := by
  induction m with
  | nil => rfl
  | cons p r ih =>
    obtain ⟨a, w⟩ := p
    have := h (a, w) (by simp)
    simp only [Sparse.get]
    rw [if_neg (by simp only at this; omega)]
    exact ih (fun q hq => h q (by simp [hq]))

/-- What an erased key reads as, and that every other key reads as before. -/
theorem Sparse.get_erase (d : V) (k j : Nat) (m : List (Nat × V)) :
    Sparse.get d j (Sparse.erase k m) = if j = k then d else Sparse.get d j m := by
  induction m with
  | nil => simp [Sparse.erase, Sparse.get]
  | cons p r ih =>
    obtain ⟨a, w⟩ := p
    simp only [Sparse.erase, List.filter_cons] at *
    by_cases ha : a = k
    · subst ha
      simp only [beq_self_eq_true, Bool.not_true, Bool.false_eq_true, if_false, ih]
      by_cases hj : j = a
      · simp [hj]
      · simp [hj, Sparse.get, Ne.symm hj]
    · have : (a == k) = false := by simp [ha]
      simp only [this, Bool.not_false, if_true, Sparse.get, ih]
      by_cases hj : j = k
      · subst hj; simp [ha]
      · simp [hj]

/-- The keys of a put map are the keys of the map and the key put. -/
theorem Sparse.mem_put (k : Nat) (v : V) (m : List (Nat × V)) (p : Nat × V) (h : p ∈ Sparse.put k v m) : p = (k, v) ∨ p ∈ m := by
  induction m with
  | nil => simpa [Sparse.put] using h
  | cons q r ih =>
    obtain ⟨a, w⟩ := q
    simp only [Sparse.put] at h
    split at h
    · simpa using h
    · split at h
      · rcases List.mem_cons.mp h with h | h
        · exact .inl h
        · exact .inr (List.mem_cons_of_mem _ h)
      · rcases List.mem_cons.mp h with h | h
        · exact .inr (by simp [h])
        · rcases ih h with h | h
          · exact .inl h
          · exact .inr (List.mem_cons_of_mem _ h)

/-- A put keeps the keys strictly rising. -/
theorem Sparse.put_pairwise (k : Nat) (v : V) (m : List (Nat × V)) (h : (m.map Prod.fst).Pairwise (· < ·)) :
    ((Sparse.put k v m).map Prod.fst).Pairwise (· < ·) := by
  induction m with
  | nil => simp [Sparse.put]
  | cons q r ih =>
    obtain ⟨a, w⟩ := q
    simp only [List.map_cons, List.pairwise_cons] at h
    simp only [Sparse.put]
    split
    · rename_i hk
      simp only [List.map_cons, List.pairwise_cons, List.mem_cons]
      refine ⟨?_, h⟩
      rintro x (rfl | hx)
      · exact hk
      · exact Nat.lt_trans hk (h.1 x hx)
    · split
      · rename_i h1 h2; subst h2
        simpa [List.pairwise_cons] using h
      · simp only [List.map_cons, List.pairwise_cons]
        refine ⟨?_, ih h.2⟩
        intro x hx
        obtain ⟨p, hp, rfl⟩ := List.mem_map.mp hx
        rcases Sparse.mem_put k v r p hp with rfl | hp
        · simp only; omega
        · exact h.1 _ (List.mem_map_of_mem hp)

variable [DecidableEq V]

/-- A put of a value other than what its key reads as unlisted keeps the canonical form. -/
theorem Sparse.put_wf (d : Nat → V) (k : Nat) (v : V) (m : List (Nat × V)) (hv : v ≠ d k) (h : Sparse.wf d m = true) :
    Sparse.wf d (Sparse.put k v m) = true := by
  simp only [Sparse.wf, Bool.and_eq_true, decide_eq_true_eq, List.all_eq_true] at *
  refine ⟨Sparse.put_pairwise k v m h.1, fun p hp => ?_⟩
  rcases Sparse.mem_put k v m p hp with rfl | hp
  · exact hv
  · exact h.2 p hp

/-- Leaving entries out by key keeps the canonical form. -/
theorem Sparse.filter_wf (d : Nat → V) (f : Nat × V → Bool) (m : List (Nat × V)) (h : Sparse.wf d m = true) :
    Sparse.wf d (m.filter f) = true := by
  simp only [Sparse.wf, Bool.and_eq_true, decide_eq_true_eq, List.all_eq_true] at *
  refine ⟨h.1.sublist (List.Sublist.map _ List.filter_sublist), fun p hp => h.2 p (List.mem_filter.mp hp).1⟩

/-- Erasing a key keeps the canonical form. -/
theorem Sparse.erase_wf (d : Nat → V) (k : Nat) (m : List (Nat × V)) (h : Sparse.wf d m = true) :
    Sparse.wf d (Sparse.erase k m) = true := Sparse.filter_wf d _ m h

/-- A write keeps the canonical form. -/
theorem Sparse.write_wf (d : Nat → V) (k : Nat) (v : V) (m : List (Nat × V)) (h : Sparse.wf d m = true) :
    Sparse.wf d (Sparse.write (d k) k v m) = true := by
  simp only [Sparse.write]
  split
  · exact Sparse.erase_wf d k m h
  · exact Sparse.put_wf d k v m ‹_› h

/-- What a written key reads as, and that every other key reads as before. -/
theorem Sparse.get_write (d : V) (k j : Nat) (v : V) (m : List (Nat × V)) :
    Sparse.get d j (Sparse.write d k v m) = if j = k then v else Sparse.get d j m := by
  simp only [Sparse.write]
  split
  · rename_i hv; subst hv; exact Sparse.get_erase v k j m
  · exact Sparse.get_put d k j v m

/-- The map that lists nothing is canonical. -/
theorem Sparse.nil_wf (d : Nat → V) : Sparse.wf d [] = true := by simp [Sparse.wf]

end Sys2Proof.Machine
end

