-- ==== Sys2Proof/Laws/State.lean ====
section
/-!
SUPPORT. Laws/State.lean: what each update of the state changes, field by field, and that it leaves every other field alone.
-/
namespace Sys2Proof.Machine

/-- A register reads the register file alone. -/
theorem State.regW_congr {s t : State} {w : World} {a o : Nat} (h : t.regs = s.regs) : t.regW w a o = s.regW w a o := by
  rw [State.regW, State.regW, h]
/-- A tile is read from the tiles alone. -/
theorem State.tile_congr {s t : State} {u : TileId} (h : t.tiles = s.tiles) : t.tile u = s.tile u := by rw [State.tile, State.tile, h]

theorem State.withRegs_pending (s : State) (r : List (Nat × Word)) : ({ s with regs := r } : State).pending = s.pending := rfl
theorem State.withRegs_now (s : State) (r : List (Nat × Word)) : ({ s with regs := r } : State).now = s.now := rfl
theorem State.withRegs_seq (s : State) (r : List (Nat × Word)) : ({ s with regs := r } : State).seq = s.seq := rfl
theorem State.withRegs_free (s : State) (r : List (Nat × Word)) : ({ s with regs := r } : State).free = s.free := rfl
theorem State.withRegs_resp (s : State) (r : List (Nat × Word)) : ({ s with regs := r } : State).resp = s.resp := rfl
theorem State.withRegs_mem (s : State) (r : List (Nat × Word)) : ({ s with regs := r } : State).mem = s.mem := rfl
theorem State.withRegs_irq (s : State) (r : List (Nat × Word)) : ({ s with regs := r } : State).irq = s.irq := rfl
theorem State.withRegs_sweep (s : State) (r : List (Nat × Word)) : ({ s with regs := r } : State).sweep = s.sweep := rfl
theorem State.withRegs_upsets (s : State) (r : List (Nat × Word)) : ({ s with regs := r } : State).upsets = s.upsets := rfl
theorem State.withRegs_store (s : State) (r : List (Nat × Word)) : ({ s with regs := r } : State).store = s.store := rfl
theorem State.withRegs_ptp (s : State) (r : List (Nat × Word)) : ({ s with regs := r } : State).ptp = s.ptp := rfl
theorem State.withRegs_errCount (s : State) (r : List (Nat × Word)) : ({ s with regs := r } : State).errCount = s.errCount := rfl
theorem State.withRegs_errRows (s : State) (r : List (Nat × Word)) : ({ s with regs := r } : State).errRows = s.errRows := rfl
theorem State.withRegs_dict (s : State) (r : List (Nat × Word)) : ({ s with regs := r } : State).dict = s.dict := rfl
theorem State.withRegs_dev (s : State) (r : List (Nat × Word)) : ({ s with regs := r } : State).dev = s.dev := rfl
theorem State.withRegs_out (s : State) (r : List (Nat × Word)) : ({ s with regs := r } : State).out = s.out := rfl
theorem State.withRegs_lanes (s : State) (r : List (Nat × Word)) : ({ s with regs := r } : State).lanes = s.lanes := rfl
theorem State.withRegs_bb (s : State) (r : List (Nat × Word)) : ({ s with regs := r } : State).bb = s.bb := rfl
theorem State.withRegs_tb (s : State) (r : List (Nat × Word)) : ({ s with regs := r } : State).tb = s.tb := rfl
theorem State.withRegs_usb (s : State) (r : List (Nat × Word)) : ({ s with regs := r } : State).usb = s.usb := rfl
theorem State.withRegs_sealEng (s : State) (r : List (Nat × Word)) : ({ s with regs := r } : State).sealEng = s.sealEng := rfl
theorem State.withRegs_bus (s : State) (r : List (Nat × Word)) : ({ s with regs := r } : State).bus = s.bus := rfl
theorem State.withRegs_ledger (s : State) (r : List (Nat × Word)) : ({ s with regs := r } : State).ledger = s.ledger := rfl
theorem State.withRegs_rtc (s : State) (r : List (Nat × Word)) : ({ s with regs := r } : State).rtc = s.rtc := rfl
theorem State.withRegs_pdc (s : State) (r : List (Nat × Word)) : ({ s with regs := r } : State).pdc = s.pdc := rfl
theorem State.withRegs_job (s : State) (r : List (Nat × Word)) : ({ s with regs := r } : State).job = s.job := rfl
theorem State.withRegs_boot (s : State) (r : List (Nat × Word)) : ({ s with regs := r } : State).boot = s.boot := rfl
theorem State.withRegs_dap (s : State) (r : List (Nat × Word)) : ({ s with regs := r } : State).dap = s.dap := rfl
theorem State.withRegs_tiles (s : State) (r : List (Nat × Word)) : ({ s with regs := r } : State).tiles = s.tiles := rfl
-- setRegW
@[simp] theorem State.setRegW_now (s : State) (w : World) (slot off : Nat) (v : Word) : (s.setRegW w slot off v).now = s.now := State.withRegs_now s _
@[simp] theorem State.setRegW_seq (s : State) (w : World) (slot off : Nat) (v : Word) : (s.setRegW w slot off v).seq = s.seq := State.withRegs_seq s _
@[simp] theorem State.setRegW_free (s : State) (w : World) (slot off : Nat) (v : Word) : (s.setRegW w slot off v).free = s.free := State.withRegs_free s _
@[simp] theorem State.setRegW_resp (s : State) (w : World) (slot off : Nat) (v : Word) : (s.setRegW w slot off v).resp = s.resp := State.withRegs_resp s _
@[simp] theorem State.setRegW_irq (s : State) (w : World) (slot off : Nat) (v : Word) : (s.setRegW w slot off v).irq = s.irq := State.withRegs_irq s _
@[simp] theorem State.setRegW_sweep (s : State) (w : World) (slot off : Nat) (v : Word) : (s.setRegW w slot off v).sweep = s.sweep := State.withRegs_sweep s _
@[simp] theorem State.setRegW_upsets (s : State) (w : World) (slot off : Nat) (v : Word) : (s.setRegW w slot off v).upsets = s.upsets := State.withRegs_upsets s _
@[simp] theorem State.setRegW_store (s : State) (w : World) (slot off : Nat) (v : Word) : (s.setRegW w slot off v).store = s.store := State.withRegs_store s _
@[simp] theorem State.setRegW_ptp (s : State) (w : World) (slot off : Nat) (v : Word) : (s.setRegW w slot off v).ptp = s.ptp := State.withRegs_ptp s _
@[simp] theorem State.setRegW_errCount (s : State) (w : World) (slot off : Nat) (v : Word) : (s.setRegW w slot off v).errCount = s.errCount := State.withRegs_errCount s _
@[simp] theorem State.setRegW_errRows (s : State) (w : World) (slot off : Nat) (v : Word) : (s.setRegW w slot off v).errRows = s.errRows := State.withRegs_errRows s _
@[simp] theorem State.setRegW_dict (s : State) (w : World) (slot off : Nat) (v : Word) : (s.setRegW w slot off v).dict = s.dict := State.withRegs_dict s _
@[simp] theorem State.setRegW_dev (s : State) (w : World) (slot off : Nat) (v : Word) : (s.setRegW w slot off v).dev = s.dev := State.withRegs_dev s _
@[simp] theorem State.setRegW_out (s : State) (w : World) (slot off : Nat) (v : Word) : (s.setRegW w slot off v).out = s.out := State.withRegs_out s _
@[simp] theorem State.setRegW_lanes (s : State) (w : World) (slot off : Nat) (v : Word) : (s.setRegW w slot off v).lanes = s.lanes := State.withRegs_lanes s _
@[simp] theorem State.setRegW_bb (s : State) (w : World) (slot off : Nat) (v : Word) : (s.setRegW w slot off v).bb = s.bb := State.withRegs_bb s _
@[simp] theorem State.setRegW_tb (s : State) (w : World) (slot off : Nat) (v : Word) : (s.setRegW w slot off v).tb = s.tb := State.withRegs_tb s _
@[simp] theorem State.setRegW_usb (s : State) (w : World) (slot off : Nat) (v : Word) : (s.setRegW w slot off v).usb = s.usb := State.withRegs_usb s _
@[simp] theorem State.setRegW_sealEng (s : State) (w : World) (slot off : Nat) (v : Word) : (s.setRegW w slot off v).sealEng = s.sealEng := State.withRegs_sealEng s _
@[simp] theorem State.setRegW_bus (s : State) (w : World) (slot off : Nat) (v : Word) : (s.setRegW w slot off v).bus = s.bus := State.withRegs_bus s _
@[simp] theorem State.setRegW_ledger (s : State) (w : World) (slot off : Nat) (v : Word) : (s.setRegW w slot off v).ledger = s.ledger := State.withRegs_ledger s _
@[simp] theorem State.setRegW_rtc (s : State) (w : World) (slot off : Nat) (v : Word) : (s.setRegW w slot off v).rtc = s.rtc := State.withRegs_rtc s _
@[simp] theorem State.setRegW_pdc (s : State) (w : World) (slot off : Nat) (v : Word) : (s.setRegW w slot off v).pdc = s.pdc := State.withRegs_pdc s _
@[simp] theorem State.setRegW_job (s : State) (w : World) (slot off : Nat) (v : Word) : (s.setRegW w slot off v).job = s.job := State.withRegs_job s _
@[simp] theorem State.setRegW_boot (s : State) (w : World) (slot off : Nat) (v : Word) : (s.setRegW w slot off v).boot = s.boot := State.withRegs_boot s _
@[simp] theorem State.setRegW_dap (s : State) (w : World) (slot off : Nat) (v : Word) : (s.setRegW w slot off v).dap = s.dap := State.withRegs_dap s _
@[simp] theorem State.setRegW_tiles (s : State) (w : World) (slot off : Nat) (v : Word) : (s.setRegW w slot off v).tiles = s.tiles := State.withRegs_tiles s _
@[simp] theorem State.setRegW_tile (s : State) (w : World) (slot off : Nat) (v : Word) (t' : TileId) : (s.setRegW w slot off v).tile t' = s.tile t' := State.tile_congr (State.setRegW_tiles s w slot off v)
-- setReg
@[simp] theorem State.setReg_now (s : State) (slot off : Nat) (v : Word) : (s.setReg slot off v).now = s.now := State.setRegW_now s .trade slot off v
@[simp] theorem State.setReg_seq (s : State) (slot off : Nat) (v : Word) : (s.setReg slot off v).seq = s.seq := State.setRegW_seq s .trade slot off v
@[simp] theorem State.setReg_free (s : State) (slot off : Nat) (v : Word) : (s.setReg slot off v).free = s.free := State.setRegW_free s .trade slot off v
@[simp] theorem State.setReg_resp (s : State) (slot off : Nat) (v : Word) : (s.setReg slot off v).resp = s.resp := State.setRegW_resp s .trade slot off v
@[simp] theorem State.setReg_irq (s : State) (slot off : Nat) (v : Word) : (s.setReg slot off v).irq = s.irq := State.setRegW_irq s .trade slot off v
@[simp] theorem State.setReg_sweep (s : State) (slot off : Nat) (v : Word) : (s.setReg slot off v).sweep = s.sweep := State.setRegW_sweep s .trade slot off v
@[simp] theorem State.setReg_upsets (s : State) (slot off : Nat) (v : Word) : (s.setReg slot off v).upsets = s.upsets := State.setRegW_upsets s .trade slot off v
@[simp] theorem State.setReg_store (s : State) (slot off : Nat) (v : Word) : (s.setReg slot off v).store = s.store := State.setRegW_store s .trade slot off v
@[simp] theorem State.setReg_ptp (s : State) (slot off : Nat) (v : Word) : (s.setReg slot off v).ptp = s.ptp := State.setRegW_ptp s .trade slot off v
@[simp] theorem State.setReg_errCount (s : State) (slot off : Nat) (v : Word) : (s.setReg slot off v).errCount = s.errCount := State.setRegW_errCount s .trade slot off v
@[simp] theorem State.setReg_errRows (s : State) (slot off : Nat) (v : Word) : (s.setReg slot off v).errRows = s.errRows := State.setRegW_errRows s .trade slot off v
@[simp] theorem State.setReg_dict (s : State) (slot off : Nat) (v : Word) : (s.setReg slot off v).dict = s.dict := State.setRegW_dict s .trade slot off v
@[simp] theorem State.setReg_dev (s : State) (slot off : Nat) (v : Word) : (s.setReg slot off v).dev = s.dev := State.setRegW_dev s .trade slot off v
@[simp] theorem State.setReg_out (s : State) (slot off : Nat) (v : Word) : (s.setReg slot off v).out = s.out := State.setRegW_out s .trade slot off v
@[simp] theorem State.setReg_lanes (s : State) (slot off : Nat) (v : Word) : (s.setReg slot off v).lanes = s.lanes := State.setRegW_lanes s .trade slot off v
@[simp] theorem State.setReg_bb (s : State) (slot off : Nat) (v : Word) : (s.setReg slot off v).bb = s.bb := State.setRegW_bb s .trade slot off v
@[simp] theorem State.setReg_tb (s : State) (slot off : Nat) (v : Word) : (s.setReg slot off v).tb = s.tb := State.setRegW_tb s .trade slot off v
@[simp] theorem State.setReg_usb (s : State) (slot off : Nat) (v : Word) : (s.setReg slot off v).usb = s.usb := State.setRegW_usb s .trade slot off v
@[simp] theorem State.setReg_sealEng (s : State) (slot off : Nat) (v : Word) : (s.setReg slot off v).sealEng = s.sealEng := State.setRegW_sealEng s .trade slot off v
@[simp] theorem State.setReg_bus (s : State) (slot off : Nat) (v : Word) : (s.setReg slot off v).bus = s.bus := State.setRegW_bus s .trade slot off v
@[simp] theorem State.setReg_ledger (s : State) (slot off : Nat) (v : Word) : (s.setReg slot off v).ledger = s.ledger := State.setRegW_ledger s .trade slot off v
@[simp] theorem State.setReg_rtc (s : State) (slot off : Nat) (v : Word) : (s.setReg slot off v).rtc = s.rtc := State.setRegW_rtc s .trade slot off v
@[simp] theorem State.setReg_pdc (s : State) (slot off : Nat) (v : Word) : (s.setReg slot off v).pdc = s.pdc := State.setRegW_pdc s .trade slot off v
@[simp] theorem State.setReg_job (s : State) (slot off : Nat) (v : Word) : (s.setReg slot off v).job = s.job := State.setRegW_job s .trade slot off v
@[simp] theorem State.setReg_boot (s : State) (slot off : Nat) (v : Word) : (s.setReg slot off v).boot = s.boot := State.setRegW_boot s .trade slot off v
@[simp] theorem State.setReg_dap (s : State) (slot off : Nat) (v : Word) : (s.setReg slot off v).dap = s.dap := State.setRegW_dap s .trade slot off v
@[simp] theorem State.setReg_tiles (s : State) (slot off : Nat) (v : Word) : (s.setReg slot off v).tiles = s.tiles := State.setRegW_tiles s .trade slot off v
@[simp] theorem State.setReg_tile (s : State) (slot off : Nat) (v : Word) (t' : TileId) : (s.setReg slot off v).tile t' = s.tile t' := State.tile_congr (State.setReg_tiles s slot off v)
-- modReg
@[simp] theorem State.modReg_now (s : State) (slot off : Nat) (f : Word → Word) : (s.modReg slot off f).now = s.now := State.setReg_now s slot off _
@[simp] theorem State.modReg_seq (s : State) (slot off : Nat) (f : Word → Word) : (s.modReg slot off f).seq = s.seq := State.setReg_seq s slot off _
@[simp] theorem State.modReg_free (s : State) (slot off : Nat) (f : Word → Word) : (s.modReg slot off f).free = s.free := State.setReg_free s slot off _
@[simp] theorem State.modReg_resp (s : State) (slot off : Nat) (f : Word → Word) : (s.modReg slot off f).resp = s.resp := State.setReg_resp s slot off _
@[simp] theorem State.modReg_irq (s : State) (slot off : Nat) (f : Word → Word) : (s.modReg slot off f).irq = s.irq := State.setReg_irq s slot off _
@[simp] theorem State.modReg_sweep (s : State) (slot off : Nat) (f : Word → Word) : (s.modReg slot off f).sweep = s.sweep := State.setReg_sweep s slot off _
@[simp] theorem State.modReg_upsets (s : State) (slot off : Nat) (f : Word → Word) : (s.modReg slot off f).upsets = s.upsets := State.setReg_upsets s slot off _
@[simp] theorem State.modReg_store (s : State) (slot off : Nat) (f : Word → Word) : (s.modReg slot off f).store = s.store := State.setReg_store s slot off _
@[simp] theorem State.modReg_ptp (s : State) (slot off : Nat) (f : Word → Word) : (s.modReg slot off f).ptp = s.ptp := State.setReg_ptp s slot off _
@[simp] theorem State.modReg_errCount (s : State) (slot off : Nat) (f : Word → Word) : (s.modReg slot off f).errCount = s.errCount := State.setReg_errCount s slot off _
@[simp] theorem State.modReg_errRows (s : State) (slot off : Nat) (f : Word → Word) : (s.modReg slot off f).errRows = s.errRows := State.setReg_errRows s slot off _
@[simp] theorem State.modReg_dict (s : State) (slot off : Nat) (f : Word → Word) : (s.modReg slot off f).dict = s.dict := State.setReg_dict s slot off _
@[simp] theorem State.modReg_dev (s : State) (slot off : Nat) (f : Word → Word) : (s.modReg slot off f).dev = s.dev := State.setReg_dev s slot off _
@[simp] theorem State.modReg_out (s : State) (slot off : Nat) (f : Word → Word) : (s.modReg slot off f).out = s.out := State.setReg_out s slot off _
@[simp] theorem State.modReg_lanes (s : State) (slot off : Nat) (f : Word → Word) : (s.modReg slot off f).lanes = s.lanes := State.setReg_lanes s slot off _
@[simp] theorem State.modReg_bb (s : State) (slot off : Nat) (f : Word → Word) : (s.modReg slot off f).bb = s.bb := State.setReg_bb s slot off _
@[simp] theorem State.modReg_tb (s : State) (slot off : Nat) (f : Word → Word) : (s.modReg slot off f).tb = s.tb := State.setReg_tb s slot off _
@[simp] theorem State.modReg_usb (s : State) (slot off : Nat) (f : Word → Word) : (s.modReg slot off f).usb = s.usb := State.setReg_usb s slot off _
@[simp] theorem State.modReg_sealEng (s : State) (slot off : Nat) (f : Word → Word) : (s.modReg slot off f).sealEng = s.sealEng := State.setReg_sealEng s slot off _
@[simp] theorem State.modReg_bus (s : State) (slot off : Nat) (f : Word → Word) : (s.modReg slot off f).bus = s.bus := State.setReg_bus s slot off _
@[simp] theorem State.modReg_ledger (s : State) (slot off : Nat) (f : Word → Word) : (s.modReg slot off f).ledger = s.ledger := State.setReg_ledger s slot off _
@[simp] theorem State.modReg_rtc (s : State) (slot off : Nat) (f : Word → Word) : (s.modReg slot off f).rtc = s.rtc := State.setReg_rtc s slot off _
@[simp] theorem State.modReg_pdc (s : State) (slot off : Nat) (f : Word → Word) : (s.modReg slot off f).pdc = s.pdc := State.setReg_pdc s slot off _
@[simp] theorem State.modReg_job (s : State) (slot off : Nat) (f : Word → Word) : (s.modReg slot off f).job = s.job := State.setReg_job s slot off _
@[simp] theorem State.modReg_boot (s : State) (slot off : Nat) (f : Word → Word) : (s.modReg slot off f).boot = s.boot := State.setReg_boot s slot off _
@[simp] theorem State.modReg_dap (s : State) (slot off : Nat) (f : Word → Word) : (s.modReg slot off f).dap = s.dap := State.setReg_dap s slot off _
@[simp] theorem State.modReg_tiles (s : State) (slot off : Nat) (f : Word → Word) : (s.modReg slot off f).tiles = s.tiles := State.setReg_tiles s slot off _
@[simp] theorem State.modReg_tile (s : State) (slot off : Nat) (f : Word → Word) (t' : TileId) : (s.modReg slot off f).tile t' = s.tile t' := State.tile_congr (State.modReg_tiles s slot off f)
-- setTile
@[simp] theorem State.setTile_now (s : State) (t : TileId) (x : Tile) : (s.setTile t x).now = s.now := rfl
@[simp] theorem State.setTile_seq (s : State) (t : TileId) (x : Tile) : (s.setTile t x).seq = s.seq := rfl
@[simp] theorem State.setTile_free (s : State) (t : TileId) (x : Tile) : (s.setTile t x).free = s.free := rfl
@[simp] theorem State.setTile_resp (s : State) (t : TileId) (x : Tile) : (s.setTile t x).resp = s.resp := rfl
@[simp] theorem State.setTile_regs (s : State) (t : TileId) (x : Tile) : (s.setTile t x).regs = s.regs := rfl
@[simp] theorem State.setTile_irq (s : State) (t : TileId) (x : Tile) : (s.setTile t x).irq = s.irq := rfl
@[simp] theorem State.setTile_sweep (s : State) (t : TileId) (x : Tile) : (s.setTile t x).sweep = s.sweep := rfl
@[simp] theorem State.setTile_upsets (s : State) (t : TileId) (x : Tile) : (s.setTile t x).upsets = s.upsets := rfl
@[simp] theorem State.setTile_store (s : State) (t : TileId) (x : Tile) : (s.setTile t x).store = s.store := rfl
@[simp] theorem State.setTile_ptp (s : State) (t : TileId) (x : Tile) : (s.setTile t x).ptp = s.ptp := rfl
@[simp] theorem State.setTile_errCount (s : State) (t : TileId) (x : Tile) : (s.setTile t x).errCount = s.errCount := rfl
@[simp] theorem State.setTile_errRows (s : State) (t : TileId) (x : Tile) : (s.setTile t x).errRows = s.errRows := rfl
@[simp] theorem State.setTile_dict (s : State) (t : TileId) (x : Tile) : (s.setTile t x).dict = s.dict := rfl
@[simp] theorem State.setTile_dev (s : State) (t : TileId) (x : Tile) : (s.setTile t x).dev = s.dev := rfl
@[simp] theorem State.setTile_out (s : State) (t : TileId) (x : Tile) : (s.setTile t x).out = s.out := rfl
@[simp] theorem State.setTile_lanes (s : State) (t : TileId) (x : Tile) : (s.setTile t x).lanes = s.lanes := rfl
@[simp] theorem State.setTile_bb (s : State) (t : TileId) (x : Tile) : (s.setTile t x).bb = s.bb := rfl
@[simp] theorem State.setTile_tb (s : State) (t : TileId) (x : Tile) : (s.setTile t x).tb = s.tb := rfl
@[simp] theorem State.setTile_usb (s : State) (t : TileId) (x : Tile) : (s.setTile t x).usb = s.usb := rfl
@[simp] theorem State.setTile_sealEng (s : State) (t : TileId) (x : Tile) : (s.setTile t x).sealEng = s.sealEng := rfl
@[simp] theorem State.setTile_bus (s : State) (t : TileId) (x : Tile) : (s.setTile t x).bus = s.bus := rfl
@[simp] theorem State.setTile_ledger (s : State) (t : TileId) (x : Tile) : (s.setTile t x).ledger = s.ledger := rfl
@[simp] theorem State.setTile_rtc (s : State) (t : TileId) (x : Tile) : (s.setTile t x).rtc = s.rtc := rfl
@[simp] theorem State.setTile_pdc (s : State) (t : TileId) (x : Tile) : (s.setTile t x).pdc = s.pdc := rfl
@[simp] theorem State.setTile_job (s : State) (t : TileId) (x : Tile) : (s.setTile t x).job = s.job := rfl
@[simp] theorem State.setTile_boot (s : State) (t : TileId) (x : Tile) : (s.setTile t x).boot = s.boot := rfl
@[simp] theorem State.setTile_dap (s : State) (t : TileId) (x : Tile) : (s.setTile t x).dap = s.dap := rfl
@[simp] theorem State.setTile_tiles (s : State) (t : TileId) (x : Tile) : (s.setTile t x).tiles = vset s.tiles t.toNat x := rfl
@[simp] theorem State.setTile_regW (s : State) (t : TileId) (x : Tile) (w' : World) (slot' off' : Nat) : (s.setTile t x).regW w' slot' off' = s.regW w' slot' off' := State.regW_congr rfl
@[simp] theorem State.setTile_reg (s : State) (t : TileId) (x : Tile) (slot' off' : Nat) : (s.setTile t x).reg slot' off' = s.reg slot' off' := State.regW_congr rfl
-- modTile
@[simp] theorem State.modTile_now (s : State) (t : TileId) (f : Tile → Tile) : (s.modTile t f).now = s.now := rfl
@[simp] theorem State.modTile_seq (s : State) (t : TileId) (f : Tile → Tile) : (s.modTile t f).seq = s.seq := rfl
@[simp] theorem State.modTile_free (s : State) (t : TileId) (f : Tile → Tile) : (s.modTile t f).free = s.free := rfl
@[simp] theorem State.modTile_resp (s : State) (t : TileId) (f : Tile → Tile) : (s.modTile t f).resp = s.resp := rfl
@[simp] theorem State.modTile_regs (s : State) (t : TileId) (f : Tile → Tile) : (s.modTile t f).regs = s.regs := rfl
@[simp] theorem State.modTile_irq (s : State) (t : TileId) (f : Tile → Tile) : (s.modTile t f).irq = s.irq := rfl
@[simp] theorem State.modTile_sweep (s : State) (t : TileId) (f : Tile → Tile) : (s.modTile t f).sweep = s.sweep := rfl
@[simp] theorem State.modTile_upsets (s : State) (t : TileId) (f : Tile → Tile) : (s.modTile t f).upsets = s.upsets := rfl
@[simp] theorem State.modTile_store (s : State) (t : TileId) (f : Tile → Tile) : (s.modTile t f).store = s.store := rfl
@[simp] theorem State.modTile_ptp (s : State) (t : TileId) (f : Tile → Tile) : (s.modTile t f).ptp = s.ptp := rfl
@[simp] theorem State.modTile_errCount (s : State) (t : TileId) (f : Tile → Tile) : (s.modTile t f).errCount = s.errCount := rfl
@[simp] theorem State.modTile_errRows (s : State) (t : TileId) (f : Tile → Tile) : (s.modTile t f).errRows = s.errRows := rfl
@[simp] theorem State.modTile_dict (s : State) (t : TileId) (f : Tile → Tile) : (s.modTile t f).dict = s.dict := rfl
@[simp] theorem State.modTile_dev (s : State) (t : TileId) (f : Tile → Tile) : (s.modTile t f).dev = s.dev := rfl
@[simp] theorem State.modTile_out (s : State) (t : TileId) (f : Tile → Tile) : (s.modTile t f).out = s.out := rfl
@[simp] theorem State.modTile_lanes (s : State) (t : TileId) (f : Tile → Tile) : (s.modTile t f).lanes = s.lanes := rfl
@[simp] theorem State.modTile_bb (s : State) (t : TileId) (f : Tile → Tile) : (s.modTile t f).bb = s.bb := rfl
@[simp] theorem State.modTile_tb (s : State) (t : TileId) (f : Tile → Tile) : (s.modTile t f).tb = s.tb := rfl
@[simp] theorem State.modTile_usb (s : State) (t : TileId) (f : Tile → Tile) : (s.modTile t f).usb = s.usb := rfl
@[simp] theorem State.modTile_sealEng (s : State) (t : TileId) (f : Tile → Tile) : (s.modTile t f).sealEng = s.sealEng := rfl
@[simp] theorem State.modTile_bus (s : State) (t : TileId) (f : Tile → Tile) : (s.modTile t f).bus = s.bus := rfl
@[simp] theorem State.modTile_ledger (s : State) (t : TileId) (f : Tile → Tile) : (s.modTile t f).ledger = s.ledger := rfl
@[simp] theorem State.modTile_rtc (s : State) (t : TileId) (f : Tile → Tile) : (s.modTile t f).rtc = s.rtc := rfl
@[simp] theorem State.modTile_pdc (s : State) (t : TileId) (f : Tile → Tile) : (s.modTile t f).pdc = s.pdc := rfl
@[simp] theorem State.modTile_job (s : State) (t : TileId) (f : Tile → Tile) : (s.modTile t f).job = s.job := rfl
@[simp] theorem State.modTile_boot (s : State) (t : TileId) (f : Tile → Tile) : (s.modTile t f).boot = s.boot := rfl
@[simp] theorem State.modTile_dap (s : State) (t : TileId) (f : Tile → Tile) : (s.modTile t f).dap = s.dap := rfl
@[simp] theorem State.modTile_tiles (s : State) (t : TileId) (f : Tile → Tile) : (s.modTile t f).tiles = vset s.tiles t.toNat (f (s.tile t)) := rfl
@[simp] theorem State.modTile_regW (s : State) (t : TileId) (f : Tile → Tile) (w' : World) (slot' off' : Nat) : (s.modTile t f).regW w' slot' off' = s.regW w' slot' off' := State.regW_congr rfl
@[simp] theorem State.modTile_reg (s : State) (t : TileId) (f : Tile → Tile) (slot' off' : Nat) : (s.modTile t f).reg slot' off' = s.reg slot' off' := State.regW_congr rfl
-- mapTiles
@[simp] theorem State.mapTiles_now (s : State) (f : Tile → Tile) : (s.mapTiles f).now = s.now := rfl
@[simp] theorem State.mapTiles_seq (s : State) (f : Tile → Tile) : (s.mapTiles f).seq = s.seq := rfl
@[simp] theorem State.mapTiles_free (s : State) (f : Tile → Tile) : (s.mapTiles f).free = s.free := rfl
@[simp] theorem State.mapTiles_resp (s : State) (f : Tile → Tile) : (s.mapTiles f).resp = s.resp := rfl
@[simp] theorem State.mapTiles_regs (s : State) (f : Tile → Tile) : (s.mapTiles f).regs = s.regs := rfl
@[simp] theorem State.mapTiles_irq (s : State) (f : Tile → Tile) : (s.mapTiles f).irq = s.irq := rfl
@[simp] theorem State.mapTiles_sweep (s : State) (f : Tile → Tile) : (s.mapTiles f).sweep = s.sweep := rfl
@[simp] theorem State.mapTiles_upsets (s : State) (f : Tile → Tile) : (s.mapTiles f).upsets = s.upsets := rfl
@[simp] theorem State.mapTiles_store (s : State) (f : Tile → Tile) : (s.mapTiles f).store = s.store := rfl
@[simp] theorem State.mapTiles_ptp (s : State) (f : Tile → Tile) : (s.mapTiles f).ptp = s.ptp := rfl
@[simp] theorem State.mapTiles_errCount (s : State) (f : Tile → Tile) : (s.mapTiles f).errCount = s.errCount := rfl
@[simp] theorem State.mapTiles_errRows (s : State) (f : Tile → Tile) : (s.mapTiles f).errRows = s.errRows := rfl
@[simp] theorem State.mapTiles_dict (s : State) (f : Tile → Tile) : (s.mapTiles f).dict = s.dict := rfl
@[simp] theorem State.mapTiles_dev (s : State) (f : Tile → Tile) : (s.mapTiles f).dev = s.dev := rfl
@[simp] theorem State.mapTiles_out (s : State) (f : Tile → Tile) : (s.mapTiles f).out = s.out := rfl
@[simp] theorem State.mapTiles_lanes (s : State) (f : Tile → Tile) : (s.mapTiles f).lanes = s.lanes := rfl
@[simp] theorem State.mapTiles_bb (s : State) (f : Tile → Tile) : (s.mapTiles f).bb = s.bb := rfl
@[simp] theorem State.mapTiles_tb (s : State) (f : Tile → Tile) : (s.mapTiles f).tb = s.tb := rfl
@[simp] theorem State.mapTiles_usb (s : State) (f : Tile → Tile) : (s.mapTiles f).usb = s.usb := rfl
@[simp] theorem State.mapTiles_sealEng (s : State) (f : Tile → Tile) : (s.mapTiles f).sealEng = s.sealEng := rfl
@[simp] theorem State.mapTiles_bus (s : State) (f : Tile → Tile) : (s.mapTiles f).bus = s.bus := rfl
@[simp] theorem State.mapTiles_ledger (s : State) (f : Tile → Tile) : (s.mapTiles f).ledger = s.ledger := rfl
@[simp] theorem State.mapTiles_rtc (s : State) (f : Tile → Tile) : (s.mapTiles f).rtc = s.rtc := rfl
@[simp] theorem State.mapTiles_pdc (s : State) (f : Tile → Tile) : (s.mapTiles f).pdc = s.pdc := rfl
@[simp] theorem State.mapTiles_job (s : State) (f : Tile → Tile) : (s.mapTiles f).job = s.job := rfl
@[simp] theorem State.mapTiles_boot (s : State) (f : Tile → Tile) : (s.mapTiles f).boot = s.boot := rfl
@[simp] theorem State.mapTiles_dap (s : State) (f : Tile → Tile) : (s.mapTiles f).dap = s.dap := rfl
@[simp] theorem State.mapTiles_tiles (s : State) (f : Tile → Tile) : (s.mapTiles f).tiles = s.tiles.map f := rfl
@[simp] theorem State.mapTiles_regW (s : State) (f : Tile → Tile) (w' : World) (slot' off' : Nat) : (s.mapTiles f).regW w' slot' off' = s.regW w' slot' off' := State.regW_congr rfl
@[simp] theorem State.mapTiles_reg (s : State) (f : Tile → Tile) (slot' off' : Nat) : (s.mapTiles f).reg slot' off' = s.reg slot' off' := State.regW_congr rfl
-- modFlow
@[simp] theorem State.modFlow_now (s : State) (t : TileId) (f : Flow → Flow) : (s.modFlow t f).now = s.now := rfl
@[simp] theorem State.modFlow_seq (s : State) (t : TileId) (f : Flow → Flow) : (s.modFlow t f).seq = s.seq := rfl
@[simp] theorem State.modFlow_free (s : State) (t : TileId) (f : Flow → Flow) : (s.modFlow t f).free = s.free := rfl
@[simp] theorem State.modFlow_resp (s : State) (t : TileId) (f : Flow → Flow) : (s.modFlow t f).resp = s.resp := rfl
@[simp] theorem State.modFlow_regs (s : State) (t : TileId) (f : Flow → Flow) : (s.modFlow t f).regs = s.regs := rfl
@[simp] theorem State.modFlow_irq (s : State) (t : TileId) (f : Flow → Flow) : (s.modFlow t f).irq = s.irq := rfl
@[simp] theorem State.modFlow_sweep (s : State) (t : TileId) (f : Flow → Flow) : (s.modFlow t f).sweep = s.sweep := rfl
@[simp] theorem State.modFlow_upsets (s : State) (t : TileId) (f : Flow → Flow) : (s.modFlow t f).upsets = s.upsets := rfl
@[simp] theorem State.modFlow_store (s : State) (t : TileId) (f : Flow → Flow) : (s.modFlow t f).store = s.store := rfl
@[simp] theorem State.modFlow_ptp (s : State) (t : TileId) (f : Flow → Flow) : (s.modFlow t f).ptp = s.ptp := rfl
@[simp] theorem State.modFlow_errCount (s : State) (t : TileId) (f : Flow → Flow) : (s.modFlow t f).errCount = s.errCount := rfl
@[simp] theorem State.modFlow_errRows (s : State) (t : TileId) (f : Flow → Flow) : (s.modFlow t f).errRows = s.errRows := rfl
@[simp] theorem State.modFlow_dict (s : State) (t : TileId) (f : Flow → Flow) : (s.modFlow t f).dict = s.dict := rfl
@[simp] theorem State.modFlow_dev (s : State) (t : TileId) (f : Flow → Flow) : (s.modFlow t f).dev = s.dev := rfl
@[simp] theorem State.modFlow_out (s : State) (t : TileId) (f : Flow → Flow) : (s.modFlow t f).out = s.out := rfl
@[simp] theorem State.modFlow_lanes (s : State) (t : TileId) (f : Flow → Flow) : (s.modFlow t f).lanes = s.lanes := rfl
@[simp] theorem State.modFlow_bb (s : State) (t : TileId) (f : Flow → Flow) : (s.modFlow t f).bb = s.bb := rfl
@[simp] theorem State.modFlow_tb (s : State) (t : TileId) (f : Flow → Flow) : (s.modFlow t f).tb = s.tb := rfl
@[simp] theorem State.modFlow_usb (s : State) (t : TileId) (f : Flow → Flow) : (s.modFlow t f).usb = s.usb := rfl
@[simp] theorem State.modFlow_sealEng (s : State) (t : TileId) (f : Flow → Flow) : (s.modFlow t f).sealEng = s.sealEng := rfl
@[simp] theorem State.modFlow_bus (s : State) (t : TileId) (f : Flow → Flow) : (s.modFlow t f).bus = s.bus := rfl
@[simp] theorem State.modFlow_ledger (s : State) (t : TileId) (f : Flow → Flow) : (s.modFlow t f).ledger = s.ledger := rfl
@[simp] theorem State.modFlow_rtc (s : State) (t : TileId) (f : Flow → Flow) : (s.modFlow t f).rtc = s.rtc := rfl
@[simp] theorem State.modFlow_pdc (s : State) (t : TileId) (f : Flow → Flow) : (s.modFlow t f).pdc = s.pdc := rfl
@[simp] theorem State.modFlow_job (s : State) (t : TileId) (f : Flow → Flow) : (s.modFlow t f).job = s.job := rfl
@[simp] theorem State.modFlow_boot (s : State) (t : TileId) (f : Flow → Flow) : (s.modFlow t f).boot = s.boot := rfl
@[simp] theorem State.modFlow_dap (s : State) (t : TileId) (f : Flow → Flow) : (s.modFlow t f).dap = s.dap := rfl
@[simp] theorem State.modFlow_regW (s : State) (t : TileId) (f : Flow → Flow) (w' : World) (slot' off' : Nat) : (s.modFlow t f).regW w' slot' off' = s.regW w' slot' off' := State.regW_congr rfl
@[simp] theorem State.modFlow_reg (s : State) (t : TileId) (f : Flow → Flow) (slot' off' : Nat) : (s.modFlow t f).reg slot' off' = s.reg slot' off' := State.regW_congr rfl
-- modStore
@[simp] theorem State.modStore_now (s : State) (f : CtxStore → CtxStore) : (s.modStore f).now = s.now := rfl
@[simp] theorem State.modStore_seq (s : State) (f : CtxStore → CtxStore) : (s.modStore f).seq = s.seq := rfl
@[simp] theorem State.modStore_free (s : State) (f : CtxStore → CtxStore) : (s.modStore f).free = s.free := rfl
@[simp] theorem State.modStore_resp (s : State) (f : CtxStore → CtxStore) : (s.modStore f).resp = s.resp := rfl
@[simp] theorem State.modStore_regs (s : State) (f : CtxStore → CtxStore) : (s.modStore f).regs = s.regs := rfl
@[simp] theorem State.modStore_irq (s : State) (f : CtxStore → CtxStore) : (s.modStore f).irq = s.irq := rfl
@[simp] theorem State.modStore_sweep (s : State) (f : CtxStore → CtxStore) : (s.modStore f).sweep = s.sweep := rfl
@[simp] theorem State.modStore_upsets (s : State) (f : CtxStore → CtxStore) : (s.modStore f).upsets = s.upsets := rfl
@[simp] theorem State.modStore_store (s : State) (f : CtxStore → CtxStore) : (s.modStore f).store = f s.store := rfl
@[simp] theorem State.modStore_ptp (s : State) (f : CtxStore → CtxStore) : (s.modStore f).ptp = s.ptp := rfl
@[simp] theorem State.modStore_errCount (s : State) (f : CtxStore → CtxStore) : (s.modStore f).errCount = s.errCount := rfl
@[simp] theorem State.modStore_errRows (s : State) (f : CtxStore → CtxStore) : (s.modStore f).errRows = s.errRows := rfl
@[simp] theorem State.modStore_dict (s : State) (f : CtxStore → CtxStore) : (s.modStore f).dict = s.dict := rfl
@[simp] theorem State.modStore_dev (s : State) (f : CtxStore → CtxStore) : (s.modStore f).dev = s.dev := rfl
@[simp] theorem State.modStore_out (s : State) (f : CtxStore → CtxStore) : (s.modStore f).out = s.out := rfl
@[simp] theorem State.modStore_lanes (s : State) (f : CtxStore → CtxStore) : (s.modStore f).lanes = s.lanes := rfl
@[simp] theorem State.modStore_bb (s : State) (f : CtxStore → CtxStore) : (s.modStore f).bb = s.bb := rfl
@[simp] theorem State.modStore_tb (s : State) (f : CtxStore → CtxStore) : (s.modStore f).tb = s.tb := rfl
@[simp] theorem State.modStore_usb (s : State) (f : CtxStore → CtxStore) : (s.modStore f).usb = s.usb := rfl
@[simp] theorem State.modStore_sealEng (s : State) (f : CtxStore → CtxStore) : (s.modStore f).sealEng = s.sealEng := rfl
@[simp] theorem State.modStore_bus (s : State) (f : CtxStore → CtxStore) : (s.modStore f).bus = s.bus := rfl
@[simp] theorem State.modStore_ledger (s : State) (f : CtxStore → CtxStore) : (s.modStore f).ledger = s.ledger := rfl
@[simp] theorem State.modStore_rtc (s : State) (f : CtxStore → CtxStore) : (s.modStore f).rtc = s.rtc := rfl
@[simp] theorem State.modStore_pdc (s : State) (f : CtxStore → CtxStore) : (s.modStore f).pdc = s.pdc := rfl
@[simp] theorem State.modStore_job (s : State) (f : CtxStore → CtxStore) : (s.modStore f).job = s.job := rfl
@[simp] theorem State.modStore_boot (s : State) (f : CtxStore → CtxStore) : (s.modStore f).boot = s.boot := rfl
@[simp] theorem State.modStore_dap (s : State) (f : CtxStore → CtxStore) : (s.modStore f).dap = s.dap := rfl
@[simp] theorem State.modStore_tiles (s : State) (f : CtxStore → CtxStore) : (s.modStore f).tiles = s.tiles := rfl
@[simp] theorem State.modStore_regW (s : State) (f : CtxStore → CtxStore) (w' : World) (slot' off' : Nat) : (s.modStore f).regW w' slot' off' = s.regW w' slot' off' := State.regW_congr rfl
@[simp] theorem State.modStore_reg (s : State) (f : CtxStore → CtxStore) (slot' off' : Nat) : (s.modStore f).reg slot' off' = s.reg slot' off' := State.regW_congr rfl
@[simp] theorem State.modStore_tile (s : State) (f : CtxStore → CtxStore) (t' : TileId) : (s.modStore f).tile t' = s.tile t' := State.tile_congr (State.modStore_tiles s f)
-- modSweep
@[simp] theorem State.modSweep_now (s : State) (f : Sweep → Sweep) : (s.modSweep f).now = s.now := rfl
@[simp] theorem State.modSweep_seq (s : State) (f : Sweep → Sweep) : (s.modSweep f).seq = s.seq := rfl
@[simp] theorem State.modSweep_free (s : State) (f : Sweep → Sweep) : (s.modSweep f).free = s.free := rfl
@[simp] theorem State.modSweep_resp (s : State) (f : Sweep → Sweep) : (s.modSweep f).resp = s.resp := rfl
@[simp] theorem State.modSweep_regs (s : State) (f : Sweep → Sweep) : (s.modSweep f).regs = s.regs := rfl
@[simp] theorem State.modSweep_irq (s : State) (f : Sweep → Sweep) : (s.modSweep f).irq = s.irq := rfl
@[simp] theorem State.modSweep_sweep (s : State) (f : Sweep → Sweep) : (s.modSweep f).sweep = f s.sweep := rfl
@[simp] theorem State.modSweep_upsets (s : State) (f : Sweep → Sweep) : (s.modSweep f).upsets = s.upsets := rfl
@[simp] theorem State.modSweep_store (s : State) (f : Sweep → Sweep) : (s.modSweep f).store = s.store := rfl
@[simp] theorem State.modSweep_ptp (s : State) (f : Sweep → Sweep) : (s.modSweep f).ptp = s.ptp := rfl
@[simp] theorem State.modSweep_errCount (s : State) (f : Sweep → Sweep) : (s.modSweep f).errCount = s.errCount := rfl
@[simp] theorem State.modSweep_errRows (s : State) (f : Sweep → Sweep) : (s.modSweep f).errRows = s.errRows := rfl
@[simp] theorem State.modSweep_dict (s : State) (f : Sweep → Sweep) : (s.modSweep f).dict = s.dict := rfl
@[simp] theorem State.modSweep_dev (s : State) (f : Sweep → Sweep) : (s.modSweep f).dev = s.dev := rfl
@[simp] theorem State.modSweep_out (s : State) (f : Sweep → Sweep) : (s.modSweep f).out = s.out := rfl
@[simp] theorem State.modSweep_lanes (s : State) (f : Sweep → Sweep) : (s.modSweep f).lanes = s.lanes := rfl
@[simp] theorem State.modSweep_bb (s : State) (f : Sweep → Sweep) : (s.modSweep f).bb = s.bb := rfl
@[simp] theorem State.modSweep_tb (s : State) (f : Sweep → Sweep) : (s.modSweep f).tb = s.tb := rfl
@[simp] theorem State.modSweep_usb (s : State) (f : Sweep → Sweep) : (s.modSweep f).usb = s.usb := rfl
@[simp] theorem State.modSweep_sealEng (s : State) (f : Sweep → Sweep) : (s.modSweep f).sealEng = s.sealEng := rfl
@[simp] theorem State.modSweep_bus (s : State) (f : Sweep → Sweep) : (s.modSweep f).bus = s.bus := rfl
@[simp] theorem State.modSweep_ledger (s : State) (f : Sweep → Sweep) : (s.modSweep f).ledger = s.ledger := rfl
@[simp] theorem State.modSweep_rtc (s : State) (f : Sweep → Sweep) : (s.modSweep f).rtc = s.rtc := rfl
@[simp] theorem State.modSweep_pdc (s : State) (f : Sweep → Sweep) : (s.modSweep f).pdc = s.pdc := rfl
@[simp] theorem State.modSweep_job (s : State) (f : Sweep → Sweep) : (s.modSweep f).job = s.job := rfl
@[simp] theorem State.modSweep_boot (s : State) (f : Sweep → Sweep) : (s.modSweep f).boot = s.boot := rfl
@[simp] theorem State.modSweep_dap (s : State) (f : Sweep → Sweep) : (s.modSweep f).dap = s.dap := rfl
@[simp] theorem State.modSweep_tiles (s : State) (f : Sweep → Sweep) : (s.modSweep f).tiles = s.tiles := rfl
@[simp] theorem State.modSweep_regW (s : State) (f : Sweep → Sweep) (w' : World) (slot' off' : Nat) : (s.modSweep f).regW w' slot' off' = s.regW w' slot' off' := State.regW_congr rfl
@[simp] theorem State.modSweep_reg (s : State) (f : Sweep → Sweep) (slot' off' : Nat) : (s.modSweep f).reg slot' off' = s.reg slot' off' := State.regW_congr rfl
@[simp] theorem State.modSweep_tile (s : State) (f : Sweep → Sweep) (t' : TileId) : (s.modSweep f).tile t' = s.tile t' := State.tile_congr (State.modSweep_tiles s f)
-- modDict
@[simp] theorem State.modDict_now (s : State) (f : Dict → Dict) : (s.modDict f).now = s.now := rfl
@[simp] theorem State.modDict_seq (s : State) (f : Dict → Dict) : (s.modDict f).seq = s.seq := rfl
@[simp] theorem State.modDict_free (s : State) (f : Dict → Dict) : (s.modDict f).free = s.free := rfl
@[simp] theorem State.modDict_resp (s : State) (f : Dict → Dict) : (s.modDict f).resp = s.resp := rfl
@[simp] theorem State.modDict_regs (s : State) (f : Dict → Dict) : (s.modDict f).regs = s.regs := rfl
@[simp] theorem State.modDict_irq (s : State) (f : Dict → Dict) : (s.modDict f).irq = s.irq := rfl
@[simp] theorem State.modDict_sweep (s : State) (f : Dict → Dict) : (s.modDict f).sweep = s.sweep := rfl
@[simp] theorem State.modDict_upsets (s : State) (f : Dict → Dict) : (s.modDict f).upsets = s.upsets := rfl
@[simp] theorem State.modDict_store (s : State) (f : Dict → Dict) : (s.modDict f).store = s.store := rfl
@[simp] theorem State.modDict_ptp (s : State) (f : Dict → Dict) : (s.modDict f).ptp = s.ptp := rfl
@[simp] theorem State.modDict_errCount (s : State) (f : Dict → Dict) : (s.modDict f).errCount = s.errCount := rfl
@[simp] theorem State.modDict_errRows (s : State) (f : Dict → Dict) : (s.modDict f).errRows = s.errRows := rfl
@[simp] theorem State.modDict_dict (s : State) (f : Dict → Dict) : (s.modDict f).dict = f s.dict := rfl
@[simp] theorem State.modDict_dev (s : State) (f : Dict → Dict) : (s.modDict f).dev = s.dev := rfl
@[simp] theorem State.modDict_out (s : State) (f : Dict → Dict) : (s.modDict f).out = s.out := rfl
@[simp] theorem State.modDict_lanes (s : State) (f : Dict → Dict) : (s.modDict f).lanes = s.lanes := rfl
@[simp] theorem State.modDict_bb (s : State) (f : Dict → Dict) : (s.modDict f).bb = s.bb := rfl
@[simp] theorem State.modDict_tb (s : State) (f : Dict → Dict) : (s.modDict f).tb = s.tb := rfl
@[simp] theorem State.modDict_usb (s : State) (f : Dict → Dict) : (s.modDict f).usb = s.usb := rfl
@[simp] theorem State.modDict_sealEng (s : State) (f : Dict → Dict) : (s.modDict f).sealEng = s.sealEng := rfl
@[simp] theorem State.modDict_bus (s : State) (f : Dict → Dict) : (s.modDict f).bus = s.bus := rfl
@[simp] theorem State.modDict_ledger (s : State) (f : Dict → Dict) : (s.modDict f).ledger = s.ledger := rfl
@[simp] theorem State.modDict_rtc (s : State) (f : Dict → Dict) : (s.modDict f).rtc = s.rtc := rfl
@[simp] theorem State.modDict_pdc (s : State) (f : Dict → Dict) : (s.modDict f).pdc = s.pdc := rfl
@[simp] theorem State.modDict_job (s : State) (f : Dict → Dict) : (s.modDict f).job = s.job := rfl
@[simp] theorem State.modDict_boot (s : State) (f : Dict → Dict) : (s.modDict f).boot = s.boot := rfl
@[simp] theorem State.modDict_dap (s : State) (f : Dict → Dict) : (s.modDict f).dap = s.dap := rfl
@[simp] theorem State.modDict_tiles (s : State) (f : Dict → Dict) : (s.modDict f).tiles = s.tiles := rfl
@[simp] theorem State.modDict_regW (s : State) (f : Dict → Dict) (w' : World) (slot' off' : Nat) : (s.modDict f).regW w' slot' off' = s.regW w' slot' off' := State.regW_congr rfl
@[simp] theorem State.modDict_reg (s : State) (f : Dict → Dict) (slot' off' : Nat) : (s.modDict f).reg slot' off' = s.reg slot' off' := State.regW_congr rfl
@[simp] theorem State.modDict_tile (s : State) (f : Dict → Dict) (t' : TileId) : (s.modDict f).tile t' = s.tile t' := State.tile_congr (State.modDict_tiles s f)
-- modSess
@[simp] theorem State.modSess_now (s : State) (n : Nat) (f : Session → Session) : (s.modSess n f).now = s.now := rfl
@[simp] theorem State.modSess_seq (s : State) (n : Nat) (f : Session → Session) : (s.modSess n f).seq = s.seq := rfl
@[simp] theorem State.modSess_free (s : State) (n : Nat) (f : Session → Session) : (s.modSess n f).free = s.free := rfl
@[simp] theorem State.modSess_resp (s : State) (n : Nat) (f : Session → Session) : (s.modSess n f).resp = s.resp := rfl
@[simp] theorem State.modSess_regs (s : State) (n : Nat) (f : Session → Session) : (s.modSess n f).regs = s.regs := rfl
@[simp] theorem State.modSess_irq (s : State) (n : Nat) (f : Session → Session) : (s.modSess n f).irq = s.irq := rfl
@[simp] theorem State.modSess_sweep (s : State) (n : Nat) (f : Session → Session) : (s.modSess n f).sweep = s.sweep := rfl
@[simp] theorem State.modSess_upsets (s : State) (n : Nat) (f : Session → Session) : (s.modSess n f).upsets = s.upsets := rfl
@[simp] theorem State.modSess_store (s : State) (n : Nat) (f : Session → Session) : (s.modSess n f).store = s.store := rfl
@[simp] theorem State.modSess_ptp (s : State) (n : Nat) (f : Session → Session) : (s.modSess n f).ptp = s.ptp := rfl
@[simp] theorem State.modSess_errCount (s : State) (n : Nat) (f : Session → Session) : (s.modSess n f).errCount = s.errCount := rfl
@[simp] theorem State.modSess_errRows (s : State) (n : Nat) (f : Session → Session) : (s.modSess n f).errRows = s.errRows := rfl
@[simp] theorem State.modSess_dev (s : State) (n : Nat) (f : Session → Session) : (s.modSess n f).dev = s.dev := rfl
@[simp] theorem State.modSess_out (s : State) (n : Nat) (f : Session → Session) : (s.modSess n f).out = s.out := rfl
@[simp] theorem State.modSess_lanes (s : State) (n : Nat) (f : Session → Session) : (s.modSess n f).lanes = s.lanes := rfl
@[simp] theorem State.modSess_bb (s : State) (n : Nat) (f : Session → Session) : (s.modSess n f).bb = s.bb := rfl
@[simp] theorem State.modSess_tb (s : State) (n : Nat) (f : Session → Session) : (s.modSess n f).tb = s.tb := rfl
@[simp] theorem State.modSess_usb (s : State) (n : Nat) (f : Session → Session) : (s.modSess n f).usb = s.usb := rfl
@[simp] theorem State.modSess_sealEng (s : State) (n : Nat) (f : Session → Session) : (s.modSess n f).sealEng = s.sealEng := rfl
@[simp] theorem State.modSess_bus (s : State) (n : Nat) (f : Session → Session) : (s.modSess n f).bus = s.bus := rfl
@[simp] theorem State.modSess_ledger (s : State) (n : Nat) (f : Session → Session) : (s.modSess n f).ledger = s.ledger := rfl
@[simp] theorem State.modSess_rtc (s : State) (n : Nat) (f : Session → Session) : (s.modSess n f).rtc = s.rtc := rfl
@[simp] theorem State.modSess_pdc (s : State) (n : Nat) (f : Session → Session) : (s.modSess n f).pdc = s.pdc := rfl
@[simp] theorem State.modSess_job (s : State) (n : Nat) (f : Session → Session) : (s.modSess n f).job = s.job := rfl
@[simp] theorem State.modSess_boot (s : State) (n : Nat) (f : Session → Session) : (s.modSess n f).boot = s.boot := rfl
@[simp] theorem State.modSess_dap (s : State) (n : Nat) (f : Session → Session) : (s.modSess n f).dap = s.dap := rfl
@[simp] theorem State.modSess_tiles (s : State) (n : Nat) (f : Session → Session) : (s.modSess n f).tiles = s.tiles := rfl
@[simp] theorem State.modSess_regW (s : State) (n : Nat) (f : Session → Session) (w' : World) (slot' off' : Nat) : (s.modSess n f).regW w' slot' off' = s.regW w' slot' off' := State.regW_congr rfl
@[simp] theorem State.modSess_reg (s : State) (n : Nat) (f : Session → Session) (slot' off' : Nat) : (s.modSess n f).reg slot' off' = s.reg slot' off' := State.regW_congr rfl
@[simp] theorem State.modSess_tile (s : State) (n : Nat) (f : Session → Session) (t' : TileId) : (s.modSess n f).tile t' = s.tile t' := State.tile_congr (State.modSess_tiles s n f)
-- send
@[simp] theorem State.send_now (s : State) (m : OutMsg) : (s.send m).now = s.now := rfl
@[simp] theorem State.send_seq (s : State) (m : OutMsg) : (s.send m).seq = s.seq := rfl
@[simp] theorem State.send_free (s : State) (m : OutMsg) : (s.send m).free = s.free := rfl
@[simp] theorem State.send_resp (s : State) (m : OutMsg) : (s.send m).resp = s.resp := rfl
@[simp] theorem State.send_regs (s : State) (m : OutMsg) : (s.send m).regs = s.regs := rfl
@[simp] theorem State.send_irq (s : State) (m : OutMsg) : (s.send m).irq = s.irq := rfl
@[simp] theorem State.send_sweep (s : State) (m : OutMsg) : (s.send m).sweep = s.sweep := rfl
@[simp] theorem State.send_upsets (s : State) (m : OutMsg) : (s.send m).upsets = s.upsets := rfl
@[simp] theorem State.send_store (s : State) (m : OutMsg) : (s.send m).store = s.store := rfl
@[simp] theorem State.send_ptp (s : State) (m : OutMsg) : (s.send m).ptp = s.ptp := rfl
@[simp] theorem State.send_errCount (s : State) (m : OutMsg) : (s.send m).errCount = s.errCount := rfl
@[simp] theorem State.send_errRows (s : State) (m : OutMsg) : (s.send m).errRows = s.errRows := rfl
@[simp] theorem State.send_dict (s : State) (m : OutMsg) : (s.send m).dict = s.dict := rfl
@[simp] theorem State.send_dev (s : State) (m : OutMsg) : (s.send m).dev = s.dev := rfl
@[simp] theorem State.send_out (s : State) (m : OutMsg) : (s.send m).out = s.out ++ [m] := rfl
@[simp] theorem State.send_lanes (s : State) (m : OutMsg) : (s.send m).lanes = s.lanes := rfl
@[simp] theorem State.send_bb (s : State) (m : OutMsg) : (s.send m).bb = s.bb := rfl
@[simp] theorem State.send_tb (s : State) (m : OutMsg) : (s.send m).tb = s.tb := rfl
@[simp] theorem State.send_usb (s : State) (m : OutMsg) : (s.send m).usb = s.usb := rfl
@[simp] theorem State.send_sealEng (s : State) (m : OutMsg) : (s.send m).sealEng = s.sealEng := rfl
@[simp] theorem State.send_bus (s : State) (m : OutMsg) : (s.send m).bus = s.bus := rfl
@[simp] theorem State.send_ledger (s : State) (m : OutMsg) : (s.send m).ledger = s.ledger := rfl
@[simp] theorem State.send_rtc (s : State) (m : OutMsg) : (s.send m).rtc = s.rtc := rfl
@[simp] theorem State.send_pdc (s : State) (m : OutMsg) : (s.send m).pdc = s.pdc := rfl
@[simp] theorem State.send_job (s : State) (m : OutMsg) : (s.send m).job = s.job := rfl
@[simp] theorem State.send_boot (s : State) (m : OutMsg) : (s.send m).boot = s.boot := rfl
@[simp] theorem State.send_dap (s : State) (m : OutMsg) : (s.send m).dap = s.dap := rfl
@[simp] theorem State.send_tiles (s : State) (m : OutMsg) : (s.send m).tiles = s.tiles := rfl
@[simp] theorem State.send_regW (s : State) (m : OutMsg) (w' : World) (slot' off' : Nat) : (s.send m).regW w' slot' off' = s.regW w' slot' off' := State.regW_congr rfl
@[simp] theorem State.send_reg (s : State) (m : OutMsg) (slot' off' : Nat) : (s.send m).reg slot' off' = s.reg slot' off' := State.regW_congr rfl
@[simp] theorem State.send_tile (s : State) (m : OutMsg) (t' : TileId) : (s.send m).tile t' = s.tile t' := State.tile_congr (State.send_tiles s m)
-- modLane
@[simp] theorem State.modLane_now (s : State) (p : Nat) (f : Lane → Lane) : (s.modLane p f).now = s.now := rfl
@[simp] theorem State.modLane_seq (s : State) (p : Nat) (f : Lane → Lane) : (s.modLane p f).seq = s.seq := rfl
@[simp] theorem State.modLane_free (s : State) (p : Nat) (f : Lane → Lane) : (s.modLane p f).free = s.free := rfl
@[simp] theorem State.modLane_resp (s : State) (p : Nat) (f : Lane → Lane) : (s.modLane p f).resp = s.resp := rfl
@[simp] theorem State.modLane_regs (s : State) (p : Nat) (f : Lane → Lane) : (s.modLane p f).regs = s.regs := rfl
@[simp] theorem State.modLane_irq (s : State) (p : Nat) (f : Lane → Lane) : (s.modLane p f).irq = s.irq := rfl
@[simp] theorem State.modLane_sweep (s : State) (p : Nat) (f : Lane → Lane) : (s.modLane p f).sweep = s.sweep := rfl
@[simp] theorem State.modLane_upsets (s : State) (p : Nat) (f : Lane → Lane) : (s.modLane p f).upsets = s.upsets := rfl
@[simp] theorem State.modLane_store (s : State) (p : Nat) (f : Lane → Lane) : (s.modLane p f).store = s.store := rfl
@[simp] theorem State.modLane_ptp (s : State) (p : Nat) (f : Lane → Lane) : (s.modLane p f).ptp = s.ptp := rfl
@[simp] theorem State.modLane_errCount (s : State) (p : Nat) (f : Lane → Lane) : (s.modLane p f).errCount = s.errCount := rfl
@[simp] theorem State.modLane_errRows (s : State) (p : Nat) (f : Lane → Lane) : (s.modLane p f).errRows = s.errRows := rfl
@[simp] theorem State.modLane_dict (s : State) (p : Nat) (f : Lane → Lane) : (s.modLane p f).dict = s.dict := rfl
@[simp] theorem State.modLane_dev (s : State) (p : Nat) (f : Lane → Lane) : (s.modLane p f).dev = s.dev := rfl
@[simp] theorem State.modLane_out (s : State) (p : Nat) (f : Lane → Lane) : (s.modLane p f).out = s.out := rfl
@[simp] theorem State.modLane_lanes (s : State) (p : Nat) (f : Lane → Lane) : (s.modLane p f).lanes = vset s.lanes p (f (s.lane p)) := rfl
@[simp] theorem State.modLane_bb (s : State) (p : Nat) (f : Lane → Lane) : (s.modLane p f).bb = s.bb := rfl
@[simp] theorem State.modLane_tb (s : State) (p : Nat) (f : Lane → Lane) : (s.modLane p f).tb = s.tb := rfl
@[simp] theorem State.modLane_usb (s : State) (p : Nat) (f : Lane → Lane) : (s.modLane p f).usb = s.usb := rfl
@[simp] theorem State.modLane_sealEng (s : State) (p : Nat) (f : Lane → Lane) : (s.modLane p f).sealEng = s.sealEng := rfl
@[simp] theorem State.modLane_bus (s : State) (p : Nat) (f : Lane → Lane) : (s.modLane p f).bus = s.bus := rfl
@[simp] theorem State.modLane_ledger (s : State) (p : Nat) (f : Lane → Lane) : (s.modLane p f).ledger = s.ledger := rfl
@[simp] theorem State.modLane_rtc (s : State) (p : Nat) (f : Lane → Lane) : (s.modLane p f).rtc = s.rtc := rfl
@[simp] theorem State.modLane_pdc (s : State) (p : Nat) (f : Lane → Lane) : (s.modLane p f).pdc = s.pdc := rfl
@[simp] theorem State.modLane_job (s : State) (p : Nat) (f : Lane → Lane) : (s.modLane p f).job = s.job := rfl
@[simp] theorem State.modLane_boot (s : State) (p : Nat) (f : Lane → Lane) : (s.modLane p f).boot = s.boot := rfl
@[simp] theorem State.modLane_dap (s : State) (p : Nat) (f : Lane → Lane) : (s.modLane p f).dap = s.dap := rfl
@[simp] theorem State.modLane_tiles (s : State) (p : Nat) (f : Lane → Lane) : (s.modLane p f).tiles = s.tiles := rfl
@[simp] theorem State.modLane_regW (s : State) (p : Nat) (f : Lane → Lane) (w' : World) (slot' off' : Nat) : (s.modLane p f).regW w' slot' off' = s.regW w' slot' off' := State.regW_congr rfl
@[simp] theorem State.modLane_reg (s : State) (p : Nat) (f : Lane → Lane) (slot' off' : Nat) : (s.modLane p f).reg slot' off' = s.reg slot' off' := State.regW_congr rfl
@[simp] theorem State.modLane_tile (s : State) (p : Nat) (f : Lane → Lane) (t' : TileId) : (s.modLane p f).tile t' = s.tile t' := State.tile_congr (State.modLane_tiles s p f)
-- modBb
@[simp] theorem State.modBb_now (s : State) (f : Backbone → Backbone) : (s.modBb f).now = s.now := rfl
@[simp] theorem State.modBb_seq (s : State) (f : Backbone → Backbone) : (s.modBb f).seq = s.seq := rfl
@[simp] theorem State.modBb_free (s : State) (f : Backbone → Backbone) : (s.modBb f).free = s.free := rfl
@[simp] theorem State.modBb_resp (s : State) (f : Backbone → Backbone) : (s.modBb f).resp = s.resp := rfl
@[simp] theorem State.modBb_regs (s : State) (f : Backbone → Backbone) : (s.modBb f).regs = s.regs := rfl
@[simp] theorem State.modBb_irq (s : State) (f : Backbone → Backbone) : (s.modBb f).irq = s.irq := rfl
@[simp] theorem State.modBb_sweep (s : State) (f : Backbone → Backbone) : (s.modBb f).sweep = s.sweep := rfl
@[simp] theorem State.modBb_upsets (s : State) (f : Backbone → Backbone) : (s.modBb f).upsets = s.upsets := rfl
@[simp] theorem State.modBb_store (s : State) (f : Backbone → Backbone) : (s.modBb f).store = s.store := rfl
@[simp] theorem State.modBb_ptp (s : State) (f : Backbone → Backbone) : (s.modBb f).ptp = s.ptp := rfl
@[simp] theorem State.modBb_errCount (s : State) (f : Backbone → Backbone) : (s.modBb f).errCount = s.errCount := rfl
@[simp] theorem State.modBb_errRows (s : State) (f : Backbone → Backbone) : (s.modBb f).errRows = s.errRows := rfl
@[simp] theorem State.modBb_dict (s : State) (f : Backbone → Backbone) : (s.modBb f).dict = s.dict := rfl
@[simp] theorem State.modBb_dev (s : State) (f : Backbone → Backbone) : (s.modBb f).dev = s.dev := rfl
@[simp] theorem State.modBb_out (s : State) (f : Backbone → Backbone) : (s.modBb f).out = s.out := rfl
@[simp] theorem State.modBb_lanes (s : State) (f : Backbone → Backbone) : (s.modBb f).lanes = s.lanes := rfl
@[simp] theorem State.modBb_bb (s : State) (f : Backbone → Backbone) : (s.modBb f).bb = f s.bb := rfl
@[simp] theorem State.modBb_tb (s : State) (f : Backbone → Backbone) : (s.modBb f).tb = s.tb := rfl
@[simp] theorem State.modBb_usb (s : State) (f : Backbone → Backbone) : (s.modBb f).usb = s.usb := rfl
@[simp] theorem State.modBb_sealEng (s : State) (f : Backbone → Backbone) : (s.modBb f).sealEng = s.sealEng := rfl
@[simp] theorem State.modBb_bus (s : State) (f : Backbone → Backbone) : (s.modBb f).bus = s.bus := rfl
@[simp] theorem State.modBb_ledger (s : State) (f : Backbone → Backbone) : (s.modBb f).ledger = s.ledger := rfl
@[simp] theorem State.modBb_rtc (s : State) (f : Backbone → Backbone) : (s.modBb f).rtc = s.rtc := rfl
@[simp] theorem State.modBb_pdc (s : State) (f : Backbone → Backbone) : (s.modBb f).pdc = s.pdc := rfl
@[simp] theorem State.modBb_job (s : State) (f : Backbone → Backbone) : (s.modBb f).job = s.job := rfl
@[simp] theorem State.modBb_boot (s : State) (f : Backbone → Backbone) : (s.modBb f).boot = s.boot := rfl
@[simp] theorem State.modBb_dap (s : State) (f : Backbone → Backbone) : (s.modBb f).dap = s.dap := rfl
@[simp] theorem State.modBb_tiles (s : State) (f : Backbone → Backbone) : (s.modBb f).tiles = s.tiles := rfl
@[simp] theorem State.modBb_regW (s : State) (f : Backbone → Backbone) (w' : World) (slot' off' : Nat) : (s.modBb f).regW w' slot' off' = s.regW w' slot' off' := State.regW_congr rfl
@[simp] theorem State.modBb_reg (s : State) (f : Backbone → Backbone) (slot' off' : Nat) : (s.modBb f).reg slot' off' = s.reg slot' off' := State.regW_congr rfl
@[simp] theorem State.modBb_tile (s : State) (f : Backbone → Backbone) (t' : TileId) : (s.modBb f).tile t' = s.tile t' := State.tile_congr (State.modBb_tiles s f)
-- modTb
@[simp] theorem State.modTb_now (s : State) (f : TimeBlk → TimeBlk) : (s.modTb f).now = s.now := rfl
@[simp] theorem State.modTb_seq (s : State) (f : TimeBlk → TimeBlk) : (s.modTb f).seq = s.seq := rfl
@[simp] theorem State.modTb_free (s : State) (f : TimeBlk → TimeBlk) : (s.modTb f).free = s.free := rfl
@[simp] theorem State.modTb_resp (s : State) (f : TimeBlk → TimeBlk) : (s.modTb f).resp = s.resp := rfl
@[simp] theorem State.modTb_regs (s : State) (f : TimeBlk → TimeBlk) : (s.modTb f).regs = s.regs := rfl
@[simp] theorem State.modTb_irq (s : State) (f : TimeBlk → TimeBlk) : (s.modTb f).irq = s.irq := rfl
@[simp] theorem State.modTb_sweep (s : State) (f : TimeBlk → TimeBlk) : (s.modTb f).sweep = s.sweep := rfl
@[simp] theorem State.modTb_upsets (s : State) (f : TimeBlk → TimeBlk) : (s.modTb f).upsets = s.upsets := rfl
@[simp] theorem State.modTb_store (s : State) (f : TimeBlk → TimeBlk) : (s.modTb f).store = s.store := rfl
@[simp] theorem State.modTb_ptp (s : State) (f : TimeBlk → TimeBlk) : (s.modTb f).ptp = s.ptp := rfl
@[simp] theorem State.modTb_errCount (s : State) (f : TimeBlk → TimeBlk) : (s.modTb f).errCount = s.errCount := rfl
@[simp] theorem State.modTb_errRows (s : State) (f : TimeBlk → TimeBlk) : (s.modTb f).errRows = s.errRows := rfl
@[simp] theorem State.modTb_dict (s : State) (f : TimeBlk → TimeBlk) : (s.modTb f).dict = s.dict := rfl
@[simp] theorem State.modTb_dev (s : State) (f : TimeBlk → TimeBlk) : (s.modTb f).dev = s.dev := rfl
@[simp] theorem State.modTb_out (s : State) (f : TimeBlk → TimeBlk) : (s.modTb f).out = s.out := rfl
@[simp] theorem State.modTb_lanes (s : State) (f : TimeBlk → TimeBlk) : (s.modTb f).lanes = s.lanes := rfl
@[simp] theorem State.modTb_bb (s : State) (f : TimeBlk → TimeBlk) : (s.modTb f).bb = s.bb := rfl
@[simp] theorem State.modTb_tb (s : State) (f : TimeBlk → TimeBlk) : (s.modTb f).tb = f s.tb := rfl
@[simp] theorem State.modTb_usb (s : State) (f : TimeBlk → TimeBlk) : (s.modTb f).usb = s.usb := rfl
@[simp] theorem State.modTb_sealEng (s : State) (f : TimeBlk → TimeBlk) : (s.modTb f).sealEng = s.sealEng := rfl
@[simp] theorem State.modTb_bus (s : State) (f : TimeBlk → TimeBlk) : (s.modTb f).bus = s.bus := rfl
@[simp] theorem State.modTb_ledger (s : State) (f : TimeBlk → TimeBlk) : (s.modTb f).ledger = s.ledger := rfl
@[simp] theorem State.modTb_rtc (s : State) (f : TimeBlk → TimeBlk) : (s.modTb f).rtc = s.rtc := rfl
@[simp] theorem State.modTb_pdc (s : State) (f : TimeBlk → TimeBlk) : (s.modTb f).pdc = s.pdc := rfl
@[simp] theorem State.modTb_job (s : State) (f : TimeBlk → TimeBlk) : (s.modTb f).job = s.job := rfl
@[simp] theorem State.modTb_boot (s : State) (f : TimeBlk → TimeBlk) : (s.modTb f).boot = s.boot := rfl
@[simp] theorem State.modTb_dap (s : State) (f : TimeBlk → TimeBlk) : (s.modTb f).dap = s.dap := rfl
@[simp] theorem State.modTb_tiles (s : State) (f : TimeBlk → TimeBlk) : (s.modTb f).tiles = s.tiles := rfl
@[simp] theorem State.modTb_regW (s : State) (f : TimeBlk → TimeBlk) (w' : World) (slot' off' : Nat) : (s.modTb f).regW w' slot' off' = s.regW w' slot' off' := State.regW_congr rfl
@[simp] theorem State.modTb_reg (s : State) (f : TimeBlk → TimeBlk) (slot' off' : Nat) : (s.modTb f).reg slot' off' = s.reg slot' off' := State.regW_congr rfl
@[simp] theorem State.modTb_tile (s : State) (f : TimeBlk → TimeBlk) (t' : TileId) : (s.modTb f).tile t' = s.tile t' := State.tile_congr (State.modTb_tiles s f)
-- modUsb
@[simp] theorem State.modUsb_now (s : State) (u : Nat) (f : Usb → Usb) : (s.modUsb u f).now = s.now := rfl
@[simp] theorem State.modUsb_seq (s : State) (u : Nat) (f : Usb → Usb) : (s.modUsb u f).seq = s.seq := rfl
@[simp] theorem State.modUsb_free (s : State) (u : Nat) (f : Usb → Usb) : (s.modUsb u f).free = s.free := rfl
@[simp] theorem State.modUsb_resp (s : State) (u : Nat) (f : Usb → Usb) : (s.modUsb u f).resp = s.resp := rfl
@[simp] theorem State.modUsb_regs (s : State) (u : Nat) (f : Usb → Usb) : (s.modUsb u f).regs = s.regs := rfl
@[simp] theorem State.modUsb_irq (s : State) (u : Nat) (f : Usb → Usb) : (s.modUsb u f).irq = s.irq := rfl
@[simp] theorem State.modUsb_sweep (s : State) (u : Nat) (f : Usb → Usb) : (s.modUsb u f).sweep = s.sweep := rfl
@[simp] theorem State.modUsb_upsets (s : State) (u : Nat) (f : Usb → Usb) : (s.modUsb u f).upsets = s.upsets := rfl
@[simp] theorem State.modUsb_store (s : State) (u : Nat) (f : Usb → Usb) : (s.modUsb u f).store = s.store := rfl
@[simp] theorem State.modUsb_ptp (s : State) (u : Nat) (f : Usb → Usb) : (s.modUsb u f).ptp = s.ptp := rfl
@[simp] theorem State.modUsb_errCount (s : State) (u : Nat) (f : Usb → Usb) : (s.modUsb u f).errCount = s.errCount := rfl
@[simp] theorem State.modUsb_errRows (s : State) (u : Nat) (f : Usb → Usb) : (s.modUsb u f).errRows = s.errRows := rfl
@[simp] theorem State.modUsb_dict (s : State) (u : Nat) (f : Usb → Usb) : (s.modUsb u f).dict = s.dict := rfl
@[simp] theorem State.modUsb_dev (s : State) (u : Nat) (f : Usb → Usb) : (s.modUsb u f).dev = s.dev := rfl
@[simp] theorem State.modUsb_out (s : State) (u : Nat) (f : Usb → Usb) : (s.modUsb u f).out = s.out := rfl
@[simp] theorem State.modUsb_lanes (s : State) (u : Nat) (f : Usb → Usb) : (s.modUsb u f).lanes = s.lanes := rfl
@[simp] theorem State.modUsb_bb (s : State) (u : Nat) (f : Usb → Usb) : (s.modUsb u f).bb = s.bb := rfl
@[simp] theorem State.modUsb_tb (s : State) (u : Nat) (f : Usb → Usb) : (s.modUsb u f).tb = s.tb := rfl
@[simp] theorem State.modUsb_usb (s : State) (u : Nat) (f : Usb → Usb) : (s.modUsb u f).usb = vset s.usb u (f (s.usbPort u)) := rfl
@[simp] theorem State.modUsb_sealEng (s : State) (u : Nat) (f : Usb → Usb) : (s.modUsb u f).sealEng = s.sealEng := rfl
@[simp] theorem State.modUsb_bus (s : State) (u : Nat) (f : Usb → Usb) : (s.modUsb u f).bus = s.bus := rfl
@[simp] theorem State.modUsb_ledger (s : State) (u : Nat) (f : Usb → Usb) : (s.modUsb u f).ledger = s.ledger := rfl
@[simp] theorem State.modUsb_rtc (s : State) (u : Nat) (f : Usb → Usb) : (s.modUsb u f).rtc = s.rtc := rfl
@[simp] theorem State.modUsb_pdc (s : State) (u : Nat) (f : Usb → Usb) : (s.modUsb u f).pdc = s.pdc := rfl
@[simp] theorem State.modUsb_job (s : State) (u : Nat) (f : Usb → Usb) : (s.modUsb u f).job = s.job := rfl
@[simp] theorem State.modUsb_boot (s : State) (u : Nat) (f : Usb → Usb) : (s.modUsb u f).boot = s.boot := rfl
@[simp] theorem State.modUsb_dap (s : State) (u : Nat) (f : Usb → Usb) : (s.modUsb u f).dap = s.dap := rfl
@[simp] theorem State.modUsb_tiles (s : State) (u : Nat) (f : Usb → Usb) : (s.modUsb u f).tiles = s.tiles := rfl
@[simp] theorem State.modUsb_regW (s : State) (u : Nat) (f : Usb → Usb) (w' : World) (slot' off' : Nat) : (s.modUsb u f).regW w' slot' off' = s.regW w' slot' off' := State.regW_congr rfl
@[simp] theorem State.modUsb_reg (s : State) (u : Nat) (f : Usb → Usb) (slot' off' : Nat) : (s.modUsb u f).reg slot' off' = s.reg slot' off' := State.regW_congr rfl
@[simp] theorem State.modUsb_tile (s : State) (u : Nat) (f : Usb → Usb) (t' : TileId) : (s.modUsb u f).tile t' = s.tile t' := State.tile_congr (State.modUsb_tiles s u f)
-- modSeal
@[simp] theorem State.modSeal_now (s : State) (f : Seal → Seal) : (s.modSeal f).now = s.now := rfl
@[simp] theorem State.modSeal_seq (s : State) (f : Seal → Seal) : (s.modSeal f).seq = s.seq := rfl
@[simp] theorem State.modSeal_free (s : State) (f : Seal → Seal) : (s.modSeal f).free = s.free := rfl
@[simp] theorem State.modSeal_resp (s : State) (f : Seal → Seal) : (s.modSeal f).resp = s.resp := rfl
@[simp] theorem State.modSeal_regs (s : State) (f : Seal → Seal) : (s.modSeal f).regs = s.regs := rfl
@[simp] theorem State.modSeal_irq (s : State) (f : Seal → Seal) : (s.modSeal f).irq = s.irq := rfl
@[simp] theorem State.modSeal_sweep (s : State) (f : Seal → Seal) : (s.modSeal f).sweep = s.sweep := rfl
@[simp] theorem State.modSeal_upsets (s : State) (f : Seal → Seal) : (s.modSeal f).upsets = s.upsets := rfl
@[simp] theorem State.modSeal_store (s : State) (f : Seal → Seal) : (s.modSeal f).store = s.store := rfl
@[simp] theorem State.modSeal_ptp (s : State) (f : Seal → Seal) : (s.modSeal f).ptp = s.ptp := rfl
@[simp] theorem State.modSeal_errCount (s : State) (f : Seal → Seal) : (s.modSeal f).errCount = s.errCount := rfl
@[simp] theorem State.modSeal_errRows (s : State) (f : Seal → Seal) : (s.modSeal f).errRows = s.errRows := rfl
@[simp] theorem State.modSeal_dict (s : State) (f : Seal → Seal) : (s.modSeal f).dict = s.dict := rfl
@[simp] theorem State.modSeal_dev (s : State) (f : Seal → Seal) : (s.modSeal f).dev = s.dev := rfl
@[simp] theorem State.modSeal_out (s : State) (f : Seal → Seal) : (s.modSeal f).out = s.out := rfl
@[simp] theorem State.modSeal_lanes (s : State) (f : Seal → Seal) : (s.modSeal f).lanes = s.lanes := rfl
@[simp] theorem State.modSeal_bb (s : State) (f : Seal → Seal) : (s.modSeal f).bb = s.bb := rfl
@[simp] theorem State.modSeal_tb (s : State) (f : Seal → Seal) : (s.modSeal f).tb = s.tb := rfl
@[simp] theorem State.modSeal_usb (s : State) (f : Seal → Seal) : (s.modSeal f).usb = s.usb := rfl
@[simp] theorem State.modSeal_sealEng (s : State) (f : Seal → Seal) : (s.modSeal f).sealEng = f s.sealEng := rfl
@[simp] theorem State.modSeal_bus (s : State) (f : Seal → Seal) : (s.modSeal f).bus = s.bus := rfl
@[simp] theorem State.modSeal_ledger (s : State) (f : Seal → Seal) : (s.modSeal f).ledger = s.ledger := rfl
@[simp] theorem State.modSeal_rtc (s : State) (f : Seal → Seal) : (s.modSeal f).rtc = s.rtc := rfl
@[simp] theorem State.modSeal_pdc (s : State) (f : Seal → Seal) : (s.modSeal f).pdc = s.pdc := rfl
@[simp] theorem State.modSeal_job (s : State) (f : Seal → Seal) : (s.modSeal f).job = s.job := rfl
@[simp] theorem State.modSeal_boot (s : State) (f : Seal → Seal) : (s.modSeal f).boot = s.boot := rfl
@[simp] theorem State.modSeal_dap (s : State) (f : Seal → Seal) : (s.modSeal f).dap = s.dap := rfl
@[simp] theorem State.modSeal_tiles (s : State) (f : Seal → Seal) : (s.modSeal f).tiles = s.tiles := rfl
@[simp] theorem State.modSeal_regW (s : State) (f : Seal → Seal) (w' : World) (slot' off' : Nat) : (s.modSeal f).regW w' slot' off' = s.regW w' slot' off' := State.regW_congr rfl
@[simp] theorem State.modSeal_reg (s : State) (f : Seal → Seal) (slot' off' : Nat) : (s.modSeal f).reg slot' off' = s.reg slot' off' := State.regW_congr rfl
@[simp] theorem State.modSeal_tile (s : State) (f : Seal → Seal) (t' : TileId) : (s.modSeal f).tile t' = s.tile t' := State.tile_congr (State.modSeal_tiles s f)
-- setKeySlot
@[simp] theorem State.setKeySlot_now (s : State) (k : Nat) (x : KeySlot) : (s.setKeySlot k x).now = s.now := rfl
@[simp] theorem State.setKeySlot_seq (s : State) (k : Nat) (x : KeySlot) : (s.setKeySlot k x).seq = s.seq := rfl
@[simp] theorem State.setKeySlot_free (s : State) (k : Nat) (x : KeySlot) : (s.setKeySlot k x).free = s.free := rfl
@[simp] theorem State.setKeySlot_resp (s : State) (k : Nat) (x : KeySlot) : (s.setKeySlot k x).resp = s.resp := rfl
@[simp] theorem State.setKeySlot_regs (s : State) (k : Nat) (x : KeySlot) : (s.setKeySlot k x).regs = s.regs := rfl
@[simp] theorem State.setKeySlot_irq (s : State) (k : Nat) (x : KeySlot) : (s.setKeySlot k x).irq = s.irq := rfl
@[simp] theorem State.setKeySlot_sweep (s : State) (k : Nat) (x : KeySlot) : (s.setKeySlot k x).sweep = s.sweep := rfl
@[simp] theorem State.setKeySlot_upsets (s : State) (k : Nat) (x : KeySlot) : (s.setKeySlot k x).upsets = s.upsets := rfl
@[simp] theorem State.setKeySlot_store (s : State) (k : Nat) (x : KeySlot) : (s.setKeySlot k x).store = s.store := rfl
@[simp] theorem State.setKeySlot_ptp (s : State) (k : Nat) (x : KeySlot) : (s.setKeySlot k x).ptp = s.ptp := rfl
@[simp] theorem State.setKeySlot_errCount (s : State) (k : Nat) (x : KeySlot) : (s.setKeySlot k x).errCount = s.errCount := rfl
@[simp] theorem State.setKeySlot_errRows (s : State) (k : Nat) (x : KeySlot) : (s.setKeySlot k x).errRows = s.errRows := rfl
@[simp] theorem State.setKeySlot_dict (s : State) (k : Nat) (x : KeySlot) : (s.setKeySlot k x).dict = s.dict := rfl
@[simp] theorem State.setKeySlot_dev (s : State) (k : Nat) (x : KeySlot) : (s.setKeySlot k x).dev = s.dev := rfl
@[simp] theorem State.setKeySlot_out (s : State) (k : Nat) (x : KeySlot) : (s.setKeySlot k x).out = s.out := rfl
@[simp] theorem State.setKeySlot_lanes (s : State) (k : Nat) (x : KeySlot) : (s.setKeySlot k x).lanes = s.lanes := rfl
@[simp] theorem State.setKeySlot_bb (s : State) (k : Nat) (x : KeySlot) : (s.setKeySlot k x).bb = s.bb := rfl
@[simp] theorem State.setKeySlot_tb (s : State) (k : Nat) (x : KeySlot) : (s.setKeySlot k x).tb = s.tb := rfl
@[simp] theorem State.setKeySlot_usb (s : State) (k : Nat) (x : KeySlot) : (s.setKeySlot k x).usb = s.usb := rfl
@[simp] theorem State.setKeySlot_bus (s : State) (k : Nat) (x : KeySlot) : (s.setKeySlot k x).bus = s.bus := rfl
@[simp] theorem State.setKeySlot_ledger (s : State) (k : Nat) (x : KeySlot) : (s.setKeySlot k x).ledger = s.ledger := rfl
@[simp] theorem State.setKeySlot_rtc (s : State) (k : Nat) (x : KeySlot) : (s.setKeySlot k x).rtc = s.rtc := rfl
@[simp] theorem State.setKeySlot_pdc (s : State) (k : Nat) (x : KeySlot) : (s.setKeySlot k x).pdc = s.pdc := rfl
@[simp] theorem State.setKeySlot_job (s : State) (k : Nat) (x : KeySlot) : (s.setKeySlot k x).job = s.job := rfl
@[simp] theorem State.setKeySlot_boot (s : State) (k : Nat) (x : KeySlot) : (s.setKeySlot k x).boot = s.boot := rfl
@[simp] theorem State.setKeySlot_dap (s : State) (k : Nat) (x : KeySlot) : (s.setKeySlot k x).dap = s.dap := rfl
@[simp] theorem State.setKeySlot_tiles (s : State) (k : Nat) (x : KeySlot) : (s.setKeySlot k x).tiles = s.tiles := rfl
@[simp] theorem State.setKeySlot_regW (s : State) (k : Nat) (x : KeySlot) (w' : World) (slot' off' : Nat) : (s.setKeySlot k x).regW w' slot' off' = s.regW w' slot' off' := State.regW_congr rfl
@[simp] theorem State.setKeySlot_reg (s : State) (k : Nat) (x : KeySlot) (slot' off' : Nat) : (s.setKeySlot k x).reg slot' off' = s.reg slot' off' := State.regW_congr rfl
@[simp] theorem State.setKeySlot_tile (s : State) (k : Nat) (x : KeySlot) (t' : TileId) : (s.setKeySlot k x).tile t' = s.tile t' := State.tile_congr (State.setKeySlot_tiles s k x)
-- modBus
@[simp] theorem State.modBus_now (s : State) (f : BusDie → BusDie) : (s.modBus f).now = s.now := rfl
@[simp] theorem State.modBus_seq (s : State) (f : BusDie → BusDie) : (s.modBus f).seq = s.seq := rfl
@[simp] theorem State.modBus_free (s : State) (f : BusDie → BusDie) : (s.modBus f).free = s.free := rfl
@[simp] theorem State.modBus_resp (s : State) (f : BusDie → BusDie) : (s.modBus f).resp = s.resp := rfl
@[simp] theorem State.modBus_regs (s : State) (f : BusDie → BusDie) : (s.modBus f).regs = s.regs := rfl
@[simp] theorem State.modBus_irq (s : State) (f : BusDie → BusDie) : (s.modBus f).irq = s.irq := rfl
@[simp] theorem State.modBus_sweep (s : State) (f : BusDie → BusDie) : (s.modBus f).sweep = s.sweep := rfl
@[simp] theorem State.modBus_upsets (s : State) (f : BusDie → BusDie) : (s.modBus f).upsets = s.upsets := rfl
@[simp] theorem State.modBus_store (s : State) (f : BusDie → BusDie) : (s.modBus f).store = s.store := rfl
@[simp] theorem State.modBus_ptp (s : State) (f : BusDie → BusDie) : (s.modBus f).ptp = s.ptp := rfl
@[simp] theorem State.modBus_errCount (s : State) (f : BusDie → BusDie) : (s.modBus f).errCount = s.errCount := rfl
@[simp] theorem State.modBus_errRows (s : State) (f : BusDie → BusDie) : (s.modBus f).errRows = s.errRows := rfl
@[simp] theorem State.modBus_dict (s : State) (f : BusDie → BusDie) : (s.modBus f).dict = s.dict := rfl
@[simp] theorem State.modBus_dev (s : State) (f : BusDie → BusDie) : (s.modBus f).dev = s.dev := rfl
@[simp] theorem State.modBus_out (s : State) (f : BusDie → BusDie) : (s.modBus f).out = s.out := rfl
@[simp] theorem State.modBus_lanes (s : State) (f : BusDie → BusDie) : (s.modBus f).lanes = s.lanes := rfl
@[simp] theorem State.modBus_bb (s : State) (f : BusDie → BusDie) : (s.modBus f).bb = s.bb := rfl
@[simp] theorem State.modBus_tb (s : State) (f : BusDie → BusDie) : (s.modBus f).tb = s.tb := rfl
@[simp] theorem State.modBus_usb (s : State) (f : BusDie → BusDie) : (s.modBus f).usb = s.usb := rfl
@[simp] theorem State.modBus_sealEng (s : State) (f : BusDie → BusDie) : (s.modBus f).sealEng = s.sealEng := rfl
@[simp] theorem State.modBus_bus (s : State) (f : BusDie → BusDie) : (s.modBus f).bus = f s.bus := rfl
@[simp] theorem State.modBus_ledger (s : State) (f : BusDie → BusDie) : (s.modBus f).ledger = s.ledger := rfl
@[simp] theorem State.modBus_rtc (s : State) (f : BusDie → BusDie) : (s.modBus f).rtc = s.rtc := rfl
@[simp] theorem State.modBus_pdc (s : State) (f : BusDie → BusDie) : (s.modBus f).pdc = s.pdc := rfl
@[simp] theorem State.modBus_job (s : State) (f : BusDie → BusDie) : (s.modBus f).job = s.job := rfl
@[simp] theorem State.modBus_boot (s : State) (f : BusDie → BusDie) : (s.modBus f).boot = s.boot := rfl
@[simp] theorem State.modBus_dap (s : State) (f : BusDie → BusDie) : (s.modBus f).dap = s.dap := rfl
@[simp] theorem State.modBus_tiles (s : State) (f : BusDie → BusDie) : (s.modBus f).tiles = s.tiles := rfl
@[simp] theorem State.modBus_regW (s : State) (f : BusDie → BusDie) (w' : World) (slot' off' : Nat) : (s.modBus f).regW w' slot' off' = s.regW w' slot' off' := State.regW_congr rfl
@[simp] theorem State.modBus_reg (s : State) (f : BusDie → BusDie) (slot' off' : Nat) : (s.modBus f).reg slot' off' = s.reg slot' off' := State.regW_congr rfl
@[simp] theorem State.modBus_tile (s : State) (f : BusDie → BusDie) (t' : TileId) : (s.modBus f).tile t' = s.tile t' := State.tile_congr (State.modBus_tiles s f)
-- modHot
@[simp] theorem State.modHot_now (s : State) (p : Nat) (f : Hot → Hot) : (s.modHot p f).now = s.now := rfl
@[simp] theorem State.modHot_seq (s : State) (p : Nat) (f : Hot → Hot) : (s.modHot p f).seq = s.seq := rfl
@[simp] theorem State.modHot_free (s : State) (p : Nat) (f : Hot → Hot) : (s.modHot p f).free = s.free := rfl
@[simp] theorem State.modHot_resp (s : State) (p : Nat) (f : Hot → Hot) : (s.modHot p f).resp = s.resp := rfl
@[simp] theorem State.modHot_regs (s : State) (p : Nat) (f : Hot → Hot) : (s.modHot p f).regs = s.regs := rfl
@[simp] theorem State.modHot_irq (s : State) (p : Nat) (f : Hot → Hot) : (s.modHot p f).irq = s.irq := rfl
@[simp] theorem State.modHot_sweep (s : State) (p : Nat) (f : Hot → Hot) : (s.modHot p f).sweep = s.sweep := rfl
@[simp] theorem State.modHot_upsets (s : State) (p : Nat) (f : Hot → Hot) : (s.modHot p f).upsets = s.upsets := rfl
@[simp] theorem State.modHot_store (s : State) (p : Nat) (f : Hot → Hot) : (s.modHot p f).store = s.store := rfl
@[simp] theorem State.modHot_ptp (s : State) (p : Nat) (f : Hot → Hot) : (s.modHot p f).ptp = s.ptp := rfl
@[simp] theorem State.modHot_errCount (s : State) (p : Nat) (f : Hot → Hot) : (s.modHot p f).errCount = s.errCount := rfl
@[simp] theorem State.modHot_errRows (s : State) (p : Nat) (f : Hot → Hot) : (s.modHot p f).errRows = s.errRows := rfl
@[simp] theorem State.modHot_dict (s : State) (p : Nat) (f : Hot → Hot) : (s.modHot p f).dict = s.dict := rfl
@[simp] theorem State.modHot_dev (s : State) (p : Nat) (f : Hot → Hot) : (s.modHot p f).dev = s.dev := rfl
@[simp] theorem State.modHot_out (s : State) (p : Nat) (f : Hot → Hot) : (s.modHot p f).out = s.out := rfl
@[simp] theorem State.modHot_lanes (s : State) (p : Nat) (f : Hot → Hot) : (s.modHot p f).lanes = s.lanes := rfl
@[simp] theorem State.modHot_bb (s : State) (p : Nat) (f : Hot → Hot) : (s.modHot p f).bb = s.bb := rfl
@[simp] theorem State.modHot_tb (s : State) (p : Nat) (f : Hot → Hot) : (s.modHot p f).tb = s.tb := rfl
@[simp] theorem State.modHot_usb (s : State) (p : Nat) (f : Hot → Hot) : (s.modHot p f).usb = s.usb := rfl
@[simp] theorem State.modHot_sealEng (s : State) (p : Nat) (f : Hot → Hot) : (s.modHot p f).sealEng = s.sealEng := rfl
@[simp] theorem State.modHot_ledger (s : State) (p : Nat) (f : Hot → Hot) : (s.modHot p f).ledger = s.ledger := rfl
@[simp] theorem State.modHot_rtc (s : State) (p : Nat) (f : Hot → Hot) : (s.modHot p f).rtc = s.rtc := rfl
@[simp] theorem State.modHot_pdc (s : State) (p : Nat) (f : Hot → Hot) : (s.modHot p f).pdc = s.pdc := rfl
@[simp] theorem State.modHot_job (s : State) (p : Nat) (f : Hot → Hot) : (s.modHot p f).job = s.job := rfl
@[simp] theorem State.modHot_boot (s : State) (p : Nat) (f : Hot → Hot) : (s.modHot p f).boot = s.boot := rfl
@[simp] theorem State.modHot_dap (s : State) (p : Nat) (f : Hot → Hot) : (s.modHot p f).dap = s.dap := rfl
@[simp] theorem State.modHot_tiles (s : State) (p : Nat) (f : Hot → Hot) : (s.modHot p f).tiles = s.tiles := rfl
@[simp] theorem State.modHot_regW (s : State) (p : Nat) (f : Hot → Hot) (w' : World) (slot' off' : Nat) : (s.modHot p f).regW w' slot' off' = s.regW w' slot' off' := State.regW_congr rfl
@[simp] theorem State.modHot_reg (s : State) (p : Nat) (f : Hot → Hot) (slot' off' : Nat) : (s.modHot p f).reg slot' off' = s.reg slot' off' := State.regW_congr rfl
@[simp] theorem State.modHot_tile (s : State) (p : Nat) (f : Hot → Hot) (t' : TileId) : (s.modHot p f).tile t' = s.tile t' := State.tile_congr (State.modHot_tiles s p f)
-- modLedger
@[simp] theorem State.modLedger_now (s : State) (f : Ledger → Ledger) : (s.modLedger f).now = s.now := rfl
@[simp] theorem State.modLedger_seq (s : State) (f : Ledger → Ledger) : (s.modLedger f).seq = s.seq := rfl
@[simp] theorem State.modLedger_free (s : State) (f : Ledger → Ledger) : (s.modLedger f).free = s.free := rfl
@[simp] theorem State.modLedger_resp (s : State) (f : Ledger → Ledger) : (s.modLedger f).resp = s.resp := rfl
@[simp] theorem State.modLedger_regs (s : State) (f : Ledger → Ledger) : (s.modLedger f).regs = s.regs := rfl
@[simp] theorem State.modLedger_irq (s : State) (f : Ledger → Ledger) : (s.modLedger f).irq = s.irq := rfl
@[simp] theorem State.modLedger_sweep (s : State) (f : Ledger → Ledger) : (s.modLedger f).sweep = s.sweep := rfl
@[simp] theorem State.modLedger_upsets (s : State) (f : Ledger → Ledger) : (s.modLedger f).upsets = s.upsets := rfl
@[simp] theorem State.modLedger_store (s : State) (f : Ledger → Ledger) : (s.modLedger f).store = s.store := rfl
@[simp] theorem State.modLedger_ptp (s : State) (f : Ledger → Ledger) : (s.modLedger f).ptp = s.ptp := rfl
@[simp] theorem State.modLedger_errCount (s : State) (f : Ledger → Ledger) : (s.modLedger f).errCount = s.errCount := rfl
@[simp] theorem State.modLedger_errRows (s : State) (f : Ledger → Ledger) : (s.modLedger f).errRows = s.errRows := rfl
@[simp] theorem State.modLedger_dict (s : State) (f : Ledger → Ledger) : (s.modLedger f).dict = s.dict := rfl
@[simp] theorem State.modLedger_dev (s : State) (f : Ledger → Ledger) : (s.modLedger f).dev = s.dev := rfl
@[simp] theorem State.modLedger_out (s : State) (f : Ledger → Ledger) : (s.modLedger f).out = s.out := rfl
@[simp] theorem State.modLedger_lanes (s : State) (f : Ledger → Ledger) : (s.modLedger f).lanes = s.lanes := rfl
@[simp] theorem State.modLedger_bb (s : State) (f : Ledger → Ledger) : (s.modLedger f).bb = s.bb := rfl
@[simp] theorem State.modLedger_tb (s : State) (f : Ledger → Ledger) : (s.modLedger f).tb = s.tb := rfl
@[simp] theorem State.modLedger_usb (s : State) (f : Ledger → Ledger) : (s.modLedger f).usb = s.usb := rfl
@[simp] theorem State.modLedger_sealEng (s : State) (f : Ledger → Ledger) : (s.modLedger f).sealEng = s.sealEng := rfl
@[simp] theorem State.modLedger_bus (s : State) (f : Ledger → Ledger) : (s.modLedger f).bus = s.bus := rfl
@[simp] theorem State.modLedger_ledger (s : State) (f : Ledger → Ledger) : (s.modLedger f).ledger = f s.ledger := rfl
@[simp] theorem State.modLedger_rtc (s : State) (f : Ledger → Ledger) : (s.modLedger f).rtc = s.rtc := rfl
@[simp] theorem State.modLedger_pdc (s : State) (f : Ledger → Ledger) : (s.modLedger f).pdc = s.pdc := rfl
@[simp] theorem State.modLedger_job (s : State) (f : Ledger → Ledger) : (s.modLedger f).job = s.job := rfl
@[simp] theorem State.modLedger_boot (s : State) (f : Ledger → Ledger) : (s.modLedger f).boot = s.boot := rfl
@[simp] theorem State.modLedger_dap (s : State) (f : Ledger → Ledger) : (s.modLedger f).dap = s.dap := rfl
@[simp] theorem State.modLedger_tiles (s : State) (f : Ledger → Ledger) : (s.modLedger f).tiles = s.tiles := rfl
@[simp] theorem State.modLedger_regW (s : State) (f : Ledger → Ledger) (w' : World) (slot' off' : Nat) : (s.modLedger f).regW w' slot' off' = s.regW w' slot' off' := State.regW_congr rfl
@[simp] theorem State.modLedger_reg (s : State) (f : Ledger → Ledger) (slot' off' : Nat) : (s.modLedger f).reg slot' off' = s.reg slot' off' := State.regW_congr rfl
@[simp] theorem State.modLedger_tile (s : State) (f : Ledger → Ledger) (t' : TileId) : (s.modLedger f).tile t' = s.tile t' := State.tile_congr (State.modLedger_tiles s f)
-- setLrec
@[simp] theorem State.setLrec_now (s : State) (rid : Nat) (r : LRec) : (s.setLrec rid r).now = s.now := rfl
@[simp] theorem State.setLrec_seq (s : State) (rid : Nat) (r : LRec) : (s.setLrec rid r).seq = s.seq := rfl
@[simp] theorem State.setLrec_free (s : State) (rid : Nat) (r : LRec) : (s.setLrec rid r).free = s.free := rfl
@[simp] theorem State.setLrec_resp (s : State) (rid : Nat) (r : LRec) : (s.setLrec rid r).resp = s.resp := rfl
@[simp] theorem State.setLrec_regs (s : State) (rid : Nat) (r : LRec) : (s.setLrec rid r).regs = s.regs := rfl
@[simp] theorem State.setLrec_irq (s : State) (rid : Nat) (r : LRec) : (s.setLrec rid r).irq = s.irq := rfl
@[simp] theorem State.setLrec_sweep (s : State) (rid : Nat) (r : LRec) : (s.setLrec rid r).sweep = s.sweep := rfl
@[simp] theorem State.setLrec_upsets (s : State) (rid : Nat) (r : LRec) : (s.setLrec rid r).upsets = s.upsets := rfl
@[simp] theorem State.setLrec_store (s : State) (rid : Nat) (r : LRec) : (s.setLrec rid r).store = s.store := rfl
@[simp] theorem State.setLrec_ptp (s : State) (rid : Nat) (r : LRec) : (s.setLrec rid r).ptp = s.ptp := rfl
@[simp] theorem State.setLrec_errCount (s : State) (rid : Nat) (r : LRec) : (s.setLrec rid r).errCount = s.errCount := rfl
@[simp] theorem State.setLrec_errRows (s : State) (rid : Nat) (r : LRec) : (s.setLrec rid r).errRows = s.errRows := rfl
@[simp] theorem State.setLrec_dict (s : State) (rid : Nat) (r : LRec) : (s.setLrec rid r).dict = s.dict := rfl
@[simp] theorem State.setLrec_dev (s : State) (rid : Nat) (r : LRec) : (s.setLrec rid r).dev = s.dev := rfl
@[simp] theorem State.setLrec_out (s : State) (rid : Nat) (r : LRec) : (s.setLrec rid r).out = s.out := rfl
@[simp] theorem State.setLrec_lanes (s : State) (rid : Nat) (r : LRec) : (s.setLrec rid r).lanes = s.lanes := rfl
@[simp] theorem State.setLrec_bb (s : State) (rid : Nat) (r : LRec) : (s.setLrec rid r).bb = s.bb := rfl
@[simp] theorem State.setLrec_tb (s : State) (rid : Nat) (r : LRec) : (s.setLrec rid r).tb = s.tb := rfl
@[simp] theorem State.setLrec_usb (s : State) (rid : Nat) (r : LRec) : (s.setLrec rid r).usb = s.usb := rfl
@[simp] theorem State.setLrec_sealEng (s : State) (rid : Nat) (r : LRec) : (s.setLrec rid r).sealEng = s.sealEng := rfl
@[simp] theorem State.setLrec_bus (s : State) (rid : Nat) (r : LRec) : (s.setLrec rid r).bus = s.bus := rfl
@[simp] theorem State.setLrec_rtc (s : State) (rid : Nat) (r : LRec) : (s.setLrec rid r).rtc = s.rtc := rfl
@[simp] theorem State.setLrec_pdc (s : State) (rid : Nat) (r : LRec) : (s.setLrec rid r).pdc = s.pdc := rfl
@[simp] theorem State.setLrec_job (s : State) (rid : Nat) (r : LRec) : (s.setLrec rid r).job = s.job := rfl
@[simp] theorem State.setLrec_boot (s : State) (rid : Nat) (r : LRec) : (s.setLrec rid r).boot = s.boot := rfl
@[simp] theorem State.setLrec_dap (s : State) (rid : Nat) (r : LRec) : (s.setLrec rid r).dap = s.dap := rfl
@[simp] theorem State.setLrec_tiles (s : State) (rid : Nat) (r : LRec) : (s.setLrec rid r).tiles = s.tiles := rfl
@[simp] theorem State.setLrec_regW (s : State) (rid : Nat) (r : LRec) (w' : World) (slot' off' : Nat) : (s.setLrec rid r).regW w' slot' off' = s.regW w' slot' off' := State.regW_congr rfl
@[simp] theorem State.setLrec_reg (s : State) (rid : Nat) (r : LRec) (slot' off' : Nat) : (s.setLrec rid r).reg slot' off' = s.reg slot' off' := State.regW_congr rfl
@[simp] theorem State.setLrec_tile (s : State) (rid : Nat) (r : LRec) (t' : TileId) : (s.setLrec rid r).tile t' = s.tile t' := State.tile_congr (State.setLrec_tiles s rid r)
-- modRtc
@[simp] theorem State.modRtc_now (s : State) (f : Rtc → Rtc) : (s.modRtc f).now = s.now := rfl
@[simp] theorem State.modRtc_seq (s : State) (f : Rtc → Rtc) : (s.modRtc f).seq = s.seq := rfl
@[simp] theorem State.modRtc_free (s : State) (f : Rtc → Rtc) : (s.modRtc f).free = s.free := rfl
@[simp] theorem State.modRtc_resp (s : State) (f : Rtc → Rtc) : (s.modRtc f).resp = s.resp := rfl
@[simp] theorem State.modRtc_regs (s : State) (f : Rtc → Rtc) : (s.modRtc f).regs = s.regs := rfl
@[simp] theorem State.modRtc_irq (s : State) (f : Rtc → Rtc) : (s.modRtc f).irq = s.irq := rfl
@[simp] theorem State.modRtc_sweep (s : State) (f : Rtc → Rtc) : (s.modRtc f).sweep = s.sweep := rfl
@[simp] theorem State.modRtc_upsets (s : State) (f : Rtc → Rtc) : (s.modRtc f).upsets = s.upsets := rfl
@[simp] theorem State.modRtc_store (s : State) (f : Rtc → Rtc) : (s.modRtc f).store = s.store := rfl
@[simp] theorem State.modRtc_ptp (s : State) (f : Rtc → Rtc) : (s.modRtc f).ptp = s.ptp := rfl
@[simp] theorem State.modRtc_errCount (s : State) (f : Rtc → Rtc) : (s.modRtc f).errCount = s.errCount := rfl
@[simp] theorem State.modRtc_errRows (s : State) (f : Rtc → Rtc) : (s.modRtc f).errRows = s.errRows := rfl
@[simp] theorem State.modRtc_dict (s : State) (f : Rtc → Rtc) : (s.modRtc f).dict = s.dict := rfl
@[simp] theorem State.modRtc_dev (s : State) (f : Rtc → Rtc) : (s.modRtc f).dev = s.dev := rfl
@[simp] theorem State.modRtc_out (s : State) (f : Rtc → Rtc) : (s.modRtc f).out = s.out := rfl
@[simp] theorem State.modRtc_lanes (s : State) (f : Rtc → Rtc) : (s.modRtc f).lanes = s.lanes := rfl
@[simp] theorem State.modRtc_bb (s : State) (f : Rtc → Rtc) : (s.modRtc f).bb = s.bb := rfl
@[simp] theorem State.modRtc_tb (s : State) (f : Rtc → Rtc) : (s.modRtc f).tb = s.tb := rfl
@[simp] theorem State.modRtc_usb (s : State) (f : Rtc → Rtc) : (s.modRtc f).usb = s.usb := rfl
@[simp] theorem State.modRtc_sealEng (s : State) (f : Rtc → Rtc) : (s.modRtc f).sealEng = s.sealEng := rfl
@[simp] theorem State.modRtc_bus (s : State) (f : Rtc → Rtc) : (s.modRtc f).bus = s.bus := rfl
@[simp] theorem State.modRtc_ledger (s : State) (f : Rtc → Rtc) : (s.modRtc f).ledger = s.ledger := rfl
@[simp] theorem State.modRtc_rtc (s : State) (f : Rtc → Rtc) : (s.modRtc f).rtc = f s.rtc := rfl
@[simp] theorem State.modRtc_pdc (s : State) (f : Rtc → Rtc) : (s.modRtc f).pdc = s.pdc := rfl
@[simp] theorem State.modRtc_job (s : State) (f : Rtc → Rtc) : (s.modRtc f).job = s.job := rfl
@[simp] theorem State.modRtc_boot (s : State) (f : Rtc → Rtc) : (s.modRtc f).boot = s.boot := rfl
@[simp] theorem State.modRtc_dap (s : State) (f : Rtc → Rtc) : (s.modRtc f).dap = s.dap := rfl
@[simp] theorem State.modRtc_tiles (s : State) (f : Rtc → Rtc) : (s.modRtc f).tiles = s.tiles := rfl
@[simp] theorem State.modRtc_regW (s : State) (f : Rtc → Rtc) (w' : World) (slot' off' : Nat) : (s.modRtc f).regW w' slot' off' = s.regW w' slot' off' := State.regW_congr rfl
@[simp] theorem State.modRtc_reg (s : State) (f : Rtc → Rtc) (slot' off' : Nat) : (s.modRtc f).reg slot' off' = s.reg slot' off' := State.regW_congr rfl
@[simp] theorem State.modRtc_tile (s : State) (f : Rtc → Rtc) (t' : TileId) : (s.modRtc f).tile t' = s.tile t' := State.tile_congr (State.modRtc_tiles s f)
-- modPdc
@[simp] theorem State.modPdc_now (s : State) (f : Pdc → Pdc) : (s.modPdc f).now = s.now := rfl
@[simp] theorem State.modPdc_seq (s : State) (f : Pdc → Pdc) : (s.modPdc f).seq = s.seq := rfl
@[simp] theorem State.modPdc_free (s : State) (f : Pdc → Pdc) : (s.modPdc f).free = s.free := rfl
@[simp] theorem State.modPdc_resp (s : State) (f : Pdc → Pdc) : (s.modPdc f).resp = s.resp := rfl
@[simp] theorem State.modPdc_regs (s : State) (f : Pdc → Pdc) : (s.modPdc f).regs = s.regs := rfl
@[simp] theorem State.modPdc_irq (s : State) (f : Pdc → Pdc) : (s.modPdc f).irq = s.irq := rfl
@[simp] theorem State.modPdc_sweep (s : State) (f : Pdc → Pdc) : (s.modPdc f).sweep = s.sweep := rfl
@[simp] theorem State.modPdc_upsets (s : State) (f : Pdc → Pdc) : (s.modPdc f).upsets = s.upsets := rfl
@[simp] theorem State.modPdc_store (s : State) (f : Pdc → Pdc) : (s.modPdc f).store = s.store := rfl
@[simp] theorem State.modPdc_ptp (s : State) (f : Pdc → Pdc) : (s.modPdc f).ptp = s.ptp := rfl
@[simp] theorem State.modPdc_errCount (s : State) (f : Pdc → Pdc) : (s.modPdc f).errCount = s.errCount := rfl
@[simp] theorem State.modPdc_errRows (s : State) (f : Pdc → Pdc) : (s.modPdc f).errRows = s.errRows := rfl
@[simp] theorem State.modPdc_dict (s : State) (f : Pdc → Pdc) : (s.modPdc f).dict = s.dict := rfl
@[simp] theorem State.modPdc_dev (s : State) (f : Pdc → Pdc) : (s.modPdc f).dev = s.dev := rfl
@[simp] theorem State.modPdc_out (s : State) (f : Pdc → Pdc) : (s.modPdc f).out = s.out := rfl
@[simp] theorem State.modPdc_lanes (s : State) (f : Pdc → Pdc) : (s.modPdc f).lanes = s.lanes := rfl
@[simp] theorem State.modPdc_bb (s : State) (f : Pdc → Pdc) : (s.modPdc f).bb = s.bb := rfl
@[simp] theorem State.modPdc_tb (s : State) (f : Pdc → Pdc) : (s.modPdc f).tb = s.tb := rfl
@[simp] theorem State.modPdc_usb (s : State) (f : Pdc → Pdc) : (s.modPdc f).usb = s.usb := rfl
@[simp] theorem State.modPdc_sealEng (s : State) (f : Pdc → Pdc) : (s.modPdc f).sealEng = s.sealEng := rfl
@[simp] theorem State.modPdc_bus (s : State) (f : Pdc → Pdc) : (s.modPdc f).bus = s.bus := rfl
@[simp] theorem State.modPdc_ledger (s : State) (f : Pdc → Pdc) : (s.modPdc f).ledger = s.ledger := rfl
@[simp] theorem State.modPdc_rtc (s : State) (f : Pdc → Pdc) : (s.modPdc f).rtc = s.rtc := rfl
@[simp] theorem State.modPdc_pdc (s : State) (f : Pdc → Pdc) : (s.modPdc f).pdc = f s.pdc := rfl
@[simp] theorem State.modPdc_job (s : State) (f : Pdc → Pdc) : (s.modPdc f).job = s.job := rfl
@[simp] theorem State.modPdc_boot (s : State) (f : Pdc → Pdc) : (s.modPdc f).boot = s.boot := rfl
@[simp] theorem State.modPdc_dap (s : State) (f : Pdc → Pdc) : (s.modPdc f).dap = s.dap := rfl
@[simp] theorem State.modPdc_tiles (s : State) (f : Pdc → Pdc) : (s.modPdc f).tiles = s.tiles := rfl
@[simp] theorem State.modPdc_regW (s : State) (f : Pdc → Pdc) (w' : World) (slot' off' : Nat) : (s.modPdc f).regW w' slot' off' = s.regW w' slot' off' := State.regW_congr rfl
@[simp] theorem State.modPdc_reg (s : State) (f : Pdc → Pdc) (slot' off' : Nat) : (s.modPdc f).reg slot' off' = s.reg slot' off' := State.regW_congr rfl
@[simp] theorem State.modPdc_tile (s : State) (f : Pdc → Pdc) (t' : TileId) : (s.modPdc f).tile t' = s.tile t' := State.tile_congr (State.modPdc_tiles s f)
-- modDev
@[simp] theorem State.modDev_now (s : State) (f : Dev → Dev) : (s.modDev f).now = s.now := rfl
@[simp] theorem State.modDev_seq (s : State) (f : Dev → Dev) : (s.modDev f).seq = s.seq := rfl
@[simp] theorem State.modDev_free (s : State) (f : Dev → Dev) : (s.modDev f).free = s.free := rfl
@[simp] theorem State.modDev_resp (s : State) (f : Dev → Dev) : (s.modDev f).resp = s.resp := rfl
@[simp] theorem State.modDev_regs (s : State) (f : Dev → Dev) : (s.modDev f).regs = s.regs := rfl
@[simp] theorem State.modDev_irq (s : State) (f : Dev → Dev) : (s.modDev f).irq = s.irq := rfl
@[simp] theorem State.modDev_sweep (s : State) (f : Dev → Dev) : (s.modDev f).sweep = s.sweep := rfl
@[simp] theorem State.modDev_upsets (s : State) (f : Dev → Dev) : (s.modDev f).upsets = s.upsets := rfl
@[simp] theorem State.modDev_store (s : State) (f : Dev → Dev) : (s.modDev f).store = s.store := rfl
@[simp] theorem State.modDev_ptp (s : State) (f : Dev → Dev) : (s.modDev f).ptp = s.ptp := rfl
@[simp] theorem State.modDev_errCount (s : State) (f : Dev → Dev) : (s.modDev f).errCount = s.errCount := rfl
@[simp] theorem State.modDev_errRows (s : State) (f : Dev → Dev) : (s.modDev f).errRows = s.errRows := rfl
@[simp] theorem State.modDev_dict (s : State) (f : Dev → Dev) : (s.modDev f).dict = s.dict := rfl
@[simp] theorem State.modDev_dev (s : State) (f : Dev → Dev) : (s.modDev f).dev = f s.dev := rfl
@[simp] theorem State.modDev_out (s : State) (f : Dev → Dev) : (s.modDev f).out = s.out := rfl
@[simp] theorem State.modDev_lanes (s : State) (f : Dev → Dev) : (s.modDev f).lanes = s.lanes := rfl
@[simp] theorem State.modDev_bb (s : State) (f : Dev → Dev) : (s.modDev f).bb = s.bb := rfl
@[simp] theorem State.modDev_tb (s : State) (f : Dev → Dev) : (s.modDev f).tb = s.tb := rfl
@[simp] theorem State.modDev_usb (s : State) (f : Dev → Dev) : (s.modDev f).usb = s.usb := rfl
@[simp] theorem State.modDev_sealEng (s : State) (f : Dev → Dev) : (s.modDev f).sealEng = s.sealEng := rfl
@[simp] theorem State.modDev_bus (s : State) (f : Dev → Dev) : (s.modDev f).bus = s.bus := rfl
@[simp] theorem State.modDev_ledger (s : State) (f : Dev → Dev) : (s.modDev f).ledger = s.ledger := rfl
@[simp] theorem State.modDev_rtc (s : State) (f : Dev → Dev) : (s.modDev f).rtc = s.rtc := rfl
@[simp] theorem State.modDev_pdc (s : State) (f : Dev → Dev) : (s.modDev f).pdc = s.pdc := rfl
@[simp] theorem State.modDev_job (s : State) (f : Dev → Dev) : (s.modDev f).job = s.job := rfl
@[simp] theorem State.modDev_boot (s : State) (f : Dev → Dev) : (s.modDev f).boot = s.boot := rfl
@[simp] theorem State.modDev_dap (s : State) (f : Dev → Dev) : (s.modDev f).dap = s.dap := rfl
@[simp] theorem State.modDev_tiles (s : State) (f : Dev → Dev) : (s.modDev f).tiles = s.tiles := rfl
@[simp] theorem State.modDev_regW (s : State) (f : Dev → Dev) (w' : World) (slot' off' : Nat) : (s.modDev f).regW w' slot' off' = s.regW w' slot' off' := State.regW_congr rfl
@[simp] theorem State.modDev_reg (s : State) (f : Dev → Dev) (slot' off' : Nat) : (s.modDev f).reg slot' off' = s.reg slot' off' := State.regW_congr rfl
@[simp] theorem State.modDev_tile (s : State) (f : Dev → Dev) (t' : TileId) : (s.modDev f).tile t' = s.tile t' := State.tile_congr (State.modDev_tiles s f)
-- modBoot
@[simp] theorem State.modBoot_now (s : State) (f : Boot → Boot) : (s.modBoot f).now = s.now := rfl
@[simp] theorem State.modBoot_seq (s : State) (f : Boot → Boot) : (s.modBoot f).seq = s.seq := rfl
@[simp] theorem State.modBoot_free (s : State) (f : Boot → Boot) : (s.modBoot f).free = s.free := rfl
@[simp] theorem State.modBoot_resp (s : State) (f : Boot → Boot) : (s.modBoot f).resp = s.resp := rfl
@[simp] theorem State.modBoot_regs (s : State) (f : Boot → Boot) : (s.modBoot f).regs = s.regs := rfl
@[simp] theorem State.modBoot_irq (s : State) (f : Boot → Boot) : (s.modBoot f).irq = s.irq := rfl
@[simp] theorem State.modBoot_sweep (s : State) (f : Boot → Boot) : (s.modBoot f).sweep = s.sweep := rfl
@[simp] theorem State.modBoot_upsets (s : State) (f : Boot → Boot) : (s.modBoot f).upsets = s.upsets := rfl
@[simp] theorem State.modBoot_store (s : State) (f : Boot → Boot) : (s.modBoot f).store = s.store := rfl
@[simp] theorem State.modBoot_ptp (s : State) (f : Boot → Boot) : (s.modBoot f).ptp = s.ptp := rfl
@[simp] theorem State.modBoot_errCount (s : State) (f : Boot → Boot) : (s.modBoot f).errCount = s.errCount := rfl
@[simp] theorem State.modBoot_errRows (s : State) (f : Boot → Boot) : (s.modBoot f).errRows = s.errRows := rfl
@[simp] theorem State.modBoot_dict (s : State) (f : Boot → Boot) : (s.modBoot f).dict = s.dict := rfl
@[simp] theorem State.modBoot_dev (s : State) (f : Boot → Boot) : (s.modBoot f).dev = s.dev := rfl
@[simp] theorem State.modBoot_out (s : State) (f : Boot → Boot) : (s.modBoot f).out = s.out := rfl
@[simp] theorem State.modBoot_lanes (s : State) (f : Boot → Boot) : (s.modBoot f).lanes = s.lanes := rfl
@[simp] theorem State.modBoot_bb (s : State) (f : Boot → Boot) : (s.modBoot f).bb = s.bb := rfl
@[simp] theorem State.modBoot_tb (s : State) (f : Boot → Boot) : (s.modBoot f).tb = s.tb := rfl
@[simp] theorem State.modBoot_usb (s : State) (f : Boot → Boot) : (s.modBoot f).usb = s.usb := rfl
@[simp] theorem State.modBoot_sealEng (s : State) (f : Boot → Boot) : (s.modBoot f).sealEng = s.sealEng := rfl
@[simp] theorem State.modBoot_bus (s : State) (f : Boot → Boot) : (s.modBoot f).bus = s.bus := rfl
@[simp] theorem State.modBoot_ledger (s : State) (f : Boot → Boot) : (s.modBoot f).ledger = s.ledger := rfl
@[simp] theorem State.modBoot_rtc (s : State) (f : Boot → Boot) : (s.modBoot f).rtc = s.rtc := rfl
@[simp] theorem State.modBoot_pdc (s : State) (f : Boot → Boot) : (s.modBoot f).pdc = s.pdc := rfl
@[simp] theorem State.modBoot_job (s : State) (f : Boot → Boot) : (s.modBoot f).job = s.job := rfl
@[simp] theorem State.modBoot_boot (s : State) (f : Boot → Boot) : (s.modBoot f).boot = f s.boot := rfl
@[simp] theorem State.modBoot_dap (s : State) (f : Boot → Boot) : (s.modBoot f).dap = s.dap := rfl
@[simp] theorem State.modBoot_tiles (s : State) (f : Boot → Boot) : (s.modBoot f).tiles = s.tiles := rfl
@[simp] theorem State.modBoot_regW (s : State) (f : Boot → Boot) (w' : World) (slot' off' : Nat) : (s.modBoot f).regW w' slot' off' = s.regW w' slot' off' := State.regW_congr rfl
@[simp] theorem State.modBoot_reg (s : State) (f : Boot → Boot) (slot' off' : Nat) : (s.modBoot f).reg slot' off' = s.reg slot' off' := State.regW_congr rfl
@[simp] theorem State.modBoot_tile (s : State) (f : Boot → Boot) (t' : TileId) : (s.modBoot f).tile t' = s.tile t' := State.tile_congr (State.modBoot_tiles s f)
-- modDap
@[simp] theorem State.modDap_now (s : State) (f : Dap → Dap) : (s.modDap f).now = s.now := rfl
@[simp] theorem State.modDap_seq (s : State) (f : Dap → Dap) : (s.modDap f).seq = s.seq := rfl
@[simp] theorem State.modDap_free (s : State) (f : Dap → Dap) : (s.modDap f).free = s.free := rfl
@[simp] theorem State.modDap_resp (s : State) (f : Dap → Dap) : (s.modDap f).resp = s.resp := rfl
@[simp] theorem State.modDap_regs (s : State) (f : Dap → Dap) : (s.modDap f).regs = s.regs := rfl
@[simp] theorem State.modDap_irq (s : State) (f : Dap → Dap) : (s.modDap f).irq = s.irq := rfl
@[simp] theorem State.modDap_sweep (s : State) (f : Dap → Dap) : (s.modDap f).sweep = s.sweep := rfl
@[simp] theorem State.modDap_upsets (s : State) (f : Dap → Dap) : (s.modDap f).upsets = s.upsets := rfl
@[simp] theorem State.modDap_store (s : State) (f : Dap → Dap) : (s.modDap f).store = s.store := rfl
@[simp] theorem State.modDap_ptp (s : State) (f : Dap → Dap) : (s.modDap f).ptp = s.ptp := rfl
@[simp] theorem State.modDap_errCount (s : State) (f : Dap → Dap) : (s.modDap f).errCount = s.errCount := rfl
@[simp] theorem State.modDap_errRows (s : State) (f : Dap → Dap) : (s.modDap f).errRows = s.errRows := rfl
@[simp] theorem State.modDap_dict (s : State) (f : Dap → Dap) : (s.modDap f).dict = s.dict := rfl
@[simp] theorem State.modDap_dev (s : State) (f : Dap → Dap) : (s.modDap f).dev = s.dev := rfl
@[simp] theorem State.modDap_out (s : State) (f : Dap → Dap) : (s.modDap f).out = s.out := rfl
@[simp] theorem State.modDap_lanes (s : State) (f : Dap → Dap) : (s.modDap f).lanes = s.lanes := rfl
@[simp] theorem State.modDap_bb (s : State) (f : Dap → Dap) : (s.modDap f).bb = s.bb := rfl
@[simp] theorem State.modDap_tb (s : State) (f : Dap → Dap) : (s.modDap f).tb = s.tb := rfl
@[simp] theorem State.modDap_usb (s : State) (f : Dap → Dap) : (s.modDap f).usb = s.usb := rfl
@[simp] theorem State.modDap_sealEng (s : State) (f : Dap → Dap) : (s.modDap f).sealEng = s.sealEng := rfl
@[simp] theorem State.modDap_bus (s : State) (f : Dap → Dap) : (s.modDap f).bus = s.bus := rfl
@[simp] theorem State.modDap_ledger (s : State) (f : Dap → Dap) : (s.modDap f).ledger = s.ledger := rfl
@[simp] theorem State.modDap_rtc (s : State) (f : Dap → Dap) : (s.modDap f).rtc = s.rtc := rfl
@[simp] theorem State.modDap_pdc (s : State) (f : Dap → Dap) : (s.modDap f).pdc = s.pdc := rfl
@[simp] theorem State.modDap_job (s : State) (f : Dap → Dap) : (s.modDap f).job = s.job := rfl
@[simp] theorem State.modDap_boot (s : State) (f : Dap → Dap) : (s.modDap f).boot = s.boot := rfl
@[simp] theorem State.modDap_dap (s : State) (f : Dap → Dap) : (s.modDap f).dap = f s.dap := rfl
@[simp] theorem State.modDap_tiles (s : State) (f : Dap → Dap) : (s.modDap f).tiles = s.tiles := rfl
@[simp] theorem State.modDap_regW (s : State) (f : Dap → Dap) (w' : World) (slot' off' : Nat) : (s.modDap f).regW w' slot' off' = s.regW w' slot' off' := State.regW_congr rfl
@[simp] theorem State.modDap_reg (s : State) (f : Dap → Dap) (slot' off' : Nat) : (s.modDap f).reg slot' off' = s.reg slot' off' := State.regW_congr rfl
@[simp] theorem State.modDap_tile (s : State) (f : Dap → Dap) (t' : TileId) : (s.modDap f).tile t' = s.tile t' := State.tile_congr (State.modDap_tiles s f)

/-- A vector's item after one was set, within its length. -/
theorem vget_vset {α : Type} {n : Nat} (v : Vector α n) (i j : Nat) (x d : α) (h : i < n) :
    vget (vset v i x) j d = if j = i then x else vget v j d := by
  rcases v with ⟨v, rfl⟩
  simp only [vget, vset, Vector.getD, Vector.setIfInBounds, Array.getD_eq_getD_getElem?, Array.getElem?_setIfInBounds]
  by_cases hj : j = i
  · subst hj; simp [h]
  · rw [if_neg hj, if_neg (fun e => hj e.symm)]

/-- The tile that was set reads as set. -/
@[simp] theorem State.tile_setTile (s : State) (t : TileId) (x : Tile) : (s.setTile t x).tile t = x := by
  simp only [State.tile, State.setTile]; rw [vget_vset _ _ _ _ _ t.isLt, if_pos rfl]
/-- Every other tile reads as before. -/
theorem State.tile_setTile_ne (s : State) (t u : TileId) (x : Tile) (h : u ≠ t) : (s.setTile t x).tile u = s.tile u := by
  simp only [State.tile, State.setTile]; rw [vget_vset _ _ _ _ _ t.isLt, if_neg (fun e => h (BitVec.eq_of_toNat_eq e))]
/-- The tile that was changed reads as changed. -/
@[simp] theorem State.tile_modTile (s : State) (t : TileId) (f : Tile → Tile) : (s.modTile t f).tile t = f (s.tile t) := s.tile_setTile t _
/-- Every other tile reads as before. -/
theorem State.tile_modTile_ne (s : State) (t u : TileId) (f : Tile → Tile) (h : u ≠ t) : (s.modTile t f).tile u = s.tile u :=
  s.tile_setTile_ne t u _ h

/-- Keys of registers differ where the registers differ. -/
theorem regKey_inj {w w' : World} {a a' o o' : Nat} (ha : a < 0x1000) (ha' : a' < 0x1000) (ho : o < 0x10000) (ho' : o' < 0x10000) :
    regKey w a o = regKey w' a' o' ↔ w = w' ∧ a = a' ∧ o = o' := by
  simp only [regKey]
  cases w <;> cases w' <;> simp [World.idx] <;> omega

/-- A register that was written reads as written. -/
@[simp] theorem State.regW_setRegW_self (s : State) (w : World) (a o : Nat) (v : Word) : (s.setRegW w a o v).regW w a o = v := by
  simp [State.regW, State.setRegW, Sparse.get_write]
/-- What a register reads as after a write of one. -/
theorem State.regW_setRegW (s : State) (w w' : World) {a a' o o' : Nat} (v : Word) (ha : a < 0x1000) (ha' : a' < 0x1000) (ho : o < 0x10000)
    (ho' : o' < 0x10000) : (s.setRegW w a o v).regW w' a' o' = if w' = w ∧ a' = a ∧ o' = o then v else s.regW w' a' o' := by
  simp only [State.regW, State.setRegW]
  by_cases h : w' = w ∧ a' = a ∧ o' = o
  · obtain ⟨rfl, rfl, rfl⟩ := h; simp [Sparse.get_write]
  · have hk : regKey w' a' o' ≠ regKey w a o := fun e => h ((regKey_inj ha' ha ho' ho).mp e)
    rw [if_neg h]
    have := Sparse.get_erase (keyReset (regKey w' a' o')) (regKey w a o) (regKey w' a' o') s.regs
    have h2 := Sparse.get_put (keyReset (regKey w' a' o')) (regKey w a o) (regKey w' a' o') v s.regs
    rw [if_neg hk] at this h2
    simp only [Sparse.write]; split <;> assumption
/-- A register that was written reads as written. -/
@[simp] theorem State.reg_setReg_self (s : State) (a o : Nat) (v : Word) : (s.setReg a o v).reg a o = v := s.regW_setRegW_self .trade a o v
/-- A register that was changed reads as changed. -/
@[simp] theorem State.reg_modReg_self (s : State) (a o : Nat) (f : Word → Word) : (s.modReg a o f).reg a o = f (s.reg a o) :=
  s.reg_setReg_self a o _
/-- What a register reads as after a write of one. -/
theorem State.reg_setReg (s : State) {a a' o o' : Nat} (v : Word) (ha : a < 0x1000) (ha' : a' < 0x1000) (ho : o < 0x10000) (ho' : o' < 0x10000) :
    (s.setReg a o v).reg a' o' = if a' = a ∧ o' = o then v else s.reg a' o' := by
  simp [State.reg, State.setReg, State.regW_setRegW _ _ _ _ ha ha' ho ho']
/-- What a register reads as after a change of one. -/
theorem State.reg_modReg (s : State) {a a' o o' : Nat} (f : Word → Word) (ha : a < 0x1000) (ha' : a' < 0x1000) (ho : o < 0x10000) (ho' : o' < 0x10000) :
    (s.modReg a o f).reg a' o' = if a' = a ∧ o' = o then f (s.reg a o) else s.reg a' o' := State.reg_setReg s _ ha ha' ho ho'
/-- What either world's copy of a register reads as after a write of one. -/
theorem State.regW_setReg (s : State) (w' : World) {a a' o o' : Nat} (v : Word) (ha : a < 0x1000) (ha' : a' < 0x1000) (ho : o < 0x10000)
    (ho' : o' < 0x10000) : (s.setReg a o v).regW w' a' o' = if w' = .trade ∧ a' = a ∧ o' = o then v else s.regW w' a' o' :=
  State.regW_setRegW s _ _ v ha ha' ho ho'

end Sys2Proof.Machine
end

