-- ==== Sys2Proof/Laws/Bus.lean ====
section
/-!
SUPPORT. Laws/Bus.lean: where a register write that its gate admits goes, slot by slot.
-/
namespace Sys2Proof.Machine

/-- A completed access to a slot on the logic side leaves the causeway alone. -/
theorem State.cwSeen_logic (s : State) (slot : Nat) (h : behindCauseway slot = false) : s.cwSeen slot = s := by
  simp [State.cwSeen, h]

@[simp] theorem State.done_pending (s : State) : s.done.pending = s.pending := rfl
@[simp] theorem State.done_now (s : State) : s.done.now = s.now := rfl
@[simp] theorem State.done_seq (s : State) : s.done.seq = s.seq := rfl
@[simp] theorem State.done_free (s : State) : s.done.free = s.free := rfl
@[simp] theorem State.done_regs (s : State) : s.done.regs = s.regs := rfl
@[simp] theorem State.done_mem (s : State) : s.done.mem = s.mem := rfl
@[simp] theorem State.done_irq (s : State) : s.done.irq = s.irq := rfl
@[simp] theorem State.done_sweep (s : State) : s.done.sweep = s.sweep := rfl
@[simp] theorem State.done_upsets (s : State) : s.done.upsets = s.upsets := rfl
@[simp] theorem State.done_store (s : State) : s.done.store = s.store := rfl
@[simp] theorem State.done_ptp (s : State) : s.done.ptp = s.ptp := rfl
@[simp] theorem State.done_errCount (s : State) : s.done.errCount = s.errCount := rfl
@[simp] theorem State.done_errRows (s : State) : s.done.errRows = s.errRows := rfl
@[simp] theorem State.done_dict (s : State) : s.done.dict = s.dict := rfl
@[simp] theorem State.done_dev (s : State) : s.done.dev = s.dev := rfl
@[simp] theorem State.done_out (s : State) : s.done.out = s.out := rfl
@[simp] theorem State.done_lanes (s : State) : s.done.lanes = s.lanes := rfl
@[simp] theorem State.done_bb (s : State) : s.done.bb = s.bb := rfl
@[simp] theorem State.done_tb (s : State) : s.done.tb = s.tb := rfl
@[simp] theorem State.done_usb (s : State) : s.done.usb = s.usb := rfl
@[simp] theorem State.done_sealEng (s : State) : s.done.sealEng = s.sealEng := rfl
@[simp] theorem State.done_bus (s : State) : s.done.bus = s.bus := rfl
@[simp] theorem State.done_ledger (s : State) : s.done.ledger = s.ledger := rfl
@[simp] theorem State.done_rtc (s : State) : s.done.rtc = s.rtc := rfl
@[simp] theorem State.done_pdc (s : State) : s.done.pdc = s.pdc := rfl
@[simp] theorem State.done_job (s : State) : s.done.job = s.job := rfl
@[simp] theorem State.done_boot (s : State) : s.done.boot = s.boot := rfl
@[simp] theorem State.done_dap (s : State) : s.done.dap = s.dap := rfl
@[simp] theorem State.done_tiles (s : State) : s.done.tiles = s.tiles := rfl
@[simp] theorem State.done_resp (s : State) : s.done.resp = some (.ok 0) := rfl
@[simp] theorem State.done_regW (s : State) (w : World) (slot off : Nat) : s.done.regW w slot off = s.regW w slot off := rfl
@[simp] theorem State.done_reg (s : State) (slot off : Nat) : s.done.reg slot off = s.reg slot off := rfl
@[simp] theorem State.done_tile (s : State) (t : TileId) : s.done.tile t = s.tile t := rfl

/-- Two changes in turn change what either changes. -/
theorem State.onlyIn_trans {s t r : State} {l m n : List Part} (h1 : s.onlyIn t l) (h2 : t.onlyIn r m) (hl : l ⊆ n) (hm : m ⊆ n) : s.onlyIn r n := by
  intro p hp
  have a1 := h1 p (fun h => hp (hl h))
  have a2 := h2 p (fun h => hp (hm h))
  cases p <;> exact a2.trans a1

/-- A list that names more parts is no stronger. -/
theorem State.onlyIn_mono {s t : State} {l n : List Part} (h : s.onlyIn t l) (hl : l ⊆ n) : s.onlyIn t n := fun p hp => h p (fun m => hp (hl m))

/-- Two changes of registers in turn. -/
theorem State.regsBut_trans {s t r : State} {l m n : List (Nat × Nat)} (h1 : s.regsBut t l) (h2 : t.regsBut r m) (hl : l ⊆ n) (hm : m ⊆ n) :
    s.regsBut r n := fun w a o ha ho hn => (h2 w a o ha ho (fun h => hn (hm h))).trans (h1 w a o ha ho (fun h => hn (hl h)))

/-- Registers that agree but for a list still do where the register file is the same. -/
theorem State.regsBut_congr {s t t' : State} {l : List (Nat × Nat)} (h : s.regsBut t l) (e : t'.regs = t.regs) : s.regsBut t' l :=
  fun w slot off hs ho hn => (State.regW_congr e).trans (h w slot off hs ho hn)

/-- Equal register files agree on every register. -/
theorem State.regsBut_of_eq {s t : State} (l : List (Nat × Nat)) (e : t.regs = s.regs) : s.regsBut t l :=
  fun _ _ _ _ _ _ => State.regW_congr e

/-- Setting a register of the list keeps the rest. -/
theorem State.regsBut_setRegW {s t : State} {l : List (Nat × Nat)} (h : s.regsBut t l) {w : World} {a o : Nat} (v : Word) (ha : a < 0x1000)
    (ho : o < 0x10000) (hm : (a, o) ∈ l) : s.regsBut (t.setRegW w a o v) l := by
  intro w' slot off hs hoff hn
  rw [State.regW_setRegW t w w' v ha hs ho hoff, if_neg (by rintro ⟨-, rfl, rfl⟩; exact hn hm)]
  exact h w' slot off hs hoff hn

/-- Setting a register of the list keeps the rest. -/
theorem State.regsBut_setReg {s t : State} {l : List (Nat × Nat)} (h : s.regsBut t l) {a o : Nat} (v : Word) (ha : a < 0x1000)
    (ho : o < 0x10000) (hm : (a, o) ∈ l) : s.regsBut (t.setReg a o v) l := State.regsBut_setRegW h v ha ho hm

/-- The tile whose flow was changed. -/
@[simp] theorem State.tile_modFlow (s : State) (t : TileId) (f : Flow → Flow) : (s.modFlow t f).tile t = (s.tile t).modFlow f := s.tile_modTile t _
/-- Every other tile reads as before. -/
theorem State.tile_modFlow_ne (s : State) (t u : TileId) (f : Flow → Flow) (h : u ≠ t) : (s.modFlow t f).tile u = s.tile u :=
  s.tile_modTile_ne t u _ h

/-- A tile after every tile was changed. -/
@[simp] theorem State.tile_mapTiles (s : State) (f : Tile → Tile) (u : TileId) : (s.mapTiles f).tile u = f (s.tile u) := by
  have hu : u.toNat < 16 := u.isLt
  simp [State.tile, State.mapTiles, vget, Vector.getD, Array.getD, hu]

/-- A write by the access codes of a register whose ones clear nothing and that the worlds share (R8). -/
theorem State.plainWrite_takes (s : State) (w : World) (slot off : Nat) (v : Word) {r : RegRow} (hf : findReg slot off = some r)
    (hc : r.w1c = 0) (hb : r.banked = false) : s.plainWrite w slot off v = s.takeBits slot off r.rw v := by
  have ha : ∀ x : Word, x &&& 4294967295#32 = x := fun x => BitVec.and_allOnes (x := x)
  simp [State.plainWrite, hf, hb, RegRow.written, hc, State.takeBits, State.setReg, State.reg, ha]

/-- A register of a state put together from parts is read from the part that holds the registers. -/
@[simp] theorem State.regW_mk (s : State) (x0 : List Instr) (x1 : Nat) (x2 : Nat) (x3 : Nat) (x4 : Option BusRes) (x6 : Mem) (x7 : Irq) (x8 : Sweep) (x9 : List LedgerMsg) (x10 : CtxStore) (x11 : Nat) (x12 : Word) (x13 : List ErrRow) (x14 : Dict) (x15 : Dev) (x16 : List OutMsg) (x17 : Vector Lane 16) (x18 : Backbone) (x19 : TimeBlk) (x20 : Vector Usb 2) (x21 : Seal) (x22 : BusDie) (x23 : Ledger) (x24 : Rtc) (x25 : Pdc) (x26 : StoreJob) (x27 : Boot) (x28 : Dap) (x29 : Vector Tile 16) (w : World) (a o : Nat) :
    (State.mk x0 x1 x2 x3 x4 s.regs x6 x7 x8 x9 x10 x11 x12 x13 x14 x15 x16 x17 x18 x19 x20 x21 x22 x23 x24 x25 x26 x27 x28 x29).regW w a o = s.regW w a o := State.regW_congr rfl
/-- The same, of a register the worlds share. -/
@[simp] theorem State.reg_mk (s : State) (x0 : List Instr) (x1 : Nat) (x2 : Nat) (x3 : Nat) (x4 : Option BusRes) (x6 : Mem) (x7 : Irq) (x8 : Sweep) (x9 : List LedgerMsg) (x10 : CtxStore) (x11 : Nat) (x12 : Word) (x13 : List ErrRow) (x14 : Dict) (x15 : Dev) (x16 : List OutMsg) (x17 : Vector Lane 16) (x18 : Backbone) (x19 : TimeBlk) (x20 : Vector Usb 2) (x21 : Seal) (x22 : BusDie) (x23 : Ledger) (x24 : Rtc) (x25 : Pdc) (x26 : StoreJob) (x27 : Boot) (x28 : Dap) (x29 : Vector Tile 16) (a o : Nat) :
    (State.mk x0 x1 x2 x3 x4 s.regs x6 x7 x8 x9 x10 x11 x12 x13 x14 x15 x16 x17 x18 x19 x20 x21 x22 x23 x24 x25 x26 x27 x28 x29).reg a o = s.reg a o := State.regW_congr rfl
/-- A tile of a state put together from parts. -/
@[simp] theorem State.tile_mk (s : State) (x0 : List Instr) (x1 : Nat) (x2 : Nat) (x3 : Nat) (x4 : Option BusRes) (x5 : List (Nat × Word)) (x6 : Mem) (x7 : Irq) (x8 : Sweep) (x9 : List LedgerMsg) (x10 : CtxStore) (x11 : Nat) (x12 : Word) (x13 : List ErrRow) (x14 : Dict) (x15 : Dev) (x16 : List OutMsg) (x17 : Vector Lane 16) (x18 : Backbone) (x19 : TimeBlk) (x20 : Vector Usb 2) (x21 : Seal) (x22 : BusDie) (x23 : Ledger) (x24 : Rtc) (x25 : Pdc) (x26 : StoreJob) (x27 : Boot) (x28 : Dap) (u : TileId) :
    (State.mk x0 x1 x2 x3 x4 x5 x6 x7 x8 x9 x10 x11 x12 x13 x14 x15 x16 x17 x18 x19 x20 x21 x22 x23 x24 x25 x26 x27 x28 s.tiles).tile u = s.tile u := State.tile_congr rfl

/-- Equal states are equal answers. -/
theorem next_of_eq {a b : State} (h : a = b) : (Host.Outcome.next a : Host.Outcome State Fault Refusal) = .next b := by rw [h]

/-- A register write that is admitted is made by its block, and its answer shown. -/
theorem State.regWrite_admits (s : State) (q : Req) (slot off : Nat) (v : Word) (h : s.admits q slot off) (ha : off % 4 = 0) :
    s.regWrite q slot off v =
      { ((s.cwSeen slot).slotWrite q slot off v).1 with resp := some ((s.cwSeen slot).slotWrite q slot off v).2 } := by
  obtain ⟨h1, h2, h3⟩ := h
  simp [State.regWrite, State.busWrite, h1, h2, h3, ha]

/-- A write that is admitted and that its block answers without an error leaves what the block leaves. -/
theorem State.regWrite_done {s s' : State} {q : Req} {slot off : Nat} {v : Word} (h : s.admits q slot off) (ha : off % 4 = 0)
    (hw : (s.cwSeen slot).slotWrite q slot off v = (s', .ok 0)) : s.regWrite q slot off v = s'.done := by
  rw [State.regWrite_admits s q slot off v h ha, hw]; rfl

/-- A register write that its gate refuses is counted and answered with the refusal, and nothing else happens. -/
theorem State.regWrite_refused (s : State) (q : Req) (slot off : Nat) (v : Word) (c : Code) (hb : s.bridgeDown = false)
    (h : s.gateDecide q slot off true = some c) : s.regWrite q slot off v = { s.countRefused slot with resp := some (.err c) } := by
  simp [State.regWrite, State.busWrite, hb, h]

/-- Slot 0x000 holds the gates. -/
theorem State.slotWrite_gate (s : State) (q : Req) (off : Nat) (v : Word) (ho : 0x1000 ≤ off) :
    s.slotWrite q 0 off v = (if off < 0x9000 then s.gateWrite q ((off - 0x1000) / 8) (off / 4 % 2 == 1) v else (s, .ok 0)) := by
  have h1 : ¬ off < 0x1000 := by omega
  simp [State.slotWrite, within, h1]

/-- Slot 0x001 is the colour controller. -/
theorem State.slotWrite_colour (s : State) (q : Req) (off : Nat) (v : Word) (ho : 0x1000 ≤ off) :
    s.slotWrite q 0x001 off v = s.colourWrite q off v := by
  have h1 : ¬ off < 0x1000 := by omega
  simp [State.slotWrite, within, h1]

/-- Slots 0x002 to 0x005 are the master-side units. -/
theorem State.slotWrite_master (s : State) (q : Req) (u : Nat) (off : Nat) (v : Word) (hu : u < 4) (ho : 0x1000 ≤ off) :
    s.slotWrite q (2 + u) off v = s.masterWrite q u off v := by
  have h1 : ¬ off < 0x1000 := by omega
  have hc : u = 0 ∨ u = 1 ∨ u = 2 ∨ u = 3 := by omega
  rcases hc with rfl | rfl | rfl | rfl
  all_goals simp [State.slotWrite, within, h1]

/-- Slot 0x008 holds the source configuration. -/
theorem State.slotWrite_scfg (s : State) (q : Req) (off : Nat) (v : Word) (ho : 0x1000 ≤ off) :
    s.slotWrite q 0x008 off v = (if off < 0x1800 then (s.irqWrite q 0x008 off v).1.mirrorScfg ((off - 0x1000) / 4) else (s.irqWrite q 0x008 off v).1, (s.irqWrite q 0x008 off v).2) := by
  have h1 : ¬ off < 0x1000 := by omega
  simp [State.slotWrite, within, h1]

/-- Slot 0x009 holds pending and enable words. -/
theorem State.slotWrite_irq9 (s : State) (q : Req) (off : Nat) (v : Word) (ho : 0x1000 ≤ off) :
    s.slotWrite q 0x009 off v = s.irqWrite q 0x009 off v := by
  have h1 : ¬ off < 0x1000 := by omega
  simp [State.slotWrite, within, h1]

/-- Slot 0x00A holds the delivery holds. -/
theorem State.slotWrite_irqA (s : State) (q : Req) (off : Nat) (v : Word) (ho : 0x1000 ≤ off) :
    s.slotWrite q 0x00A off v = s.irqWrite q 0x00A off v := by
  have h1 : ¬ off < 0x1000 := by omega
  simp [State.slotWrite, within, h1]

/-- Slot 0x00C holds the timers. -/
theorem State.slotWrite_timer (s : State) (q : Req) (off : Nat) (v : Word) (ho : 0x1000 ≤ off) :
    s.slotWrite q 0x00C off v = s.timerWrite q off v := by
  have h1 : ¬ off < 0x1000 := by omega
  simp [State.slotWrite, within, h1]

/-- Slot 0x00D holds resets, boot and the Trade watchdog. -/
theorem State.slotWrite_boot (s : State) (q : Req) (off : Nat) (v : Word) (ho : 0x1000 ≤ off) :
    s.slotWrite q 0x00D off v = s.bootWrite q 0x00D off v := by
  have h1 : ¬ off < 0x1000 := by omega
  simp [State.slotWrite, within, h1]

/-- Slot 0x00E holds the Open watchdog. -/
theorem State.slotWrite_wdo (s : State) (q : Req) (off : Nat) (v : Word) (ho : 0x1000 ≤ off) :
    s.slotWrite q 0x00E off v = s.bootWrite q 0x00E off v := by
  have h1 : ¬ off < 0x1000 := by omega
  simp [State.slotWrite, within, h1]

/-- Slot 0x00F is the fault ledger. -/
theorem State.slotWrite_ledger (s : State) (q : Req) (off : Nat) (v : Word) (ho : 0x1000 ≤ off) :
    s.slotWrite q 0x00F off v = (s.ledgerRegWrite off v, .ok 0) := by
  have h1 : ¬ off < 0x1000 := by omega
  simp [State.slotWrite, within, h1]

/-- Slots 0x010 to 0x01F hold the tiles' registers. -/
theorem State.slotWrite_tile (s : State) (q : Req) (t : TileId) (off : Nat) (v : Word) (ho : 0x1000 ≤ off) :
    s.slotWrite q (tileSlot t) off v =
      if off = 0x1000 then (s.tdvfsWrite t v, .ok 0) else if off = 0x1004 then s.tfloorWrite q t v else s.xlateWrite q t off v := by
  have h1 : ¬ off < 0x1000 := by omega
  have ht := t.isLt
  have hn : BitVec.ofNat 4 (0x010 + t.toNat - 0x010) = t := by
    apply BitVec.eq_of_toNat_eq; simp
  unfold State.slotWrite tileSlot
  dsimp only
  rw [hn, if_neg (by simp [h1])]
  generalize t.toNat = n at ht hn ⊢
  have hc : n = 0 ∨ n = 1 ∨ n = 2 ∨ n = 3 ∨ n = 4 ∨ n = 5 ∨ n = 6 ∨ n = 7 ∨ n = 8 ∨ n = 9 ∨ n = 10 ∨ n = 11 ∨ n = 12 ∨ n = 13 ∨ n = 14 ∨ n = 15 := by omega
  rcases hc with rfl | rfl | rfl | rfl | rfl | rfl | rfl | rfl | rfl | rfl | rfl | rfl | rfl | rfl | rfl | rfl
  all_goals simp [within]

/-- Slot 0x021 is the char sweep engine. -/
theorem State.slotWrite_sweep (s : State) (q : Req) (off : Nat) (v : Word) (ho : 0x1000 ≤ off) :
    s.slotWrite q 0x021 off v = s.sweepWrite q off v := by
  have h1 : ¬ off < 0x1000 := by omega
  simp [State.slotWrite, within, h1]

/-- Slot 0x022 holds the mesh status and TLBI. -/
theorem State.slotWrite_mesh (s : State) (q : Req) (off : Nat) (v : Word) (ho : 0x1000 ≤ off) :
    s.slotWrite q 0x022 off v = (if off = 0x1000 then (s.eventClear 0x022 off 50 v, .ok 0) else if off = 0x1800 then s.tlbi q v else (s.plainWrite q.world 0x022 off v, .ok 0)) := by
  have h1 : ¬ off < 0x1000 := by omega
  simp [State.slotWrite, within, h1]

/-- Slot 0x028 is the dictionary engine. -/
theorem State.slotWrite_dict (s : State) (q : Req) (off : Nat) (v : Word) (ho : 0x1000 ≤ off) :
    s.slotWrite q 0x028 off v = (s.dictWrite q.world off v, .ok 0) := by
  have h1 : ¬ off < 0x1000 := by omega
  simp [State.slotWrite, within, h1]

/-- Slot 0x029 is the RTC. -/
theorem State.slotWrite_rtc (s : State) (q : Req) (off : Nat) (v : Word) (ho : 0x1000 ≤ off) :
    s.slotWrite q 0x029 off v = s.rtcWrite off v := by
  have h1 : ¬ off < 0x1000 := by omega
  simp [State.slotWrite, within, h1]

/-- Slot 0x02A is the wake logic. -/
theorem State.slotWrite_wake (s : State) (q : Req) (off : Nat) (v : Word) (ho : 0x1000 ≤ off) :
    s.slotWrite q 0x02A off v = (s.wakeWrite off v, .ok 0) := by
  have h1 : ¬ off < 0x1000 := by omega
  simp [State.slotWrite, within, h1]

/-- Slot 0x02B is the power domain controller. -/
theorem State.slotWrite_pdc (s : State) (q : Req) (off : Nat) (v : Word) (ho : 0x1000 ≤ off) :
    s.slotWrite q 0x02B off v = s.pdcWrite q off v := by
  have h1 : ¬ off < 0x1000 := by omega
  simp [State.slotWrite, within, h1]

/-- Slot 0x02C is the step engine. -/
theorem State.slotWrite_step (s : State) (q : Req) (off : Nat) (v : Word) (ho : 0x1000 ≤ off) :
    s.slotWrite q 0x02C off v = (s.stepWrite q.world off v, .ok 0) := by
  have h1 : ¬ off < 0x1000 := by omega
  simp [State.slotWrite, within, h1]

/-- Slot 0x030 is the seal engine. -/
theorem State.slotWrite_seal (s : State) (q : Req) (off : Nat) (v : Word) (ho : 0x1000 ≤ off) :
    s.slotWrite q 0x030 off v = s.sealWrite off v := by
  have h1 : ¬ off < 0x1000 := by omega
  simp [State.slotWrite, within, h1]

/-- Slot 0x038 is the debug access port. -/
theorem State.slotWrite_dap (s : State) (q : Req) (off : Nat) (v : Word) (ho : 0x1000 ≤ off) :
    s.slotWrite q 0x038 off v = s.dapWrite off v := by
  have h1 : ¬ off < 0x1000 := by omega
  simp [State.slotWrite, within, h1]

/-- Slots 0x040 to 0x05F are the general DMA channels. -/
theorem State.slotWrite_chan (s : State) (q : Req) (c : Nat) (off : Nat) (v : Word) (hc : c < 32) (ho : 0x1000 ≤ off) :
    s.slotWrite q (0x040 + c) off v = s.chanWrite q c off v := by
  have h1 : ¬ off < 0x1000 := by omega
  have hc : c = 0 ∨ c = 1 ∨ c = 2 ∨ c = 3 ∨ c = 4 ∨ c = 5 ∨ c = 6 ∨ c = 7 ∨ c = 8 ∨ c = 9 ∨ c = 10 ∨ c = 11 ∨ c = 12 ∨ c = 13 ∨ c = 14 ∨ c = 15 ∨ c = 16 ∨ c = 17 ∨ c = 18 ∨ c = 19 ∨ c = 20 ∨ c = 21 ∨ c = 22 ∨ c = 23 ∨ c = 24 ∨ c = 25 ∨ c = 26 ∨ c = 27 ∨ c = 28 ∨ c = 29 ∨ c = 30 ∨ c = 31 := by omega
  rcases hc with rfl | rfl | rfl | rfl | rfl | rfl | rfl | rfl | rfl | rfl | rfl | rfl | rfl | rfl | rfl | rfl | rfl | rfl | rfl | rfl | rfl | rfl | rfl | rfl | rfl | rfl | rfl | rfl | rfl | rfl | rfl | rfl
  all_goals simp [State.slotWrite, within, h1]

/-- Slots 0x060 to 0x06F are the lane ports. -/
theorem State.slotWrite_lane (s : State) (q : Req) (p : Nat) (off : Nat) (v : Word) (hp : p < 16) (ho : 0x1000 ≤ off) :
    s.slotWrite q (0x060 + p) off v = s.laneWrite q p off v := by
  have h1 : ¬ off < 0x1000 := by omega
  have hc : p = 0 ∨ p = 1 ∨ p = 2 ∨ p = 3 ∨ p = 4 ∨ p = 5 ∨ p = 6 ∨ p = 7 ∨ p = 8 ∨ p = 9 ∨ p = 10 ∨ p = 11 ∨ p = 12 ∨ p = 13 ∨ p = 14 ∨ p = 15 := by omega
  rcases hc with rfl | rfl | rfl | rfl | rfl | rfl | rfl | rfl | rfl | rfl | rfl | rfl | rfl | rfl | rfl | rfl
  all_goals simp [State.slotWrite, within, h1]

/-- Slot 0x070 is the lane DMA. -/
theorem State.slotWrite_laneDma (s : State) (q : Req) (off : Nat) (v : Word) (ho : 0x1000 ≤ off) :
    s.slotWrite q 0x070 off v = s.laneDmaWrite q off v := by
  have h1 : ¬ off < 0x1000 := by omega
  simp [State.slotWrite, within, h1]

/-- Slot 0x078 is the backbone switch. -/
theorem State.slotWrite_switch (s : State) (q : Req) (off : Nat) (v : Word) (ho : 0x1000 ≤ off) :
    s.slotWrite q 0x078 off v = s.switchWrite q off v := by
  have h1 : ¬ off < 0x1000 := by omega
  simp [State.slotWrite, within, h1]

/-- Slots 0x079 and 0x07A are the backbone ports. -/
theorem State.slotWrite_bbPort (s : State) (q : Req) (p : Nat) (off : Nat) (v : Word) (hp : p < 2) (ho : 0x1000 ≤ off) :
    s.slotWrite q (0x079 + p) off v = (s.bbPortWrite p off v, .ok 0) := by
  have h1 : ¬ off < 0x1000 := by omega
  have hc : p = 0 ∨ p = 1 := by omega
  rcases hc with rfl | rfl
  all_goals simp [State.slotWrite, within, h1]

/-- Slot 0x07B is the time block. -/
theorem State.slotWrite_time (s : State) (q : Req) (off : Nat) (v : Word) (ho : 0x1000 ≤ off) :
    s.slotWrite q 0x07B off v = s.tbWrite off v := by
  have h1 : ¬ off < 0x1000 := by omega
  simp [State.slotWrite, within, h1]

/-- Slots 0x07C and 0x07D are the USB ports; their pages below 0x1000 are theirs too. -/
theorem State.slotWrite_usb (s : State) (q : Req) (u : Nat) (off : Nat) (v : Word) (hu : u < 2) :
    s.slotWrite q (0x07C + u) off v = s.usbWrite q u off v := by
  have hc : u = 0 ∨ u = 1 := by omega
  rcases hc with rfl | rfl
  all_goals simp [State.slotWrite, within]

/-- Slots 0x080 to 0x083 and 0x090 to 0x09F are the bus die. -/
theorem State.slotWrite_power (s : State) (q : Req) (slot : Nat) (off : Nat) (v : Word)
    (hs : (0x080 ≤ slot ∧ slot ≤ 0x083) ∨ (0x090 ≤ slot ∧ slot ≤ 0x09F)) (ho : 0x1000 ≤ off) :
    s.slotWrite q slot off v = s.powerWrite slot off v := by
  have h1 : ¬ off < 0x1000 := by omega
  have hc : slot = 128 ∨ slot = 129 ∨ slot = 130 ∨ slot = 131 ∨ slot = 144 ∨ slot = 145 ∨ slot = 146 ∨ slot = 147 ∨ slot = 148 ∨ slot = 149 ∨ slot = 150 ∨ slot = 151 ∨ slot = 152 ∨ slot = 153 ∨ slot = 154 ∨ slot = 155 ∨ slot = 156 ∨ slot = 157 ∨ slot = 158 ∨ slot = 159 := by omega
  rcases hc with rfl | rfl | rfl | rfl | rfl | rfl | rfl | rfl | rfl | rfl | rfl | rfl | rfl | rfl | rfl | rfl | rfl | rfl | rfl | rfl
  all_goals simp [State.slotWrite, within, h1]

end Sys2Proof.Machine
end

