-- ==== Sys2Proof/Laws/Crypto.lean ====
section
/-!
SUPPORT. Laws/Crypto.lean: a frame sealed under a key opens under the same key, nonce and header with its plaintext.
-/
namespace Sys2Proof.Machine

theorem xorBytes_length (a b : List Byte) : (xorBytes a b).length = min a.length b.length := by simp [xorBytes]
theorem xorBytes_xorBytes (a k : List Byte) (h : a.length ≤ k.length) : xorBytes (xorBytes a k) k = a := by
  induction a generalizing k with
  | nil => simp [xorBytes]
  | cons x r ih =>
    cases k with
    | nil => simp at h
    | cons y q =>
      simp only [xorBytes, List.zipWith_cons_cons] at ih ⊢
      rw [ih q (by simpa using h), BitVec.xor_assoc, BitVec.xor_self, BitVec.xor_zero]

theorem gctr_nil (ks : List (List Byte)) (n ctr : Nat) : gctr ks n ctr [] = [] := by cases n <;> rfl
theorem gctr_succ (ks : List (List Byte)) (n ctr : Nat) (b : List Byte) :
    gctr ks (n + 1) ctr b
      = xorBytes (b.take 16) (aesEncKeys ks (natBlock ctr)) ++ gctr ks n (ctr / 2 ^ 32 * 2 ^ 32 + (ctr + 1) % 2 ^ 32) (b.drop 16) := by
  cases b with
  | nil => simp [gctr, gctr_nil, xorBytes]
  | cons x r => simp [gctr]

theorem gctr_length (ks : List (List Byte)) (hk : ∀ c, (aesEncKeys ks (natBlock c)).length = 16) (n ctr : Nat) (b : List Byte) (h : b.length ≤ 16 * n) :
    (gctr ks n ctr b).length = b.length := by
  induction n generalizing ctr b with
  | zero => rw [List.length_eq_zero_iff.mp (by omega : b.length = 0), gctr_nil]
  | succ n ih =>
    rw [gctr_succ, List.length_append, xorBytes_length, hk, List.length_take, ih _ _ (by rw [List.length_drop]; omega), List.length_drop]
    omega

/-- Counter mode undoes itself. -/
theorem gctr_gctr (ks : List (List Byte)) (hk : ∀ c, (aesEncKeys ks (natBlock c)).length = 16) (n ctr : Nat) (b : List Byte) (h : b.length ≤ 16 * n) :
    gctr ks n ctr (gctr ks n ctr b) = b := by
  induction n generalizing ctr b with
  | zero => rw [List.length_eq_zero_iff.mp (by omega : b.length = 0), gctr_nil, gctr_nil]
  | succ n ih =>
    have hl : (xorBytes (b.take 16) (aesEncKeys ks (natBlock ctr))).length = min 16 b.length := by rw [xorBytes_length, hk, List.length_take]; omega
    rw [gctr_succ ks n ctr b, gctr_succ]
    by_cases hb : 16 ≤ b.length
    · rw [List.take_append_of_le_length (by omega), List.take_of_length_le (by omega), List.drop_append_of_le_length (by omega),
        List.drop_of_length_le (by omega), List.nil_append, ih _ _ (by rw [List.length_drop]; omega),
        xorBytes_xorBytes _ _ (by rw [hk, List.length_take]; omega), List.take_append_drop]
    · rw [List.drop_of_length_le (by omega : b.length ≤ 16), gctr_nil, List.append_nil, List.take_of_length_le (by omega), List.drop_of_length_le (by omega), gctr_nil,
        List.append_nil, xorBytes_xorBytes _ _ (by rw [hk, List.length_take]; omega), List.take_of_length_le (by omega)]

/-- What GCM seals under a key opens under it. -/
theorem gcmOpen_gcmSeal (key iv aad pt : List Byte) (hk : ∀ c, (aesEncKeys (roundKeys key) (natBlock c)).length = 16) :
    gcmOpen key iv aad (gcmSeal key iv aad pt).1 (gcmSeal key iv aad pt).2 = some pt := by
  have h : pt.length ≤ 16 * (pt.length / 16 + 1) := by omega
  simp only [gcmOpen, gcmSeal, List.take_length, if_true]
  rw [gctr_length _ hk _ _ _ h, gctr_gctr _ hk _ _ _ h]

/-- A cipher under round keys of which the last has sixteen bytes gives sixteen bytes. -/
theorem encRounds_length (ks : List (List Byte)) (b : List Byte) (h0 : ks ≠ []) (h : ∀ k ∈ ks, k.length = 16) : (encRounds ks b).length = 16 := by
  induction ks generalizing b with
  | nil => exact absurd rfl h0
  | cons k r ih =>
    cases r with
    | nil => simp [encRounds, xorBytes_length, shiftRows, h k (by simp)]
    | cons k2 r2 => exact ih _ (by simp) (fun x hx => h x (by simp [hx]))

theorem aesEncKeys_length (ks : List (List Byte)) (b : List Byte) (h : ∀ k ∈ ks, k.length = 16) (h2 : 2 ≤ ks.length) : (aesEncKeys ks b).length = 16 := by
  cases ks with
  | nil => simp at h2
  | cons k r => exact encRounds_length r _ (by intro e; subst e; simp at h2) (fun x hx => h x (by simp [hx]))

theorem toBytes_len (n v : Nat) : (toBytes n v).length = n := by
  induction n generalizing v with
  | zero => rfl
  | succ n ih => simp [toBytes, ih]

/-- The ciphertext is as long as the plaintext, the tag sixteen bytes long. -/
theorem gcmSeal_lengths (key iv aad pt : List Byte) (hk : ∀ c, (aesEncKeys (roundKeys key) (natBlock c)).length = 16) :
    (gcmSeal key iv aad pt).1.length = pt.length ∧ (gcmSeal key iv aad pt).2.length = 16 :=
  ⟨gctr_length _ hk _ _ _ (by omega), by
    rw [gcmSeal, gcmSeal.tagOf, xorBytes_length, hk]
    simp only [natBlock, toBytesBE, List.length_reverse, toBytes_len, Nat.min_self]⟩

theorem shaRound_length (h : List Word) (k : Word × Word) : (shaRound h k).length = h.length := by
  unfold shaRound
  split <;> rfl
theorem shaRounds_length (l : List (Word × Word)) (h : List Word) : (l.foldl shaRound h).length = h.length := by
  induction l generalizing h with
  | nil => rfl
  | cons x r ih => rw [List.foldl_cons, ih, shaRound_length]
theorem shaCompress_length (h m : List Word) : (shaCompress h m).length = h.length := by
  rw [shaCompress, List.length_zipWith, shaRounds_length, Nat.min_self]
theorem shaBlocks_length (l : List (List Word)) (h : List Word) : (l.foldl shaCompress h).length = h.length := by
  induction l generalizing h with
  | nil => rfl
  | cons x r ih => rw [List.foldl_cons, ih, shaCompress_length]
theorem flatten_four (l : List Word) : ((l.map (fun w => toBytesBE 4 w.toNat)).flatten).length = 4 * l.length := by
  induction l with
  | nil => rfl
  | cons x r ih =>
    rw [List.map_cons, List.flatten_cons, List.length_append, ih, toBytesBE, List.length_reverse, toBytes_len, List.length_cons]
    omega

/-- A SHA-256 digest has 32 bytes. -/
theorem sha256_length (b : List Byte) : (sha256 b).length = 32 := by
  rw [sha256, flatten_four, shaBlocks_length]
  rfl

end Sys2Proof.Machine
end

