-- ==== Sys2Proof/Laws/Memory.lean ====
section
/-!
SUPPORT. Laws/Memory.lean: every operation over memory keeps its canonical form; a byte reads as it was last written.
-/
namespace Sys2Proof.Machine

/-- The canonical form of memory, part by part. -/
theorem Mem.wf_iff (m : Mem) : m.wf = true ↔
    Sparse.wf (fun _ => (0 : Byte)) m.bytes = true ∧ Sparse.wf (fun _ => false) m.tags = true ∧ Sparse.wf granuleReset m.colours = true
      ∧ Sparse.wf (fun _ => false) m.damaged = true ∧ Sparse.wf (fun _ => (0 : Nat)) m.rows = true := by
  simp [Mem.wf, and_assoc]

/-- Memory at reset is canonical. -/
theorem Mem.reset_wf : Mem.reset.wf = true := by simp [Mem.wf, Mem.reset, Sparse.nil_wf]

/-- A memory that agrees with a canonical one outside its programming slots is canonical. -/
@[simp] theorem Mem.wf_progs (m : Mem) (p : Vector (Option Prog) 4) (h : m.wf = true) : ({ m with progs := p } : Mem).wf = true := h

/-- Replacing the bytes keeps the canonical form where the new bytes have it. -/
theorem Mem.wf_bytes (m : Mem) (b : List Host.Cell) (hb : Sparse.wf (fun _ => (0 : Byte)) b = true) (h : m.wf = true) :
    ({ m with bytes := b } : Mem).wf = true := by simp_all [Mem.wf_iff]
/-- Replacing the tags keeps the canonical form where the new tags have it. -/
theorem Mem.wf_tags (m : Mem) (b : List (Nat × Bool)) (hb : Sparse.wf (fun _ => false) b = true) (h : m.wf = true) :
    ({ m with tags := b } : Mem).wf = true := by simp_all [Mem.wf_iff]
/-- Replacing the colours keeps the canonical form where the new colours have it. -/
theorem Mem.wf_colours (m : Mem) (b : List (Nat × Colour)) (hb : Sparse.wf granuleReset b = true) (h : m.wf = true) :
    ({ m with colours := b } : Mem).wf = true := by simp_all [Mem.wf_iff]
/-- Replacing the damage marks keeps the canonical form where the new marks have it. -/
theorem Mem.wf_damaged (m : Mem) (b : List (Nat × Bool)) (hb : Sparse.wf (fun _ => false) b = true) (h : m.wf = true) :
    ({ m with damaged := b } : Mem).wf = true := by simp_all [Mem.wf_iff]
/-- Replacing the open rows keeps the canonical form where the new rows have it. -/
theorem Mem.wf_rows (m : Mem) (b : List (Nat × Nat)) (hb : Sparse.wf (fun _ => (0 : Nat)) b = true) (h : m.wf = true) :
    ({ m with rows := b } : Mem).wf = true := by simp_all [Mem.wf_iff]

/-- A byte written keeps the canonical form. -/
@[simp] theorem Mem.setByte_wf (m : Mem) (pa : Nat) (b : Byte) (h : m.wf = true) : (m.setByte pa b).wf = true :=
  m.wf_bytes _ (Sparse.write_wf (fun _ => 0) pa b m.bytes ((m.wf_iff).mp h).1) h

/-- A tag written keeps the canonical form. -/
@[simp] theorem Mem.setTag_wf (m : Mem) (pa : Nat) (b : Bool) (h : m.wf = true) : (m.setTag pa b).wf = true :=
  m.wf_tags _ (Sparse.write_wf (fun _ => false) (pa / 8 * 8) b m.tags ((m.wf_iff).mp h).2.1) h

/-- Bytes written keep the canonical form. -/
@[simp] theorem Mem.putBytes_wf (m : Mem) (pa : Nat) (bs : List Byte) (h : m.wf = true) : (m.putBytes pa bs).wf = true := by
  induction bs generalizing m pa with
  | nil => exact h
  | cons b r ih => exact ih _ _ (m.setByte_wf pa b h)

/-- Tags cleared keep the canonical form. -/
@[simp] theorem Mem.clearTags_wf (m : Mem) (pa n : Nat) (h : m.wf = true) : (m.clearTags pa n).wf = true :=
  m.wf_tags _ (Sparse.filter_wf _ _ m.tags ((m.wf_iff).mp h).2.1) h

/-- A granule recoloured keeps the canonical form. -/
@[simp] theorem Mem.recolour_wf (m : Mem) (g : Nat) (c : Colour) (h : m.wf = true) :
    ({ m with colours := Sparse.write (granuleReset g) g c m.colours } : Mem).wf = true :=
  m.wf_colours _ (Sparse.write_wf granuleReset g c m.colours ((m.wf_iff).mp h).2.2.1) h

/-- A damage mark set keeps the canonical form. -/
@[simp] theorem Mem.damage_wf (m : Mem) (k : Nat) (h : m.wf = true) : ({ m with damaged := Sparse.put k true m.damaged } : Mem).wf = true :=
  m.wf_damaged _ (Sparse.put_wf (fun _ => false) k true m.damaged (by decide) ((m.wf_iff).mp h).2.2.2.1) h

/-- A damage mark removed keeps the canonical form. -/
@[simp] theorem Mem.repair_wf (m : Mem) (k : Nat) (h : m.wf = true) : ({ m with damaged := Sparse.erase k m.damaged } : Mem).wf = true :=
  m.wf_damaged _ (Sparse.erase_wf _ k m.damaged ((m.wf_iff).mp h).2.2.2.1) h

/-- A row opened keeps the canonical form. -/
@[simp] theorem Mem.openRow_wf (m : Mem) (k r : Nat) (h : m.wf = true) : ({ m with rows := Sparse.write 0 k r m.rows } : Mem).wf = true :=
  m.wf_rows _ (Sparse.write_wf (fun _ => 0) k r m.rows ((m.wf_iff).mp h).2.2.2.2) h

/-- A row closed keeps the canonical form. -/
@[simp] theorem Mem.closeRow_wf (m : Mem) (k : Nat) (h : m.wf = true) : ({ m with rows := Sparse.erase k m.rows } : Mem).wf = true :=
  m.wf_rows _ (Sparse.erase_wf _ k m.rows ((m.wf_iff).mp h).2.2.2.2) h

/-- A byte outside the ROM reads as it was last written; every other byte reads as before. -/
theorem Mem.byte_setByte (m : Mem) (pa a : Nat) (b : Byte) (ha : 0x10000 ≤ a) :
    (m.setByte pa b).byte a = if a = pa then b else m.byte a := by
  have hr : ¬ a < 0x10000 := by omega
  simp only [Mem.byte, Mem.setByte, Sparse.get_write, if_neg hr]

/-- Bytes written from pa: an address among them reads its byte, any other outside the ROM reads as before. -/
theorem Mem.byte_putBytes (m : Mem) (pa a : Nat) (bs : List Byte) (ha : 0x10000 ≤ a) :
    (m.putBytes pa bs).byte a = if pa ≤ a ∧ a < pa + bs.length then (bs[a - pa]?).getD 0 else m.byte a := by
  induction bs generalizing m pa with
  | nil => simp only [Mem.putBytes, List.length_nil]; rw [if_neg (by omega)]
  | cons b r ih =>
    simp only [Mem.putBytes, ih, m.byte_setByte pa a b ha, List.length_cons]
    by_cases h1 : a = pa
    · subst h1
      rw [if_neg (by omega), if_pos (by omega)]
      simp
    · by_cases h2 : pa + 1 ≤ a ∧ a < pa + 1 + r.length
      · rw [if_pos h2, if_pos (by omega), show a - pa = (a - (pa + 1)) + 1 by omega]
        simp
      · rw [if_neg h2, if_neg h1, if_neg (by omega)]

end Sys2Proof.Machine
end

