-- ==== Sys2Proof/Laws/FrameTile.lean ====
section
/-!
SUPPORT. Laws/FrameTile.lean: the operations of the memories, interrupts, gates, contexts, translation and the tiles leave the queue of waiting commands alone and keep
the canonical form of memory; most leave memory alone altogether.
-/
namespace Sys2Proof.Machine

-- Machine/RegFile.lean

@[simp] theorem State.ite_pending (c : Prop) [Decidable c] (a b : State) : (if c then a else b).pending = if c then a.pending else b.pending := by split <;> rfl
@[simp] theorem State.ite_mem (c : Prop) [Decidable c] (a b : State) : (if c then a else b).mem = if c then a.mem else b.mem := by split <;> rfl
@[simp] theorem Mem.ite_wf (c : Prop) [Decidable c] (a b : Mem) : (if c then a else b).wf = if c then a.wf else b.wf := by split <;> rfl
@[simp] theorem State.ite_fst {α : Type} (c : Prop) [Decidable c] (a b : State × α) : (if c then a else b).1 = if c then a.1 else b.1 := by split <;> rfl
@[simp] theorem State.foldl_pending {α : Type} (f : State → α → State) (h : ∀ s a, (f s a).pending = s.pending) (l : List α) (s : State) : (l.foldl f s).pending = s.pending := by
  induction l generalizing s with
  | nil => rfl
  | cons a l ih => rw [List.foldl, ih, h]
@[simp] theorem State.foldl_mem {α : Type} (f : State → α → State) (h : ∀ s a, (f s a).mem = s.mem) (l : List α) (s : State) : (l.foldl f s).mem = s.mem := by
  induction l generalizing s with
  | nil => rfl
  | cons a l ih => rw [List.foldl, ih, h]
@[simp] theorem State.foldl_wf {α : Type} (f : State → α → State) (h : ∀ s a, s.mem.wf = true → (f s a).mem.wf = true) (l : List α) (s : State) (hs : s.mem.wf = true) : (l.foldl f s).mem.wf = true := by
  induction l generalizing s with
  | nil => exact hs
  | cons a l ih => rw [List.foldl]; exact ih _ (h _ _ hs)
@[simp] theorem State.foldl1_pending {α β : Type} (f : State × β → α → State × β) (h : ∀ p a, (f p a).1.pending = p.1.pending) (l : List α) (p : State × β) : (l.foldl f p).1.pending = p.1.pending := by
  induction l generalizing p with
  | nil => rfl
  | cons a l ih => rw [List.foldl, ih, h]
@[simp] theorem State.foldl1_mem {α β : Type} (f : State × β → α → State × β) (h : ∀ p a, (f p a).1.mem = p.1.mem) (l : List α) (p : State × β) : (l.foldl f p).1.mem = p.1.mem := by
  induction l generalizing p with
  | nil => rfl
  | cons a l ih => rw [List.foldl, ih, h]

@[simp] theorem State.setRegW_frame (s : State) (w : World) (slot off : Nat) (v : Word) : (State.setRegW s w slot off v).pending = s.pending ∧ (State.setRegW s w slot off v).mem = s.mem := by
  simp [State.setRegW]
@[simp] theorem State.setReg_frame (s : State) (slot off : Nat) (v : Word) : (State.setReg s slot off v).pending = s.pending ∧ (State.setReg s slot off v).mem = s.mem := by
  simp [State.setReg]
@[simp] theorem State.modReg_frame (s : State) (slot off : Nat) (f : Word → Word) : (State.modReg s slot off f).pending = s.pending ∧ (State.modReg s slot off f).mem = s.mem := by
  simp [State.modReg]
@[simp] theorem State.plainWrite_frame (s : State) (w : World) (slot off : Nat) (v : Word) : (State.plainWrite s w slot off v).pending = s.pending ∧ (State.plainWrite s w slot off v).mem = s.mem := by
  (unfold State.plainWrite; (repeat' split) <;> simp_all)

-- Machine/Irq.lean

@[simp] theorem State.irqEdge_frame (s : State) (i : Nat) : (State.irqEdge s i).pending = s.pending ∧ (State.irqEdge s i).mem = s.mem := by
  simp [State.irqEdge]
@[simp] theorem State.raise_frame (s : State) (i : Nat) : (State.raise s i).pending = s.pending ∧ (State.raise s i).mem = s.mem := by
  (unfold State.raise; (repeat' split) <;> simp_all)
@[simp] theorem State.setLine_frame (s : State) (i : Nat) (b : Bool) : (State.setLine s i b).pending = s.pending ∧ (State.setLine s i b).mem = s.mem := by
  simp [State.setLine]
@[simp] theorem State.ipset_frame (s : State) (w : World) (k : Nat) (v : Word) : (State.ipset s w k v).pending = s.pending ∧ (State.ipset s w k v).mem = s.mem := by
  simp [State.ipset]
@[simp] theorem State.ipclr_frame (s : State) (w : World) (k : Nat) (v : Word) : (State.ipclr s w k v).pending = s.pending ∧ (State.ipclr s w k v).mem = s.mem := by
  simp [State.ipclr]
@[simp] theorem State.ieset_frame (s : State) (w : World) (k : Nat) (v : Word) : (State.ieset s w k v).pending = s.pending ∧ (State.ieset s w k v).mem = s.mem := by
  simp [State.ieset]
@[simp] theorem State.ieclr_frame (s : State) (w : World) (k : Nat) (v : Word) : (State.ieclr s w k v).pending = s.pending ∧ (State.ieclr s w k v).mem = s.mem := by
  simp [State.ieclr]
@[simp] theorem State.iovr_frame (s : State) (w : World) (k : Nat) (v : Word) : (State.iovr s w k v).pending = s.pending ∧ (State.iovr s w k v).mem = s.mem := by
  simp [State.iovr]
@[simp] theorem State.scfgWrite_frame (s : State) (q : Req) (i : Nat) (v : Word) : (State.scfgWrite s q i v).1.pending = s.pending ∧ (State.scfgWrite s q i v).1.mem = s.mem := by
  have ha : ∀ (s : State) (i : Nat) (cur v : Word), (State.scfgWrite.apply s i cur v).pending = s.pending ∧ (State.scfgWrite.apply s i cur v).mem = s.mem := by
    intro s i cur v; simp [State.scfgWrite.apply]
  unfold State.scfgWrite; (repeat' split) <;> simp_all
@[simp] theorem State.iholdSet_frame (s : State) (w : World) (v : Word) : (State.iholdSet s w v).pending = s.pending ∧ (State.iholdSet s w v).mem = s.mem := by
  simp [State.iholdSet]
@[simp] theorem State.iholdClr_frame (s : State) (w : World) (v : Word) : (State.iholdClr s w v).pending = s.pending ∧ (State.iholdClr s w v).mem = s.mem := by
  simp [State.iholdClr]
@[simp] theorem State.irqWrite_frame (s : State) (q : Req) (slot off : Nat) (v : Word) : (State.irqWrite s q slot off v).1.pending = s.pending ∧ (State.irqWrite s q slot off v).1.mem = s.mem := by
  (unfold State.irqWrite; (repeat' split) <;> simp_all)
@[simp] theorem State.tctlWrite_frame (s : State) (q : Req) (k : Nat) (v : Word) : (State.tctlWrite s q k v).1.pending = s.pending ∧ (State.tctlWrite s q k v).1.mem = s.mem := by
  simp [State.tctlWrite]
@[simp] theorem State.tloadWrite_frame (s : State) (q : Req) (k : Nat) (v : Word) : (State.tloadWrite s q k v).1.pending = s.pending ∧ (State.tloadWrite s q k v).1.mem = s.mem := by
  simp [State.tloadWrite]
@[simp] theorem State.timerWrite_frame (s : State) (q : Req) (off : Nat) (v : Word) : (State.timerWrite s q off v).1.pending = s.pending ∧ (State.timerWrite s q off v).1.mem = s.mem := by
  (unfold State.timerWrite; (repeat' split) <;> simp_all)
@[simp] theorem State.timerExpire_frame (s : State) (k : Nat) : (State.timerExpire s k).pending = s.pending ∧ (State.timerExpire s k).mem = s.mem := by
  simp [State.timerExpire]
@[simp] theorem State.timerTick_frame (s : State) (k : Nat) : (State.timerTick s k).pending = s.pending ∧ (State.timerTick s k).mem = s.mem := by
  simp [State.timerTick]

-- Machine/Memory.lean

@[simp] theorem State.writeUnit_pending (s : State) (u : Nat) (pa : Nat) (bs : List Byte) (a : Nat) : (State.writeUnit s u pa bs a).pending = s.pending := by
  simp [State.writeUnit]
@[simp] theorem State.writeUnit_wf (s : State) (u : Nat) (pa : Nat) (bs : List Byte) (a : Nat) (hwf : s.mem.wf = true) : (State.writeUnit s u pa bs a).mem.wf = true := by
  unfold State.writeUnit; dsimp only
  split
  · exact Mem.wf_damaged _ _ (Sparse.erase_wf _ _ _ ((Mem.wf_iff _).mp hwf).2.2.2.1) (Mem.clearTags_wf _ _ _ (Mem.putBytes_wf _ _ _ hwf))
  · split
    · exact hwf
    · exact Mem.clearTags_wf _ _ _ (Mem.putBytes_wf _ _ _ hwf)
@[simp] theorem State.memWrite_pending (s : State) (pa : Nat) (bs : List Byte) : (State.memWrite s pa bs).pending = s.pending := by
  simp [State.memWrite]
@[simp] theorem State.memWrite_wf (s : State) (pa : Nat) (bs : List Byte) (hwf : s.mem.wf = true) : (State.memWrite s pa bs).mem.wf = true := by
  (unfold State.memWrite; (repeat' split) <;> simp_all)
@[simp] theorem State.capStore_pending (s : State) (pa : Nat) (c : Cap) : (State.capStore s pa c).pending = s.pending := by
  simp [State.capStore]
@[simp] theorem State.capStore_wf (s : State) (pa : Nat) (c : Cap) (hwf : s.mem.wf = true) : (State.capStore s pa c).mem.wf = true := by
  simp [State.capStore, hwf]
@[simp] theorem State.event_frame (s : State) (slot off irq : Nat) (bits : Word) : (State.event s slot off irq bits).pending = s.pending ∧ (State.event s slot off irq bits).mem = s.mem := by
  simp [State.event]
@[simp] theorem State.eventClear_frame (s : State) (slot off irq : Nat) (v : Word) : (State.eventClear s slot off irq v).pending = s.pending ∧ (State.eventClear s slot off irq v).mem = s.mem := by
  simp [State.eventClear]
@[simp] theorem State.recordMemError_frame (s : State) (pa : Nat) (ue : Bool) : (State.recordMemError s pa ue).pending = s.pending ∧ (State.recordMemError s pa ue).mem = s.mem := by
  (unfold State.recordMemError; (repeat' split) <;> simp_all)
@[simp] theorem State.report_frame (s : State) (u : Upset) : (State.report s u).pending = s.pending ∧ (State.report s u).mem = s.mem := by
  simp [State.report]
@[simp] theorem State.memError_frame (s : State) (pa : Nat) (ue : Bool) : (State.memError s pa ue).pending = s.pending ∧ (State.memError s pa ue).mem = s.mem := by
  (unfold State.memError; (repeat' split) <;> simp_all)

-- Machine/CacheOps.lean

@[simp] theorem State.setTile_frame (s : State) (t : TileId) (x : Tile) : (State.setTile s t x).pending = s.pending ∧ (State.setTile s t x).mem = s.mem := by
  simp [State.setTile]
@[simp] theorem State.modTile_frame (s : State) (t : TileId) (f : Tile → Tile) : (State.modTile s t f).pending = s.pending ∧ (State.modTile s t f).mem = s.mem := by
  simp [State.modTile]
@[simp] theorem State.mapTiles_frame (s : State) (f : Tile → Tile) : (State.mapTiles s f).pending = s.pending ∧ (State.mapTiles s f).mem = s.mem := by
  simp [State.mapTiles]
@[simp] theorem State.ownLine_frame (s : State) (t : TileId) (w : World) (pa : Nat) : (State.ownLine s t w pa).pending = s.pending ∧ (State.ownLine s t w pa).mem = s.mem := by
  simp [State.ownLine]
@[simp] theorem State.dropCopies_frame (s : State) (pa n : Nat) : (State.dropCopies s pa n).pending = s.pending ∧ (State.dropCopies s pa n).mem = s.mem := by
  simp [State.dropCopies]
@[simp] theorem State.shareLine_frame (s : State) (t : TileId) (w : World) (pa : Nat) : (State.shareLine s t w pa).pending = s.pending ∧ (State.shareLine s t w pa).mem = s.mem := by
  simp [State.shareLine]
@[simp] theorem State.fillData_frame (s : State) (t : TileId) (w : World) (pa : Nat) (own : Bool) : (State.fillData s t w pa own).pending = s.pending ∧ (State.fillData s t w pa own).mem = s.mem := by
  simp [State.fillData]
@[simp] theorem State.fillInstr_frame (s : State) (t : TileId) (w : World) (pa : Nat) : (State.fillInstr s t w pa).pending = s.pending ∧ (State.fillInstr s t w pa).mem = s.mem := by
  simp [State.fillInstr]

-- Machine/Gates.lean

@[simp] theorem State.countRefused_frame (s : State) (slot : Nat) : (State.countRefused s slot).pending = s.pending ∧ (State.countRefused s slot).mem = s.mem := by
  simp [State.countRefused]
@[simp] theorem State.gateWrite_frame (s : State) (q : Req) (n : Nat) (word1 : Bool) (v : Word) : (State.gateWrite s q n word1 v).1.pending = s.pending ∧ (State.gateWrite s q n word1 v).1.mem = s.mem := by
  simp [State.gateWrite]
theorem recolourLoop_wf (g : Nat) (old new : Colour) (n a : Nat) (m : Mem) (ch sk : Nat) (h : m.wf = true) :
    (recolourLoop g old new n a m ch sk).1.wf = true := by
  induction n generalizing a m ch sk with
  | zero => exact h
  | succ n ih =>
    unfold recolourLoop
    split
    · exact ih _ _ _ _ (Mem.recolour_wf m a new h)
    · exact ih _ _ _ _ h
@[simp] theorem State.rcGo_pending (s : State) (q : Req) : (State.rcGo s q).1.pending = s.pending := by
  simp [State.rcGo]
@[simp] theorem State.rcGo_wf (s : State) (q : Req) (hwf : s.mem.wf = true) : (State.rcGo s q).1.mem.wf = true := by
  unfold State.rcGo; dsimp only
  split
  · simpa using recolourLoop_wf _ _ _ _ _ _ _ _ hwf
  · exact hwf
@[simp] theorem State.colourWrite_pending (s : State) (q : Req) (off : Nat) (v : Word) : (State.colourWrite s q off v).1.pending = s.pending := by
  simp [State.colourWrite]
@[simp] theorem State.colourWrite_wf (s : State) (q : Req) (off : Nat) (v : Word) (hwf : s.mem.wf = true) : (State.colourWrite s q off v).1.mem.wf = true := by
  simp [State.colourWrite, hwf]
@[simp] theorem State.masterWrite_frame (s : State) (q : Req) (u off : Nat) (v : Word) : (State.masterWrite s q u off v).1.pending = s.pending ∧ (State.masterWrite s q u off v).1.mem = s.mem := by
  simp [State.masterWrite]

-- Machine/Contexts.lean

@[simp] theorem State.modStore_frame (s : State) (f : CtxStore → CtxStore) : (State.modStore s f).pending = s.pending ∧ (State.modStore s f).mem = s.mem := by
  simp [State.modStore]
@[simp] theorem State.modCtx_frame (s : State) (n : CtxId) (f : Ctx → Ctx) : (State.modCtx s n f).pending = s.pending ∧ (State.modCtx s n f).mem = s.mem := by
  (unfold State.modCtx; (repeat' split) <;> simp_all)
theorem State.fillInto_frame (s : State) (t : TileId) (n : CtxId) {rr : State} (hr : (State.fillInto s t n) = some rr) : rr.pending = s.pending ∧ rr.mem = s.mem := by
  (unfold State.fillInto at hr; dsimp only at hr; (repeat' split at hr) <;> (try simp only [Option.some.injEq, Except.ok.injEq, reduceCtorEq, Prod.ext_iff] at *) <;> (repeat cases ‹_ ∧ _›) <;> subst_vars <;> simp_all)
@[simp] theorem State.runBank_frame (s : State) (t : TileId) (b : Nat) : (State.runBank s t b).pending = s.pending ∧ (State.runBank s t b).mem = s.mem := by
  simp [State.runBank]

-- Machine/Xlate.lean

@[simp] theorem State.recordWalk_frame (s : State) (t : TileId) (code : Code) (lvl ea : Nat) : (State.recordWalk s t code lvl ea).pending = s.pending ∧ (State.recordWalk s t code lvl ea).mem = s.mem := by
  simp [State.recordWalk]
@[simp] theorem State.fillXlate_frame (s : State) (t : TileId) (va : Word) (fetch : Bool) : (State.fillXlate s t va fetch).1.pending = s.pending ∧ (State.fillXlate s t va fetch).1.mem = s.mem := by
  (unfold State.fillXlate; dsimp only; (repeat' split) <;> simp_all)
@[simp] theorem State.pageWalk_frame (s : State) (t : TileId) : (State.pageWalk s t).pending = s.pending ∧ (State.pageWalk s t).mem = s.mem := by
  (unfold State.pageWalk; (repeat' split) <;> (try simp only [Prod.ext_iff] at *) <;> (repeat cases ‹_ ∧ _›) <;> subst_vars <;> simp_all)
@[simp] theorem State.access9Now_frame (s : State) (t : TileId) (w : World) (sup : Bool) (cmr : BitVec 16) (va : Word) (k : AccKind) : (State.access9Now s t w sup cmr va k).1.pending = s.pending ∧ (State.access9Now s t w sup cmr va k).1.mem = s.mem := by
  (unfold State.access9Now; (repeat' split) <;> (try simp only [Prod.ext_iff] at *) <;> (repeat cases ‹_ ∧ _›) <;> subst_vars <;> simp_all)
@[simp] theorem State.tlbi_frame (s : State) (q : Req) (v : Word) : (State.tlbi s q v).1.pending = s.pending ∧ (State.tlbi s q v).1.mem = s.mem := by
  simp [State.tlbi]
@[simp] theorem State.xlateWrite_frame (s : State) (q : Req) (t : TileId) (off : Nat) (v : Word) : (State.xlateWrite s q t off v).1.pending = s.pending ∧ (State.xlateWrite s q t off v).1.mem = s.mem := by
  simp [State.xlateWrite]

-- Machine/DictBase.lean

@[simp] theorem State.modDict_frame (s : State) (f : Dict → Dict) : (State.modDict s f).pending = s.pending ∧ (State.modDict s f).mem = s.mem := by
  simp [State.modDict]
@[simp] theorem State.send_frame (s : State) (m : OutMsg) : (State.send s m).pending = s.pending ∧ (State.send s m).mem = s.mem := by
  simp [State.send]
@[simp] theorem State.ferryPlain_frame (s : State) (c : Carrier) (p : Peer) (node session type : Nat) (payload : List Byte) : (State.ferryPlain s c p node session type payload).pending = s.pending ∧ (State.ferryPlain s c p node session type payload).mem = s.mem := by
  simp [State.ferryPlain]
@[simp] theorem State.ferryError_frame (s : State) (c : Carrier) (p : Peer) (node fstatus type tag : Nat) : (State.ferryError s c p node fstatus type tag).pending = s.pending ∧ (State.ferryError s c p node fstatus type tag).mem = s.mem := by
  simp [State.ferryError]
@[simp] theorem State.modSess_frame (s : State) (n : Nat) (f : Session → Session) : (State.modSess s n f).pending = s.pending ∧ (State.modSess s n f).mem = s.mem := by
  simp [State.modSess]
@[simp] theorem State.ferrySend_frame (s : State) (n type : Nat) (payload : List Byte) : (State.ferrySend s n type payload).pending = s.pending ∧ (State.ferrySend s n type payload).mem = s.mem := by
  (unfold State.ferrySend; (repeat' split) <;> simp_all)
@[simp] theorem State.ferryAnswer_frame (s : State) (n tag type : Nat) (payload : List Byte) : (State.ferryAnswer s n tag type payload).pending = s.pending ∧ (State.ferryAnswer s n tag type payload).mem = s.mem := by
  simp [State.ferryAnswer]
@[simp] theorem State.ferryEvent_frame (s : State) (n subid flags key : Nat) (v : List Byte) : (State.ferryEvent s n subid flags key v).pending = s.pending ∧ (State.ferryEvent s n subid flags key v).mem = s.mem := by
  (unfold State.ferryEvent; (repeat' split) <;> simp_all)
@[simp] theorem State.notifySub_frame (s : State) (n : Nat) (b : Subn) (v : List Byte) : (State.notifySub s n b v).pending = s.pending ∧ (State.notifySub s n b v).mem = s.mem := by
  simp [State.notifySub]
@[simp] theorem State.publish_frame (s : State) (key : Nat) (v : List Byte) : (State.publish s key v).pending = s.pending ∧ (State.publish s key v).mem = s.mem := by
  simp [State.publish]
@[simp] theorem State.emberWrite_pending (s : State) (pa : Nat) (bs : List Byte) : (State.emberWrite s pa bs).pending = s.pending := by
  simp [State.emberWrite]
@[simp] theorem State.emberWrite_wf (s : State) (pa : Nat) (bs : List Byte) (hwf : s.mem.wf = true) : (State.emberWrite s pa bs).mem.wf = true := by
  simp [State.emberWrite, hwf]
@[simp] theorem State.localAnswer_pending (s : State) (w : World) (slot status : Nat) (v : List Byte) : (State.localAnswer s w slot status v).pending = s.pending := by
  simp [State.localAnswer]
@[simp] theorem State.localAnswer_wf (s : State) (w : World) (slot status : Nat) (v : List Byte) (hwf : s.mem.wf = true) : (State.localAnswer s w slot status v).mem.wf = true := by
  unfold State.localAnswer; dsimp only
  simp only [State.setRegW_frame]
  refine State.emberWrite_wf _ _ _ ?_
  split
  · exact hwf
  · split
    · exact State.emberWrite_wf _ _ _ (State.emberWrite_wf _ _ _ (State.emberWrite_wf _ _ _ hwf))
    · exact State.emberWrite_wf _ _ _ (State.emberWrite_wf _ _ _ (State.emberWrite_wf _ _ _ hwf))
@[simp] theorem State.segStart_frame (s : State) (n x tag : Nat) (key : Nat) (status : Nat) (v : List Byte) : (State.segStart s n x tag key status v).pending = s.pending ∧ (State.segStart s n x tag key status v).mem = s.mem := by
  simp [State.segStart]
@[simp] theorem State.answer_pending (s : State) (r : DReq) (status : Nat) (v : List Byte) : (State.answer s r status v).pending = s.pending := by
  (unfold State.answer; (repeat' split) <;> simp_all)
@[simp] theorem State.answer_wf (s : State) (r : DReq) (status : Nat) (v : List Byte) (hwf : s.mem.wf = true) : (State.answer s r status v).mem.wf = true := by
  (unfold State.answer; (repeat' split) <;> simp_all)
@[simp] theorem State.errRow_frame (s : State) (kind : Nat) (t : TileId) (w : World) (c : Code) (info : Word) : (State.errRow s kind t w c info).pending = s.pending ∧ (State.errRow s kind t w c info).mem = s.mem := by
  simp [State.errRow]
@[simp] theorem State.raiseNotify_frame (s : State) (i : Nat) : (State.raiseNotify s i).pending = s.pending ∧ (State.raiseNotify s i).mem = s.mem := by
  simp [State.raiseNotify]
@[simp] theorem State.notifyWorld_frame (s : State) (slot : Nat) (w : World) : (State.notifyWorld s slot w).pending = s.pending ∧ (State.notifyWorld s slot w).mem = s.mem := by
  simp [State.notifyWorld]
@[simp] theorem State.cmdNotices_frame (s : State) (i : Nat) (old new : Cmd) : (State.cmdNotices s i old new).pending = s.pending ∧ (State.cmdNotices s i old new).mem = s.mem := by
  unfold State.cmdNotices; dsimp only
  have h : ∀ (f : State → Session → State), (∀ s y, (f s y).pending = s.pending ∧ (f s y).mem = s.mem) →
      ∀ (l : List Session) (s : State), (l.foldl f s).pending = s.pending ∧ (l.foldl f s).mem = s.mem := by
    intro f hf l
    induction l with
    | nil => intro s; exact ⟨rfl, rfl⟩
    | cons a l ih => intro s; rw [List.foldl]; exact ⟨(ih _).1.trans (hf _ _).1, (ih _).2.trans (hf _ _).2⟩
  refine h _ (fun s y => ?_) _ _
  (repeat' split) <;> simp_all
@[simp] theorem State.putCmd_frame (s : State) (i : Nat) (c : Cmd) : (State.putCmd s i c).pending = s.pending ∧ (State.putCmd s i c).mem = s.mem := by
  simp [State.putCmd]
@[simp] theorem State.cmdEnd_frame (s : State) (i st reason : Nat) : (State.cmdEnd s i st reason).pending = s.pending ∧ (State.cmdEnd s i st reason).mem = s.mem := by
  simp [State.cmdEnd]
@[simp] theorem State.stepHalt_frame (s : State) (t : TileId) (w : World) : (State.stepHalt s t w).pending = s.pending ∧ (State.stepHalt s t w).mem = s.mem := by
  (unfold State.stepHalt; (repeat' split) <;> simp_all)
@[simp] theorem State.cmdsWorldReset_frame (s : State) (w : World) : (State.cmdsWorldReset s w).pending = s.pending ∧ (State.cmdsWorldReset s w).mem = s.mem := by
  simp [State.cmdsWorldReset]

-- Machine/Ops.lean

@[simp] theorem State.mcPost_frame (s : State) (t : TileId) (code : Code) (pa : Nat) : (State.mcPost s t code pa).pending = s.pending ∧ (State.mcPost s t code pa).mem = s.mem := by
  simp [State.mcPost]
@[simp] theorem State.lineBad_frame (s : State) (t : TileId) (pa : Nat) : (State.lineBad s t pa).pending = s.pending ∧ (State.lineBad s t pa).mem = s.mem := by
  simp [State.lineBad]
@[simp] theorem State.lineNow_frame (s : State) (t : TileId) (w : World) (pa : Nat) (own : Bool) : (State.lineNow s t w pa own).pending = s.pending ∧ (State.lineNow s t w pa own).mem = s.mem := by
  simp [State.lineNow]
@[simp] theorem State.reservedEvent_frame (s : State) : (State.reservedEvent s).pending = s.pending ∧ (State.reservedEvent s).mem = s.mem := by
  simp [State.reservedEvent]
@[simp] theorem State.placeError_frame (s : State) (w : World) (sup : Bool) (cmr : BitVec 16) (pa : Nat) (write : Bool) : (State.placeError s w sup cmr pa write).1.pending = s.pending ∧ (State.placeError s w sup cmr pa write).1.mem = s.mem := by
  (unfold State.placeError; (repeat' split) <;> simp_all)
@[simp] theorem State.ownLoad_frame (s : State) (t : TileId) (w : World) (sup : Bool) (cmr : BitVec 16) (auth : Cap) (a : Word) : (State.ownLoad s t w sup cmr auth a).1.pending = s.pending ∧ (State.ownLoad s t w sup cmr auth a).1.mem = s.mem := by
  (unfold State.ownLoad; (repeat' split) <;> (try simp only [Prod.ext_iff] at *) <;> (repeat cases ‹_ ∧ _›) <;> subst_vars <;> simp_all)
@[simp] theorem State.ownLoads_frame (s : State) (t : TileId) (w : World) (sup : Bool) (cmr : BitVec 16) (auth : Cap) (n : Nat) (a : Word) :
    (s.ownLoads t w sup cmr auth n a).1.pending = s.pending ∧ (s.ownLoads t w sup cmr auth n a).1.mem = s.mem := by
  induction n generalizing s a with
  | zero => exact ⟨rfl, rfl⟩
  | succ n ih =>
    have h := s.ownLoad_frame t w sup cmr auth a
    unfold State.ownLoads
    split
    · next s1 e h1 => rw [h1] at h; exact h
    · next s1 v h1 =>
      rw [h1] at h
      have k := ih s1 (a + 8)
      split
      · next s2 e h2 => rw [h2] at k; exact ⟨k.1.trans h.1, k.2.trans h.2⟩
      · next s2 r h2 => rw [h2] at k; exact ⟨k.1.trans h.1, k.2.trans h.2⟩

@[simp] theorem State.ownStoreCheck_frame (s : State) (t : TileId) (w : World) (cmr : BitVec 16) (auth : Cap) (a0 : List Cap) (a1 : Word) : (State.ownStoreCheck s t w cmr auth a0 a1).1.pending = s.pending ∧ (State.ownStoreCheck s t w cmr auth a0 a1).1.mem = s.mem := by
  induction a0 generalizing s a1 with
  | nil => exact ⟨rfl, rfl⟩
  | cons v r ih =>
    unfold State.ownStoreCheck
    split
    · exact ⟨rfl, rfl⟩
    · have h := s.access9Now_frame t w true cmr a1 .store
      split
      · next s1 c h1 => rw [h1] at h; exact h
      · next s1 x h1 =>
        rw [h1] at h
        split
        · exact h
        · have k := ih s1 (a1 + 8)
          split
          · next s2 e h2 => rw [h2] at k; exact ⟨k.1.trans h.1, k.2.trans h.2⟩
          · next s2 l h2 => rw [h2] at k; exact ⟨k.1.trans h.1, k.2.trans h.2⟩

@[simp] theorem State.ownStores_pending (s : State) (t : TileId) (w : World) (l : List (Nat × Cap)) : (s.ownStores t w l).pending = s.pending := by
  induction l generalizing s with
  | nil => rfl
  | cons x r ih => unfold State.ownStores; rw [ih, State.capStore_pending, (s.lineNow_frame t w x.1 true).1]
@[simp] theorem State.ownStores_wf (s : State) (t : TileId) (w : World) (l : List (Nat × Cap)) (hwf : s.mem.wf = true) : (s.ownStores t w l).mem.wf = true := by
  induction l generalizing s with
  | nil => exact hwf
  | cons x r ih => unfold State.ownStores; exact ih _ (State.capStore_wf _ _ _ ((s.lineNow_frame t w x.1 true).2 ▸ hwf))

@[simp] theorem State.readDesc_frame (s : State) (t : TileId) (w : World) (e : Nat) : (State.readDesc s t w e).1.pending = s.pending ∧ (State.readDesc s t w e).1.mem = s.mem := by
  (unfold State.readDesc; dsimp only; (repeat' split) <;> (try simp only [Prod.ext_iff] at *) <;> (repeat cases ‹_ ∧ _›) <;> subst_vars <;> simp_all)
@[simp] theorem State.parkResidents_frame (s : State) (t : TileId) (w : World) : (State.parkResidents s t w).pending = s.pending ∧ (State.parkResidents s t w).mem = s.mem := by
  simp [State.parkResidents]
@[simp] theorem State.resume_frame (s : State) (t : TileId) (n : CtxId) : (State.resume s t n).pending = s.pending ∧ (State.resume s t n).mem = s.mem := by
  (unfold State.resume; (repeat' split) <;> simp_all)
@[simp] theorem State.haltWorld_frame (s : State) (t : TileId) (w : World) (code : Code) (dfr : Nat) : (State.haltWorld s t w code dfr).pending = s.pending ∧ (State.haltWorld s t w code dfr).mem = s.mem := by
  (unfold State.haltWorld; dsimp only; (repeat' split) <;> simp_all)
@[simp] theorem State.doubleFault_frame (s : State) (t : TileId) (e : Entry) (dfr : Nat) : (State.doubleFault s t e dfr).pending = s.pending ∧ (State.doubleFault s t e dfr).mem = s.mem := by
  (unfold State.doubleFault; dsimp only; (repeat' split) <;> (try simp only [Prod.ext_iff] at *) <;> (repeat cases ‹_ ∧ _›) <;> subst_vars <;> simp_all)
@[simp] theorem State.enterNow_pending (s : State) (t : TileId) (e : Entry) : (s.enterNow t e).pending = s.pending := by
  have h := s.readDesc_frame t (s.tile t).world e.idx
  unfold State.enterNow; dsimp only
  split
  · next h1 => rw [h1] at h; simpa using h.1
  · next s1 d h1 =>
    rw [h1] at h
    have h1 := h.1
    split
    · simpa using h.1
    · split
      · simpa using h.1
      · split
        · next s2 x h2 =>
          have k := s1.ownStoreCheck_frame t (s.tile t).world d.mask (if !(s1.tile t).ctx.sup || d.stk then d.stack else (s1.tile t).ctx.getC 15) ((s1.tile t).ctx.frame e.cause e.faddr e.xw (s1.tile t).flow.modeSh) ((if !(s1.tile t).ctx.sup || d.stk then d.stack else (s1.tile t).ctx.getC 15).addr - 64)
          rw [h2] at k; dsimp only at k; simpa [k.1] using h1
        · next s2 x h2 =>
          have k := s1.ownStoreCheck_frame t (s.tile t).world d.mask (if !(s1.tile t).ctx.sup || d.stk then d.stack else (s1.tile t).ctx.getC 15) ((s1.tile t).ctx.frame e.cause e.faddr e.xw (s1.tile t).flow.modeSh) ((if !(s1.tile t).ctx.sup || d.stk then d.stack else (s1.tile t).ctx.getC 15).addr - 64)
          rw [h2] at k; dsimp only at k; simpa [k.1] using h1
@[simp] theorem State.enterNow_wf (s : State) (t : TileId) (e : Entry) (hwf : s.mem.wf = true) : (s.enterNow t e).mem.wf = true := by
  have h := s.readDesc_frame t (s.tile t).world e.idx
  unfold State.enterNow; dsimp only
  split
  · next s1 h1 => rw [h1] at h; have h1 : s1.mem = s.mem := h.2; simpa [h1] using hwf
  · next s1 d h1 =>
    rw [h1] at h
    have h1 : s1.mem = s.mem := h.2
    split
    · simpa [h1] using hwf
    · split
      · simpa [h1] using hwf
      · split
        · next s2 x h2 =>
          have k := s1.ownStoreCheck_frame t (s.tile t).world d.mask (if !(s1.tile t).ctx.sup || d.stk then d.stack else (s1.tile t).ctx.getC 15) ((s1.tile t).ctx.frame e.cause e.faddr e.xw (s1.tile t).flow.modeSh) ((if !(s1.tile t).ctx.sup || d.stk then d.stack else (s1.tile t).ctx.getC 15).addr - 64)
          rw [h2] at k; dsimp only at k; simpa [k.2, h1] using hwf
        · next s2 x h2 =>
          have k := s1.ownStoreCheck_frame t (s.tile t).world d.mask (if !(s1.tile t).ctx.sup || d.stk then d.stack else (s1.tile t).ctx.getC 15) ((s1.tile t).ctx.frame e.cause e.faddr e.xw (s1.tile t).flow.modeSh) ((if !(s1.tile t).ctx.sup || d.stk then d.stack else (s1.tile t).ctx.getC 15).addr - 64)
          rw [h2] at k; dsimp only at k; simp only [State.modTile_frame]; exact State.ownStores_wf _ _ _ _ (by simpa [k.2, h1] using hwf)

@[simp] theorem State.enter_pending (s : State) (t : TileId) (e : Entry) : (State.enter s t e).pending = s.pending := by
  simp [State.enter]
@[simp] theorem State.enter_wf (s : State) (t : TileId) (e : Entry) (hwf : s.mem.wf = true) : (State.enter s t e).mem.wf = true := by
  simp [State.enter, hwf]
@[simp] theorem State.takeReport_pending (s : State) (t : TileId) (e : Entry) : (State.takeReport s t e).pending = s.pending := by
  simp [State.takeReport]
@[simp] theorem State.takeReport_wf (s : State) (t : TileId) (e : Entry) (hwf : s.mem.wf = true) : (State.takeReport s t e).mem.wf = true := by
  simp [State.takeReport, hwf]
@[simp] theorem State.commitIrq_frame (s : State) (t : TileId) (w : World) (i : Nat) : (State.commitIrq s t w i).pending = s.pending ∧ (State.commitIrq s t w i).mem = s.mem := by
  simp [State.commitIrq]
@[simp] theorem State.countTstat_frame (s : State) (t : TileId) (w : World) (hi : Bool) : (State.countTstat s t w hi).pending = s.pending ∧ (State.countTstat s t w hi).mem = s.mem := by
  simp [State.countTstat]
@[simp] theorem State.readFrame_frame (s : State) (t : TileId) : (State.readFrame s t).1.pending = s.pending ∧ (State.readFrame s t).1.mem = s.mem := by
  simp [State.readFrame]
@[simp] theorem State.unlink_frame (s : State) (t : TileId) : (State.unlink s t).pending = s.pending ∧ (State.unlink s t).mem = s.mem := by
  (unfold State.unlink; (repeat' split) <;> simp_all)
theorem State.tailChain_pending (s : State) (t : TileId) (fr : List Cap) {rr : State} (hr : (State.tailChain s t fr) = some rr) : rr.pending = s.pending := by
  (unfold State.tailChain at hr; dsimp only at hr; (repeat' split at hr) <;> (try simp only [Option.some.injEq, Except.ok.injEq, reduceCtorEq, Prod.ext_iff] at *) <;> (repeat cases ‹_ ∧ _›) <;> subst_vars <;> simp_all)
theorem State.tailChain_wf (s : State) (t : TileId) (fr : List Cap) (hwf : s.mem.wf = true) {rr : State} (hr : (State.tailChain s t fr) = some rr) : rr.mem.wf = true := by
  (unfold State.tailChain at hr; dsimp only at hr; (repeat' split at hr) <;> (try simp only [Option.some.injEq, Except.ok.injEq, reduceCtorEq, Prod.ext_iff] at *) <;> (repeat cases ‹_ ∧ _›) <;> subst_vars <;> simp_all)
@[simp] theorem State.frameReturn_pending (s : State) (t : TileId) (fr : List Cap) : (s.frameReturn t fr).pending = s.pending := by
  unfold State.frameReturn; dsimp only
  split
  · next s1 h => exact State.tailChain_pending s t fr h
  · simp
@[simp] theorem State.frameReturn_wf (s : State) (t : TileId) (fr : List Cap) (hwf : s.mem.wf = true) : (s.frameReturn t fr).mem.wf = true := by
  unfold State.frameReturn; dsimp only
  split
  · next s1 h => exact State.tailChain_wf s t fr hwf h
  · simpa using hwf

-- Machine/Window.lean

@[simp] theorem State.release_frame (s : State) (n : CtxId) : (State.release s n).pending = s.pending ∧ (State.release s n).mem = s.mem := by
  (unfold State.release; (repeat' split) <;> simp_all)
theorem State.windowCtxWrite_frame (s : State) (w : World) (n : CtxId) (i : Nat) (v : Cap) (pc : Word) {rr : State} (hr : (State.windowCtxWrite s w n i v pc) = .ok rr) : rr.pending = s.pending ∧ rr.mem = s.mem := by
  (unfold State.windowCtxWrite at hr; dsimp only at hr; (repeat' split at hr) <;> (try simp only [Option.some.injEq, Except.ok.injEq, reduceCtorEq, Prod.ext_iff] at *) <;> (repeat cases ‹_ ∧ _›) <;> subst_vars <;> simp_all)
@[simp] theorem State.dropIsles_frame (s : State) (f : World × Nat → Bool) : (State.dropIsles s f).pending = s.pending ∧ (State.dropIsles s f).mem = s.mem := by
  simp [State.dropIsles]
theorem State.isleWrite_frame (s : State) (w : World) (n i : Nat) (v : Cap) (pc : Word) {rr : State} (hr : (State.isleWrite s w n i v pc) = .ok rr) : rr.pending = s.pending ∧ rr.mem = s.mem := by
  (unfold State.isleWrite at hr; dsimp only at hr; (repeat' split at hr) <;> (try simp only [Option.some.injEq, Except.ok.injEq, reduceCtorEq, Prod.ext_iff] at *) <;> (repeat cases ‹_ ∧ _›) <;> subst_vars <;> simp_all)
theorem State.isleMapWrite_frame (s : State) (w : World) (r : Nat) (v : Word) (pc : Word) {rr : State} (hr : (State.isleMapWrite s w r v pc) = .ok rr) : rr.pending = s.pending ∧ rr.mem = s.mem := by
  (unfold State.isleMapWrite at hr; dsimp only at hr; (repeat' split at hr) <;> (try simp only [Option.some.injEq, Except.ok.injEq, reduceCtorEq, Prod.ext_iff] at *) <;> (repeat cases ‹_ ∧ _›) <;> subst_vars <;> simp_all)
theorem State.windowWrite_frame (s : State) (t : TileId) (b : Word) (v : Cap) (pc : Word) {rr : State} (hr : s.windowWrite t b v pc = .ok rr) :
    rr.pending = s.pending ∧ rr.mem = s.mem := by
  unfold State.windowWrite at hr; dsimp only at hr
  split at hr
  · cases hr
  · split at hr
    · exact State.windowCtxWrite_frame _ _ _ _ _ _ hr
    · exact State.isleWrite_frame _ _ _ _ _ _ hr
    · exact State.isleMapWrite_frame _ _ _ _ _ hr
    · cases hr; split <;> simp

-- Machine/Units.lean

@[simp] theorem State.pushRes_frame (s : State) (t : TileId) (u : UnitMap) (p : Pend) : (State.pushRes s t u p).pending = s.pending ∧ (State.pushRes s t u p).mem = s.mem := by
  simp [State.pushRes]
@[simp] theorem State.bufferStore_frame (s : State) (t : TileId) (pa : Nat) (bs : List Byte) : (State.bufferStore s t pa bs).pending = s.pending ∧ (State.bufferStore s t pa bs).mem = s.mem := by
  simp [State.bufferStore]
@[simp] theorem State.tileStore_pending (s : State) (b : Bun) (a : Acc6) (n : Nat) (isCap : Bool) (v : Cap) : (State.tileStore s b a n isCap v).pending = s.pending := by
  (unfold State.tileStore; (repeat' split) <;> simp_all)
@[simp] theorem State.tileStore_wf (s : State) (b : Bun) (a : Acc6) (n : Nat) (isCap : Bool) (v : Cap) (hwf : s.mem.wf = true) : (State.tileStore s b a n isCap v).mem.wf = true := by
  (unfold State.tileStore; (repeat' split) <;> simp_all)
@[simp] theorem State.attStart_frame (s : State) (b : Bun) (d : Dst) (v : Word) : (State.attStart s b d v).pending = s.pending ∧ (State.attStart s b d v).mem = s.mem := by
  (unfold State.attStart; (repeat' split) <;> simp_all)

-- Machine/Issue.lean

@[simp] theorem State.arrive_frame (s : State) (t : TileId) : (State.arrive s t).pending = s.pending ∧ (State.arrive s t).mem = s.mem := by
  simp [State.arrive]
@[simp] theorem State.readStrait_frame (s : State) (t : TileId) (w : World) (k : Word) : (State.readStrait s t w k).1.pending = s.pending ∧ (State.readStrait s t w k).1.mem = s.mem := by
  simp [State.readStrait]
@[simp] theorem State.modCfg_frame (s : State) (b : Bun) (f : WorldCfg → WorldCfg) : (State.modCfg s b f).pending = s.pending ∧ (State.modCfg s b f).mem = s.mem := by
  simp [State.modCfg]
/-- Bringing a context into a bank touches neither the queue nor memory. -/
theorem State.bring_frame (s : State) (t : TileId) (n : CtxId) {s1 : State} {b : Nat} (h : s.bring t n = .bank s1 b) :
    s1.pending = s.pending ∧ s1.mem = s.mem := by
  unfold State.bring at h; dsimp only at h
  repeat' split at h
  all_goals first | (cases h; simp) | cases h
@[simp] theorem State.switchTo_frame (s : State) (t : TileId) (n : CtxId) : (s.switchTo t n).pending = s.pending ∧ (s.switchTo t n).mem = s.mem := by
  unfold State.switchTo
  split
  · next s1 v h => have k := s.bring_frame t n h; simpa using k
  · exact ⟨rfl, rfl⟩

@[simp] theorem State.straitCall_frame (s : State) (t : TileId) (d : Strait) : (State.straitCall s t d).pending = s.pending ∧ (State.straitCall s t d).mem = s.mem := by
  simp [State.straitCall]
@[simp] theorem State.straitReturn_frame (s : State) (t : TileId) : (State.straitReturn s t).pending = s.pending ∧ (State.straitReturn s t).mem = s.mem := by
  (unfold State.straitReturn; dsimp only; (repeat' split) <;> simp_all)
@[simp] theorem State.afterBundle_pending (s : State) (b : Bun) (a0 : After) : (State.afterBundle s b a0).pending = s.pending := by
  (unfold State.afterBundle; (repeat' split) <;> simp_all)
@[simp] theorem State.afterBundle_wf (s : State) (b : Bun) (a0 : After) (hwf : s.mem.wf = true) : (State.afterBundle s b a0).mem.wf = true := by
  (unfold State.afterBundle; (repeat' split) <;> simp_all)
/-- What a move does at the end of its bundle keeps the queue and the canonical form of memory. -/
def MoveRes.Good (r : MoveRes) : Prop :=
  (∀ s : State, (r.post s).pending = s.pending) ∧ (∀ s : State, s.mem.wf = true → (r.post s).mem.wf = true)
/-- An effect that leaves the queue and memory alone is good. -/
theorem MoveRes.good_of_frame {r : MoveRes} (h : ∀ s : State, (r.post s).pending = s.pending ∧ (r.post s).mem = s.mem) : r.Good :=
  ⟨fun s => (h s).1, fun s hs => by rw [(h s).2]; exact hs⟩
theorem MoveRes.none_good : MoveRes.none.Good := MoveRes.good_of_frame fun _ => ⟨rfl, rfl⟩
theorem MoveRes.act_good {f : State → State} (h : ∀ s : State, (f s).pending = s.pending ∧ (f s).mem = s.mem) : (MoveRes.act f).Good :=
  MoveRes.good_of_frame h
theorem State.judgeLsu_good (s : State) (b : Bun) (k : Nat) (u : Bool) (o : LsuOp) (v : Word) {r : MoveRes}
    (h : s.judgeLsu b k u o v = .ok r) : r.Good := by
  unfold State.judgeLsu at h; dsimp only at h
  split at h
  · split at h
    · cases h
    · cases h; exact ⟨fun s => State.tileStore_pending _ _ _ _ _ _, fun s hs => State.tileStore_wf _ _ _ _ _ _ hs⟩
  · split at h
    · cases h
    · cases h; refine MoveRes.good_of_frame fun s => ?_
      dsimp only
      split <;> split <;> simp
theorem State.judgeMac_good (s : State) (b : Bun) (k : Nat) (o : MacTrig) (v : Word) {r : MoveRes}
    (h : s.judgeMac b k o v = .ok r) : r.Good := by
  unfold State.judgeMac at h; dsimp only at h
  split at h
  · cases h
  · split at h
    · cases h; exact MoveRes.act_good fun s => by simp
    · cases h; exact MoveRes.good_of_frame fun s => by simp
    · cases h; exact MoveRes.good_of_frame fun s => by simp
    all_goals
      split at h
      · cases h
      · split at h
        · cases h
        · cases h; refine MoveRes.good_of_frame fun s => ?_
          dsimp only
          split <;> simp
theorem Bun.arith_good (b : Bun) (unit : ImpUnit) (um : UnitMap) (rem comp : Nat) (freezes : Bool) (val : Word) (code : Option Code)
    (flags : BitVec 5) : (b.arith unit um rem comp freezes val code flags).Good := by
  refine MoveRes.good_of_frame fun s => ?_
  unfold Bun.arith; dsimp only; split <;> simp
theorem Bun.plain_good (b : Bun) (um : UnitMap) (rem : Nat) (val : Word) : (b.plain um rem val).Good :=
  MoveRes.act_good fun s => by simp
theorem Bun.judgeCap_good (b : Bun) (o : CapOp) (v : Cap) {r : MoveRes} (h : b.judgeCap o v = .ok r) : r.Good := by
  unfold Bun.judgeCap at h
  split at h
  · cases h
  · cases h; exact MoveRes.act_good fun s => by simp
  · cases h; exact MoveRes.act_good fun s => by simp
theorem Bun.judgeCmp_good (b : Bun) (o : CmpOp) (v : Word) : (b.judgeCmp o v).Good := by
  unfold Bun.judgeCmp; dsimp only
  refine MoveRes.act_good fun s => ?_
  split <;> simp
theorem State.judgeBru_good (s : State) (b : Bun) (o : BruOp) (v : Cap) {r : MoveRes} (h : s.judgeBru b o v = .ok r) : r.Good := by
  unfold State.judgeBru at h; dsimp only at h
  repeat' split at h
  all_goals first | (cases h; exact MoveRes.good_of_frame fun s => ⟨rfl, rfl⟩) | cases h
theorem State.judgeCtl_good (s : State) (b : Bun) (p : Ctl) (v : Cap) {r : MoveRes} (h : s.judgeCtl b p v = .ok r) : r.Good := by
  unfold State.judgeCtl at h; dsimp only at h
  split at h
  · cases h
  · cases p <;> dsimp only at h
    all_goals repeat' split at h
    all_goals first | (cases h; done) | (cases h; refine MoveRes.good_of_frame fun s => ?_; simp [MoveRes.act, MoveRes.none]; done) | skip
    cases h
    refine MoveRes.act_good fun s => ?_
    split
    · next hw => exact State.windowWrite_frame _ _ _ _ _ hw
    · exact ⟨rfl, rfl⟩
theorem State.judge_good (s : State) (b : Bun) (k : Nat) (m : Move) {r : MoveRes} (h : s.judge b k m = .ok r) : r.Good := by
  unfold State.judge at h; dsimp only at h
  split at h
  · cases h
  · split at h
    all_goals first
      | exact s.judgeCtl_good b _ _ h
      | exact b.judgeCap_good _ _ h
      | exact s.judgeLsu_good b _ _ _ _ h
      | exact s.judgeBru_good b _ _ h
      | exact s.judgeMac_good b _ _ _ h
      | (cases h; exact MoveRes.none_good)
      | (cases h; exact b.arith_good _ _ _ _ _ _ _ _)
      | (cases h; exact b.plain_good _ _ _)
      | (cases h; exact b.judgeCmp_good _ _)
      | (cases h; exact MoveRes.act_good fun s => by simp)
      | skip
    all_goals first
      | (split at h <;> first | (cases h; done) | (cases h; exact MoveRes.none_good))
theorem State.judgeAll_good (s : State) (b : Bun) (l : List Move) (k : Nat) : ∀ r ∈ (s.judgeAll b k l).1, r.Good := by
  induction l generalizing k with
  | nil => intro r hr; cases hr
  | cons m l ih =>
    unfold State.judgeAll
    split
    · intro r hr; cases hr
    · next x hx =>
      intro r hr
      simp only [List.mem_cons] at hr
      rcases hr with rfl | hr
      · exact s.judge_good b k m hx
      · exact ih _ r hr
theorem settle_ok (s : State) (b : Bun) (l : List MoveRes) (e : Option Stop) {l' : List MoveRes} (h : settle s b l e = .ok l') : l' = l := by
  unfold settle at h; dsimp only at h
  repeat' split at h
  all_goals first | (cases h; done) | (cases h; rfl)
theorem State.judgeBundle_good (s : State) (b : Bun) {l : List MoveRes} (h : s.judgeBundle b = .ok l) : ∀ r ∈ l, r.Good := by
  unfold State.judgeBundle at h; dsimp only at h
  repeat' split at h
  all_goals first | (cases h; done) | skip
  have k := s.judgeAll_good b b.moves 0
  rw [settle_ok _ _ _ _ h]; exact k
theorem MoveRes.foldl_good (l : List MoveRes) (h : ∀ r ∈ l, r.Good) (s : State) :
    (l.foldl (fun s r => r.post s) s).pending = s.pending ∧ (s.mem.wf = true → (l.foldl (fun s r => r.post s) s).mem.wf = true) := by
  induction l generalizing s with
  | nil => exact ⟨rfl, id⟩
  | cons r l ih =>
    have k := ih (fun x hx => h x (List.mem_cons_of_mem _ hx)) (r.post s)
    have g := h r (List.mem_cons_self ..)
    exact ⟨k.1.trans (g.1 s), fun hs => k.2 (g.2 s hs)⟩
@[simp] theorem State.commitBundle_frame (s : State) (b : Bun) (l : List MoveRes) (h : ∀ r ∈ l, r.Good) :
    (s.commitBundle b l).pending = s.pending ∧ (s.mem.wf = true → (s.commitBundle b l).mem.wf = true) := by
  unfold State.commitBundle; dsimp only
  constructor
  · repeat' split
    all_goals simp [(MoveRes.foldl_good l h _).1]
  · intro hs
    have k := fun x => (MoveRes.foldl_good l h (s.setTile b.t x)).2 (by simpa using hs)
    repeat' split
    all_goals simp [k, State.afterBundle_wf]

@[simp] theorem State.devRun_frame (s : State) : (State.devRun s).pending = s.pending ∧ (State.devRun s).mem = s.mem := by
  simp [State.devRun]
@[simp] theorem State.idleOver_frame (s : State) : (State.idleOver s).pending = s.pending ∧ (State.idleOver s).mem = s.mem := by
  simp [State.idleOver]
@[simp] theorem State.fetchNoted_frame (s : State) (t : TileId) (x : Tile) (e : Stop) : (State.fetchNoted s t x e).pending = s.pending ∧ (State.fetchNoted s t x e).mem = s.mem := by
  (unfold State.fetchNoted; (repeat' split) <;> simp_all)
@[simp] theorem State.issue_pending (s : State) (t : TileId) : (s.issue t).pending = s.pending := by
  have hn : ∀ (s : State) (t : TileId) (x : Tile) (e : Stop), (s.fetchNoted t x e).pending = s.pending := fun s t x e => by simp
  unfold State.issue; dsimp only
  split
  · rw [hn]; split <;> simp
  · split
    · simp
    · split
      · simp
      · split <;> simp
      · next h =>
        have g := s.judgeBundle_good _ h
        rw [(State.modTile_frame _ _ _).1]; exact (State.commitBundle_frame s _ _ g).1
@[simp] theorem State.issue_wf (s : State) (t : TileId) (hwf : s.mem.wf = true) : (s.issue t).mem.wf = true := by
  have hn : ∀ (s : State) (t : TileId) (x : Tile) (e : Stop), (s.fetchNoted t x e).mem = s.mem := fun s t x e => by simp
  unfold State.issue; dsimp only
  split
  · rw [hn]; split <;> simpa using hwf
  · split
    · simpa using hwf
    · split
      · simpa using hwf
      · split <;> simpa using hwf
      · next h =>
        have g := s.judgeBundle_good _ h
        rw [(State.modTile_frame _ _ _).2]; exact (State.commitBundle_frame s _ _ g).2 hwf

-- Machine/TileEvents.lean

@[simp] theorem State.modFlow_frame (s : State) (t : TileId) (f : Flow → Flow) : (State.modFlow s t f).pending = s.pending ∧ (State.modFlow s t f).mem = s.mem := by
  simp [State.modFlow]
@[simp] theorem State.thaw_frame (s : State) (t : TileId) : (State.thaw s t).pending = s.pending ∧ (State.thaw s t).mem = s.mem := by
  simp [State.thaw]
@[simp] theorem State.fillDamaged_frame (s : State) (t : TileId) (n : CtxId) : (State.fillDamaged s t n).pending = s.pending ∧ (State.fillDamaged s t n).mem = s.mem := by
  simp [State.fillDamaged]
@[simp] theorem State.fillComplete_frame (s : State) (t : TileId) : (s.fillComplete t).pending = s.pending ∧ (s.fillComplete t).mem = s.mem := by
  unfold State.fillComplete
  split
  · split
    · split <;> simp
    · next h =>
      have k := s.bring_frame t _ h
      split <;> simpa using k
    · split
      · simp
      · split
        · exact ⟨rfl, rfl⟩
        · next h =>
          have k := s.fillInto_frame t _ h
          split <;> simpa using k
  · exact ⟨rfl, rfl⟩

@[simp] theorem State.spillComplete_frame (s : State) (t : TileId) : (State.spillComplete s t).pending = s.pending ∧ (State.spillComplete s t).mem = s.mem := by
  (unfold State.spillComplete; (repeat' split) <;> simp_all)
@[simp] theorem State.gfenceComplete_frame (s : State) (t : TileId) : (State.gfenceComplete s t).pending = s.pending ∧ (State.gfenceComplete s t).mem = s.mem := by
  (unfold State.gfenceComplete; (repeat' split) <;> simp_all)
@[simp] theorem State.mfenceComplete_frame (s : State) (t : TileId) : (State.mfenceComplete s t).pending = s.pending ∧ (State.mfenceComplete s t).mem = s.mem := by
  (unfold State.mfenceComplete; (repeat' split) <;> simp_all)
@[simp] theorem State.dwbinvComplete_frame (s : State) (t : TileId) : (State.dwbinvComplete s t).pending = s.pending ∧ (State.dwbinvComplete s t).mem = s.mem := by
  simp [State.dwbinvComplete]
@[simp] theorem State.takeFault_pending (s : State) (t : TileId) : (State.takeFault s t).pending = s.pending := by
  (unfold State.takeFault; dsimp only; (repeat' split) <;> simp_all)
@[simp] theorem State.takeFault_wf (s : State) (t : TileId) (hwf : s.mem.wf = true) : (State.takeFault s t).mem.wf = true := by
  (unfold State.takeFault; dsimp only; (repeat' split) <;> simp_all)
@[simp] theorem State.reportTake_pending (s : State) (t : TileId) : (State.reportTake s t).pending = s.pending := by
  (unfold State.reportTake; dsimp only; (repeat' split) <;> simp_all)
@[simp] theorem State.reportTake_wf (s : State) (t : TileId) (hwf : s.mem.wf = true) : (State.reportTake s t).mem.wf = true := by
  (unfold State.reportTake; dsimp only; (repeat' split) <;> simp_all)
@[simp] theorem State.preciseEnd_pending (s : State) (t : TileId) : (s.preciseEnd t).pending = s.pending := by
  unfold State.preciseEnd; split <;> simp
@[simp] theorem State.preciseEnd_wf (s : State) (t : TileId) (hwf : s.mem.wf = true) : (s.preciseEnd t).mem.wf = true := by
  unfold State.preciseEnd; split
  · exact State.issue_wf _ _ (by simpa using hwf)
  · exact hwf

@[simp] theorem State.mcTake_pending (s : State) (t : TileId) (m : FaultRec) : (State.mcTake s t m).pending = s.pending := by
  simp [State.mcTake]
@[simp] theorem State.mcTake_wf (s : State) (t : TileId) (m : FaultRec) (hwf : s.mem.wf = true) : (State.mcTake s t m).mem.wf = true := by
  simp [State.mcTake, hwf]
@[simp] theorem State.delivStart_frame (s : State) (t : TileId) (d : Delivery) : (State.delivStart s t d).pending = s.pending ∧ (State.delivStart s t d).mem = s.mem := by
  simp [State.delivStart]
@[simp] theorem State.delivAbandon_frame (s : State) (t : TileId) (d : Delivery) : (State.delivAbandon s t d).pending = s.pending ∧ (State.delivAbandon s t d).mem = s.mem := by
  simp [State.delivAbandon]
@[simp] theorem State.delivCommit_pending (s : State) (t : TileId) (d : Delivery) : (State.delivCommit s t d).pending = s.pending := by
  (unfold State.delivCommit; dsimp only; (repeat' split) <;> simp_all)
@[simp] theorem State.delivCommit_wf (s : State) (t : TileId) (d : Delivery) (hwf : s.mem.wf = true) : (State.delivCommit s t d).mem.wf = true := by
  (unfold State.delivCommit; dsimp only; (repeat' split) <;> simp_all)
@[simp] theorem State.hostSwitch_frame (s : State) (t : TileId) (n : CtxId) : (s.hostSwitch t n).1.pending = s.pending ∧ (s.hostSwitch t n).1.mem = s.mem := by
  unfold State.hostSwitch
  split
  · next h => have k := s.bring_frame t _ h; simpa using k
  · simp
  · simp

@[simp] theorem State.hostEnter_pending (s : State) (t : TileId) (w : World) (i : Nat) : (State.hostEnter s t w i).pending = s.pending := by
  (unfold State.hostEnter; (repeat' split) <;> (try simp only [Prod.ext_iff] at *) <;> (repeat cases ‹_ ∧ _›) <;> subst_vars <;> simp_all)
@[simp] theorem State.hostEnter_wf (s : State) (t : TileId) (w : World) (i : Nat) (hwf : s.mem.wf = true) : (State.hostEnter s t w i).mem.wf = true := by
  (unfold State.hostEnter; (repeat' split) <;> (try simp only [Prod.ext_iff] at *) <;> (repeat cases ‹_ ∧ _›) <;> subst_vars <;> simp_all)
@[simp] theorem State.crossStart_frame (s : State) (t : TileId) : (s.crossStart t).pending = s.pending ∧ (s.crossStart t).mem = s.mem := by
  unfold State.crossStart; dsimp only
  split
  · simp
  · simp
  · next h => have k := s.bring_frame t _ h; simpa using k

@[simp] theorem State.haltedCross_frame (s : State) (t : TileId) : (State.haltedCross s t).pending = s.pending ∧ (State.haltedCross s t).mem = s.mem := by
  (unfold State.haltedCross; dsimp only; (repeat' split) <;> simp_all)
@[simp] theorem State.idleEnter_pending (s : State) (t : TileId) : (s.idleEnter t).pending = s.pending := by
  unfold State.idleEnter; dsimp only
  split
  · rfl
  · next w m h =>
    have k := State.hostSwitch_frame (s.idleOver.modTile t (·.modSys (fun y => { y with gated := false, halted := false }))) t
      (((s.idleOver.modTile t (·.modSys (fun y => { y with gated := false, halted := false }))).tile t).hctx w)
    split
    · next s1 h1 => rw [h1] at k; simpa using k.1
    · next s1 h1 => rw [h1] at k; split <;> simpa using k.1
@[simp] theorem State.idleEnter_wf (s : State) (t : TileId) (hwf : s.mem.wf = true) : (s.idleEnter t).mem.wf = true := by
  unfold State.idleEnter; dsimp only
  split
  · exact hwf
  · next w m h =>
    have k := State.hostSwitch_frame (s.idleOver.modTile t (·.modSys (fun y => { y with gated := false, halted := false }))) t
      (((s.idleOver.modTile t (·.modSys (fun y => { y with gated := false, halted := false }))).tile t).hctx w)
    split
    · next s1 h1 => rw [h1] at k; have k2 : s1.mem = s.mem := by simpa using k.2
                    rw [k2]; exact hwf
    · next s1 h1 =>
      rw [h1] at k; have k2 : s1.mem = s.mem := by simpa using k.2
      split
      · exact State.mcTake_wf _ _ _ (by rw [k2]; exact hwf)
      · simpa [k2] using hwf

@[simp] theorem State.openRow_pending (s : State) (pa : Nat) : (s.openRow pa).pending = s.pending := by
  unfold State.openRow; split <;> rfl

@[simp] theorem State.openRow_wf (s : State) (pa : Nat) (hwf : s.mem.wf = true) : (State.openRow s pa).mem.wf = true := by
  (unfold State.openRow; (repeat' split) <;> simp_all)
@[simp] theorem State.markDamaged_pending (s : State) (pa : Nat) : (State.markDamaged s pa).pending = s.pending := by
  simp [State.markDamaged]
@[simp] theorem State.markDamaged_wf (s : State) (pa : Nat) (hwf : s.mem.wf = true) : (State.markDamaged s pa).mem.wf = true := by
  simp [State.markDamaged, hwf]
@[simp] theorem State.lineArrive_pending (s : State) (t : TileId) (err : MemErr) : (State.lineArrive s t err).pending = s.pending := by
  (unfold State.lineArrive; (repeat' split) <;> simp_all)
@[simp] theorem State.lineArrive_wf (s : State) (t : TileId) (err : MemErr) (hwf : s.mem.wf = true) : (State.lineArrive s t err).mem.wf = true := by
  (unfold State.lineArrive; (repeat' split) <;> simp_all)
@[simp] theorem State.cacheError_pending (s : State) (t : TileId) (err : MemErr) : (State.cacheError s t err).pending = s.pending := by
  (unfold State.cacheError; (repeat' split) <;> simp_all)
@[simp] theorem State.cacheError_wf (s : State) (t : TileId) (err : MemErr) (hwf : s.mem.wf = true) : (State.cacheError s t err).mem.wf = true := by
  (unfold State.cacheError; (repeat' split) <;> simp_all)
@[simp] theorem State.periphResponse_pending (s : State) (t : TileId) : (State.periphResponse s t).pending = s.pending := by
  (unfold State.periphResponse; (repeat' split) <;> simp_all)
@[simp] theorem State.periphResponse_wf (s : State) (t : TileId) (hwf : s.mem.wf = true) : (State.periphResponse s t).mem.wf = true := by
  (unfold State.periphResponse; (repeat' split) <;> simp_all)
@[simp] theorem State.dvfsPhase_frame (s : State) (t : TileId) (active : Nat) (busy : Bool) (d : Dvfs) : (State.dvfsPhase s t active busy d).pending = s.pending ∧ (State.dvfsPhase s t active busy d).mem = s.mem := by
  simp [State.dvfsPhase]
@[simp] theorem State.dvfsStart_frame (s : State) (t : TileId) : (State.dvfsStart s t).pending = s.pending ∧ (State.dvfsStart s t).mem = s.mem := by
  simp [State.dvfsStart]
@[simp] theorem State.dvfsWritten_frame (s : State) (t : TileId) : (State.dvfsWritten s t).pending = s.pending ∧ (State.dvfsWritten s t).mem = s.mem := by
  simp [State.dvfsWritten]
@[simp] theorem State.dvfsSwitchEnd_frame (s : State) (t : TileId) : (State.dvfsSwitchEnd s t).pending = s.pending ∧ (State.dvfsSwitchEnd s t).mem = s.mem := by
  (unfold State.dvfsSwitchEnd; (repeat' split) <;> simp_all)
@[simp] theorem State.dvfsRampEnd_frame (s : State) (t : TileId) : (State.dvfsRampEnd s t).pending = s.pending ∧ (State.dvfsRampEnd s t).mem = s.mem := by
  (unfold State.dvfsRampEnd; (repeat' split) <;> simp_all)
@[simp] theorem State.tdvfsWrite_frame (s : State) (t : TileId) (v : Word) : (State.tdvfsWrite s t v).pending = s.pending ∧ (State.tdvfsWrite s t v).mem = s.mem := by
  simp [State.tdvfsWrite]
@[simp] theorem State.tfloorWrite_frame (s : State) (q : Req) (t : TileId) (v : Word) : (State.tfloorWrite s q t v).1.pending = s.pending ∧ (State.tfloorWrite s q t v).1.mem = s.mem := by
  simp [State.tfloorWrite]

end Sys2Proof.Machine
end

