-- ==== Sys2Proof/Laws/FrameDict.lean ====
section
/-!
SUPPORT. Laws/FrameDict.lean: the operations of the char sweep, the dictionary and Ferry leave the queue of waiting commands alone and keep
the canonical form of memory; most leave memory alone altogether.
-/
namespace Sys2Proof.Machine

-- Machine/Sweep.lean

@[simp] theorem State.setSweep_frame (s : State) (st reason : Nat) : (State.setSweep s st reason).pending = s.pending ∧ (State.setSweep s st reason).mem = s.mem := by
  simp [State.setSweep]
@[simp] theorem State.modSweep_frame (s : State) (f : Sweep → Sweep) : (State.modSweep s f).pending = s.pending ∧ (State.modSweep s f).mem = s.mem := by
  simp [State.modSweep]
@[simp] theorem State.sweepEnd_frame (s : State) (st reason : Nat) : (State.sweepEnd s st reason).pending = s.pending ∧ (State.sweepEnd s st reason).mem = s.mem := by
  simp [State.sweepEnd]
@[simp] theorem State.sweepProgram_frame (s : State) (q : Req) (off : Nat) (v : Word) : (State.sweepProgram s q off v).1.pending = s.pending ∧ (State.sweepProgram s q off v).1.mem = s.mem := by
  simp [State.sweepProgram]
@[simp] theorem State.sweepIsles_frame (s : State) : (State.sweepIsles s).pending = s.pending ∧ (State.sweepIsles s).mem = s.mem := by
  simp [State.sweepIsles]
@[simp] theorem State.sweepStart_frame (s : State) (q : Req) : (State.sweepStart s q).pending = s.pending ∧ (State.sweepStart s q).mem = s.mem := by
  simp [State.sweepStart]
@[simp] theorem State.sweepAbort_frame (s : State) : (State.sweepAbort s).pending = s.pending ∧ (State.sweepAbort s).mem = s.mem := by
  simp [State.sweepAbort]
@[simp] theorem State.sweepWrite_frame (s : State) (q : Req) (off : Nat) (v : Word) : (State.sweepWrite s q off v).1.pending = s.pending ∧ (State.sweepWrite s q off v).1.mem = s.mem := by
  simp [State.sweepWrite]
@[simp] theorem State.sweepLine_pending (s : State) (a : SweepArea) (pa : Nat) : (State.sweepLine s a pa).pending = s.pending := by
  simp [State.sweepLine]
@[simp] theorem State.sweepLine_wf (s : State) (a : SweepArea) (pa : Nat) (hwf : s.mem.wf = true) : (State.sweepLine s a pa).mem.wf = true := by
  (unfold State.sweepLine; (repeat' split) <;> simp_all)
@[simp] theorem State.sweepLines_pending (s : State) (a : SweepArea) (a0 a1 : Nat) : (State.sweepLines s a a0 a1).1.pending = s.pending := by
  induction a0 generalizing s a1 with
  | zero => rfl
  | succ n ih =>
    unfold State.sweepLines; dsimp only
    repeat' split
    · rfl
    · rfl
    · simp
    · rfl
    · rw [ih]; simp
@[simp] theorem State.sweepLines_wf (s : State) (a : SweepArea) (a0 a1 : Nat) (hwf : s.mem.wf = true) : (State.sweepLines s a a0 a1).1.mem.wf = true := by
  induction a0 generalizing s a1 with
  | zero => exact hwf
  | succ n ih =>
    unfold State.sweepLines; dsimp only
    repeat' split
    · exact hwf
    · exact hwf
    · simpa using hwf
    · exact hwf
    · exact ih _ _ (State.sweepLine_wf _ _ _ hwf)

@[simp] theorem State.sweepStepEnd_pending (s : State) : (s.sweepStepEnd).pending = s.pending := by
  unfold State.sweepStepEnd; dsimp only
  split
  · rfl
  · split
    · rfl
    · next a lo h =>
      have k := s.sweepLines_pending a (s.stepBytes / 64) lo
      split
      · next h1 => rw [h1] at k; split <;> simpa using k
      · next h1 => rw [h1] at k; simpa using k
@[simp] theorem State.sweepStepEnd_wf (s : State) (hwf : s.mem.wf = true) : (s.sweepStepEnd).mem.wf = true := by
  unfold State.sweepStepEnd; dsimp only
  split
  · exact hwf
  · split
    · exact hwf
    · next a lo h =>
      have k := s.sweepLines_wf a (s.stepBytes / 64) lo hwf
      split
      · next h1 => rw [h1] at k; split <;> simpa using k
      · next h1 => rw [h1] at k; simpa using k

@[simp] theorem State.sweepPauseOver_frame (s : State) : (State.sweepPauseOver s).pending = s.pending ∧ (State.sweepPauseOver s).mem = s.mem := by
  (unfold State.sweepPauseOver; (repeat' split) <;> simp_all)
@[simp] theorem State.fillTest_frame (s : State) : (State.fillTest s).pending = s.pending ∧ (State.fillTest s).mem = s.mem := by
  (unfold State.fillTest; dsimp only; (repeat' split) <;> simp_all)
@[simp] theorem State.sweepDone_frame (s : State) : (State.sweepDone s).pending = s.pending ∧ (State.sweepDone s).mem = s.mem := by
  simp [State.sweepDone]

-- Machine/Dict.lean

@[simp] theorem State.setUnlock_frame (s : State) (q : DSrc) (e : Option Nat) : (State.setUnlock s q e).pending = s.pending ∧ (State.setUnlock s q e).mem = s.mem := by
  (unfold State.setUnlock; (repeat' split) <;> simp_all)
@[simp] theorem State.sessionEnd_frame (s : State) (n : Nat) : (State.sessionEnd s n).pending = s.pending ∧ (State.sessionEnd s n).mem = s.mem := by
  simp [State.sessionEnd]
@[simp] theorem State.cmdStart_frame (s : State) (i role : Nat) : (State.cmdStart s i role).1.pending = s.pending ∧ (State.cmdStart s i role).1.mem = s.mem := by
  simp [State.cmdStart]
@[simp] theorem State.cmdAbort_frame (s : State) (i : Nat) : (State.cmdAbort s i).pending = s.pending ∧ (State.cmdAbort s i).mem = s.mem := by
  (unfold State.cmdAbort; (repeat' split) <;> simp_all)
@[simp] theorem State.cmdAck_frame (s : State) (i : Nat) : (State.cmdAck s i).pending = s.pending ∧ (State.cmdAck s i).mem = s.mem := by
  simp [State.cmdAck]
@[simp] theorem State.cmdControl_frame (s : State) (i v role : Nat) : (State.cmdControl s i v role).1.pending = s.pending ∧ (State.cmdControl s i v role).1.mem = s.mem := by
  (unfold State.cmdControl; (repeat' split) <;> simp_all)
@[simp] theorem State.isleRemove_frame (s : State) (i : Nat) : (State.isleRemove s i).pending = s.pending ∧ (State.isleRemove s i).mem = s.mem := by
  simp [State.isleRemove]
@[simp] theorem State.openPermit_frame (s : State) (k : Nat) : (State.openPermit s k).pending = s.pending ∧ (State.openPermit s k).mem = s.mem := by
  simp [State.openPermit]
@[simp] theorem State.permitWrite_frame (s : State) (key : Nat) (v : List Byte) : (State.permitWrite s key v).pending = s.pending ∧ (State.permitWrite s key v).mem = s.mem := by
  simp [State.permitWrite]
@[simp] theorem State.builtinWrite_frame (s : State) (r : DReq) (e : DictDesc) (role : Nat) : (State.builtinWrite s r e role).1.pending = s.pending ∧ (State.builtinWrite s r e role).1.mem = s.mem := by
  (unfold State.builtinWrite; (repeat' split) <;> simp_all)
@[simp] theorem State.afterWrite_frame (s : State) (e : DictDesc) (old v : List Byte) : (State.afterWrite s e old v).pending = s.pending ∧ (State.afterWrite s e old v).mem = s.mem := by
  simp [State.afterWrite]
@[simp] theorem State.queueWrite_pending (s : State) (r : DReq) (e : DictDesc) (role : Nat) : (State.queueWrite s r e role).1.pending = s.pending := by
  simp [State.queueWrite]
@[simp] theorem State.queueWrite_wf (s : State) (r : DReq) (e : DictDesc) (role : Nat) (hwf : s.mem.wf = true) : (State.queueWrite s r e role).1.mem.wf = true := by
  simp [State.queueWrite, hwf]
@[simp] theorem State.noteRws_frame (s : State) (e : DictDesc) : (State.noteRws s e).pending = s.pending ∧ (State.noteRws s e).mem = s.mem := by
  simp [State.noteRws]
theorem State.wf_ite {c : Prop} [Decidable c] {a b : State} (ha : a.mem.wf = true) (hb : b.mem.wf = true) : (if c then a else b).mem.wf = true := by
  split <;> assumption
theorem State.forward_pending (s : State) (r : DReq) (e : DictDesc) (role : Nat) {rr : State × Nat} (hr : (State.forward s r e role) = some rr) : rr.1.pending = s.pending := by
  unfold State.forward at hr; dsimp only at hr
  split at hr
  · cases hr; rfl
  · simp only [Option.ite_none_left_eq_some, Option.some.injEq] at hr
    obtain ⟨-, rfl⟩ := hr
    simp
theorem State.forward_wf (s : State) (r : DReq) (e : DictDesc) (role : Nat) (hwf : s.mem.wf = true) {rr : State × Nat} (hr : (State.forward s r e role) = some rr) : rr.1.mem.wf = true := by
  unfold State.forward at hr; dsimp only at hr
  split at hr
  · cases hr; exact hwf
  · simp only [Option.ite_none_left_eq_some, Option.some.injEq] at hr
    obtain ⟨-, rfl⟩ := hr
    simp only [State.notifyWorld_frame, State.modDict_frame]
    refine State.emberWrite_wf _ _ _ ?_
    exact State.wf_ite (State.emberWrite_wf _ _ _ hwf) hwf

theorem State.tryAnswer_pending (s : State) (r : DReq) (status : Nat) (v : List Byte) {rr : State} (hr : (State.tryAnswer s r status v) = some rr) : rr.pending = s.pending := by
  (unfold State.tryAnswer at hr; (repeat' split at hr) <;> (try simp only [Option.some.injEq, Except.ok.injEq, reduceCtorEq, Prod.ext_iff] at *) <;> (repeat cases ‹_ ∧ _›) <;> subst_vars <;> simp_all)
theorem State.tryAnswer_wf (s : State) (r : DReq) (status : Nat) (v : List Byte) (hwf : s.mem.wf = true) {rr : State} (hr : (State.tryAnswer s r status v) = some rr) : rr.mem.wf = true := by
  (unfold State.tryAnswer at hr; (repeat' split at hr) <;> (try simp only [Option.some.injEq, Except.ok.injEq, reduceCtorEq, Prod.ext_iff] at *) <;> (repeat cases ‹_ ∧ _›) <;> subst_vars <;> simp_all)
@[simp] theorem State.accepted_frame (s : State) (r : DReq) (e : DictDesc) : (State.accepted s r e).pending = s.pending ∧ (State.accepted s r e).mem = s.mem := by
  unfold State.accepted; split <;> simp
theorem State.readWrite_pending (s : State) (r : DReq) (role : Nat) {rr : State} (hr : (State.readWrite s r role) = some rr) : rr.pending = s.pending := by
  unfold State.readWrite at hr; dsimp only at hr
  split at hr
  · exact State.tryAnswer_pending _ _ _ _ hr
  · split at hr
    · split at hr
      · cases hr
      · split at hr
        · split at hr
          · exact State.tryAnswer_pending _ _ _ _ hr
          · obtain ⟨p, hp, h⟩ := Option.bind_eq_some_iff.mp hr
            have k := State.forward_pending _ _ _ _ hp
            split at h <;> cases h <;> simp [k]
        · split at hr
          · cases hr; repeat' split
            all_goals simp
            all_goals repeat' split
            all_goals simp
          · obtain ⟨p, hp, h⟩ := Option.bind_eq_some_iff.mp hr
            have k := State.forward_pending _ _ _ _ hp
            cases h; split <;> simp [k]
    · exact State.tryAnswer_pending _ _ _ _ hr
theorem State.readWrite_wf (s : State) (r : DReq) (role : Nat) (hwf : s.mem.wf = true) {rr : State} (hr : (State.readWrite s r role) = some rr) : rr.mem.wf = true := by
  unfold State.readWrite at hr; dsimp only at hr
  split at hr
  · exact State.tryAnswer_wf _ _ _ _ hwf hr
  · split at hr
    · split at hr
      · cases hr
      · split at hr
        · split at hr
          · exact State.tryAnswer_wf _ _ _ _ hwf hr
          · obtain ⟨p, hp, h⟩ := Option.bind_eq_some_iff.mp hr
            have k := State.forward_wf _ _ _ _ hwf hp
            split at h <;> cases h
            · exact k
            · exact State.answer_wf _ _ _ _ hwf
        · split at hr
          · cases hr
            repeat' split
            all_goals simp [hwf]
            all_goals repeat' split
            all_goals simp [hwf]
          · obtain ⟨p, hp, h⟩ := Option.bind_eq_some_iff.mp hr
            have k := State.forward_wf _ _ _ _ hwf hp
            cases h; split
            · simpa using k
            · exact State.answer_wf _ _ _ _ k
    · exact State.tryAnswer_wf _ _ _ _ hwf hr

@[simp] theorem State.register_frame (s : State) (w : World) (b : List Byte) : (State.register s w b).1.pending = s.pending ∧ (State.register s w b).1.mem = s.mem := by
  simp [State.register]
@[simp] theorem State.unregister_frame (s : State) (w : World) (key : Nat) : (State.unregister s w key).1.pending = s.pending ∧ (State.unregister s w key).1.mem = s.mem := by
  (unfold State.unregister; (repeat' split) <;> simp_all)
@[simp] theorem State.update_frame (s : State) (w : World) (key : Nat) (v : List Byte) : (State.update s w key v).1.pending = s.pending ∧ (State.update s w key v).1.mem = s.mem := by
  (unfold State.update; (repeat' split) <;> simp_all)
@[simp] theorem State.commandReq_frame (s : State) (r : DReq) (role : Nat) : (State.commandReq s r role).1.pending = s.pending ∧ (State.commandReq s r role).1.mem = s.mem := by
  (unfold State.commandReq; dsimp only; (repeat' split) <;> simp_all)
theorem State.dictReq_pending (s : State) (r : DReq) {rr : State} (hr : (State.dictReq s r) = some rr) : rr.pending = s.pending := by
  unfold State.dictReq at hr; dsimp only at hr
  split at hr
  · cases hr; rfl
  · split at hr
    all_goals first
      | exact State.readWrite_pending _ _ _ hr
      | (cases hr; simp; done)
      | (split at hr <;> exact State.tryAnswer_pending _ _ _ _ hr)
theorem State.dictReq_wf (s : State) (r : DReq) (hwf : s.mem.wf = true) {rr : State} (hr : (State.dictReq s r) = some rr) : rr.mem.wf = true := by
  unfold State.dictReq at hr; dsimp only at hr
  split at hr
  · cases hr; exact hwf
  · split at hr
    all_goals first
      | exact State.readWrite_wf _ _ _ hwf hr
      | (cases hr; simp [hwf]; done)
      | (split at hr <;> exact State.tryAnswer_wf _ _ _ _ hwf hr)

@[simp] theorem State.submit_pending (s : State) (r : DReq) : (s.submit r).pending = s.pending := by
  unfold State.submit; dsimp only
  split
  · simp
  · cases h : s.dictReq r with
    | none => simp
    | some x => exact State.dictReq_pending _ _ h
@[simp] theorem State.submit_wf (s : State) (r : DReq) (hwf : s.mem.wf = true) : (s.submit r).mem.wf = true := by
  unfold State.submit; dsimp only
  split
  · simpa using hwf
  · cases h : s.dictReq r with
    | none => simpa using hwf
    | some x => exact State.dictReq_wf _ _ hwf h

@[simp] theorem State.resubmit_pending (s : State) : (State.resubmit s).pending = s.pending := by
  simp [State.resubmit]
@[simp] theorem State.resubmit_wf (s : State) (hwf : s.mem.wf = true) : (State.resubmit s).mem.wf = true := by
  (unfold State.resubmit; (repeat' split) <;> simp_all)
@[simp] theorem State.localRequest_pending (s : State) (w : World) (slot : Nat) : (State.localRequest s w slot).pending = s.pending := by
  simp [State.localRequest]
@[simp] theorem State.localRequest_wf (s : State) (w : World) (slot : Nat) (hwf : s.mem.wf = true) : (State.localRequest s w slot).mem.wf = true := by
  simp [State.localRequest, hwf]
@[simp] theorem State.lanePolicy_frame (s : State) (key : Nat) (v : List Byte) : (State.lanePolicy s key v).pending = s.pending ∧ (State.lanePolicy s key v).mem = s.mem := by
  simp [State.lanePolicy]
@[simp] theorem State.fwdDone_pending (s : State) (w : World) (j : Nat) : (State.fwdDone s w j).pending = s.pending := by
  (unfold State.fwdDone; dsimp only; (repeat' split) <;> simp_all)
@[simp] theorem State.fwdDone_wf (s : State) (w : World) (j : Nat) (hwf : s.mem.wf = true) : (State.fwdDone s w j).mem.wf = true := by
  (unfold State.fwdDone; dsimp only; (repeat' split) <;> simp_all)
@[simp] theorem State.ownerTimeout_pending (s : State) (w : World) (j : Nat) : (State.ownerTimeout s w j).pending = s.pending := by
  (unfold State.ownerTimeout; (repeat' split) <;> simp_all)
@[simp] theorem State.ownerTimeout_wf (s : State) (w : World) (j : Nat) (hwf : s.mem.wf = true) : (State.ownerTimeout s w j).mem.wf = true := by
  (unfold State.ownerTimeout; (repeat' split) <;> simp_all)
@[simp] theorem State.fwdStarts_frame (s : State) : (State.fwdStarts s).pending = s.pending ∧ (State.fwdStarts s).mem = s.mem := by
  simp [State.fwdStarts]
@[simp] theorem State.wqAck_frame (s : State) (w : World) : (State.wqAck s w).pending = s.pending ∧ (State.wqAck s w).mem = s.mem := by
  simp [State.wqAck]
@[simp] theorem State.unlocksExpire_frame (s : State) : (State.unlocksExpire s).pending = s.pending ∧ (State.unlocksExpire s).mem = s.mem := by
  simp [State.unlocksExpire]
@[simp] theorem State.deadlineScan_frame (s : State) (recovered : Bool) : (State.deadlineScan s recovered).pending = s.pending ∧ (State.deadlineScan s recovered).mem = s.mem := by
  simp [State.deadlineScan]
@[simp] theorem State.engineStart_frame (s : State) : (State.engineStart s).pending = s.pending ∧ (State.engineStart s).mem = s.mem := by
  simp [State.engineStart]
@[simp] theorem State.stepGrant_frame (s : State) : (State.stepGrant s).pending = s.pending ∧ (State.stepGrant s).mem = s.mem := by
  (unfold State.stepGrant; dsimp only; (repeat' split) <;> simp_all)
@[simp] theorem State.stepN_frame (s : State) (w : World) (v : Word) : (State.stepN s w v).pending = s.pending ∧ (State.stepN s w v).mem = s.mem := by
  (unfold State.stepN; (repeat' split) <;> simp_all)
@[simp] theorem State.stepCount_frame (s : State) (w : World) (elapsed : Nat) : (State.stepCount s w elapsed).pending = s.pending ∧ (State.stepCount s w elapsed).mem = s.mem := by
  simp [State.stepCount]
@[simp] theorem State.stepDone_frame (s : State) (w : World) (v : Word) : (State.stepDone s w v).pending = s.pending ∧ (State.stepDone s w v).mem = s.mem := by
  unfold State.stepDone
  split
  · exact ⟨rfl, rfl⟩
  · dsimp only
    split
    · simp
    · split
      · split <;> simp
      · split
        · simp
        · split <;> simp

@[simp] theorem State.stepLimit_frame (s : State) : (State.stepLimit s).pending = s.pending ∧ (State.stepLimit s).mem = s.mem := by
  (unfold State.stepLimit; (repeat' split) <;> simp_all)
@[simp] theorem State.sweepFollow_frame (s : State) : (State.sweepFollow s).pending = s.pending ∧ (State.sweepFollow s).mem = s.mem := by
  (unfold State.sweepFollow; (repeat' split) <;> simp_all)
@[simp] theorem State.hsAdvance_frame (s : State) (w : World) : (State.hsAdvance s w).pending = s.pending ∧ (State.hsAdvance s w).mem = s.mem := by
  simp [State.hsAdvance]
@[simp] theorem State.hsData_frame (s : State) (w : World) (v : Word) : (State.hsData s w v).pending = s.pending ∧ (State.hsData s w v).mem = s.mem := by
  (unfold State.hsData; dsimp only; (repeat' split) <;> simp_all)
@[simp] theorem State.hsDone_frame (s : State) (w : World) (v : Word) : (State.hsDone s w v).pending = s.pending ∧ (State.hsDone s w v).mem = s.mem := by
  (unfold State.hsDone; dsimp only; (repeat' split) <;> simp_all)
@[simp] theorem State.dictWrite_pending (s : State) (w : World) (off : Nat) (v : Word) : (State.dictWrite s w off v).pending = s.pending := by
  (unfold State.dictWrite; (repeat' split) <;> simp_all)
@[simp] theorem State.dictWrite_wf (s : State) (w : World) (off : Nat) (v : Word) (hwf : s.mem.wf = true) : (State.dictWrite s w off v).mem.wf = true := by
  (unfold State.dictWrite; (repeat' split) <;> simp_all)
@[simp] theorem State.stepWrite_frame (s : State) (w : World) (off : Nat) (v : Word) : (State.stepWrite s w off v).pending = s.pending ∧ (State.stepWrite s w off v).mem = s.mem := by
  (unfold State.stepWrite; (repeat' split) <;> simp_all)

-- Machine/Ferry.lean

@[simp] theorem State.engineWake_frame (s : State) (c : Carrier) : (State.engineWake s c).pending = s.pending ∧ (State.engineWake s c).mem = s.mem := by
  simp [State.engineWake]
@[simp] theorem State.ferryAdmit_frame (s : State) (f : FerryFrame) : (State.ferryAdmit s f).1.pending = s.pending ∧ (State.ferryAdmit s f).1.mem = s.mem := by
  simp [State.ferryAdmit]
@[simp] theorem State.ferryRefuse_frame (s : State) (f : FerryFrame) (fstatus tag : Nat) : (State.ferryRefuse s f fstatus tag).pending = s.pending ∧ (State.ferryRefuse s f fstatus tag).mem = s.mem := by
  simp [State.ferryRefuse]
@[simp] theorem State.ferrySession_frame (s : State) (f : FerryFrame) (type : Nat) : (State.ferrySession s f type).1.pending = s.pending ∧ (State.ferrySession s f type).1.mem = s.mem := by
  (unfold State.ferrySession; dsimp only; (repeat' split) <;> simp_all)
@[simp] theorem State.ferryRequest_frame (s : State) (f : FerryFrame) (type : Nat) : (State.ferryRequest s f type).1.pending = s.pending ∧ (State.ferryRequest s f type).1.mem = s.mem := by
  (unfold State.ferryRequest; dsimp only; (repeat' split) <;> (try simp only [Prod.ext_iff] at *) <;> (repeat cases ‹_ ∧ _›) <;> subst_vars <;> simp_all)
@[simp] theorem State.ferryStatus_frame (s : State) (n tag type fstatus : Nat) : (State.ferryStatus s n tag type fstatus).pending = s.pending ∧ (State.ferryStatus s n tag type fstatus).mem = s.mem := by
  simp [State.ferryStatus]
@[simp] theorem State.ferrySubmit_pending (s : State) (n tag : Nat) (k : RspKind) (op key : Nat) (v : List Byte) : (State.ferrySubmit s n tag k op key v).pending = s.pending := by
  simp [State.ferrySubmit]
@[simp] theorem State.ferrySubmit_wf (s : State) (n tag : Nat) (k : RspKind) (op key : Nat) (v : List Byte) (hwf : s.mem.wf = true) : (State.ferrySubmit s n tag k op key v).mem.wf = true := by
  simp [State.ferrySubmit, hwf]
@[simp] theorem State.ferryRead_pending (s : State) (f : FerryFrame) : (State.ferryRead s f).pending = s.pending := by
  (unfold State.ferryRead; (repeat' split) <;> (try simp only [Prod.ext_iff] at *) <;> (repeat cases ‹_ ∧ _›) <;> subst_vars <;> simp_all)
@[simp] theorem State.ferryRead_wf (s : State) (f : FerryFrame) (hwf : s.mem.wf = true) : (State.ferryRead s f).mem.wf = true := by
  (unfold State.ferryRead; (repeat' split) <;> (try simp only [Prod.ext_iff] at *) <;> (repeat cases ‹_ ∧ _›) <;> subst_vars <;> simp_all)
@[simp] theorem State.ferryWrite_pending (s : State) (f : FerryFrame) : (State.ferryWrite s f).pending = s.pending := by
  (unfold State.ferryWrite; (repeat' split) <;> (try simp only [Prod.ext_iff] at *) <;> (repeat cases ‹_ ∧ _›) <;> subst_vars <;> simp_all)
@[simp] theorem State.ferryWrite_wf (s : State) (f : FerryFrame) (hwf : s.mem.wf = true) : (State.ferryWrite s f).mem.wf = true := by
  (unfold State.ferryWrite; (repeat' split) <;> (try simp only [Prod.ext_iff] at *) <;> (repeat cases ‹_ ∧ _›) <;> subst_vars <;> simp_all)
@[simp] theorem State.modXfer_frame (s : State) (n x : Nat) (g : Xfer → Xfer) : (State.modXfer s n x g).pending = s.pending ∧ (State.modXfer s n x g).mem = s.mem := by
  simp [State.modXfer]
@[simp] theorem State.endXfer_frame (s : State) (n x : Nat) : (State.endXfer s n x).pending = s.pending ∧ (State.endXfer s n x).mem = s.mem := by
  simp [State.endXfer]
@[simp] theorem State.ferrySegRead_pending (s : State) (f : FerryFrame) : (State.ferrySegRead s f).pending = s.pending := by
  (unfold State.ferrySegRead; dsimp only; (repeat' split) <;> (try simp only [Prod.ext_iff] at *) <;> (repeat cases ‹_ ∧ _›) <;> subst_vars <;> simp_all)
@[simp] theorem State.ferrySegRead_wf (s : State) (f : FerryFrame) (hwf : s.mem.wf = true) : (State.ferrySegRead s f).mem.wf = true := by
  (unfold State.ferrySegRead; dsimp only; (repeat' split) <;> (try simp only [Prod.ext_iff] at *) <;> (repeat cases ‹_ ∧ _›) <;> subst_vars <;> simp_all)
@[simp] theorem State.segTake_pending (s : State) (n x tag : Nat) (e : Xfer) (data : List Byte) : (State.segTake s n x tag e data).pending = s.pending := by
  simp [State.segTake]
@[simp] theorem State.segTake_wf (s : State) (n x tag : Nat) (e : Xfer) (data : List Byte) (hwf : s.mem.wf = true) : (State.segTake s n x tag e data).mem.wf = true := by
  simp [State.segTake, hwf]
@[simp] theorem State.ferrySegWrite_pending (s : State) (f : FerryFrame) : (s.ferrySegWrite f).pending = s.pending := by
  have h := s.ferryRequest_frame f 0x26
  unfold State.ferrySegWrite
  split
  · next s1 h1 => rw [h1] at h; exact h.1
  · next s1 n tag pay h1 =>
    rw [h1] at h; have h : s1.pending = s.pending := h.1
    dsimp only
    repeat' split
    all_goals simp [h]
@[simp] theorem State.ferrySegWrite_wf (s : State) (f : FerryFrame) (hwf : s.mem.wf = true) : (s.ferrySegWrite f).mem.wf = true := by
  have h := s.ferryRequest_frame f 0x26
  unfold State.ferrySegWrite
  split
  · next s1 h1 => rw [h1] at h; rw [h.2]; exact hwf
  · next s1 n tag pay h1 =>
    rw [h1] at h; have h : s1.mem = s.mem := h.2
    dsimp only
    repeat' split
    all_goals simp [h, hwf]

@[simp] theorem State.ferryCommand_pending (s : State) (f : FerryFrame) : (State.ferryCommand s f).pending = s.pending := by
  (unfold State.ferryCommand; (repeat' split) <;> (try simp only [Prod.ext_iff] at *) <;> (repeat cases ‹_ ∧ _›) <;> subst_vars <;> simp_all)
@[simp] theorem State.ferryCommand_wf (s : State) (f : FerryFrame) (hwf : s.mem.wf = true) : (State.ferryCommand s f).mem.wf = true := by
  (unfold State.ferryCommand; (repeat' split) <;> (try simp only [Prod.ext_iff] at *) <;> (repeat cases ‹_ ∧ _›) <;> subst_vars <;> simp_all)
@[simp] theorem State.ferrySubscribe_frame (s : State) (f : FerryFrame) : (State.ferrySubscribe s f).pending = s.pending ∧ (State.ferrySubscribe s f).mem = s.mem := by
  (unfold State.ferrySubscribe; (repeat' split) <;> (try simp only [Prod.ext_iff] at *) <;> (repeat cases ‹_ ∧ _›) <;> subst_vars <;> simp_all)
@[simp] theorem State.ferryUnsubscribe_frame (s : State) (f : FerryFrame) : (State.ferryUnsubscribe s f).pending = s.pending ∧ (State.ferryUnsubscribe s f).mem = s.mem := by
  (unfold State.ferryUnsubscribe; (repeat' split) <;> (try simp only [Prod.ext_iff] at *) <;> (repeat cases ‹_ ∧ _›) <;> subst_vars <;> simp_all)
@[simp] theorem State.ferryKeepalive_frame (s : State) (f : FerryFrame) : (State.ferryKeepalive s f).pending = s.pending ∧ (State.ferryKeepalive s f).mem = s.mem := by
  (unfold State.ferryKeepalive; (repeat' split) <;> (try simp only [Prod.ext_iff] at *) <;> (repeat cases ‹_ ∧ _›) <;> subst_vars <;> simp_all)
@[simp] theorem State.ferryClose_frame (s : State) (f : FerryFrame) : (State.ferryClose s f).pending = s.pending ∧ (State.ferryClose s f).mem = s.mem := by
  (unfold State.ferryClose; (repeat' split) <;> (try simp only [Prod.ext_iff] at *) <;> (repeat cases ‹_ ∧ _›) <;> subst_vars <;> simp_all)
@[simp] theorem State.ferryHello_frame (s : State) (f : FerryFrame) : (State.ferryHello s f).pending = s.pending ∧ (State.ferryHello s f).mem = s.mem := by
  simp [State.ferryHello]
@[simp] theorem State.helloExpiry_frame (s : State) : (State.helloExpiry s).pending = s.pending ∧ (State.helloExpiry s).mem = s.mem := by
  simp [State.helloExpiry]
@[simp] theorem State.hsRefuse_frame (s : State) (f : FerryFrame) (fstatus : Nat) : (State.hsRefuse s f fstatus).pending = s.pending ∧ (State.hsRefuse s f fstatus).mem = s.mem := by
  simp [State.hsRefuse]
@[simp] theorem State.hsPlace_frame (s : State) (f : FerryFrame) (w : World) (j : Nat) (pay : List Byte) : (State.hsPlace s f w j pay).pending = s.pending ∧ (State.hsPlace s f w j pay).mem = s.mem := by
  simp [State.hsPlace]
@[simp] theorem State.ferryInit_frame (s : State) (f : FerryFrame) : (State.ferryInit s f).pending = s.pending ∧ (State.ferryInit s f).mem = s.mem := by
  (unfold State.ferryInit; dsimp only; (repeat' split) <;> simp_all)
@[simp] theorem State.ferryConfirm_frame (s : State) (f : FerryFrame) : (State.ferryConfirm s f).pending = s.pending ∧ (State.ferryConfirm s f).mem = s.mem := by
  (unfold State.ferryConfirm; dsimp only; (repeat' split) <;> simp_all)
@[simp] theorem State.ferryBadType_frame (s : State) (f : FerryFrame) : (State.ferryBadType s f).pending = s.pending ∧ (State.ferryBadType s f).mem = s.mem := by
  simp [State.ferryBadType]
@[simp] theorem State.ferryNoSession_frame (s : State) (f : FerryFrame) : (State.ferryNoSession s f).pending = s.pending ∧ (State.ferryNoSession s f).mem = s.mem := by
  simp [State.ferryNoSession]
@[simp] theorem State.hsExpiry_frame (s : State) (j : Nat) : (State.hsExpiry s j).pending = s.pending ∧ (State.hsExpiry s j).mem = s.mem := by
  simp [State.hsExpiry]
@[simp] theorem State.xferExpiry_frame (s : State) (write : Bool) (n x : Nat) : (State.xferExpiry s write n x).pending = s.pending ∧ (State.xferExpiry s write n x).mem = s.mem := by
  (unfold State.xferExpiry; (repeat' split) <;> simp_all)
@[simp] theorem State.minintExpiry_frame (s : State) (n id : Nat) : (State.minintExpiry s n id).pending = s.pending ∧ (State.minintExpiry s n id).mem = s.mem := by
  (unfold State.minintExpiry; (repeat' split) <;> simp_all)
@[simp] theorem State.periodExpiry_frame (s : State) (n id : Nat) : (State.periodExpiry s n id).pending = s.pending ∧ (State.periodExpiry s n id).mem = s.mem := by
  (unfold State.periodExpiry; (repeat' split) <;> simp_all)
@[simp] theorem State.sessionExpiry_frame (s : State) (n : Nat) : (State.sessionExpiry s n).pending = s.pending ∧ (State.sessionExpiry s n).mem = s.mem := by
  (unfold State.sessionExpiry; (repeat' split) <;> simp_all)

end Sys2Proof.Machine
end

