-- ==== Sys2Proof/Laws/FrameLinks.lean ====
section
/-!
SUPPORT. Laws/FrameLinks.lean: the operations of DMA queues, lanes, backbone, USB and the seal engine leave the queue of waiting commands alone and keep
the canonical form of memory; most leave memory alone altogether.
-/
namespace Sys2Proof.Machine

-- Machine/DmaBase.lean

@[simp] theorem State.masterRead_frame (s : State) (pa n : Nat) : (State.masterRead s pa n).1.pending = s.pending ∧ (State.masterRead s pa n).1.mem = s.mem := by
  simp [State.masterRead]
@[simp] theorem State.masterWriteMem_pending (s : State) (pa : Nat) (bs : List Byte) : (State.masterWriteMem s pa bs).pending = s.pending := by
  simp [State.masterWriteMem]
@[simp] theorem State.masterWriteMem_wf (s : State) (pa : Nat) (bs : List Byte) (hwf : s.mem.wf = true) : (State.masterWriteMem s pa bs).mem.wf = true := by
  simp [State.masterWriteMem, hwf]
@[simp] theorem State.setQ_frame (s : State) (q : QRef) (j : Nat) (v : Word) : (State.setQ s q j v).pending = s.pending ∧ (State.setQ s q j v).mem = s.mem := by
  simp [State.setQ]
@[simp] theorem State.qStop_frame (s : State) (q : QRef) (irq : Option Nat) (c : Code) : (State.qStop s q irq c).pending = s.pending ∧ (State.qStop s q irq c).mem = s.mem := by
  (unfold State.qStop; (repeat' split) <;> simp_all)
@[simp] theorem State.qFetch_frame (s : State) (q : QRef) (irq : Option Nat) : (State.qFetch s q irq).1.pending = s.pending ∧ (State.qFetch s q irq).1.mem = s.mem := by
  (unfold State.qFetch; dsimp only; (repeat' split) <;> simp_all)
@[simp] theorem State.qAdvance_frame (s : State) (q : QRef) : (State.qAdvance s q).pending = s.pending ∧ (State.qAdvance s q).mem = s.mem := by
  simp [State.qAdvance]
@[simp] theorem State.qComplete_pending (s : State) (q : QRef) (stat len tag time : Nat) : (State.qComplete s q stat len tag time).pending = s.pending := by
  simp [State.qComplete]
@[simp] theorem State.qComplete_wf (s : State) (q : QRef) (stat len tag time : Nat) (hwf : s.mem.wf = true) : (State.qComplete s q stat len tag time).mem.wf = true := by
  simp [State.qComplete, hwf]
@[simp] theorem State.qDrop_frame (s : State) (q : QRef) : (State.qDrop s q).pending = s.pending ∧ (State.qDrop s q).mem = s.mem := by
  simp [State.qDrop]
@[simp] theorem State.qDeliver_pending (s : State) (q : QRef) (irq : Option Nat) (stat tag time : Nat) (frame : List Byte) : (s.qDeliver q irq stat tag time frame).1.pending = s.pending := by
  have h := s.qFetch_frame q irq
  unfold State.qDeliver
  split
  · simp
  · split
    · next s1 h1 => rw [h1] at h; exact h.1
    · next s1 d h1 =>
      rw [h1] at h; have h : s1.pending = s.pending := h.1
      dsimp only
      repeat' split
      all_goals simp [h]
@[simp] theorem State.qDeliver_wf (s : State) (q : QRef) (irq : Option Nat) (stat tag time : Nat) (frame : List Byte) (hwf : s.mem.wf = true) : (s.qDeliver q irq stat tag time frame).1.mem.wf = true := by
  have h := s.qFetch_frame q irq
  unfold State.qDeliver
  split
  · simpa using hwf
  · split
    · next s1 h1 => rw [h1] at h; rw [h.2]; exact hwf
    · next s1 d h1 =>
      rw [h1] at h; have h : s1.mem = s.mem := h.2
      dsimp only
      repeat' split
      all_goals simp [h, hwf]

@[simp] theorem State.qWrite_frame (s : State) (r : Req) (q : QRef) (j : Nat) (v : Word) : (State.qWrite s r q j v).1.pending = s.pending ∧ (State.qWrite s r q j v).1.mem = s.mem := by
  (unfold State.qWrite; (repeat' split) <;> simp_all)

-- Machine/Lanes.lean

@[simp] theorem State.modLane_frame (s : State) (p : Nat) (f : Lane → Lane) : (State.modLane s p f).pending = s.pending ∧ (State.modLane s p f).mem = s.mem := by
  simp [State.modLane]
@[simp] theorem State.raiseLatch_frame (s : State) (i : Nat) : (State.raiseLatch s i).pending = s.pending ∧ (State.raiseLatch s i).mem = s.mem := by
  simp [State.raiseLatch]
@[simp] theorem State.setLstate_frame (s : State) (p st : Nat) : (State.setLstate s p st).pending = s.pending ∧ (State.setLstate s p st).mem = s.mem := by
  simp [State.setLstate]
@[simp] theorem State.tell_frame (s : State) (m : LedgerMsg) : (State.tell s m).pending = s.pending ∧ (State.tell s m).mem = s.mem := by
  simp [State.tell]
@[simp] theorem State.txAbort_pending (s : State) (p k stat : Nat) : (State.txAbort s p k stat).pending = s.pending := by
  simp [State.txAbort]
@[simp] theorem State.txAbort_wf (s : State) (p k stat : Nat) (hwf : s.mem.wf = true) : (State.txAbort s p k stat).mem.wf = true := by
  simp [State.txAbort, hwf]
@[simp] theorem State.qDoneIrq_frame (s : State) (p k : Nat) (tx : Bool) : (State.qDoneIrq s p k tx).pending = s.pending ∧ (State.qDoneIrq s p k tx).mem = s.mem := by
  simp [State.qDoneIrq]
@[simp] theorem State.laneUpset_pending (s : State) (p kind : Nat) (sending : Bool) : (State.laneUpset s p kind sending).pending = s.pending := by
  (unfold State.laneUpset; dsimp only; (repeat' split) <;> simp_all)
@[simp] theorem State.laneUpset_wf (s : State) (p kind : Nat) (sending : Bool) (hwf : s.mem.wf = true) : (State.laneUpset s p kind sending).mem.wf = true := by
  (unfold State.laneUpset; dsimp only; (repeat' split) <;> simp_all)
@[simp] theorem State.laneBackoff_frame (s : State) (p : Nat) : (State.laneBackoff s p).pending = s.pending ∧ (State.laneBackoff s p).mem = s.mem := by
  simp [State.laneBackoff]
@[simp] theorem State.laneAsh_frame (s : State) (p : Nat) : (State.laneAsh s p).pending = s.pending ∧ (State.laneAsh s p).mem = s.mem := by
  simp [State.laneAsh]
@[simp] theorem State.laneTestEnd_frame (s : State) (p : Nat) (pass : Bool) : (State.laneTestEnd s p pass).pending = s.pending ∧ (State.laneTestEnd s p pass).mem = s.mem := by
  simp [State.laneTestEnd]
@[simp] theorem State.laneClear_frame (s : State) (p : Nat) : (State.laneClear s p).pending = s.pending ∧ (State.laneClear s p).mem = s.mem := by
  simp [State.laneClear]
@[simp] theorem State.laneAshClr_frame (s : State) (p : Nat) : (State.laneAshClr s p).pending = s.pending ∧ (State.laneAshClr s p).mem = s.mem := by
  simp [State.laneAshClr]
@[simp] theorem State.lpctlWrite_frame (s : State) (p : Nat) (v : Word) : (State.lpctlWrite s p v).1.pending = s.pending ∧ (State.lpctlWrite s p v).1.mem = s.mem := by
  simp [State.lpctlWrite]
@[simp] theorem State.enrWrite_frame (s : State) (r : Req) (p k j : Nat) (v : Word) : (State.enrWrite s r p k j v).1.pending = s.pending ∧ (State.enrWrite s r p k j v).1.mem = s.mem := by
  simp [State.enrWrite]
@[simp] theorem State.classify_frame (s : State) (p k : Nat) (frame : List Byte) : (State.classify s p k frame).1.pending = s.pending ∧ (State.classify s p k frame).1.mem = s.mem := by
  (unfold State.classify; (repeat' split) <;> simp_all)
@[simp] theorem State.laneReceive_pending (s : State) (p k : Nat) (fcs : Bool) (frame : List Byte) : (State.laneReceive s p k fcs frame).pending = s.pending := by
  simp [State.laneReceive]
@[simp] theorem State.laneReceive_wf (s : State) (p k : Nat) (fcs : Bool) (frame : List Byte) (hwf : s.mem.wf = true) : (State.laneReceive s p k fcs frame).mem.wf = true := by
  simp [State.laneReceive, hwf]
@[simp] theorem State.laneDeliver_pending (s : State) (p : Nat) : (s.laneDeliver p).pending = s.pending := by
  unfold State.laneDeliver
  split
  · rfl
  · dsimp only; split <;> simp
@[simp] theorem State.laneDeliver_wf (s : State) (p : Nat) (hwf : s.mem.wf = true) : (s.laneDeliver p).mem.wf = true := by
  unfold State.laneDeliver
  split
  · exact hwf
  · dsimp only; split <;> simp [hwf]

@[simp] theorem State.txExamine_pending (s : State) (p k : Nat) : (State.txExamine s p k).pending = s.pending := by
  (unfold State.txExamine; dsimp only; (repeat' split) <;> (try simp only [Prod.ext_iff] at *) <;> (repeat cases ‹_ ∧ _›) <;> subst_vars <;> simp_all)
@[simp] theorem State.txExamine_wf (s : State) (p k : Nat) (hwf : s.mem.wf = true) : (State.txExamine s p k).mem.wf = true := by
  (unfold State.txExamine; dsimp only; (repeat' split) <;> (try simp only [Prod.ext_iff] at *) <;> (repeat cases ‹_ ∧ _›) <;> subst_vars <;> simp_all)
@[simp] theorem State.laneExamine_pending (s : State) (p : Nat) : (State.laneExamine s p).pending = s.pending := by
  simp [State.laneExamine]
@[simp] theorem State.laneExamine_wf (s : State) (p : Nat) (hwf : s.mem.wf = true) : (State.laneExamine s p).mem.wf = true := by
  (unfold State.laneExamine; (repeat' split) <;> simp_all)
@[simp] theorem State.plcaCycle_frame (s : State) (p : Nat) : (State.plcaCycle s p).pending = s.pending ∧ (State.plcaCycle s p).mem = s.mem := by
  simp [State.plcaCycle]
@[simp] theorem State.laneLinkUp_frame (s : State) (p : Nat) : (State.laneLinkUp s p).pending = s.pending ∧ (State.laneLinkUp s p).mem = s.mem := by
  simp [State.laneLinkUp]
@[simp] theorem State.laneTransmit_pending (s : State) (p : Nat) : (State.laneTransmit s p).pending = s.pending := by
  (unfold State.laneTransmit; dsimp only; (repeat' split) <;> simp_all)
@[simp] theorem State.laneTransmit_wf (s : State) (p : Nat) (hwf : s.mem.wf = true) : (State.laneTransmit s p).mem.wf = true := by
  (unfold State.laneTransmit; dsimp only; (repeat' split) <;> simp_all)
@[simp] theorem State.lanePhyUpset_pending (s : State) (p kind : Nat) (sending : Bool) : (State.lanePhyUpset s p kind sending).pending = s.pending := by
  simp [State.lanePhyUpset]
@[simp] theorem State.lanePhyUpset_wf (s : State) (p kind : Nat) (sending : Bool) (hwf : s.mem.wf = true) : (State.lanePhyUpset s p kind sending).mem.wf = true := by
  simp [State.lanePhyUpset, hwf]
@[simp] theorem State.laneWrite_frame (s : State) (r : Req) (p off : Nat) (v : Word) : (State.laneWrite s r p off v).1.pending = s.pending ∧ (State.laneWrite s r p off v).1.mem = s.mem := by
  (unfold State.laneWrite; (repeat' split) <;> simp_all)
@[simp] theorem State.laneDmaWrite_pending (s : State) (r : Req) (off : Nat) (v : Word) : (State.laneDmaWrite s r off v).1.pending = s.pending := by
  simp [State.laneDmaWrite]
@[simp] theorem State.laneDmaWrite_wf (s : State) (r : Req) (off : Nat) (v : Word) (hwf : s.mem.wf = true) : (State.laneDmaWrite s r off v).1.mem.wf = true := by
  simp [State.laneDmaWrite, hwf]
@[simp] theorem State.permitExpiry_frame (s : State) (k : Nat) : (State.permitExpiry s k).pending = s.pending ∧ (State.permitExpiry s k).mem = s.mem := by
  simp [State.permitExpiry]

-- Machine/Backbone.lean

@[simp] theorem State.modBb_frame (s : State) (f : Backbone → Backbone) : (State.modBb s f).pending = s.pending ∧ (State.modBb s f).mem = s.mem := by
  simp [State.modBb]
@[simp] theorem State.newEvent_frame (s : State) (slot off irq : Nat) (bits : Word) : (State.newEvent s slot off irq bits).pending = s.pending ∧ (State.newEvent s slot off irq bits).mem = s.mem := by
  simp [State.newEvent]
@[simp] theorem State.learn_frame (s : State) (mac port : Nat) : (State.learn s mac port).pending = s.pending ∧ (State.learn s mac port).mem = s.mem := by
  simp [State.learn]
@[simp] theorem State.hostDeliver_pending (s : State) (pcp : Nat) (b : List Byte) : (s.hostDeliver pcp b).pending = s.pending := by
  unfold State.hostDeliver; split <;> simp
@[simp] theorem State.hostDeliver_wf (s : State) (pcp : Nat) (b : List Byte) (hwf : s.mem.wf = true) : (s.hostDeliver pcp b).mem.wf = true := by
  unfold State.hostDeliver; split <;> simp [hwf]

@[simp] theorem State.egress_pending (s : State) (asleep : State → List Byte → State) (vlan : Word) (pcp : Nat) (b : List Byte) (p : Nat)
    (ha : ∀ s l, (asleep s l).pending = s.pending) : (s.egress asleep vlan pcp b p).pending = s.pending := by
  unfold State.egress; dsimp only
  repeat' split
  all_goals simp [ha, State.hostDeliver_pending]
@[simp] theorem State.egress_wf (s : State) (asleep : State → List Byte → State) (vlan : Word) (pcp : Nat) (b : List Byte) (p : Nat)
    (ha : ∀ s l, s.mem.wf = true → (asleep s l).mem.wf = true) (hwf : s.mem.wf = true) : (s.egress asleep vlan pcp b p).mem.wf = true := by
  unfold State.egress; dsimp only
  repeat' split
  · exact ha _ _ hwf
  · exact State.hostDeliver_wf _ _ _ hwf
  · simpa using hwf
  · exact hwf

@[simp] theorem State.forwardFrom_pending (s : State) (asleep : State → List Byte → State) (port : Nat) (b : List Byte)
    (ha : ∀ s l, (asleep s l).pending = s.pending) : (s.forwardFrom asleep port b).pending = s.pending := by
  have hm : ∀ c : Prop, [Decidable c] → ∀ x y : State, x.pending = s.pending → y.pending = s.pending → (if c then x else y).pending = s.pending := by
    intro c _ x y hx hy; split <;> assumption
  have h1 : (if port = 2 then s else s.modReg (0x079 + port) 0x1014 (· + 1)).pending = s.pending := hm _ _ _ rfl (by simp)
  unfold State.forwardFrom; dsimp only
  split
  · rw [(State.newEvent_frame _ _ _ _ _).1]; exact h1
  · split
    · exact h1
    · rw [State.foldl_pending _ (fun s p => State.egress_pending s asleep _ _ _ _ ha)]
      exact hm _ _ _ rfl (by simp)
@[simp] theorem State.forwardFrom_wf (s : State) (asleep : State → List Byte → State) (port : Nat) (b : List Byte)
    (ha : ∀ s l, s.mem.wf = true → (asleep s l).mem.wf = true) (hwf : s.mem.wf = true) : (s.forwardFrom asleep port b).mem.wf = true := by
  have hm : ∀ c : Prop, [Decidable c] → ∀ x y : State, x.mem.wf = true → y.mem.wf = true → (if c then x else y).mem.wf = true := by
    intro c _ x y hx hy; split <;> assumption
  have h1 : (if port = 2 then s else s.modReg (0x079 + port) 0x1014 (· + 1)).mem.wf = true := hm _ _ _ hwf (by simpa using hwf)
  unfold State.forwardFrom; dsimp only
  split
  · simpa using h1
  · split
    · exact h1
    · refine State.foldl_wf _ (fun s p hs => State.egress_wf s asleep _ _ _ _ ha hs) _ _ ?_
      exact hm _ _ _ hwf (by simpa using hwf)

@[simp] theorem State.hostSleep_pending (s : State) (b : List Byte) : (s.hostSleep b).pending = s.pending := by
  unfold State.hostSleep
  repeat' split
  all_goals first | (rw [State.forwardFrom_pending _ _ _ _ (fun _ _ => rfl)]; first | rfl | simp) | simp
@[simp] theorem State.hostSleep_wf (s : State) (b : List Byte) (hwf : s.mem.wf = true) : (s.hostSleep b).mem.wf = true := by
  have hf : ∀ (x : State) (l : List Byte), x.mem.wf = true → (x.forwardFrom (fun s _ => s) 2 l).mem.wf = true :=
    fun x l hx => State.forwardFrom_wf x _ _ _ (fun _ _ h => h) hx
  unfold State.hostSleep
  split
  · exact hf _ _ (by simpa using hwf)
  · split
    · exact hf _ _ hwf
    · repeat' split
      all_goals simpa using hwf

@[simp] theorem State.bbUpset_frame (s : State) (p kind : Nat) : (State.bbUpset s p kind).pending = s.pending ∧ (State.bbUpset s p kind).mem = s.mem := by
  simp [State.bbUpset]
@[simp] theorem State.bbReceive_pending (s : State) (p : Nat) (fcs : Bool) (frame : List Byte) : (s.bbReceive p fcs frame).pending = s.pending := by
  unfold State.bbReceive; dsimp only
  repeat' split
  all_goals first | (rw [State.forwardFrom_pending _ _ _ _ State.hostSleep_pending]; first | rfl | (simp; done)) | simp
@[simp] theorem State.bbReceive_wf (s : State) (p : Nat) (fcs : Bool) (frame : List Byte) (hwf : s.mem.wf = true) : (s.bbReceive p fcs frame).mem.wf = true := by
  have hf : ∀ (x : State) (q : Nat) (l : List Byte), x.mem.wf = true → (x.forwardFrom State.hostSleep q l).mem.wf = true :=
    fun x q l hx => State.forwardFrom_wf x _ _ _ State.hostSleep_wf hx
  unfold State.bbReceive; dsimp only
  repeat' split
  all_goals first | (simp only [State.modReg_frame, State.newEvent_frame, State.bbUpset_frame, hwf]; done) | skip
  all_goals simp [hf, hwf]

/-- A fold of pairs keeps what each of its steps keeps. -/
theorem State.foldl1_keep {α β : Type} (P : State → Prop) (f : State × β → α → State × β) (h : ∀ p a, P p.1 → P (f p a).1) (l : List α) (p : State × β) (hp : P p.1) :
    P (l.foldl f p).1 := by
  induction l generalizing p with
  | nil => exact hp
  | cons a l ih => exact ih _ (h _ _ hp)
@[simp] theorem State.hostExamine_pending (s : State) : (s.hostExamine).pending = s.pending := by
  unfold State.hostExamine
  refine State.foldl1_keep (fun x => x.pending = s.pending) _ (fun a i h0 => ?_) _ _ rfl
  dsimp only
  split
  · exact h0
  · split
    · exact h0
    · have h := a.1.qFetch_frame (hostQ (8 + (a.1.bb.txLast + 1 + i) % 8)) none
      split
      · next s1 h1 => rw [h1] at h; exact h.1.trans h0
      · next s1 d h1 =>
        rw [h1] at h; have h : s1.pending = s.pending := h.1.trans h0
        repeat' split
        all_goals first | (simp [h]; done) | skip
@[simp] theorem State.hostExamine_wf (s : State) (hwf : s.mem.wf = true) : (s.hostExamine).mem.wf = true := by
  unfold State.hostExamine
  refine State.foldl1_keep (fun x => x.mem.wf = true) _ (fun a i h0 => ?_) _ _ hwf
  dsimp only
  split
  · exact h0
  · split
    · exact h0
    · have h := a.1.qFetch_frame (hostQ (8 + (a.1.bb.txLast + 1 + i) % 8)) none
      split
      · next s1 h1 => rw [h1] at h; rw [h.2]; exact h0
      · next s1 d h1 =>
        rw [h1] at h; have h : s1.mem.wf = true := by rw [h.2]; exact h0
        repeat' split
        all_goals simp [h]

@[simp] theorem State.ageing_frame (s : State) : (State.ageing s).pending = s.pending ∧ (State.ageing s).mem = s.mem := by
  simp [State.ageing]
@[simp] theorem State.bbLinkChange_frame (s : State) (p : Nat) (up : Bool) (speed : Nat) (lpi mdix : Bool) : (State.bbLinkChange s p up speed lpi mdix).pending = s.pending ∧ (State.bbLinkChange s p up speed lpi mdix).mem = s.mem := by
  simp [State.bbLinkChange]
@[simp] theorem State.switchWrite_pending (s : State) (r : Req) (off : Nat) (v : Word) : (State.switchWrite s r off v).1.pending = s.pending := by
  simp [State.switchWrite]
@[simp] theorem State.switchWrite_wf (s : State) (r : Req) (off : Nat) (v : Word) (hwf : s.mem.wf = true) : (State.switchWrite s r off v).1.mem.wf = true := by
  simp [State.switchWrite, hwf]
@[simp] theorem State.bbPortWrite_frame (s : State) (p off : Nat) (v : Word) : (State.bbPortWrite s p off v).pending = s.pending ∧ (State.bbPortWrite s p off v).mem = s.mem := by
  simp [State.bbPortWrite]
@[simp] theorem State.modTb_frame (s : State) (f : TimeBlk → TimeBlk) : (State.modTb s f).pending = s.pending ∧ (State.modTb s f).mem = s.mem := by
  simp [State.modTb]
@[simp] theorem State.lockFall_frame (s : State) : (State.lockFall s).pending = s.pending ∧ (State.lockFall s).mem = s.mem := by
  simp [State.lockFall]
@[simp] theorem State.tbOfs_frame (s : State) (v : Word) : (State.tbOfs s v).pending = s.pending ∧ (State.tbOfs s v).mem = s.mem := by
  simp [State.tbOfs]
@[simp] theorem State.lockLoss_frame (s : State) : (State.lockLoss s).pending = s.pending ∧ (State.lockLoss s).mem = s.mem := by
  simp [State.lockLoss]
@[simp] theorem State.tbJump_frame (s : State) (t : Nat) : (State.tbJump s t).pending = s.pending ∧ (State.tbJump s t).mem = s.mem := by
  simp [State.tbJump]
@[simp] theorem State.tbAdj_frame (s : State) (v : Word) : (State.tbAdj s v).1.pending = s.pending ∧ (State.tbAdj s v).1.mem = s.mem := by
  simp [State.tbAdj]
@[simp] theorem State.tbTick_frame (s : State) : (State.tbTick s).pending = s.pending ∧ (State.tbTick s).mem = s.mem := by
  simp [State.tbTick]
@[simp] theorem State.ptpStamp_frame (s : State) (p : Nat) (tx : Bool) (mtype sid : Nat) : (State.ptpStamp s p tx mtype sid).pending = s.pending ∧ (State.ptpStamp s p tx mtype sid).mem = s.mem := by
  simp [State.ptpStamp]
@[simp] theorem State.tbRead_frame (s : State) (off : Nat) : (State.tbRead s off).1.pending = s.pending ∧ (State.tbRead s off).1.mem = s.mem := by
  (unfold State.tbRead; (repeat' split) <;> simp_all)
@[simp] theorem State.tbWrite_frame (s : State) (off : Nat) (v : Word) : (State.tbWrite s off v).1.pending = s.pending ∧ (State.tbWrite s off v).1.mem = s.mem := by
  (unfold State.tbWrite; (repeat' split) <;> simp_all)
@[simp] theorem State.modUsb_frame (s : State) (u : Nat) (f : Usb → Usb) : (State.modUsb s u f).pending = s.pending ∧ (State.modUsb s u f).mem = s.mem := by
  simp [State.modUsb]
@[simp] theorem State.usbEvent_frame (s : State) (u : Nat) (bits : Word) : (State.usbEvent s u bits).pending = s.pending ∧ (State.usbEvent s u bits).mem = s.mem := by
  simp [State.usbEvent]
@[simp] theorem State.usbRole_frame (s : State) (u : Nat) : (State.usbRole s u).pending = s.pending ∧ (State.usbRole s u).mem = s.mem := by
  simp [State.usbRole]
@[simp] theorem State.usbAttach_frame (s : State) (u speed : Nat) : (State.usbAttach s u speed).pending = s.pending ∧ (State.usbAttach s u speed).mem = s.mem := by
  simp [State.usbAttach]
@[simp] theorem State.usbDetach_frame (s : State) (u : Nat) : (State.usbDetach s u).pending = s.pending ∧ (State.usbDetach s u).mem = s.mem := by
  simp [State.usbDetach]
@[simp] theorem State.usbOver_frame (s : State) (u : Nat) : (State.usbOver s u).pending = s.pending ∧ (State.usbOver s u).mem = s.mem := by
  simp [State.usbOver]
@[simp] theorem State.usbLine_frame (s : State) (u : Nat) (a0 : UsbEvent) : (State.usbLine s u a0).pending = s.pending ∧ (State.usbLine s u a0).mem = s.mem := by
  (unfold State.usbLine; (repeat' split) <;> simp_all)
@[simp] theorem State.usbTransfer_pending (s : State) (u e : Nat) (inn : Bool) (ep : BitVec 8) (bytes : List Byte) : (State.usbTransfer s u e inn ep bytes).pending = s.pending := by
  (unfold State.usbTransfer; dsimp only; (repeat' split) <;> (try simp only [Prod.ext_iff] at *) <;> (repeat cases ‹_ ∧ _›) <;> subst_vars <;> simp_all)
@[simp] theorem State.usbTransfer_wf (s : State) (u e : Nat) (inn : Bool) (ep : BitVec 8) (bytes : List Byte) (hwf : s.mem.wf = true) : (State.usbTransfer s u e inn ep bytes).mem.wf = true := by
  (unfold State.usbTransfer; dsimp only; (repeat' split) <;> (try simp only [Prod.ext_iff] at *) <;> (repeat cases ‹_ ∧ _›) <;> subst_vars <;> simp_all)
@[simp] theorem State.uportWrite_frame (s : State) (u : Nat) (v : Word) : (State.uportWrite s u v).pending = s.pending ∧ (State.uportWrite s u v).mem = s.mem := by
  simp [State.uportWrite]
@[simp] theorem State.usbWrite_frame (s : State) (r : Req) (u off : Nat) (v : Word) : (State.usbWrite s r u off v).1.pending = s.pending ∧ (State.usbWrite s r u off v).1.mem = s.mem := by
  (unfold State.usbWrite; (repeat' split) <;> simp_all)

-- Machine/Seal.lean

@[simp] theorem State.modSeal_frame (s : State) (f : Seal → Seal) : (State.modSeal s f).pending = s.pending ∧ (State.modSeal s f).mem = s.mem := by
  simp [State.modSeal]
@[simp] theorem State.journalRefuse_frame (s : State) (line : Nat) : (State.journalRefuse s line).pending = s.pending ∧ (State.journalRefuse s line).mem = s.mem := by
  simp [State.journalRefuse]
@[simp] theorem State.journalStore_frame (s : State) (pa : Nat) (bs : List Byte) : (State.journalStore s pa bs).pending = s.pending ∧ (State.journalStore s pa bs).mem = s.mem := by
  simp [State.journalStore]
@[simp] theorem State.emramStore_pending (s : State) (pa : Nat) (bs : List Byte) : (State.emramStore s pa bs).1.pending = s.pending := by
  simp [State.emramStore]
@[simp] theorem State.emramStore_wf (s : State) (pa : Nat) (bs : List Byte) (hwf : s.mem.wf = true) : (State.emramStore s pa bs).1.mem.wf = true := by
  simp [State.emramStore, hwf]
@[simp] theorem State.masterStore_wf (s : State) (pa : Nat) (bs : List Byte) (hwf : s.mem.wf = true) : (s.masterStore pa bs).1.mem.wf = true := by
  unfold State.masterStore
  split
  · refine State.foldl1_keep (fun x => x.mem.wf = true) _ (fun a i h0 => ?_) _ _ (by simpa using hwf)
    dsimp only
    split
    · exact State.emramStore_wf _ _ _ h0
    · simpa using State.emramStore_wf _ _ _ h0
  · exact State.masterWriteMem_wf _ _ _ hwf
  · exact State.masterWriteMem_wf _ _ _ hwf
  · exact State.masterWriteMem_wf _ _ _ hwf
  · simpa using hwf
  · exact hwf

@[simp] theorem State.masterStore_pending (s : State) (pa : Nat) (bs : List Byte) : (State.masterStore s pa bs).1.pending = s.pending := by
  (unfold State.masterStore; (repeat' split) <;> simp_all)
@[simp] theorem State.journalCheck_pending (s : State) : (State.journalCheck s).pending = s.pending := by
  simp [State.journalCheck]
@[simp] theorem State.journalCheck_wf (s : State) (hwf : s.mem.wf = true) : (State.journalCheck s).mem.wf = true := by
  simp [State.journalCheck, hwf]
@[simp] theorem State.journalAppend_pending (s : State) (kind flags lane : Nat) (data : List Byte) : (State.journalAppend s kind flags lane data).pending = s.pending := by
  simp [State.journalAppend]
@[simp] theorem State.journalAppend_wf (s : State) (kind flags lane : Nat) (data : List Byte) (hwf : s.mem.wf = true) : (State.journalAppend s kind flags lane data).mem.wf = true := by
  simp [State.journalAppend, hwf]
@[simp] theorem State.setKeySlot_frame (s : State) (k : Nat) (x : KeySlot) : (State.setKeySlot s k x).pending = s.pending ∧ (State.setKeySlot s k x).mem = s.mem := by
  simp [State.setKeySlot]
@[simp] theorem State.setKdata_frame (s : State) (ws : List Word) (shown : Bool) : (State.setKdata s ws shown).pending = s.pending ∧ (State.setKdata s ws shown).mem = s.mem := by
  simp [State.setKdata]
theorem State.loadClear_frame (s : State) {rr : State} (hr : (State.loadClear s) = some rr) : rr.pending = s.pending ∧ rr.mem = s.mem := by
  (unfold State.loadClear at hr; dsimp only at hr; (repeat' split at hr) <;> (try simp only [Option.some.injEq, Except.ok.injEq, reduceCtorEq, Prod.ext_iff] at *) <;> (repeat cases ‹_ ∧ _›) <;> subst_vars <;> simp_all)
theorem State.loadRecord_frame (s : State) (p : List Byte) {rr : State} (hr : (State.loadRecord s p) = some rr) : rr.pending = s.pending ∧ rr.mem = s.mem := by
  have key : ∀ (k : Nat) (x : KeySlot) (l : List Word), ((s.setKeySlot k x).setKdata l false).pending = s.pending ∧ ((s.setKeySlot k x).setKdata l false).mem = s.mem :=
    fun k x l => by simp
  have hi : ∀ (c : Prop) [Decidable c] (x : State), (x.pending = s.pending ∧ x.mem = s.mem) → (if c then none else some x) = some rr → rr.pending = s.pending ∧ rr.mem = s.mem := by
    intro c _ x hx h
    split at h
    · cases h
    · cases h; exact hx
  unfold State.loadRecord at hr
  exact hi _ _ (key _ _ _) hr

theorem State.loadWrapped_frame (s : State) {rr : State} (hr : (State.loadWrapped s) = some rr) : rr.pending = s.pending ∧ rr.mem = s.mem := by
  obtain ⟨p, -, h⟩ := Option.bind_eq_some_iff.mp hr
  exact State.loadRecord_frame s p h

theorem State.wrapOut_frame (s : State) {rr : State} (hr : (State.wrapOut s) = some rr) : rr.pending = s.pending ∧ rr.mem = s.mem := by
  (unfold State.wrapOut at hr; dsimp only at hr; (repeat' split at hr) <;> (try simp only [Option.some.injEq, Except.ok.injEq, reduceCtorEq, Prod.ext_iff] at *) <;> (repeat cases ‹_ ∧ _›) <;> subst_vars <;> simp_all)
@[simp] theorem State.keyErase_frame (s : State) : (State.keyErase s).pending = s.pending ∧ (State.keyErase s).mem = s.mem := by
  simp [State.keyErase]
theorem State.keyExtend_frame (s : State) {rr : State} (hr : (State.keyExtend s) = some rr) : rr.pending = s.pending ∧ rr.mem = s.mem := by
  (unfold State.keyExtend at hr; dsimp only at hr; (repeat' split at hr) <;> (try simp only [Option.some.injEq, Except.ok.injEq, reduceCtorEq, Prod.ext_iff] at *) <;> (repeat cases ‹_ ∧ _›) <;> subst_vars <;> simp_all)
@[simp] theorem State.kcmd_frame (s : State) (v : Word) : (s.kcmd v).1.pending = s.pending ∧ (s.kcmd v).1.mem = s.mem := by
  have h0 : ∀ rr : State, rr.pending = (s.modSeal (fun e => { e with shown := false })).pending ∧ rr.mem = (s.modSeal (fun e => { e with shown := false })).mem →
      rr.pending = s.pending ∧ rr.mem = s.mem := fun rr h => by simpa using h
  unfold State.kcmd; dsimp only
  split
  · split
    · next h => exact h0 _ (State.loadClear_frame _ h)
    · exact ⟨rfl, rfl⟩
  · split
    · next h => exact h0 _ (State.loadWrapped_frame _ h)
    · exact ⟨rfl, rfl⟩
  · split
    · next h => exact State.wrapOut_frame _ h
    · exact ⟨rfl, rfl⟩
  · simp
  · split
    · next h => exact h0 _ (State.keyExtend_frame _ h)
    · exact ⟨rfl, rfl⟩
  · exact ⟨rfl, rfl⟩

@[simp] theorem State.jsubmit_frame (s : State) (v : Word) : (State.jsubmit s v).1.pending = s.pending ∧ (State.jsubmit s v).1.mem = s.mem := by
  simp [State.jsubmit]
@[simp] theorem State.jobCount_frame (s : State) (st : Nat) : (State.jobCount s st).pending = s.pending ∧ (State.jobCount s st).mem = s.mem := by
  simp [State.jobCount]
@[simp] theorem State.jobEnd_pending (s : State) (a flags st seq : Nat) : (State.jobEnd s a flags st seq).pending = s.pending := by
  simp [State.jobEnd]
@[simp] theorem State.jobEnd_wf (s : State) (a flags st seq : Nat) (hwf : s.mem.wf = true) : (State.jobEnd s a flags st seq).mem.wf = true := by
  simp [State.jobEnd, hwf]
@[simp] theorem State.sealRun_pending (s : State) : (State.sealRun s).pending = s.pending := by
  (unfold State.sealRun; (repeat' split) <;> simp_all)
@[simp] theorem State.sealRun_wf (s : State) (hwf : s.mem.wf = true) : (State.sealRun s).mem.wf = true := by
  (unfold State.sealRun; dsimp only; (repeat' split) <;> simp_all)
@[simp] theorem State.jexpWrite_frame (s : State) (v : Word) : (State.jexpWrite s v).1.pending = s.pending ∧ (State.jexpWrite s v).1.mem = s.mem := by
  simp [State.jexpWrite]
@[simp] theorem State.sealWrite_frame (s : State) (off : Nat) (v : Word) : (State.sealWrite s off v).1.pending = s.pending ∧ (State.sealWrite s off v).1.mem = s.mem := by
  (unfold State.sealWrite; (repeat' split) <;> simp_all)
@[simp] theorem State.tradeAnswer_pending (s : State) (key st : Nat) : (State.tradeAnswer s key st).pending = s.pending := by
  (unfold State.tradeAnswer; (repeat' split) <;> simp_all)
@[simp] theorem State.tradeAnswer_wf (s : State) (key st : Nat) (hwf : s.mem.wf = true) : (State.tradeAnswer s key st).mem.wf = true := by
  (unfold State.tradeAnswer; (repeat' split) <;> simp_all)
@[simp] theorem State.eraseSlot_frame (s : State) (k : Nat) : (State.eraseSlot s k).pending = s.pending ∧ (State.eraseSlot s k).mem = s.mem := by
  simp [State.eraseSlot]
@[simp] theorem State.pairFail_frame (s : State) (k code : Nat) : (State.pairFail s k code).pending = s.pending ∧ (State.pairFail s k code).mem = s.mem := by
  simp [State.pairFail]
@[simp] theorem State.pairDone_pending (s : State) (p : Pairing) (d : List Byte) : (State.pairDone s p d).pending = s.pending := by
  simp [State.pairDone]
@[simp] theorem State.pairDone_wf (s : State) (p : Pairing) (d : List Byte) (hwf : s.mem.wf = true) : (State.pairDone s p d).mem.wf = true := by
  simp [State.pairDone, hwf]
@[simp] theorem State.pairLoad_frame (s : State) (p : Pairing) (key : List Byte) : (s.pairLoad p key).pending = s.pending ∧ (s.pairLoad p key).mem = s.mem := by
  have hd : ∀ (x : State) (o : Option State), (∀ rr, o = some rr → rr.pending = x.pending ∧ rr.mem = x.mem) →
      (o.getD x).pending = x.pending ∧ (o.getD x).mem = x.mem := by
    intro x o h
    cases o with
    | none => exact ⟨rfl, rfl⟩
    | some y => exact h y rfl
  have h1 := fun x : State => hd x x.loadClear (fun rr h => State.loadClear_frame _ h)
  have h2 := fun x : State => hd x x.wrapOut (fun rr h => State.wrapOut_frame _ h)
  unfold State.pairLoad; dsimp only
  simp [h1, h2]

@[simp] theorem State.pair_pending (s : State) (target : Nat) (anchors : List (List Byte)) (accept done : Option (List Byte)) : (State.pair s target anchors accept done).pending = s.pending := by
  (unfold State.pair; dsimp only; (repeat' split) <;> simp_all)
@[simp] theorem State.pair_wf (s : State) (target : Nat) (anchors : List (List Byte)) (accept done : Option (List Byte)) (hwf : s.mem.wf = true) : (State.pair s target anchors accept done).mem.wf = true := by
  (unfold State.pair; dsimp only; (repeat' split) <;> simp_all)
@[simp] theorem State.pairTimeout_frame (s : State) : (State.pairTimeout s).pending = s.pending ∧ (State.pairTimeout s).mem = s.mem := by
  (unfold State.pairTimeout; (repeat' split) <;> simp_all)
@[simp] theorem State.unpair_pending (s : State) (id : Nat) : (State.unpair s id).pending = s.pending := by
  (unfold State.unpair; (repeat' split) <;> simp_all)
@[simp] theorem State.unpair_wf (s : State) (id : Nat) (hwf : s.mem.wf = true) : (State.unpair s id).mem.wf = true := by
  (unfold State.unpair; (repeat' split) <;> simp_all)
@[simp] theorem State.exportStep_frame (s : State) : (State.exportStep s).pending = s.pending ∧ (State.exportStep s).mem = s.mem := by
  (unfold State.exportStep; (repeat' split) <;> simp_all)
@[simp] theorem State.exportAck_pending (s : State) (v : Word) : (State.exportAck s v).pending = s.pending := by
  simp [State.exportAck]
@[simp] theorem State.exportAck_wf (s : State) (v : Word) (hwf : s.mem.wf = true) : (State.exportAck s v).mem.wf = true := by
  simp [State.exportAck, hwf]

end Sys2Proof.Machine
end

