-- ==== Sys2Proof/Laws/FramePower.lean ====
section
/-!
SUPPORT. Laws/FramePower.lean: the operations of the bus die, the ledger, general DMA, drains, the ember domain and the parameter store leave the queue of waiting commands alone and keep
the canonical form of memory; most leave memory alone altogether.
-/
namespace Sys2Proof.Machine

-- Machine/Power.lean

@[simp] theorem State.modBus_frame (s : State) (f : BusDie → BusDie) : (State.modBus s f).pending = s.pending ∧ (State.modBus s f).mem = s.mem := by
  simp [State.modBus]
@[simp] theorem State.modHot_frame (s : State) (p : Nat) (f : Hot → Hot) : (State.modHot s p f).pending = s.pending ∧ (State.modHot s p f).mem = s.mem := by
  simp [State.modHot]
@[simp] theorem State.setBstate_frame (s : State) (b : Nat) : (State.setBstate s b).pending = s.pending ∧ (State.setBstate s b).mem = s.mem := by
  simp [State.setBstate]
@[simp] theorem State.setSstate_frame (s : State) (b : Nat) : (State.setSstate s b).pending = s.pending ∧ (State.setSstate s b).mem = s.mem := by
  simp [State.setSstate]
@[simp] theorem State.bevent_frame (s : State) (bits : Word) : (State.bevent s bits).pending = s.pending ∧ (State.bevent s bits).mem = s.mem := by
  simp [State.bevent]
@[simp] theorem State.sevent_frame (s : State) (bits : Word) : (State.sevent s bits).pending = s.pending ∧ (State.sevent s bits).mem = s.mem := by
  simp [State.sevent]
@[simp] theorem State.pevent_frame (s : State) (p : Nat) (bits : Word) : (State.pevent s p bits).pending = s.pending ∧ (State.pevent s p bits).mem = s.mem := by
  simp [State.pevent]
@[simp] theorem State.restoreCheck_frame (s : State) : (State.restoreCheck s).pending = s.pending ∧ (State.restoreCheck s).mem = s.mem := by
  simp [State.restoreCheck]
@[simp] theorem State.setPst_frame (s : State) (p st : Nat) : (State.setPst s p st).pending = s.pending ∧ (State.setPst s p st).mem = s.mem := by
  simp [State.setPst]
@[simp] theorem State.portInrush_frame (s : State) (p : Nat) : (State.portInrush s p).pending = s.pending ∧ (State.portInrush s p).mem = s.mem := by
  simp [State.portInrush]
@[simp] theorem State.portShed_frame (s : State) (p reason : Nat) : (State.portShed s p reason).pending = s.pending ∧ (State.portShed s p reason).mem = s.mem := by
  simp [State.portShed]
@[simp] theorem State.portOff_frame (s : State) (p : Nat) : (State.portOff s p).pending = s.pending ∧ (State.portOff s p).mem = s.mem := by
  simp [State.portOff]
@[simp] theorem State.portAsh_frame (s : State) (p : Nat) : (State.portAsh s p).pending = s.pending ∧ (State.portAsh s p).mem = s.mem := by
  simp [State.portAsh]
@[simp] theorem State.portUpset_frame (s : State) (p kind : Nat) : (State.portUpset s p kind).pending = s.pending ∧ (State.portUpset s p kind).mem = s.mem := by
  simp [State.portUpset]
@[simp] theorem State.hardSignature_frame (s : State) (p kind : Nat) : (State.hardSignature s p kind).pending = s.pending ∧ (State.hardSignature s p kind).mem = s.mem := by
  simp [State.hardSignature]
@[simp] theorem State.portBackoff_frame (s : State) (p : Nat) : (State.portBackoff s p).pending = s.pending ∧ (State.portBackoff s p).mem = s.mem := by
  simp [State.portBackoff]
@[simp] theorem State.fetCooled_frame (s : State) (p : Nat) (temp : BitVec 8) : (State.fetCooled s p temp).pending = s.pending ∧ (State.fetCooled s p temp).mem = s.mem := by
  simp [State.fetCooled]
@[simp] theorem State.inrushComplete_frame (s : State) (p : Nat) : (State.inrushComplete s p).pending = s.pending ∧ (State.inrushComplete s p).mem = s.mem := by
  simp [State.inrushComplete]
@[simp] theorem State.pctlWrite_frame (s : State) (p : Nat) (v : Word) : (State.pctlWrite s p v).1.pending = s.pending ∧ (State.pctlWrite s p v).1.mem = s.mem := by
  simp [State.pctlWrite]
@[simp] theorem State.ashload_frame (s : State) (v : Word) : (State.ashload s v).pending = s.pending ∧ (State.ashload s v).mem = s.mem := by
  simp [State.ashload]
@[simp] theorem State.portClear_frame (s : State) (p : Nat) : (State.portClear s p).pending = s.pending ∧ (State.portClear s p).mem = s.mem := by
  simp [State.portClear]
@[simp] theorem State.pashclr_frame (s : State) (p : Nat) : (State.pashclr s p).pending = s.pending ∧ (State.pashclr s p).mem = s.mem := by
  simp [State.pashclr]
@[simp] theorem State.measurePorts_frame (s : State) (m : PowerMeas) : (State.measurePorts s m).pending = s.pending ∧ (State.measurePorts s m).mem = s.mem := by
  simp [State.measurePorts]
@[simp] theorem State.budgetTick_frame (s : State) (m : PowerMeas) : (State.budgetTick s m).pending = s.pending ∧ (State.budgetTick s m).mem = s.mem := by
  simp [State.budgetTick]
@[simp] theorem State.budgetShed_frame (s : State) : (State.budgetShed s).pending = s.pending ∧ (State.budgetShed s).mem = s.mem := by
  (unfold State.budgetShed; dsimp only; (repeat' split) <;> simp_all)
@[simp] theorem State.portRestore_frame (s : State) (p : Nat) : (State.portRestore s p).pending = s.pending ∧ (State.portRestore s p).mem = s.mem := by
  simp [State.portRestore]
@[simp] theorem State.budgetRestore_frame (s : State) : (State.budgetRestore s).pending = s.pending ∧ (State.budgetRestore s).mem = s.mem := by
  (unfold State.budgetRestore; dsimp only; (repeat' split) <;> simp_all)
@[simp] theorem State.ceilWrite_frame (s : State) (v : Word) : (State.ceilWrite s v).1.pending = s.pending ∧ (State.ceilWrite s v).1.mem = s.mem := by
  simp [State.ceilWrite]
@[simp] theorem State.chargeEval_frame (s : State) (own : BitVec 8) : (State.chargeEval s own).pending = s.pending ∧ (State.chargeEval s own).mem = s.mem := by
  (unfold State.chargeEval; dsimp only; (repeat' split) <;> simp_all)
@[simp] theorem State.chargeFull_frame (s : State) : (State.chargeFull s).pending = s.pending ∧ (State.chargeFull s).mem = s.mem := by
  simp [State.chargeFull]
@[simp] theorem State.convUpset_frame (s : State) : (State.convUpset s).pending = s.pending ∧ (State.convUpset s).mem = s.mem := by
  simp [State.convUpset]
@[simp] theorem State.convAsh_frame (s : State) : (State.convAsh s).pending = s.pending ∧ (State.convAsh s).mem = s.mem := by
  simp [State.convAsh]
@[simp] theorem State.convClear_frame (s : State) : (State.convClear s).pending = s.pending ∧ (State.convClear s).mem = s.mem := by
  simp [State.convClear]
@[simp] theorem State.ovlo_frame (s : State) : (State.ovlo s).pending = s.pending ∧ (State.ovlo s).mem = s.mem := by
  simp [State.ovlo]
@[simp] theorem State.ovloRelease_frame (s : State) : (State.ovloRelease s).pending = s.pending ∧ (State.ovloRelease s).mem = s.mem := by
  simp [State.ovloRelease]
@[simp] theorem State.logicLimit_frame (s : State) (mw : BitVec 16) : (State.logicLimit s mw).pending = s.pending ∧ (State.logicLimit s mw).mem = s.mem := by
  simp [State.logicLimit]
@[simp] theorem State.busBrownOut_frame (s : State) : (State.busBrownOut s).pending = s.pending ∧ (State.busBrownOut s).mem = s.mem := by
  simp [State.busBrownOut]
@[simp] theorem State.shedClass_frame (s : State) (c reason : Nat) : (State.shedClass s c reason).pending = s.pending ∧ (State.shedClass s c reason).mem = s.mem := by
  simp [State.shedClass]
@[simp] theorem State.switchOver_frame (s : State) (vbus : BitVec 16) : (State.switchOver s vbus).pending = s.pending ∧ (State.switchOver s vbus).mem = s.mem := by
  simp [State.switchOver]
@[simp] theorem State.classShed_frame (s : State) (c : Nat) : (State.classShed s c).pending = s.pending ∧ (State.classShed s c).mem = s.mem := by
  (unfold State.classShed; (repeat' split) <;> simp_all)
@[simp] theorem State.pmaxShed_frame (s : State) : (State.pmaxShed s).pending = s.pending ∧ (State.pmaxShed s).mem = s.mem := by
  (unfold State.pmaxShed; (repeat' split) <;> simp_all)
@[simp] theorem State.windowWarning_frame (s : State) : (State.windowWarning s).pending = s.pending ∧ (State.windowWarning s).mem = s.mem := by
  (unfold State.windowWarning; (repeat' split) <;> simp_all)
@[simp] theorem State.windowExpiry_frame (s : State) : (State.windowExpiry s).pending = s.pending ∧ (State.windowExpiry s).mem = s.mem := by
  (unfold State.windowExpiry; (repeat' split) <;> simp_all)
@[simp] theorem State.storageFloor_frame (s : State) (vstore : BitVec 16) : (State.storageFloor s vstore).pending = s.pending ∧ (State.storageFloor s vstore).mem = s.mem := by
  (unfold State.storageFloor; (repeat' split) <;> simp_all)
@[simp] theorem State.busReturn_frame (s : State) (vbus : BitVec 16) : (State.busReturn s vbus).pending = s.pending ∧ (State.busReturn s vbus).mem = s.mem := by
  (unfold State.busReturn; (repeat' split) <;> simp_all)
@[simp] theorem State.restoreStep_frame (s : State) : (State.restoreStep s).pending = s.pending ∧ (State.restoreStep s).mem = s.mem := by
  (unfold State.restoreStep; (repeat' split) <;> simp_all)
@[simp] theorem State.storageWrite_frame (s : State) (off : Nat) (v : Word) : (State.storageWrite s off v).pending = s.pending ∧ (State.storageWrite s off v).mem = s.mem := by
  simp [State.storageWrite]
@[simp] theorem State.tapply_frame (s : State) (v : Word) : (State.tapply s v).1.pending = s.pending ∧ (State.tapply s v).1.mem = s.mem := by
  simp [State.tapply]
@[simp] theorem State.powerWrite_frame (s : State) (slot off : Nat) (v : Word) : (State.powerWrite s slot off v).1.pending = s.pending ∧ (State.powerWrite s slot off v).1.mem = s.mem := by
  (unfold State.powerWrite; (repeat' split) <;> simp_all)
@[simp] theorem State.causewayLost_frame (s : State) : (State.causewayLost s).pending = s.pending ∧ (State.causewayLost s).mem = s.mem := by
  simp [State.causewayLost]
@[simp] theorem State.causewayResume_frame (s : State) : (State.causewayResume s).pending = s.pending ∧ (State.causewayResume s).mem = s.mem := by
  simp [State.causewayResume]
@[simp] theorem State.causewayAlive_frame (s : State) : (State.causewayAlive s).pending = s.pending ∧ (State.causewayAlive s).mem = s.mem := by
  simp [State.causewayAlive]

-- Machine/TileOut.lean

@[simp] theorem State.putSlot_frame (s : State) (n : CtxId) (c : Ctx) : (State.putSlot s n c).pending = s.pending ∧ (State.putSlot s n c).mem = s.mem := by
  simp [State.putSlot]
@[simp] theorem State.writeBanks_frame (s : State) (t : TileId) : (State.writeBanks s t).pending = s.pending ∧ (State.writeBanks s t).mem = s.mem := by
  simp [State.writeBanks]
@[simp] theorem State.tileFlush_frame (s : State) (t : TileId) : (State.tileFlush s t).pending = s.pending ∧ (State.tileFlush s t).mem = s.mem := by
  simp [State.tileFlush]
@[simp] theorem State.markCtx_frame (s : State) (b : Nat) (n : CtxId) : (State.markCtx s b n).pending = s.pending ∧ (State.markCtx s b n).mem = s.mem := by
  simp [State.markCtx]
@[simp] theorem State.badBanks_frame (s : State) (x : Tile) (bad : BitVec 7) : (State.badBanks s x bad).pending = s.pending ∧ (State.badBanks s x bad).mem = s.mem := by
  simp [State.badBanks]
@[simp] theorem State.ashTile_frame (s : State) (t : TileId) (bad : BitVec 7) : (State.ashTile s t bad).pending = s.pending ∧ (State.ashTile s t bad).mem = s.mem := by
  (unfold State.ashTile; dsimp only; (repeat' split) <;> simp_all)
@[simp] theorem State.tileOff_frame (s : State) (t : TileId) : (State.tileOff s t).pending = s.pending ∧ (State.tileOff s t).mem = s.mem := by
  simp [State.tileOff]
@[simp] theorem State.haltNow_frame (s : State) (t : TileId) : (State.haltNow s t).pending = s.pending ∧ (State.haltNow s t).mem = s.mem := by
  (unfold State.haltNow; dsimp only; (repeat' split) <;> simp_all)
@[simp] theorem State.settleTile_frame (s : State) (t : TileId) : (State.settleTile s t).pending = s.pending ∧ (State.settleTile s t).mem = s.mem := by
  simp [State.settleTile]
@[simp] theorem State.unhalt_frame (s : State) (t : TileId) : (State.unhalt s t).pending = s.pending ∧ (State.unhalt s t).mem = s.mem := by
  (unfold State.unhalt; (repeat' split) <;> simp_all)

-- Machine/Ledger.lean

@[simp] theorem State.modLedger_frame (s : State) (f : Ledger → Ledger) : (State.modLedger s f).pending = s.pending ∧ (State.modLedger s f).mem = s.mem := by
  simp [State.modLedger]
@[simp] theorem State.setLrec_frame (s : State) (rid : Nat) (r : LRec) : (State.setLrec s rid r).pending = s.pending ∧ (State.setLrec s rid r).mem = s.mem := by
  simp [State.setLrec]
@[simp] theorem State.levent_frame (s : State) (bits : Word) : (State.levent s bits).pending = s.pending ∧ (State.levent s bits).mem = s.mem := by
  simp [State.levent]
@[simp] theorem State.usbOffLine_frame (s : State) (u : Nat) (hold : Option Nat) : (State.usbOffLine s u hold).pending = s.pending ∧ (State.usbOffLine s u hold).mem = s.mem := by
  simp [State.usbOffLine]
@[simp] theorem State.ashBlock_frame (s : State) (rid : Nat) (bad : BitVec 7) : (State.ashBlock s rid bad).pending = s.pending ∧ (State.ashBlock s rid bad).mem = s.mem := by
  (unfold State.ashBlock; (repeat' split) <;> simp_all)
@[simp] theorem State.holdBlock_frame (s : State) (rid retry : Nat) : (State.holdBlock s rid retry).pending = s.pending ∧ (State.holdBlock s rid retry).mem = s.mem := by
  (unfold State.holdBlock; (repeat' split) <;> simp_all)
@[simp] theorem State.ashRecord_frame (s : State) (rid : Nat) (bad : BitVec 7) : (State.ashRecord s rid bad).pending = s.pending ∧ (State.ashRecord s rid bad).mem = s.mem := by
  simp [State.ashRecord]
@[simp] theorem State.countUpset_frame (s : State) (rid : Nat) (u : Upset) (bad : BitVec 7) : (State.countUpset s rid u bad).pending = s.pending ∧ (State.countUpset s rid u bad).mem = s.mem := by
  simp [State.countUpset]
@[simp] theorem State.recordUpset_frame (s : State) (u : Upset) (bad : BitVec 7) : (State.recordUpset s u bad).pending = s.pending ∧ (State.recordUpset s u bad).mem = s.mem := by
  (unfold State.recordUpset; (repeat' split) <;> simp_all)
@[simp] theorem State.recordOutcome_frame (s : State) (rid kind n retry : Nat) (ashed : Bool) : (State.recordOutcome s rid kind n retry ashed).pending = s.pending ∧ (State.recordOutcome s rid kind n retry ashed).mem = s.mem := by
  simp [State.recordOutcome]
@[simp] theorem State.ledgerRecord_frame (s : State) (bad : BitVec 7) : (State.ledgerRecord s bad).pending = s.pending ∧ (State.ledgerRecord s bad).mem = s.mem := by
  (unfold State.ledgerRecord; (repeat' split) <;> simp_all)
@[simp] theorem State.loadCopy_frame (s : State) (k seq : Nat) : (State.loadCopy s k seq).pending = s.pending ∧ (State.loadCopy s k seq).mem = s.mem := by
  simp [State.loadCopy]
@[simp] theorem State.ledgerLoad_frame (s : State) : (State.ledgerLoad s).pending = s.pending ∧ (State.ledgerLoad s).mem = s.mem := by
  (unfold State.ledgerLoad; dsimp only; (repeat' split) <;> simp_all)
@[simp] theorem State.lctlWrite_frame (s : State) (v : Word) : (State.lctlWrite s v).pending = s.pending ∧ (State.lctlWrite s v).mem = s.mem := by
  simp [State.lctlWrite]
@[simp] theorem State.ledgerWrite_pending (s : State) (fail : Bool) : (State.ledgerWrite s fail).pending = s.pending := by
  simp [State.ledgerWrite]
@[simp] theorem State.ledgerWrite_wf (s : State) (fail : Bool) (hwf : s.mem.wf = true) : (State.ledgerWrite s fail).mem.wf = true := by
  simp [State.ledgerWrite, hwf]
@[simp] theorem State.tellBlock_frame (s : State) (rid : Nat) : (State.tellBlock s rid).pending = s.pending ∧ (State.tellBlock s rid).mem = s.mem := by
  (unfold State.tellBlock; (repeat' split) <;> simp_all)
@[simp] theorem State.clearRec_frame (s : State) (rid : Nat) (ash : Bool) : (State.clearRec s rid ash).pending = s.pending ∧ (State.clearRec s rid ash).mem = s.mem := by
  simp [State.clearRec]
@[simp] theorem State.lclrWrite_frame (s : State) (v : Word) : (State.lclrWrite s v).pending = s.pending ∧ (State.lclrWrite s v).mem = s.mem := by
  simp [State.lclrWrite]
@[simp] theorem State.ledgerRead_frame (s : State) (off : Nat) : (State.ledgerRead s off).1.pending = s.pending ∧ (State.ledgerRead s off).1.mem = s.mem := by
  simp [State.ledgerRead]
@[simp] theorem State.ledgerRegWrite_frame (s : State) (off : Nat) (v : Word) : (State.ledgerRegWrite s off v).pending = s.pending ∧ (State.ledgerRegWrite s off v).mem = s.mem := by
  (unfold State.ledgerRegWrite; (repeat' split) <;> simp_all)
@[simp] theorem State.ledgerClearStep_frame (s : State) : (State.ledgerClearStep s).pending = s.pending ∧ (State.ledgerClearStep s).mem = s.mem := by
  (unfold State.ledgerClearStep; (repeat' split) <;> simp_all)

-- Machine/Dma.lean

@[simp] theorem State.cctlWrite_frame (s : State) (q : Req) (c : Nat) (v : Word) : (State.cctlWrite s q c v).1.pending = s.pending ∧ (State.cctlWrite s q c v).1.mem = s.mem := by
  simp [State.cctlWrite]
@[simp] theorem State.chanWindow_frame (s : State) (q : Req) (c k : Nat) (v : Word) : (State.chanWindow s q c k v).1.pending = s.pending ∧ (State.chanWindow s q c k v).1.mem = s.mem := by
  simp [State.chanWindow]
@[simp] theorem State.cgo_frame (s : State) (q : Req) (c : Nat) : (State.cgo s q c).1.pending = s.pending ∧ (State.cgo s q c).1.mem = s.mem := by
  simp [State.cgo]
@[simp] theorem State.chanWrite_frame (s : State) (q : Req) (c off : Nat) (v : Word) : (State.chanWrite s q c off v).1.pending = s.pending ∧ (State.chanWrite s q c off v).1.mem = s.mem := by
  (unfold State.chanWrite; (repeat' split) <;> simp_all)
@[simp] theorem State.chanStop_frame (s : State) (c : Nat) (code : Code) : (State.chanStop s c code).pending = s.pending ∧ (State.chanStop s c code).mem = s.mem := by
  simp [State.chanStop]
@[simp] theorem State.overlapFree_frame (s : State) (src dst len at_ : Nat) (bs : List Byte) : (State.overlapFree s src dst len at_ bs).1.pending = s.pending ∧ (State.overlapFree s src dst len at_ bs).1.mem = s.mem := by
  simp [State.overlapFree]
@[simp] theorem State.chanMoved_frame (s : State) (c n : Nat) : (State.chanMoved s c n).pending = s.pending ∧ (State.chanMoved s c n).mem = s.mem := by
  simp [State.chanMoved]

-- Machine/Drain.lean

@[simp] theorem State.mergeEntry_pending (s : State) (t : TileId) (e : WbEnt) : (State.mergeEntry s t e).pending = s.pending := by
  simp [State.mergeEntry]
@[simp] theorem State.mergeEntry_wf (s : State) (t : TileId) (e : WbEnt) (hwf : s.mem.wf = true) : (State.mergeEntry s t e).mem.wf = true := by
  (unfold State.mergeEntry; (repeat' split) <;> simp_all)
@[simp] theorem State.dropEntry_frame (s : State) (t : TileId) (seq : Nat) : (State.dropEntry s t seq).pending = s.pending ∧ (State.dropEntry s t seq).mem = s.mem := by
  simp [State.dropEntry]
@[simp] theorem State.progStart_pending (s : State) (t : TileId) (e : WbEnt) : (State.progStart s t e).pending = s.pending := by
  simp [State.progStart]
@[simp] theorem State.progStart_wf (s : State) (t : TileId) (e : WbEnt) (hwf : s.mem.wf = true) : (State.progStart s t e).mem.wf = true := by
  simp [State.progStart, hwf]
@[simp] theorem State.emDrain_pending (s : State) (t : TileId) (e : WbEnt) : (State.emDrain s t e).pending = s.pending := by
  simp [State.emDrain]
@[simp] theorem State.emDrain_wf (s : State) (t : TileId) (e : WbEnt) (hwf : s.mem.wf = true) : (State.emDrain s t e).mem.wf = true := by
  simp [State.emDrain, hwf]
@[simp] theorem State.writeDrain_pending (s : State) (t : TileId) : (State.writeDrain s t).pending = s.pending := by
  (unfold State.writeDrain; dsimp only; (repeat' split) <;> simp_all)
@[simp] theorem State.writeDrain_wf (s : State) (t : TileId) (hwf : s.mem.wf = true) : (State.writeDrain s t).mem.wf = true := by
  (unfold State.writeDrain; dsimp only; (repeat' split) <;> simp_all)
@[simp] theorem State.progFail_pending (s : State) (line : Nat) : (State.progFail s line).pending = s.pending := by
  simp [State.progFail]
@[simp] theorem State.progFail_wf (s : State) (line : Nat) (hwf : s.mem.wf = true) : (State.progFail s line).mem.wf = true := by
  simp [State.progFail, hwf]
@[simp] theorem State.progEnd_wf (s : State) (bank : Nat) (ok1 ok2 : Bool) (hwf : s.mem.wf = true) : (s.progEnd bank ok1 ok2).mem.wf = true := by
  unfold State.progEnd; dsimp only
  split
  · exact hwf
  · next p hp =>
    have h1 : ∀ n, (({ s with mem := { s.mem with progs := vset s.mem.progs bank none } } : State).modReg 0x024 0x100C (· + n)).mem.wf = true := by
      intro n; rw [(State.modReg_frame _ _ _ _).2]; exact hwf
    have h3 : ∀ n (c : Prop) [Decidable c], (if c then (({ s with mem := { s.mem with progs := vset s.mem.progs bank none } } : State).modReg 0x024 0x100C (· + n))
        else (({ s with mem := { s.mem with progs := vset s.mem.progs bank none } } : State).modReg 0x024 0x100C (· + n)).modReg 0x024 0x1010 (· + 1)).mem.wf = true := by
      intro n c _; split
      · exact h1 n
      · rw [(State.modReg_frame _ _ _ _).2]; exact h1 n
    generalize hx : (if (ok1 : Bool) = true then _ else _ : State) = s3
    have h3' : s3.mem.wf = true := hx ▸ h3 _ _
    have h4 : (if (!ok1 && !ok2) = true then s3.progFail p.line else s3).mem.wf = true := by
      split
      · exact State.progFail_wf _ _ h3'
      · exact h3'
    generalize hy : (if (!ok1 && !ok2) = true then s3.progFail p.line else s3) = s4 at h4 ⊢
    have h5 : ∀ x : State, x.mem = s4.mem → (match x.emWaiting bank with
        | x0 :: _ => x.progStart x0.1 x0.2
        | [] => x).mem.wf = true := by
      intro x hx
      split
      · exact State.progStart_wf _ _ _ (by rw [hx]; exact h4)
      · rw [hx]; exact h4
    apply h5
    split <;> simp

@[simp] theorem State.progEnd_pending (s : State) (bank : Nat) (ok1 ok2 : Bool) : (State.progEnd s bank ok1 ok2).pending = s.pending := by
  (unfold State.progEnd; dsimp only; (repeat' split) <;> simp_all)
@[simp] theorem State.writeResponse_frame (s : State) (t : TileId) (line : Nat) (err : Bool) : (State.writeResponse s t line err).pending = s.pending ∧ (State.writeResponse s t line err).mem = s.mem := by
  (unfold State.writeResponse; dsimp only; (repeat' split) <;> simp_all)
@[simp] theorem State.tileTimeout_frame (s : State) (t : TileId) (g : Target) : (State.tileTimeout s t g).pending = s.pending ∧ (State.tileTimeout s t g).mem = s.mem := by
  (unfold State.tileTimeout; dsimp only; (repeat' split) <;> simp_all)
@[simp] theorem State.targetTimeout_pending (s : State) (r : Requester) (g : Target) (bank : BitVec 5) : (State.targetTimeout s r g bank).pending = s.pending := by
  (unfold State.targetTimeout; dsimp only; (repeat' split) <;> simp_all)
@[simp] theorem State.targetTimeout_wf (s : State) (r : Requester) (g : Target) (bank : BitVec 5) (hwf : s.mem.wf = true) : (State.targetTimeout s r g bank).mem.wf = true := by
  (unfold State.targetTimeout; dsimp only; (repeat' split) <;> simp_all)
@[simp] theorem State.refreshRate_frame (s : State) (rate : BitVec 3) (temp : BitVec 8) : (State.refreshRate s rate temp).pending = s.pending ∧ (State.refreshRate s rate temp).mem = s.mem := by
  simp [State.refreshRate]
@[simp] theorem State.zeroDram_wf (s : State) (hwf : s.mem.wf = true) : (s.zeroDram).mem.wf = true := by
  unfold State.zeroDram; dsimp only
  rw [(State.setReg_frame _ _ _ _).2, (State.modReg_frame _ _ _ _).2]
  have h := (Mem.wf_iff _).mp hwf
  exact (Mem.wf_iff _).mpr ⟨Sparse.filter_wf _ _ _ h.1, Sparse.filter_wf _ _ _ h.2.1, h.2.2.1, Sparse.filter_wf _ _ _ h.2.2.2.1, Sparse.nil_wf _⟩

@[simp] theorem State.zeroDram_pending (s : State) : (State.zeroDram s).pending = s.pending := by
  simp [State.zeroDram]
@[simp] theorem State.zeroStep_frame (s : State) : (State.zeroStep s).pending = s.pending ∧ (State.zeroStep s).mem = s.mem := by
  simp [State.zeroStep]
@[simp] theorem State.refreshBank_pending (s : State) (k : Nat) : (State.refreshBank s k).pending = s.pending := by
  simp [State.refreshBank]
@[simp] theorem State.refreshBank_wf (s : State) (k : Nat) (hwf : s.mem.wf = true) : (State.refreshBank s k).mem.wf = true := by
  simp [State.refreshBank, hwf]

-- Machine/Ember.lean

@[simp] theorem State.modRtc_frame (s : State) (f : Rtc → Rtc) : (State.modRtc s f).pending = s.pending ∧ (State.modRtc s f).mem = s.mem := by
  simp [State.modRtc]
@[simp] theorem State.modPdc_frame (s : State) (f : Pdc → Pdc) : (State.modPdc s f).pending = s.pending ∧ (State.modPdc s f).mem = s.mem := by
  simp [State.modPdc]
@[simp] theorem State.modDev_frame (s : State) (f : Dev → Dev) : (State.modDev s f).pending = s.pending ∧ (State.modDev s f).mem = s.mem := by
  simp [State.modDev]
@[simp] theorem State.emberTick_frame (s : State) : (State.emberTick s).pending = s.pending ∧ (State.emberTick s).mem = s.mem := by
  simp [State.emberTick]
@[simp] theorem State.rtcFollow_frame (s : State) (ticks : Nat) : (State.rtcFollow s ticks).pending = s.pending ∧ (State.rtcFollow s ticks).mem = s.mem := by
  simp [State.rtcFollow]
@[simp] theorem State.rtcSet_frame (s : State) : (State.rtcSet s).1.pending = s.pending ∧ (State.rtcSet s).1.mem = s.mem := by
  simp [State.rtcSet]
@[simp] theorem State.clockFail_frame (s : State) (b : Bool) : (State.clockFail s b).pending = s.pending ∧ (State.clockFail s b).mem = s.mem := by
  simp [State.clockFail]
@[simp] theorem State.rtcAlarm_frame (s : State) : (State.rtcAlarm s).pending = s.pending ∧ (State.rtcAlarm s).mem = s.mem := by
  simp [State.rtcAlarm]
@[simp] theorem State.wevent_frame (s : State) (bits : Word) : (State.wevent s bits).pending = s.pending ∧ (State.wevent s bits).mem = s.mem := by
  simp [State.wevent]
@[simp] theorem State.openWake_frame (s : State) : (State.openWake s).pending = s.pending ∧ (State.openWake s).mem = s.mem := by
  simp [State.openWake]
@[simp] theorem State.rtcRead_frame (s : State) (off : Nat) : (State.rtcRead s off).1.pending = s.pending ∧ (State.rtcRead s off).1.mem = s.mem := by
  (unfold State.rtcRead; (repeat' split) <;> simp_all)
@[simp] theorem State.rtcWrite_frame (s : State) (off : Nat) (v : Word) : (State.rtcWrite s off v).1.pending = s.pending ∧ (State.rtcWrite s off v).1.mem = s.mem := by
  simp [State.rtcWrite]
@[simp] theorem State.evalTarget_frame (s : State) : (State.evalTarget s).pending = s.pending ∧ (State.evalTarget s).mem = s.mem := by
  simp [State.evalTarget]
@[simp] theorem State.wpermit_frame (s : State) (w : World) (v : Word) : (State.wpermit s w v).1.pending = s.pending ∧ (State.wpermit s w v).1.mem = s.mem := by
  simp [State.wpermit]
@[simp] theorem State.tgate_frame (s : State) (q : Req) : (State.tgate s q).pending = s.pending ∧ (State.tgate s q).mem = s.mem := by
  (unfold State.tgate; (repeat' split) <;> simp_all)
@[simp] theorem State.gateRestart_frame (s : State) (t : TileId) : (State.gateRestart s t).pending = s.pending ∧ (State.gateRestart s t).mem = s.mem := by
  simp [State.gateRestart]
@[simp] theorem State.idleEntry_frame (s : State) : (State.idleEntry s).pending = s.pending ∧ (State.idleEntry s).mem = s.mem := by
  simp [State.idleEntry]
@[simp] theorem State.dormantSave_wf (s : State) (hwf : s.mem.wf = true) : (s.dormantSave).mem.wf = true := by
  unfold State.dormantSave; dsimp only
  rw [(State.setReg_frame _ _ _ _).2, (State.modPdc_frame _ _).2]
  refine State.foldl1_keep (fun x => x.mem.wf = true) _ (fun a p h0 => ?_) _ _ hwf
  split
  · exact State.masterStore_wf _ _ _ h0
  · simpa using h0

@[simp] theorem State.dormantSave_pending (s : State) : (State.dormantSave s).pending = s.pending := by
  simp [State.dormantSave]
@[simp] theorem State.lanesOff_frame (s : State) : (State.lanesOff s).pending = s.pending ∧ (State.lanesOff s).mem = s.mem := by
  simp [State.lanesOff]
@[simp] theorem State.sleepEntry_pending (s : State) : (State.sleepEntry s).pending = s.pending := by
  (unfold State.sleepEntry; (repeat' split) <;> simp_all)
@[simp] theorem State.sleepEntry_wf (s : State) (hwf : s.mem.wf = true) : (State.sleepEntry s).mem.wf = true := by
  (unfold State.sleepEntry; (repeat' split) <;> simp_all)
@[simp] theorem State.entryStop_frame (s : State) : (State.entryStop s).pending = s.pending ∧ (State.entryStop s).mem = s.mem := by
  (unfold State.entryStop; (repeat' split) <;> simp_all)
@[simp] theorem State.mirrorScfg_frame (s : State) (i : Nat) : (State.mirrorScfg s i).pending = s.pending ∧ (State.mirrorScfg s i).mem = s.mem := by
  simp [State.mirrorScfg]
@[simp] theorem State.wakeEvent_frame (s : State) (b : Nat) : (State.wakeEvent s b).pending = s.pending ∧ (State.wakeEvent s b).mem = s.mem := by
  (unfold State.wakeEvent; (repeat' split) <;> simp_all)
@[simp] theorem State.scrubReport_frame (s : State) : (State.scrubReport s).pending = s.pending ∧ (State.scrubReport s).mem = s.mem := by
  simp [State.scrubReport]
@[simp] theorem State.exitDone_frame (s : State) (i : Nat) : (s.exitDone i).pending = s.pending ∧ (s.exitDone i).mem = s.mem := by
  have hs : ∀ (s : State) (b : Nat), (match s.heldSource b with
      | some j => if s.irqSense j = 0 ∧ irqSoft j = false then s else { s with irq := { s.irq with pend := setIrqBit s.irq.pend j true } }
      | none => s).pending = s.pending ∧ (match s.heldSource b with
      | some j => if s.irqSense j = 0 ∧ irqSoft j = false then s else { s with irq := { s.irq with pend := setIrqBit s.irq.pend j true } }
      | none => s).mem = s.mem := by
    intro s b; repeat' split
    all_goals exact ⟨rfl, rfl⟩
  unfold State.exitDone; dsimp only
  simp only [State.modPdc_frame, State.modReg_frame, State.setReg_frame]
  exact ⟨State.foldl_pending _ (fun s b => (hs s b).1) _ _, State.foldl_mem _ (fun s b => (hs s b).2) _ _⟩

@[simp] theorem State.powerTile_frame (s : State) (t : TileId) : (State.powerTile s t).pending = s.pending ∧ (State.powerTile s t).mem = s.mem := by
  simp [State.powerTile]
@[simp] theorem State.dozeExit_frame (s : State) (i : Nat) : (State.dozeExit s i).pending = s.pending ∧ (State.dozeExit s i).mem = s.mem := by
  simp [State.dozeExit]
@[simp] theorem State.domainsOn_frame (s : State) : (State.domainsOn s).pending = s.pending ∧ (State.domainsOn s).mem = s.mem := by
  simp [State.domainsOn]
@[simp] theorem State.bankedExit_frame (s : State) : (State.bankedExit s).pending = s.pending ∧ (State.bankedExit s).mem = s.mem := by
  (unfold State.bankedExit; (repeat' split) <;> simp_all)
@[simp] theorem State.ashedExit_frame (s : State) (i : Nat) : (State.ashedExit s i).pending = s.pending ∧ (State.ashedExit s i).mem = s.mem := by
  (unfold State.ashedExit; (repeat' split) <;> simp_all)
@[simp] theorem State.tileResume_frame (s : State) (t : TileId) : (State.tileResume s t).pending = s.pending ∧ (State.tileResume s t).mem = s.mem := by
  (unfold State.tileResume; dsimp only; (repeat' split) <;> simp_all)
@[simp] theorem State.wlclr_frame (s : State) (v : Word) : (State.wlclr s v).pending = s.pending ∧ (State.wlclr s v).mem = s.mem := by
  simp [State.wlclr]
@[simp] theorem State.wakeWrite_frame (s : State) (off : Nat) (v : Word) : (State.wakeWrite s off v).pending = s.pending ∧ (State.wakeWrite s off v).mem = s.mem := by
  simp [State.wakeWrite]
@[simp] theorem State.scrubMark_pending (s : State) (line d : Nat) : (State.scrubMark s line d).pending = s.pending := by
  simp [State.scrubMark]
@[simp] theorem State.scrubMark_wf (s : State) (line d : Nat) (hwf : s.mem.wf = true) : (State.scrubMark s line d).mem.wf = true := by
  simp [State.scrubMark, hwf]
@[simp] theorem State.scrubLine_pending (s : State) (ce : Bool) (ue : Option (BitVec 3)) : (State.scrubLine s ce ue).pending = s.pending := by
  (unfold State.scrubLine; (repeat' split) <;> simp_all)
@[simp] theorem State.scrubLine_wf (s : State) (ce : Bool) (ue : Option (BitVec 3)) (hwf : s.mem.wf = true) : (State.scrubLine s ce ue).mem.wf = true := by
  (unfold State.scrubLine; (repeat' split) <;> simp_all)

-- Machine/Store.lean

@[simp] theorem State.storeNote_frame (s : State) (sub : Nat) (v : List Byte) : (State.storeNote s sub v).pending = s.pending ∧ (State.storeNote s sub v).mem = s.mem := by
  simp [State.storeNote]
@[simp] theorem State.stepFail_frame (s : State) (w : World) (reason : Nat) : (State.stepFail s w reason).pending = s.pending ∧ (State.stepFail s w reason).mem = s.mem := by
  simp [State.stepFail]
@[simp] theorem State.storeBegin_frame (s : State) (own : List (Nat × List Byte)) : (State.storeBegin s own).pending = s.pending ∧ (State.storeBegin s own).mem = s.mem := by
  simp [State.storeBegin]
@[simp] theorem State.storePart_pending (s : State) (fail : Bool) : (State.storePart s fail).pending = s.pending := by
  simp [State.storePart]
@[simp] theorem State.storePart_wf (s : State) (fail : Bool) (hwf : s.mem.wf = true) : (State.storePart s fail).mem.wf = true := by
  simp [State.storePart, hwf]
@[simp] theorem State.storeStep_pending (s : State) (own : List (Nat × List Byte)) (fail : Bool) : (State.storeStep s own fail).pending = s.pending := by
  (unfold State.storeStep; (repeat' split) <;> simp_all)
@[simp] theorem State.storeStep_wf (s : State) (own : List (Nat × List Byte)) (fail : Bool) (hwf : s.mem.wf = true) : (State.storeStep s own fail).mem.wf = true := by
  (unfold State.storeStep; (repeat' split) <;> simp_all)
@[simp] theorem State.restoreDefaults_wf (s : State) (hwf : s.mem.wf = true) : (s.restoreDefaults).mem.wf = true := by
  unfold State.restoreDefaults; dsimp only
  split
  · split
    · simpa using hwf
    · have h1 : ∀ l : List DictDesc, (l.foldl (fun (s : State) e => (s.modDict (fun d => { d with vals := Sparse.erase e.key d.vals })).publish e.key e.defaultBytes) s).mem.wf = true := by
        intro l; exact State.foldl_wf _ (fun s a h => by simpa using h) _ _ hwf
      rw [(State.stepDone_frame _ _ _).2, (State.stepN_frame _ _ _).2, (State.modDict_frame _ _).2]
      split
      · rw [(State.storeNote_frame _ _ _).2]; exact State.masterStore_wf _ _ _ (State.masterStore_wf _ _ _ (h1 _))
      · exact h1 _
  · exact hwf

@[simp] theorem State.restoreDefaults_pending (s : State) : (State.restoreDefaults s).pending = s.pending := by
  (unfold State.restoreDefaults; (repeat' split) <;> simp_all)
@[simp] theorem State.autoStore_frame (s : State) : (State.autoStore s).pending = s.pending ∧ (State.autoStore s).mem = s.mem := by
  simp [State.autoStore]
@[simp] theorem State.storeApply_frame (s : State) (refused : List Nat) (key ty : Nat) (v : List Byte) : (State.storeApply s refused key ty v).1.pending = s.pending ∧ (State.storeApply s refused key ty v).1.mem = s.mem := by
  (unfold State.storeApply; (repeat' split) <;> simp_all)
@[simp] theorem State.storeRecords_frame (s : State) (refused : List Nat) (a0 : Nat) (a1 : List Byte) (a2 : Nat) : (State.storeRecords s refused a0 a1 a2).1.pending = s.pending ∧ (State.storeRecords s refused a0 a1 a2).1.mem = s.mem := by
  induction a0 generalizing s a1 a2 with
  | zero => exact ⟨rfl, rfl⟩
  | succ n ih =>
    unfold State.storeRecords; dsimp only
    split
    · exact ⟨rfl, rfl⟩
    · have h := ih (s.storeApply refused (frameVal a1 0 2 * 256 + frameByte a1 2) (frameByte a1 3) ((a1.drop 8).take (frameVal a1 4 2))).1
      simpa using h _ _

@[simp] theorem State.storeLoad_frame (s : State) (refused : List Nat) : (State.storeLoad s refused).pending = s.pending ∧ (State.storeLoad s refused).mem = s.mem := by
  (unfold State.storeLoad; (repeat' split) <;> simp_all)

end Sys2Proof.Machine
end

