-- ==== Sys2Proof/Laws/FrameSys.lean ====
section
/-!
SUPPORT. Laws/FrameSys.lean: the operations of resets, boot, debug, the register bus and the rows of commands leave the queue of waiting commands alone and keep
the canonical form of memory; most leave memory alone altogether.
-/
namespace Sys2Proof.Machine

-- Machine/Reset.lean

@[simp] theorem State.modBoot_frame (s : State) (f : Boot → Boot) : (State.modBoot s f).pending = s.pending ∧ (State.modBoot s f).mem = s.mem := by
  simp [State.modBoot]
@[simp] theorem State.keepRegs_frame (s : State) (keep : Nat → Nat → Bool) : (State.keepRegs s keep).pending = s.pending ∧ (State.keepRegs s keep).mem = s.mem := by
  simp [State.keepRegs]
@[simp] theorem State.progsLost_pending (s : State) : (s.progsLost).pending = s.pending := by
  unfold State.progsLost
  refine State.foldl_pending _ (fun s b => ?_) _ _
  dsimp only
  split
  · rfl
  · split
    · rfl
    · simp
@[simp] theorem State.progsLost_wf (s : State) (hwf : s.mem.wf = true) : (s.progsLost).mem.wf = true := by
  unfold State.progsLost
  refine State.foldl_wf _ (fun s b h => ?_) _ _ hwf
  dsimp only
  split
  · exact h
  · split
    · exact Mem.putBytes_wf _ _ _ h
    · exact State.markDamaged_wf _ _ h

@[simp] theorem State.memReset_wf (s : State) (keep : Nat → Bool) (colours : Bool) (hwf : s.mem.wf = true) : (s.memReset keep colours).mem.wf = true := by
  have h := (Mem.wf_iff _).mp hwf
  unfold State.memReset; dsimp only
  refine (Mem.wf_iff _).mpr ⟨Sparse.filter_wf _ _ _ h.1, Sparse.filter_wf _ _ _ h.2.1, ?_, Sparse.filter_wf _ _ _ h.2.2.2.1, Sparse.nil_wf _⟩
  dsimp only; split
  · exact Sparse.filter_wf _ _ _ h.2.2.1
  · exact Sparse.nil_wf _

@[simp] theorem State.memReset_pending (s : State) (keep : Nat → Bool) (colours : Bool) : (State.memReset s keep colours).pending = s.pending := by
  simp [State.memReset]
@[simp] theorem State.newNonce_frame (s : State) : (State.newNonce s).pending = s.pending ∧ (State.newNonce s).mem = s.mem := by
  simp [State.newNonce]
@[simp] theorem State.relock_frame (s : State) : (State.relock s).pending = s.pending ∧ (State.relock s).mem = s.mem := by
  simp [State.relock]
@[simp] theorem State.blocksReset_frame (s : State) : (State.blocksReset s).pending = s.pending ∧ (State.blocksReset s).mem = s.mem := by
  simp [State.blocksReset]
@[simp] theorem State.noteReset_frame (s : State) (code : Option Nat) (zero : Bool) : (State.noteReset s code zero).pending = s.pending ∧ (State.noteReset s code zero).mem = s.mem := by
  simp [State.noteReset]
@[simp] theorem State.seqDue_frame (s : State) (held : Bool) : (State.seqDue s held).pending = s.pending ∧ (State.seqDue s held).mem = s.mem := by
  simp [State.seqDue]
@[simp] theorem State.deviceReset_pending (s : State) (code : Option Nat) (held : Bool) : (State.deviceReset s code held).pending = s.pending := by
  simp [State.deviceReset]
@[simp] theorem State.deviceReset_wf (s : State) (code : Option Nat) (held : Bool) (hwf : s.mem.wf = true) : (State.deviceReset s code held).mem.wf = true := by
  simp [State.deviceReset, hwf]
@[simp] theorem State.brownOut_pending (s : State) : (State.brownOut s).pending = s.pending := by
  simp [State.brownOut]
@[simp] theorem State.brownOut_wf (s : State) (hwf : s.mem.wf = true) : (State.brownOut s).mem.wf = true := by
  simp [State.brownOut, hwf]
@[simp] theorem State.railReturn_frame (s : State) : (State.railReturn s).pending = s.pending ∧ (State.railReturn s).mem = s.mem := by
  simp [State.railReturn]
@[simp] theorem State.busReset_wf (s : State) (started : Bool) (hwf : s.mem.wf = true) : (s.busReset started).mem.wf = true := by
  have h := (Mem.wf_iff _).mp (State.progsLost_wf s hwf)
  unfold State.busReset; dsimp only
  rw [(State.newNonce_frame _).2]
  exact (Mem.wf_iff _).mpr ⟨Sparse.filter_wf _ _ _ h.1, Sparse.nil_wf _, Sparse.nil_wf _, Sparse.filter_wf _ _ _ h.2.2.2.1, Sparse.nil_wf _⟩

@[simp] theorem State.busReset_pending (s : State) (started : Bool) : (State.busReset s started).pending = s.pending := by
  simp [State.busReset]
@[simp] theorem State.uvloRising_frame (s : State) : (State.uvloRising s).pending = s.pending ∧ (State.uvloRising s).mem = s.mem := by
  simp [State.uvloRising]
@[simp] theorem State.resetN_pending (s : State) (low : Bool) : (State.resetN s low).pending = s.pending := by
  simp [State.resetN]
@[simp] theorem State.resetN_wf (s : State) (low : Bool) (hwf : s.mem.wf = true) : (State.resetN s low).mem.wf = true := by
  simp [State.resetN, hwf]
@[simp] theorem State.dictReset_pending (s : State) : (State.dictReset s).pending = s.pending := by
  (unfold State.dictReset; (repeat' split) <;> simp_all)
@[simp] theorem State.dictReset_wf (s : State) (hwf : s.mem.wf = true) : (State.dictReset s).mem.wf = true := by
  (unfold State.dictReset; (repeat' split) <;> simp_all)
@[simp] theorem State.bootStart_frame (s : State) (w : World) : (State.bootStart s w).pending = s.pending ∧ (State.bootStart s w).mem = s.mem := by
  simp [State.bootStart]
@[simp] theorem State.resetLinks_frame (s : State) (w : World) (t : TileId) : (State.resetLinks s w t).pending = s.pending ∧ (State.resetLinks s w t).mem = s.mem := by
  (unfold State.resetLinks; dsimp only; (repeat' split) <;> simp_all)
@[simp] theorem State.forgetWaits_frame (s : State) (w : World) (t : TileId) : (State.forgetWaits s w t).pending = s.pending ∧ (State.forgetWaits s w t).mem = s.mem := by
  simp [State.forgetWaits]
@[simp] theorem State.releaseAll_frame (s : State) (w : World) : (State.releaseAll s w).pending = s.pending ∧ (State.releaseAll s w).mem = s.mem := by
  simp [State.releaseAll]
@[simp] theorem State.dropWorldIsles_frame (s : State) (w : World) : (State.dropWorldIsles s w).pending = s.pending ∧ (State.dropWorldIsles s w).mem = s.mem := by
  simp [State.dropWorldIsles]
@[simp] theorem State.xlateReset_frame (s : State) (w : World) (t : TileId) : (State.xlateReset s w t).pending = s.pending ∧ (State.xlateReset s w t).mem = s.mem := by
  simp [State.xlateReset]
@[simp] theorem State.irqReset_frame (s : State) (w : World) : (State.irqReset s w).pending = s.pending ∧ (State.irqReset s w).mem = s.mem := by
  simp [State.irqReset]
@[simp] theorem State.dictWorldReset_wf (s : State) (w : World) (hwf : s.mem.wf = true) : (s.dictWorldReset w).mem.wf = true := by
  unfold State.dictWorldReset; dsimp only
  rw [(State.cmdsWorldReset_frame _ _).2]
  refine State.resubmit_wf _ (State.foldl_wf _ (fun s f h => State.answer_wf _ _ _ _ h) _ _ ?_)
  rw [(State.modDict_frame _ _).2, (State.modDict_frame _ _).2]; exact hwf

@[simp] theorem State.dictWorldReset_pending (s : State) (w : World) : (State.dictWorldReset s w).pending = s.pending := by
  simp [State.dictWorldReset]
@[simp] theorem State.worldResetNow_pending (s : State) (w : World) : (State.worldResetNow s w).pending = s.pending := by
  (unfold State.worldResetNow; (repeat' split) <;> simp_all)
@[simp] theorem State.worldResetNow_wf (s : State) (w : World) (hwf : s.mem.wf = true) : (State.worldResetNow s w).mem.wf = true := by
  (unfold State.worldResetNow; (repeat' split) <;> simp_all)
@[simp] theorem State.worldReset_pending (s : State) (w : World) : (State.worldReset s w).pending = s.pending := by
  simp [State.worldReset]
@[simp] theorem State.worldReset_wf (s : State) (w : World) (hwf : s.mem.wf = true) : (State.worldReset s w).mem.wf = true := by
  simp [State.worldReset, hwf]
@[simp] theorem State.worldResetWaits_pending (s : State) : (State.worldResetWaits s).pending = s.pending := by
  simp [State.worldResetWaits]
@[simp] theorem State.worldResetWaits_wf (s : State) (hwf : s.mem.wf = true) : (State.worldResetWaits s).mem.wf = true := by
  simp [State.worldResetWaits, hwf]
@[simp] theorem State.wreset_pending (s : State) (q : Req) (slot : Nat) (v : Word) : (State.wreset s q slot v).1.pending = s.pending := by
  simp [State.wreset]
@[simp] theorem State.wreset_wf (s : State) (q : Req) (slot : Nat) (v : Word) (hwf : s.mem.wf = true) : (State.wreset s q slot v).1.mem.wf = true := by
  simp [State.wreset, hwf]
@[simp] theorem State.treset_frame (s : State) (q : Req) (v : Word) : (State.treset s q v).1.pending = s.pending ∧ (State.treset s q v).1.mem = s.mem := by
  simp [State.treset]
@[simp] theorem State.tresetDone_frame (s : State) (t : TileId) (bist : BitVec 4) : (State.tresetDone s t bist).pending = s.pending ∧ (State.tresetDone s t bist).mem = s.mem := by
  (unfold State.tresetDone; (repeat' split) <;> simp_all)
@[simp] theorem State.tstart_frame (s : State) (q : Req) (v : Word) : (State.tstart s q v).1.pending = s.pending ∧ (State.tstart s q v).1.mem = s.mem := by
  simp [State.tstart]
@[simp] theorem State.wdReload_frame (s : State) (w : World) : (State.wdReload s w).pending = s.pending ∧ (State.wdReload s w).mem = s.mem := by
  simp [State.wdReload]
@[simp] theorem State.wdExpire_pending (s : State) (w : World) : (State.wdExpire s w).pending = s.pending := by
  (unfold State.wdExpire; (repeat' split) <;> simp_all)
@[simp] theorem State.wdExpire_wf (s : State) (w : World) (hwf : s.mem.wf = true) : (State.wdExpire s w).mem.wf = true := by
  (unfold State.wdExpire; (repeat' split) <;> simp_all)
@[simp] theorem State.wdDue_pending (s : State) (w : World) : (State.wdDue s w).pending = s.pending := by
  simp [State.wdDue]
@[simp] theorem State.wdDue_wf (s : State) (w : World) (hwf : s.mem.wf = true) : (State.wdDue s w).mem.wf = true := by
  simp [State.wdDue, hwf]
@[simp] theorem State.wdWarn_frame (s : State) (w : World) : (State.wdWarn s w).pending = s.pending ∧ (State.wdWarn s w).mem = s.mem := by
  simp [State.wdWarn]
@[simp] theorem State.wdKick_pending (s : State) (w : World) (v : Word) : (State.wdKick s w v).pending = s.pending := by
  simp [State.wdKick]
@[simp] theorem State.wdKick_wf (s : State) (w : World) (v : Word) (hwf : s.mem.wf = true) : (State.wdKick s w v).mem.wf = true := by
  simp [State.wdKick, hwf]
@[simp] theorem State.wdWrite_pending (s : State) (w : World) (off : Nat) (v : Word) : (State.wdWrite s w off v).pending = s.pending := by
  (unfold State.wdWrite; (repeat' split) <;> simp_all)
@[simp] theorem State.wdWrite_wf (s : State) (w : World) (off : Nat) (v : Word) (hwf : s.mem.wf = true) : (State.wdWrite s w off v).mem.wf = true := by
  (unfold State.wdWrite; (repeat' split) <;> simp_all)
@[simp] theorem State.wdTick_frame (s : State) : (State.wdTick s).pending = s.pending ∧ (State.wdTick s).mem = s.mem := by
  simp [State.wdTick]
@[simp] theorem State.dormantLoss_pending (s : State) : (State.dormantLoss s).pending = s.pending := by
  simp [State.dormantLoss]
@[simp] theorem State.dormantLoss_wf (s : State) (hwf : s.mem.wf = true) : (State.dormantLoss s).mem.wf = true := by
  simp [State.dormantLoss, hwf]
@[simp] theorem State.dormantRestore_frame (s : State) : (State.dormantRestore s).pending = s.pending ∧ (State.dormantRestore s).mem = s.mem := by
  simp [State.dormantRestore]
@[simp] theorem State.dormantExit_pending (s : State) : (State.dormantExit s).pending = s.pending := by
  (unfold State.dormantExit; (repeat' split) <;> simp_all)
@[simp] theorem State.dormantExit_wf (s : State) (hwf : s.mem.wf = true) : (State.dormantExit s).mem.wf = true := by
  (unfold State.dormantExit; (repeat' split) <;> simp_all)

-- Machine/Boot.lean

@[simp] theorem State.runFresh_frame (s : State) (t : TileId) (n : CtxId) (c : Ctx) : (State.runFresh s t n c).pending = s.pending ∧ (State.runFresh s t n c).mem = s.mem := by
  simp [State.runFresh]
@[simp] theorem State.resetSequence_pending (s : State) (bist : List (BitVec 4)) (phy : BitVec 16) : (State.resetSequence s bist phy).pending = s.pending := by
  (unfold State.resetSequence; dsimp only; (repeat' split) <;> simp_all)
@[simp] theorem State.resetSequence_wf (s : State) (bist : List (BitVec 4)) (phy : BitVec 16) (hwf : s.mem.wf = true) : (State.resetSequence s bist phy).mem.wf = true := by
  (unfold State.resetSequence; dsimp only; (repeat' split) <;> simp_all)
@[simp] theorem State.runImage_pending (s : State) (b : List Byte) : (State.runImage s b).pending = s.pending := by
  simp [State.runImage]
@[simp] theorem State.runImage_wf (s : State) (b : List Byte) (hwf : s.mem.wf = true) : (State.runImage s b).mem.wf = true := by
  simp [State.runImage, hwf]
@[simp] theorem State.runCopy_pending (s : State) (c : Nat) : (State.runCopy s c).pending = s.pending := by
  simp [State.runCopy]
@[simp] theorem State.runCopy_wf (s : State) (c : Nat) (hwf : s.mem.wf = true) : (State.runCopy s c).mem.wf = true := by
  simp [State.runCopy, hwf]
@[simp] theorem State.recover_frame (s : State) : (State.recover s).pending = s.pending ∧ (State.recover s).mem = s.mem := by
  simp [State.recover]
@[simp] theorem State.tinderBoot_pending (s : State) (rcvry : Bool) : (State.tinderBoot s rcvry).pending = s.pending := by
  (unfold State.tinderBoot; dsimp only; (repeat' split) <;> simp_all)
@[simp] theorem State.tinderBoot_wf (s : State) (rcvry : Bool) (hwf : s.mem.wf = true) : (State.tinderBoot s rcvry).mem.wf = true := by
  (unfold State.tinderBoot; dsimp only; (repeat' split) <;> simp_all)
@[simp] theorem State.recoveryTransfer_pending (s : State) (b : List Byte) (complete : Bool) : (State.recoveryTransfer s b complete).pending = s.pending := by
  (unfold State.recoveryTransfer; dsimp only; (repeat' split) <;> simp_all)
@[simp] theorem State.recoveryTransfer_wf (s : State) (b : List Byte) (complete : Bool) (hwf : s.mem.wf = true) : (State.recoveryTransfer s b complete).mem.wf = true := by
  (unfold State.recoveryTransfer; dsimp only; (repeat' split) <;> simp_all)
@[simp] theorem State.vecLock_frame (s : State) (v : Word) : (State.vecLock s v).pending = s.pending ∧ (State.vecLock s v).mem = s.mem := by
  simp [State.vecLock]
@[simp] theorem State.bootControl_frame (s : State) (off : Nat) (v : Word) : (State.bootControl s off v).1.pending = s.pending ∧ (State.bootControl s off v).1.mem = s.mem := by
  simp [State.bootControl]
@[simp] theorem State.devRst_pending (s : State) (v : Word) : (State.devRst s v).1.pending = s.pending := by
  simp [State.devRst]
@[simp] theorem State.devRst_wf (s : State) (v : Word) (hwf : s.mem.wf = true) : (State.devRst s v).1.mem.wf = true := by
  simp [State.devRst, hwf]
@[simp] theorem State.svnBurn_frame (s : State) (v : Word) : (State.svnBurn s v).1.pending = s.pending ∧ (State.svnBurn s v).1.mem = s.mem := by
  simp [State.svnBurn]
@[simp] theorem State.svnBurned_frame (s : State) : (State.svnBurned s).pending = s.pending ∧ (State.svnBurned s).mem = s.mem := by
  simp [State.svnBurned]
@[simp] theorem State.keyrevBurn_frame (s : State) (v : Word) : (State.keyrevBurn s v).1.pending = s.pending ∧ (State.keyrevBurn s v).1.mem = s.mem := by
  simp [State.keyrevBurn]
@[simp] theorem State.imageVerify_frame (s : State) : (State.imageVerify s).pending = s.pending ∧ (State.imageVerify s).mem = s.mem := by
  (unfold State.imageVerify; dsimp only; (repeat' split) <;> simp_all)
@[simp] theorem State.bootWrite_pending (s : State) (q : Req) (slot off : Nat) (v : Word) : (State.bootWrite s q slot off v).1.pending = s.pending := by
  (unfold State.bootWrite; (repeat' split) <;> simp_all)
@[simp] theorem State.bootWrite_wf (s : State) (q : Req) (slot off : Nat) (v : Word) (hwf : s.mem.wf = true) : (State.bootWrite s q slot off v).1.mem.wf = true := by
  (unfold State.bootWrite; (repeat' split) <;> simp_all)
@[simp] theorem State.pdcWrite_pending (s : State) (q : Req) (off : Nat) (v : Word) : (State.pdcWrite s q off v).1.pending = s.pending := by
  (unfold State.pdcWrite; (repeat' split) <;> simp_all)
@[simp] theorem State.pdcWrite_wf (s : State) (q : Req) (off : Nat) (v : Word) (hwf : s.mem.wf = true) : (State.pdcWrite s q off v).1.mem.wf = true := by
  (unfold State.pdcWrite; (repeat' split) <;> simp_all)

-- Machine/Debug.lean

@[simp] theorem State.modDap_frame (s : State) (f : Dap → Dap) : (State.modDap s f).pending = s.pending ∧ (State.modDap s f).mem = s.mem := by
  simp [State.modDap]
@[simp] theorem State.tapActive_frame (s : State) : (State.tapActive s).pending = s.pending ∧ (State.tapActive s).mem = s.mem := by
  simp [State.tapActive]
@[simp] theorem State.tapInstr_frame (s : State) (code : Nat) : (State.tapInstr s code).pending = s.pending ∧ (State.tapInstr s code).mem = s.mem := by
  simp [State.tapInstr]
@[simp] theorem State.trstN_frame (s : State) : (State.trstN s).pending = s.pending ∧ (State.trstN s).mem = s.mem := by
  simp [State.trstN]
@[simp] theorem State.dapCtl_frame (s : State) (old : Word) : (State.dapCtl s old).pending = s.pending ∧ (State.dapCtl s old).mem = s.mem := by
  simp [State.dapCtl]
@[simp] theorem State.haltTile_frame (s : State) (t : TileId) : (State.haltTile s t).pending = s.pending ∧ (State.haltTile s t).mem = s.mem := by
  simp [State.haltTile]
@[simp] theorem State.haltReqWrite_frame (s : State) (v : Word) : (State.haltReqWrite s v).pending = s.pending ∧ (State.haltReqWrite s v).mem = s.mem := by
  simp [State.haltReqWrite]
@[simp] theorem State.resumeWrite_frame (s : State) (v : Word) : (State.resumeWrite s v).pending = s.pending ∧ (State.resumeWrite s v).mem = s.mem := by
  simp [State.resumeWrite]
@[simp] theorem State.dreset_pending (s : State) (v : Word) : (State.dreset s v).pending = s.pending := by
  simp [State.dreset]
@[simp] theorem State.dreset_wf (s : State) (v : Word) (hwf : s.mem.wf = true) : (State.dreset s v).mem.wf = true := by
  simp [State.dreset, hwf]
@[simp] theorem State.tokenAppend_frame (s : State) (v : Word) : (State.tokenAppend s v).pending = s.pending ∧ (State.tokenAppend s v).mem = s.mem := by
  simp [State.tokenAppend]
@[simp] theorem State.tokClr_frame (s : State) : (State.tokClr s).pending = s.pending ∧ (State.tokClr s).mem = s.mem := by
  simp [State.tokClr]
@[simp] theorem State.nonceRead_frame (s : State) : (State.nonceRead s).pending = s.pending ∧ (State.nonceRead s).mem = s.mem := by
  simp [State.nonceRead]
@[simp] theorem State.unlockWrite_frame (s : State) (v : Word) : (State.unlockWrite s v).1.pending = s.pending ∧ (State.unlockWrite s v).1.mem = s.mem := by
  simp [State.unlockWrite]
@[simp] theorem State.uleftExpiry_frame (s : State) : (State.uleftExpiry s).pending = s.pending ∧ (State.uleftExpiry s).mem = s.mem := by
  simp [State.uleftExpiry]
@[simp] theorem State.dapWrite_frame (s : State) (off : Nat) (v : Word) : (State.dapWrite s off v).1.pending = s.pending ∧ (State.dapWrite s off v).1.mem = s.mem := by
  simp [State.dapWrite]
@[simp] theorem State.dapRefuse_frame (s : State) (count : Bool) : (State.dapRefuse s count).pending = s.pending ∧ (State.dapRefuse s count).mem = s.mem := by
  simp [State.dapRefuse]
@[simp] theorem State.dapAddr_frame (s : State) (a : BitVec 36) : (State.dapAddr s a).pending = s.pending ∧ (State.dapAddr s a).mem = s.mem := by
  simp [State.dapAddr]

-- Machine/Bus.lean

@[simp] theorem State.slotRead_frame (s : State) (q : Req) (slot off : Nat) : (State.slotRead s q slot off).1.pending = s.pending ∧ (State.slotRead s q slot off).1.mem = s.mem := by
  simp [State.slotRead]
@[simp] theorem State.slotWrite_pending (s : State) (q : Req) (slot off : Nat) (v : Word) : (State.slotWrite s q slot off v).1.pending = s.pending := by
  simp [State.slotWrite]
@[simp] theorem State.slotWrite_wf (s : State) (q : Req) (slot off : Nat) (v : Word) (hwf : s.mem.wf = true) : (State.slotWrite s q slot off v).1.mem.wf = true := by
  simp [State.slotWrite, hwf]
@[simp] theorem State.cwSeen_frame (s : State) (slot : Nat) : (State.cwSeen s slot).pending = s.pending ∧ (State.cwSeen s slot).mem = s.mem := by
  simp [State.cwSeen]
@[simp] theorem State.busRead_frame (s : State) (q : Req) (slot off : Nat) : (State.busRead s q slot off).1.pending = s.pending ∧ (State.busRead s q slot off).1.mem = s.mem := by
  (unfold State.busRead; (repeat' split) <;> simp_all)
@[simp] theorem State.busWrite_pending (s : State) (q : Req) (slot off : Nat) (v : Word) : (State.busWrite s q slot off v).1.pending = s.pending := by
  (unfold State.busWrite; (repeat' split) <;> simp_all)
@[simp] theorem State.busWrite_wf (s : State) (q : Req) (slot off : Nat) (v : Word) (hwf : s.mem.wf = true) : (State.busWrite s q slot off v).1.mem.wf = true := by
  (unfold State.busWrite; (repeat' split) <;> simp_all)
@[simp] theorem State.regWrite_pending (s : State) (q : Req) (slot off : Nat) (v : Word) : (State.regWrite s q slot off v).pending = s.pending := by
  simp [State.regWrite]
@[simp] theorem State.regWrite_wf (s : State) (q : Req) (slot off : Nat) (v : Word) (hwf : s.mem.wf = true) : (State.regWrite s q slot off v).mem.wf = true := by
  simp [State.regWrite, hwf]
@[simp] theorem State.accessPlace_pending (s : State) (t : TileId) (a : PerAcc) : (State.accessPlace s t a).1.pending = s.pending := by
  (unfold State.accessPlace; dsimp only; (repeat' split) <;> simp_all)
@[simp] theorem State.accessPlace_wf (s : State) (t : TileId) (a : PerAcc) (hwf : s.mem.wf = true) : (State.accessPlace s t a).1.mem.wf = true := by
  (unfold State.accessPlace; dsimp only; (repeat' split) <;> simp_all)
@[simp] theorem State.accessAnswer_frame (s : State) (t : TileId) (ea : Word) (r : BusRes) : (State.accessAnswer s t ea r).pending = s.pending ∧ (State.accessAnswer s t ea r).mem = s.mem := by
  simp [State.accessAnswer]
@[simp] theorem State.accessPerform_pending (s : State) (t : TileId) : (State.accessPerform s t).pending = s.pending := by
  (unfold State.accessPerform; (repeat' split) <;> simp_all)
@[simp] theorem State.accessPerform_wf (s : State) (t : TileId) (hwf : s.mem.wf = true) : (State.accessPerform s t).mem.wf = true := by
  (unfold State.accessPerform; (repeat' split) <;> simp_all)
@[simp] theorem State.causewayRepeat_pending (s : State) (t : TileId) (response : Bool) : (State.causewayRepeat s t response).pending = s.pending := by
  (unfold State.causewayRepeat; (repeat' split) <;> simp_all)
@[simp] theorem State.causewayRepeat_wf (s : State) (t : TileId) (response : Bool) (hwf : s.mem.wf = true) : (State.causewayRepeat s t response).mem.wf = true := by
  (unfold State.causewayRepeat; (repeat' split) <;> simp_all)
@[simp] theorem State.busReadWords_frame (s : State) (q : Req) (slot : Nat) (a0 a1 : Nat) : (State.busReadWords s q slot a0 a1).1.pending = s.pending ∧ (State.busReadWords s q slot a0 a1).1.mem = s.mem := by
  induction a0 generalizing s a1 with
  | zero => exact ⟨rfl, rfl⟩
  | succ n ih =>
    have h := s.busRead_frame q slot a1
    unfold State.busReadWords
    split
    · next s1 e h1 => rw [h1] at h; exact h
    · next s1 w h1 => rw [h1] at h; exact ⟨(ih s1 (a1 + 4)).1.trans h.1, (ih s1 (a1 + 4)).2.trans h.2⟩

@[simp] theorem State.busWriteWords_pending (s : State) (q : Req) (slot : Nat) (a0 : List Word) (a1 : Nat) : (State.busWriteWords s q slot a0 a1).1.pending = s.pending := by
  induction a0 generalizing s a1 with
  | nil => rfl
  | cons v r ih =>
    have h := s.busWrite_pending q slot a1 v
    unfold State.busWriteWords
    split
    · next s1 e h1 => rw [h1] at h; exact h
    · next s1 w h1 => rw [h1] at h; exact (ih s1 (a1 + 4)).trans h
@[simp] theorem State.busWriteWords_wf (s : State) (q : Req) (slot : Nat) (a0 : List Word) (a1 : Nat) (hwf : s.mem.wf = true) : (State.busWriteWords s q slot a0 a1).1.mem.wf = true := by
  induction a0 generalizing s a1 with
  | nil => exact hwf
  | cons v r ih =>
    have h := s.busWrite_wf q slot a1 v hwf
    unfold State.busWriteWords
    split
    · next s1 e h1 => rw [h1] at h; exact h
    · next s1 w h1 => rw [h1] at h; exact ih s1 (a1 + 4) h

@[simp] theorem State.chanData_frame (s : State) (c n o : Nat) : (State.chanData s c n o).1.pending = s.pending ∧ (State.chanData s c n o).1.mem = s.mem := by
  (unfold State.chanData; dsimp only; (repeat' split) <;> simp_all)
@[simp] theorem State.chanStore_pending (s : State) (c pa : Nat) (bs : List Byte) : (State.chanStore s c pa bs).1.pending = s.pending := by
  (unfold State.chanStore; (repeat' split) <;> simp_all)
@[simp] theorem State.chanStore_wf (s : State) (c pa : Nat) (bs : List Byte) (hwf : s.mem.wf = true) : (State.chanStore s c pa bs).1.mem.wf = true := by
  (unfold State.chanStore; (repeat' split) <;> simp_all)
@[simp] theorem State.dmaRequest_pending (s : State) (c : Nat) : (State.dmaRequest s c).pending = s.pending := by
  (unfold State.dmaRequest; dsimp only; (repeat' split) <;> (try simp only [Prod.ext_iff] at *) <;> (repeat cases ‹_ ∧ _›) <;> subst_vars <;> simp_all)
@[simp] theorem State.dmaRequest_wf (s : State) (c : Nat) (hwf : s.mem.wf = true) : (State.dmaRequest s c).mem.wf = true := by
  (unfold State.dmaRequest; dsimp only; (repeat' split) <;> (try simp only [Prod.ext_iff] at *) <;> (repeat cases ‹_ ∧ _›) <;> subst_vars <;> simp_all)
@[simp] theorem State.dapSlotRead_frame (s : State) (pa : Nat) : (State.dapSlotRead s pa).1.pending = s.pending ∧ (State.dapSlotRead s pa).1.mem = s.mem := by
  simp [State.dapSlotRead]
@[simp] theorem State.dapSlotWrite_frame (s : State) (pa : Nat) (v : Word) : (State.dapSlotWrite s pa v).pending = s.pending ∧ (State.dapSlotWrite s pa v).mem = s.mem := by
  simp [State.dapSlotWrite]
@[simp] theorem State.dapSet_frame (s : State) (status : Nat) (data : Option Word) : (State.dapSet s status data).pending = s.pending ∧ (State.dapSet s status data).mem = s.mem := by
  simp [State.dapSet]
@[simp] theorem State.dapAccess_pending (s : State) (write : Option Word) : (State.dapAccess s write).pending = s.pending := by
  (unfold State.dapAccess; dsimp only; (repeat' split) <;> (try simp only [Prod.ext_iff] at *) <;> (repeat cases ‹_ ∧ _›) <;> subst_vars <;> simp_all)
@[simp] theorem State.dapAccess_wf (s : State) (write : Option Word) (hwf : s.mem.wf = true) : (State.dapAccess s write).mem.wf = true := by
  (unfold State.dapAccess; dsimp only; (repeat' split) <;> (try simp only [Prod.ext_iff] at *) <;> (repeat cases ‹_ ∧ _›) <;> subst_vars <;> simp_all)

-- Machine/Tick.lean

@[simp] theorem State.tileCycles_frame (s : State) (t : TileId) : (State.tileCycles s t).pending = s.pending ∧ (State.tileCycles s t).mem = s.mem := by
  simp [State.tileCycles]
@[simp] theorem State.usbTick_frame (s : State) (u : Nat) : (State.usbTick s u).pending = s.pending ∧ (State.usbTick s u).mem = s.mem := by
  simp [State.usbTick]
@[simp] theorem State.logicTick_pending (s : State) : (State.logicTick s).pending = s.pending := by
  simp [State.logicTick]
@[simp] theorem State.logicTick_wf (s : State) (hwf : s.mem.wf = true) : (State.logicTick s).mem.wf = true := by
  simp [State.logicTick, hwf]
@[simp] theorem State.tick_pending (s : State) : (State.tick s).pending = s.pending := by
  simp [State.tick]
@[simp] theorem State.tick_wf (s : State) (hwf : s.mem.wf = true) : (State.tick s).mem.wf = true := by
  simp [State.tick, hwf]

-- Machine/RowsDict.lean

@[simp] theorem State.localRow_pending (s : State) (w : World) (slot : BitVec 5) (p : Nat → Nat → Bool) : (State.localRow s w slot p).pending = s.pending := by
  simp [State.localRow]
@[simp] theorem State.localRow_wf (s : State) (w : World) (slot : BitVec 5) (p : Nat → Nat → Bool) (hwf : s.mem.wf = true) : (State.localRow s w slot p).mem.wf = true := by
  simp [State.localRow, hwf]
@[simp] theorem State.engineRow_pending (s t : State) (h : t.pending = s.pending) : (s.engineRow t).pending = s.pending := by
  unfold State.engineRow; split
  · exact h
  · rfl
@[simp] theorem State.engineRow_wf (s t : State) (hwf : s.mem.wf = true) (h : t.mem.wf = true) : (s.engineRow t).mem.wf = true := by
  unfold State.engineRow; split
  · exact h
  · exact hwf

-- Machine/RowsLink.lean

@[simp] theorem State.queueRegWrite_pending (s : State) (q : Req) (slot n off : Nat) (v : Word) : (State.queueRegWrite s q slot n off v).pending = s.pending := by
  (unfold State.queueRegWrite; (repeat' split) <;> simp_all)
@[simp] theorem State.queueRegWrite_wf (s : State) (q : Req) (slot n off : Nat) (v : Word) (hwf : s.mem.wf = true) : (State.queueRegWrite s q slot n off v).mem.wf = true := by
  (unfold State.queueRegWrite; (repeat' split) <;> simp_all)

end Sys2Proof.Machine
end

