-- ==== Sys2Proof/Laws/Irq.lean ====
section
/-!
SUPPORT. Laws/Irq.lean: raising a source and driving a line change nothing but the interrupt state.
-/
namespace Sys2Proof.Machine

/-- The state with its interrupt state changed. -/
theorem State.irqEdge_eq (s : State) (i : Nat) : ∃ x, s.irqEdge i = { s with irq := x } := by
  simp only [State.irqEdge]; split <;> exact ⟨_, rfl⟩

/-- Raising a source changes the interrupt state alone. -/
theorem State.raise_eq (s : State) (i : Nat) : ∃ x, s.raise i = { s with irq := x } := by
  simp only [State.raise]
  split
  · exact ⟨s.irq, rfl⟩
  · obtain ⟨x, hx⟩ := s.irqEdge_eq i
    rw [hx]
    obtain ⟨y, hy⟩ := ({ s with irq := x } : State).irqEdge_eq i
    exact ⟨y, hy⟩
  · exact s.irqEdge_eq i

/-- Driving a line changes the interrupt state alone. -/
theorem State.setLine_eq (s : State) (i : Nat) (b : Bool) : ∃ x, s.setLine i b = { s with irq := x } := by
  simp only [State.setLine]
  split
  · exact ⟨s.irq, rfl⟩
  · split
    · obtain ⟨y, hy⟩ := ({ s with irq := { s.irq with line := setIrqBit s.irq.line i b } } : State).irqEdge_eq i
      exact ⟨y, hy⟩
    · exact ⟨_, rfl⟩

@[simp] theorem State.raise_pending (s : State) (i : Nat) : (s.raise i).pending = s.pending := by obtain ⟨x, hx⟩ := s.raise_eq i; rw [hx]
@[simp] theorem State.raise_now (s : State) (i : Nat) : (s.raise i).now = s.now := by obtain ⟨x, hx⟩ := s.raise_eq i; rw [hx]
@[simp] theorem State.raise_seq (s : State) (i : Nat) : (s.raise i).seq = s.seq := by obtain ⟨x, hx⟩ := s.raise_eq i; rw [hx]
@[simp] theorem State.raise_free (s : State) (i : Nat) : (s.raise i).free = s.free := by obtain ⟨x, hx⟩ := s.raise_eq i; rw [hx]
@[simp] theorem State.raise_resp (s : State) (i : Nat) : (s.raise i).resp = s.resp := by obtain ⟨x, hx⟩ := s.raise_eq i; rw [hx]
@[simp] theorem State.raise_regs (s : State) (i : Nat) : (s.raise i).regs = s.regs := by obtain ⟨x, hx⟩ := s.raise_eq i; rw [hx]
@[simp] theorem State.raise_mem (s : State) (i : Nat) : (s.raise i).mem = s.mem := by obtain ⟨x, hx⟩ := s.raise_eq i; rw [hx]
@[simp] theorem State.raise_sweep (s : State) (i : Nat) : (s.raise i).sweep = s.sweep := by obtain ⟨x, hx⟩ := s.raise_eq i; rw [hx]
@[simp] theorem State.raise_upsets (s : State) (i : Nat) : (s.raise i).upsets = s.upsets := by obtain ⟨x, hx⟩ := s.raise_eq i; rw [hx]
@[simp] theorem State.raise_store (s : State) (i : Nat) : (s.raise i).store = s.store := by obtain ⟨x, hx⟩ := s.raise_eq i; rw [hx]
@[simp] theorem State.raise_ptp (s : State) (i : Nat) : (s.raise i).ptp = s.ptp := by obtain ⟨x, hx⟩ := s.raise_eq i; rw [hx]
@[simp] theorem State.raise_errCount (s : State) (i : Nat) : (s.raise i).errCount = s.errCount := by obtain ⟨x, hx⟩ := s.raise_eq i; rw [hx]
@[simp] theorem State.raise_errRows (s : State) (i : Nat) : (s.raise i).errRows = s.errRows := by obtain ⟨x, hx⟩ := s.raise_eq i; rw [hx]
@[simp] theorem State.raise_dict (s : State) (i : Nat) : (s.raise i).dict = s.dict := by obtain ⟨x, hx⟩ := s.raise_eq i; rw [hx]
@[simp] theorem State.raise_dev (s : State) (i : Nat) : (s.raise i).dev = s.dev := by obtain ⟨x, hx⟩ := s.raise_eq i; rw [hx]
@[simp] theorem State.raise_out (s : State) (i : Nat) : (s.raise i).out = s.out := by obtain ⟨x, hx⟩ := s.raise_eq i; rw [hx]
@[simp] theorem State.raise_lanes (s : State) (i : Nat) : (s.raise i).lanes = s.lanes := by obtain ⟨x, hx⟩ := s.raise_eq i; rw [hx]
@[simp] theorem State.raise_bb (s : State) (i : Nat) : (s.raise i).bb = s.bb := by obtain ⟨x, hx⟩ := s.raise_eq i; rw [hx]
@[simp] theorem State.raise_tb (s : State) (i : Nat) : (s.raise i).tb = s.tb := by obtain ⟨x, hx⟩ := s.raise_eq i; rw [hx]
@[simp] theorem State.raise_usb (s : State) (i : Nat) : (s.raise i).usb = s.usb := by obtain ⟨x, hx⟩ := s.raise_eq i; rw [hx]
@[simp] theorem State.raise_sealEng (s : State) (i : Nat) : (s.raise i).sealEng = s.sealEng := by obtain ⟨x, hx⟩ := s.raise_eq i; rw [hx]
@[simp] theorem State.raise_bus (s : State) (i : Nat) : (s.raise i).bus = s.bus := by obtain ⟨x, hx⟩ := s.raise_eq i; rw [hx]
@[simp] theorem State.raise_ledger (s : State) (i : Nat) : (s.raise i).ledger = s.ledger := by obtain ⟨x, hx⟩ := s.raise_eq i; rw [hx]
@[simp] theorem State.raise_rtc (s : State) (i : Nat) : (s.raise i).rtc = s.rtc := by obtain ⟨x, hx⟩ := s.raise_eq i; rw [hx]
@[simp] theorem State.raise_pdc (s : State) (i : Nat) : (s.raise i).pdc = s.pdc := by obtain ⟨x, hx⟩ := s.raise_eq i; rw [hx]
@[simp] theorem State.raise_job (s : State) (i : Nat) : (s.raise i).job = s.job := by obtain ⟨x, hx⟩ := s.raise_eq i; rw [hx]
@[simp] theorem State.raise_boot (s : State) (i : Nat) : (s.raise i).boot = s.boot := by obtain ⟨x, hx⟩ := s.raise_eq i; rw [hx]
@[simp] theorem State.raise_dap (s : State) (i : Nat) : (s.raise i).dap = s.dap := by obtain ⟨x, hx⟩ := s.raise_eq i; rw [hx]
@[simp] theorem State.raise_tiles (s : State) (i : Nat) : (s.raise i).tiles = s.tiles := by obtain ⟨x, hx⟩ := s.raise_eq i; rw [hx]
@[simp] theorem State.raise_tile (s : State) (i : Nat) (t : TileId) : (s.raise i).tile t = s.tile t := State.tile_congr (s.raise_tiles i)
@[simp] theorem State.raise_regW (s : State) (i : Nat) (w : World) (a o : Nat) : (s.raise i).regW w a o = s.regW w a o := State.regW_congr (s.raise_regs i)
@[simp] theorem State.raise_reg (s : State) (i : Nat) (a o : Nat) : (s.raise i).reg a o = s.reg a o := State.regW_congr (s.raise_regs i)
@[simp] theorem State.setLine_pending (s : State) (i : Nat) (b : Bool) : (s.setLine i b).pending = s.pending := by obtain ⟨x, hx⟩ := s.setLine_eq i b; rw [hx]
@[simp] theorem State.setLine_now (s : State) (i : Nat) (b : Bool) : (s.setLine i b).now = s.now := by obtain ⟨x, hx⟩ := s.setLine_eq i b; rw [hx]
@[simp] theorem State.setLine_seq (s : State) (i : Nat) (b : Bool) : (s.setLine i b).seq = s.seq := by obtain ⟨x, hx⟩ := s.setLine_eq i b; rw [hx]
@[simp] theorem State.setLine_free (s : State) (i : Nat) (b : Bool) : (s.setLine i b).free = s.free := by obtain ⟨x, hx⟩ := s.setLine_eq i b; rw [hx]
@[simp] theorem State.setLine_resp (s : State) (i : Nat) (b : Bool) : (s.setLine i b).resp = s.resp := by obtain ⟨x, hx⟩ := s.setLine_eq i b; rw [hx]
@[simp] theorem State.setLine_regs (s : State) (i : Nat) (b : Bool) : (s.setLine i b).regs = s.regs := by obtain ⟨x, hx⟩ := s.setLine_eq i b; rw [hx]
@[simp] theorem State.setLine_mem (s : State) (i : Nat) (b : Bool) : (s.setLine i b).mem = s.mem := by obtain ⟨x, hx⟩ := s.setLine_eq i b; rw [hx]
@[simp] theorem State.setLine_sweep (s : State) (i : Nat) (b : Bool) : (s.setLine i b).sweep = s.sweep := by obtain ⟨x, hx⟩ := s.setLine_eq i b; rw [hx]
@[simp] theorem State.setLine_upsets (s : State) (i : Nat) (b : Bool) : (s.setLine i b).upsets = s.upsets := by obtain ⟨x, hx⟩ := s.setLine_eq i b; rw [hx]
@[simp] theorem State.setLine_store (s : State) (i : Nat) (b : Bool) : (s.setLine i b).store = s.store := by obtain ⟨x, hx⟩ := s.setLine_eq i b; rw [hx]
@[simp] theorem State.setLine_ptp (s : State) (i : Nat) (b : Bool) : (s.setLine i b).ptp = s.ptp := by obtain ⟨x, hx⟩ := s.setLine_eq i b; rw [hx]
@[simp] theorem State.setLine_errCount (s : State) (i : Nat) (b : Bool) : (s.setLine i b).errCount = s.errCount := by obtain ⟨x, hx⟩ := s.setLine_eq i b; rw [hx]
@[simp] theorem State.setLine_errRows (s : State) (i : Nat) (b : Bool) : (s.setLine i b).errRows = s.errRows := by obtain ⟨x, hx⟩ := s.setLine_eq i b; rw [hx]
@[simp] theorem State.setLine_dict (s : State) (i : Nat) (b : Bool) : (s.setLine i b).dict = s.dict := by obtain ⟨x, hx⟩ := s.setLine_eq i b; rw [hx]
@[simp] theorem State.setLine_dev (s : State) (i : Nat) (b : Bool) : (s.setLine i b).dev = s.dev := by obtain ⟨x, hx⟩ := s.setLine_eq i b; rw [hx]
@[simp] theorem State.setLine_out (s : State) (i : Nat) (b : Bool) : (s.setLine i b).out = s.out := by obtain ⟨x, hx⟩ := s.setLine_eq i b; rw [hx]
@[simp] theorem State.setLine_lanes (s : State) (i : Nat) (b : Bool) : (s.setLine i b).lanes = s.lanes := by obtain ⟨x, hx⟩ := s.setLine_eq i b; rw [hx]
@[simp] theorem State.setLine_bb (s : State) (i : Nat) (b : Bool) : (s.setLine i b).bb = s.bb := by obtain ⟨x, hx⟩ := s.setLine_eq i b; rw [hx]
@[simp] theorem State.setLine_tb (s : State) (i : Nat) (b : Bool) : (s.setLine i b).tb = s.tb := by obtain ⟨x, hx⟩ := s.setLine_eq i b; rw [hx]
@[simp] theorem State.setLine_usb (s : State) (i : Nat) (b : Bool) : (s.setLine i b).usb = s.usb := by obtain ⟨x, hx⟩ := s.setLine_eq i b; rw [hx]
@[simp] theorem State.setLine_sealEng (s : State) (i : Nat) (b : Bool) : (s.setLine i b).sealEng = s.sealEng := by obtain ⟨x, hx⟩ := s.setLine_eq i b; rw [hx]
@[simp] theorem State.setLine_bus (s : State) (i : Nat) (b : Bool) : (s.setLine i b).bus = s.bus := by obtain ⟨x, hx⟩ := s.setLine_eq i b; rw [hx]
@[simp] theorem State.setLine_ledger (s : State) (i : Nat) (b : Bool) : (s.setLine i b).ledger = s.ledger := by obtain ⟨x, hx⟩ := s.setLine_eq i b; rw [hx]
@[simp] theorem State.setLine_rtc (s : State) (i : Nat) (b : Bool) : (s.setLine i b).rtc = s.rtc := by obtain ⟨x, hx⟩ := s.setLine_eq i b; rw [hx]
@[simp] theorem State.setLine_pdc (s : State) (i : Nat) (b : Bool) : (s.setLine i b).pdc = s.pdc := by obtain ⟨x, hx⟩ := s.setLine_eq i b; rw [hx]
@[simp] theorem State.setLine_job (s : State) (i : Nat) (b : Bool) : (s.setLine i b).job = s.job := by obtain ⟨x, hx⟩ := s.setLine_eq i b; rw [hx]
@[simp] theorem State.setLine_boot (s : State) (i : Nat) (b : Bool) : (s.setLine i b).boot = s.boot := by obtain ⟨x, hx⟩ := s.setLine_eq i b; rw [hx]
@[simp] theorem State.setLine_dap (s : State) (i : Nat) (b : Bool) : (s.setLine i b).dap = s.dap := by obtain ⟨x, hx⟩ := s.setLine_eq i b; rw [hx]
@[simp] theorem State.setLine_tiles (s : State) (i : Nat) (b : Bool) : (s.setLine i b).tiles = s.tiles := by obtain ⟨x, hx⟩ := s.setLine_eq i b; rw [hx]
@[simp] theorem State.setLine_tile (s : State) (i : Nat) (b : Bool) (t : TileId) : (s.setLine i b).tile t = s.tile t := State.tile_congr (s.setLine_tiles i b)
@[simp] theorem State.setLine_regW (s : State) (i : Nat) (b : Bool) (w : World) (a o : Nat) : (s.setLine i b).regW w a o = s.regW w a o := State.regW_congr (s.setLine_regs i b)
@[simp] theorem State.setLine_reg (s : State) (i : Nat) (b : Bool) (a o : Nat) : (s.setLine i b).reg a o = s.reg a o := State.regW_congr (s.setLine_regs i b)
@[simp] theorem State.event_now (s : State) (a o i : Nat) (b : Word) : (s.event a o i b).now = s.now := by simp [State.event]
@[simp] theorem State.event_seq (s : State) (a o i : Nat) (b : Word) : (s.event a o i b).seq = s.seq := by simp [State.event]
@[simp] theorem State.event_free (s : State) (a o i : Nat) (b : Word) : (s.event a o i b).free = s.free := by simp [State.event]
@[simp] theorem State.event_resp (s : State) (a o i : Nat) (b : Word) : (s.event a o i b).resp = s.resp := by simp [State.event]
@[simp] theorem State.event_sweep (s : State) (a o i : Nat) (b : Word) : (s.event a o i b).sweep = s.sweep := by simp [State.event]
@[simp] theorem State.event_upsets (s : State) (a o i : Nat) (b : Word) : (s.event a o i b).upsets = s.upsets := by simp [State.event]
@[simp] theorem State.event_store (s : State) (a o i : Nat) (b : Word) : (s.event a o i b).store = s.store := by simp [State.event]
@[simp] theorem State.event_ptp (s : State) (a o i : Nat) (b : Word) : (s.event a o i b).ptp = s.ptp := by simp [State.event]
@[simp] theorem State.event_errCount (s : State) (a o i : Nat) (b : Word) : (s.event a o i b).errCount = s.errCount := by simp [State.event]
@[simp] theorem State.event_errRows (s : State) (a o i : Nat) (b : Word) : (s.event a o i b).errRows = s.errRows := by simp [State.event]
@[simp] theorem State.event_dict (s : State) (a o i : Nat) (b : Word) : (s.event a o i b).dict = s.dict := by simp [State.event]
@[simp] theorem State.event_dev (s : State) (a o i : Nat) (b : Word) : (s.event a o i b).dev = s.dev := by simp [State.event]
@[simp] theorem State.event_out (s : State) (a o i : Nat) (b : Word) : (s.event a o i b).out = s.out := by simp [State.event]
@[simp] theorem State.event_lanes (s : State) (a o i : Nat) (b : Word) : (s.event a o i b).lanes = s.lanes := by simp [State.event]
@[simp] theorem State.event_bb (s : State) (a o i : Nat) (b : Word) : (s.event a o i b).bb = s.bb := by simp [State.event]
@[simp] theorem State.event_tb (s : State) (a o i : Nat) (b : Word) : (s.event a o i b).tb = s.tb := by simp [State.event]
@[simp] theorem State.event_usb (s : State) (a o i : Nat) (b : Word) : (s.event a o i b).usb = s.usb := by simp [State.event]
@[simp] theorem State.event_sealEng (s : State) (a o i : Nat) (b : Word) : (s.event a o i b).sealEng = s.sealEng := by simp [State.event]
@[simp] theorem State.event_bus (s : State) (a o i : Nat) (b : Word) : (s.event a o i b).bus = s.bus := by simp [State.event]
@[simp] theorem State.event_ledger (s : State) (a o i : Nat) (b : Word) : (s.event a o i b).ledger = s.ledger := by simp [State.event]
@[simp] theorem State.event_rtc (s : State) (a o i : Nat) (b : Word) : (s.event a o i b).rtc = s.rtc := by simp [State.event]
@[simp] theorem State.event_pdc (s : State) (a o i : Nat) (b : Word) : (s.event a o i b).pdc = s.pdc := by simp [State.event]
@[simp] theorem State.event_job (s : State) (a o i : Nat) (b : Word) : (s.event a o i b).job = s.job := by simp [State.event]
@[simp] theorem State.event_boot (s : State) (a o i : Nat) (b : Word) : (s.event a o i b).boot = s.boot := by simp [State.event]
@[simp] theorem State.event_dap (s : State) (a o i : Nat) (b : Word) : (s.event a o i b).dap = s.dap := by simp [State.event]
@[simp] theorem State.event_tiles (s : State) (a o i : Nat) (b : Word) : (s.event a o i b).tiles = s.tiles := by simp [State.event]
@[simp] theorem State.event_tile (s : State) (a o i : Nat) (b : Word) (t : TileId) : (s.event a o i b).tile t = s.tile t := State.tile_congr (s.event_tiles a o i b)

/-- Of two states with the same registers and interrupt state, raising a source leaves the same interrupt state. -/
theorem State.raise_irq_congr {s t : State} (i : Nat) (h1 : t.regs = s.regs) (h2 : t.irq = s.irq) : (t.raise i).irq = (s.raise i).irq := by
  have hs : t.irqSense i = s.irqSense i := by simp only [State.irqSense, State.scfg, State.reg]; rw [State.regW_congr h1]
  simp only [State.raise, hs]
  split
  · exact h2
  · simp only [State.irqEdge, h2]
    (repeat' split) <;> rfl
  · simp only [State.irqEdge, h2]
    split <;> rfl

/-- What raising a source leaves pending and overrun (R284): with SENSE rising or falling one edge, with both two, with level none. -/
theorem State.raise_pend (s : State) (i j : Nat) (hj : j < 512) :
    (s.raise i).irq.pend.getLsbD j = (s.irq.pend.getLsbD j || (j == i && s.irqSense i != 0)) := by
  simp only [State.raise]
  split
  · rename_i h; simp [h]
  · rename_i h
    simp only [State.irqEdge]
    by_cases hji : j = i
    · subst hji; repeat' split
      all_goals simp_all [getLsbD_setIrqBit, -BitVec.getLsbD_eq_getElem]
    · repeat' split
      all_goals simp_all [getLsbD_setIrqBit, -BitVec.getLsbD_eq_getElem]
  · rename_i h h3
    simp only [State.irqEdge]
    by_cases hji : j = i
    · subst hji; repeat' split
      all_goals simp_all [getLsbD_setIrqBit, -BitVec.getLsbD_eq_getElem]
    · repeat' split
      all_goals simp_all [getLsbD_setIrqBit, -BitVec.getLsbD_eq_getElem]

end Sys2Proof.Machine
end

