-- ==== Sys2Proof/Laws/Store.lean ====
section
/-!
SUPPORT. Laws/Store.lean: a write of memory changes memory alone, and a system master's or the engine's write also what the caches hold.
-/
namespace Sys2Proof.Machine

/-- A write of one check unit changes memory alone. -/
theorem State.writeUnit_eq (s : State) (u pa : Nat) (bs : List Byte) (a : Nat) : ∃ m, s.writeUnit u pa bs a = { s with mem := m } := by
  simp only [State.writeUnit]
  split
  · exact ⟨_, rfl⟩
  · split
    · exact ⟨s.mem, rfl⟩
    · exact ⟨_, rfl⟩

/-- A write of memory changes memory alone. -/
theorem State.memWrite_eq (s : State) (pa : Nat) (bs : List Byte) : ∃ m, s.memWrite pa bs = { s with mem := m } := by
  have key : ∀ (l : List Nat) (u : Nat) (t : State), ∃ m, l.foldl (fun s a => s.writeUnit u pa bs a) t = { t with mem := m } := by
    intro l u
    induction l with
    | nil => exact fun t => ⟨t.mem, rfl⟩
    | cons a l ih =>
      intro t
      obtain ⟨m, hm⟩ := t.writeUnit_eq u pa bs a
      obtain ⟨m', hm'⟩ := ih (t.writeUnit u pa bs a)
      rw [List.foldl_cons, hm', hm]
      exact ⟨m', rfl⟩
  have h : s.memWrite pa bs = (s.units pa bs.length).foldl (fun s a => s.writeUnit (s.place pa).unit pa bs a) s := rfl
  -- the unit of the place stays while registers stay
  have hp : ∀ (t : State) (m : Mem), ({ t with mem := m } : State).place pa = t.place pa := fun _ _ => rfl
  have key2 : ∀ (l : List Nat) (t : State), (∃ m, t = { s with mem := m }) → ∃ m, l.foldl (fun s a => s.writeUnit (s.place pa).unit pa bs a) t = { s with mem := m } := by
    intro l
    induction l with
    | nil => exact fun t h => h
    | cons a l ih =>
      rintro t ⟨m, rfl⟩
      rw [List.foldl_cons]
      obtain ⟨m', hm'⟩ := State.writeUnit_eq { s with mem := m } (({ s with mem := m } : State).place pa).unit pa bs a
      exact ih _ ⟨m', hm'⟩
  rw [h]
  exact key2 _ s ⟨s.mem, rfl⟩

/-- Every cached copy dropped: the tiles change alone. -/
theorem State.dropCopies_eq (s : State) (pa n : Nat) : ∃ x, s.dropCopies pa n = { s with tiles := x } := ⟨_, rfl⟩

@[simp] theorem State.memWrite_pending' (s : State) (pa : Nat) (bs : List Byte) : (s.memWrite pa bs).pending = s.pending := by obtain ⟨x, hx⟩ := s.memWrite_eq pa bs; rw [hx]
@[simp] theorem State.memWrite_now (s : State) (pa : Nat) (bs : List Byte) : (s.memWrite pa bs).now = s.now := by obtain ⟨x, hx⟩ := s.memWrite_eq pa bs; rw [hx]
@[simp] theorem State.memWrite_seq (s : State) (pa : Nat) (bs : List Byte) : (s.memWrite pa bs).seq = s.seq := by obtain ⟨x, hx⟩ := s.memWrite_eq pa bs; rw [hx]
@[simp] theorem State.memWrite_free (s : State) (pa : Nat) (bs : List Byte) : (s.memWrite pa bs).free = s.free := by obtain ⟨x, hx⟩ := s.memWrite_eq pa bs; rw [hx]
@[simp] theorem State.memWrite_resp (s : State) (pa : Nat) (bs : List Byte) : (s.memWrite pa bs).resp = s.resp := by obtain ⟨x, hx⟩ := s.memWrite_eq pa bs; rw [hx]
@[simp] theorem State.memWrite_regs (s : State) (pa : Nat) (bs : List Byte) : (s.memWrite pa bs).regs = s.regs := by obtain ⟨x, hx⟩ := s.memWrite_eq pa bs; rw [hx]
@[simp] theorem State.memWrite_irq (s : State) (pa : Nat) (bs : List Byte) : (s.memWrite pa bs).irq = s.irq := by obtain ⟨x, hx⟩ := s.memWrite_eq pa bs; rw [hx]
@[simp] theorem State.memWrite_sweep (s : State) (pa : Nat) (bs : List Byte) : (s.memWrite pa bs).sweep = s.sweep := by obtain ⟨x, hx⟩ := s.memWrite_eq pa bs; rw [hx]
@[simp] theorem State.memWrite_upsets (s : State) (pa : Nat) (bs : List Byte) : (s.memWrite pa bs).upsets = s.upsets := by obtain ⟨x, hx⟩ := s.memWrite_eq pa bs; rw [hx]
@[simp] theorem State.memWrite_store (s : State) (pa : Nat) (bs : List Byte) : (s.memWrite pa bs).store = s.store := by obtain ⟨x, hx⟩ := s.memWrite_eq pa bs; rw [hx]
@[simp] theorem State.memWrite_ptp (s : State) (pa : Nat) (bs : List Byte) : (s.memWrite pa bs).ptp = s.ptp := by obtain ⟨x, hx⟩ := s.memWrite_eq pa bs; rw [hx]
@[simp] theorem State.memWrite_errCount (s : State) (pa : Nat) (bs : List Byte) : (s.memWrite pa bs).errCount = s.errCount := by obtain ⟨x, hx⟩ := s.memWrite_eq pa bs; rw [hx]
@[simp] theorem State.memWrite_errRows (s : State) (pa : Nat) (bs : List Byte) : (s.memWrite pa bs).errRows = s.errRows := by obtain ⟨x, hx⟩ := s.memWrite_eq pa bs; rw [hx]
@[simp] theorem State.memWrite_dict (s : State) (pa : Nat) (bs : List Byte) : (s.memWrite pa bs).dict = s.dict := by obtain ⟨x, hx⟩ := s.memWrite_eq pa bs; rw [hx]
@[simp] theorem State.memWrite_dev (s : State) (pa : Nat) (bs : List Byte) : (s.memWrite pa bs).dev = s.dev := by obtain ⟨x, hx⟩ := s.memWrite_eq pa bs; rw [hx]
@[simp] theorem State.memWrite_out (s : State) (pa : Nat) (bs : List Byte) : (s.memWrite pa bs).out = s.out := by obtain ⟨x, hx⟩ := s.memWrite_eq pa bs; rw [hx]
@[simp] theorem State.memWrite_lanes (s : State) (pa : Nat) (bs : List Byte) : (s.memWrite pa bs).lanes = s.lanes := by obtain ⟨x, hx⟩ := s.memWrite_eq pa bs; rw [hx]
@[simp] theorem State.memWrite_bb (s : State) (pa : Nat) (bs : List Byte) : (s.memWrite pa bs).bb = s.bb := by obtain ⟨x, hx⟩ := s.memWrite_eq pa bs; rw [hx]
@[simp] theorem State.memWrite_tb (s : State) (pa : Nat) (bs : List Byte) : (s.memWrite pa bs).tb = s.tb := by obtain ⟨x, hx⟩ := s.memWrite_eq pa bs; rw [hx]
@[simp] theorem State.memWrite_usb (s : State) (pa : Nat) (bs : List Byte) : (s.memWrite pa bs).usb = s.usb := by obtain ⟨x, hx⟩ := s.memWrite_eq pa bs; rw [hx]
@[simp] theorem State.memWrite_sealEng (s : State) (pa : Nat) (bs : List Byte) : (s.memWrite pa bs).sealEng = s.sealEng := by obtain ⟨x, hx⟩ := s.memWrite_eq pa bs; rw [hx]
@[simp] theorem State.memWrite_bus (s : State) (pa : Nat) (bs : List Byte) : (s.memWrite pa bs).bus = s.bus := by obtain ⟨x, hx⟩ := s.memWrite_eq pa bs; rw [hx]
@[simp] theorem State.memWrite_ledger (s : State) (pa : Nat) (bs : List Byte) : (s.memWrite pa bs).ledger = s.ledger := by obtain ⟨x, hx⟩ := s.memWrite_eq pa bs; rw [hx]
@[simp] theorem State.memWrite_rtc (s : State) (pa : Nat) (bs : List Byte) : (s.memWrite pa bs).rtc = s.rtc := by obtain ⟨x, hx⟩ := s.memWrite_eq pa bs; rw [hx]
@[simp] theorem State.memWrite_pdc (s : State) (pa : Nat) (bs : List Byte) : (s.memWrite pa bs).pdc = s.pdc := by obtain ⟨x, hx⟩ := s.memWrite_eq pa bs; rw [hx]
@[simp] theorem State.memWrite_job (s : State) (pa : Nat) (bs : List Byte) : (s.memWrite pa bs).job = s.job := by obtain ⟨x, hx⟩ := s.memWrite_eq pa bs; rw [hx]
@[simp] theorem State.memWrite_boot (s : State) (pa : Nat) (bs : List Byte) : (s.memWrite pa bs).boot = s.boot := by obtain ⟨x, hx⟩ := s.memWrite_eq pa bs; rw [hx]
@[simp] theorem State.memWrite_dap (s : State) (pa : Nat) (bs : List Byte) : (s.memWrite pa bs).dap = s.dap := by obtain ⟨x, hx⟩ := s.memWrite_eq pa bs; rw [hx]
@[simp] theorem State.memWrite_tiles (s : State) (pa : Nat) (bs : List Byte) : (s.memWrite pa bs).tiles = s.tiles := by obtain ⟨x, hx⟩ := s.memWrite_eq pa bs; rw [hx]
@[simp] theorem State.memWrite_tile (s : State) (pa : Nat) (bs : List Byte) (t : TileId) : (s.memWrite pa bs).tile t = s.tile t := State.tile_congr (s.memWrite_tiles pa bs)
@[simp] theorem State.memWrite_regW (s : State) (pa : Nat) (bs : List Byte) (w : World) (a o : Nat) : (s.memWrite pa bs).regW w a o = s.regW w a o := State.regW_congr (s.memWrite_regs pa bs)
@[simp] theorem State.memWrite_reg (s : State) (pa : Nat) (bs : List Byte) (a o : Nat) : (s.memWrite pa bs).reg a o = s.reg a o := State.regW_congr (s.memWrite_regs pa bs)
@[simp] theorem State.dropCopies_now (s : State) (pa n : Nat) : (s.dropCopies pa n).now = s.now := rfl
@[simp] theorem State.dropCopies_seq (s : State) (pa n : Nat) : (s.dropCopies pa n).seq = s.seq := rfl
@[simp] theorem State.dropCopies_free (s : State) (pa n : Nat) : (s.dropCopies pa n).free = s.free := rfl
@[simp] theorem State.dropCopies_resp (s : State) (pa n : Nat) : (s.dropCopies pa n).resp = s.resp := rfl
@[simp] theorem State.dropCopies_regs (s : State) (pa n : Nat) : (s.dropCopies pa n).regs = s.regs := rfl
@[simp] theorem State.dropCopies_irq (s : State) (pa n : Nat) : (s.dropCopies pa n).irq = s.irq := rfl
@[simp] theorem State.dropCopies_sweep (s : State) (pa n : Nat) : (s.dropCopies pa n).sweep = s.sweep := rfl
@[simp] theorem State.dropCopies_upsets (s : State) (pa n : Nat) : (s.dropCopies pa n).upsets = s.upsets := rfl
@[simp] theorem State.dropCopies_store (s : State) (pa n : Nat) : (s.dropCopies pa n).store = s.store := rfl
@[simp] theorem State.dropCopies_ptp (s : State) (pa n : Nat) : (s.dropCopies pa n).ptp = s.ptp := rfl
@[simp] theorem State.dropCopies_errCount (s : State) (pa n : Nat) : (s.dropCopies pa n).errCount = s.errCount := rfl
@[simp] theorem State.dropCopies_errRows (s : State) (pa n : Nat) : (s.dropCopies pa n).errRows = s.errRows := rfl
@[simp] theorem State.dropCopies_dict (s : State) (pa n : Nat) : (s.dropCopies pa n).dict = s.dict := rfl
@[simp] theorem State.dropCopies_dev (s : State) (pa n : Nat) : (s.dropCopies pa n).dev = s.dev := rfl
@[simp] theorem State.dropCopies_out (s : State) (pa n : Nat) : (s.dropCopies pa n).out = s.out := rfl
@[simp] theorem State.dropCopies_lanes (s : State) (pa n : Nat) : (s.dropCopies pa n).lanes = s.lanes := rfl
@[simp] theorem State.dropCopies_bb (s : State) (pa n : Nat) : (s.dropCopies pa n).bb = s.bb := rfl
@[simp] theorem State.dropCopies_tb (s : State) (pa n : Nat) : (s.dropCopies pa n).tb = s.tb := rfl
@[simp] theorem State.dropCopies_usb (s : State) (pa n : Nat) : (s.dropCopies pa n).usb = s.usb := rfl
@[simp] theorem State.dropCopies_sealEng (s : State) (pa n : Nat) : (s.dropCopies pa n).sealEng = s.sealEng := rfl
@[simp] theorem State.dropCopies_bus (s : State) (pa n : Nat) : (s.dropCopies pa n).bus = s.bus := rfl
@[simp] theorem State.dropCopies_ledger (s : State) (pa n : Nat) : (s.dropCopies pa n).ledger = s.ledger := rfl
@[simp] theorem State.dropCopies_rtc (s : State) (pa n : Nat) : (s.dropCopies pa n).rtc = s.rtc := rfl
@[simp] theorem State.dropCopies_pdc (s : State) (pa n : Nat) : (s.dropCopies pa n).pdc = s.pdc := rfl
@[simp] theorem State.dropCopies_job (s : State) (pa n : Nat) : (s.dropCopies pa n).job = s.job := rfl
@[simp] theorem State.dropCopies_boot (s : State) (pa n : Nat) : (s.dropCopies pa n).boot = s.boot := rfl
@[simp] theorem State.dropCopies_dap (s : State) (pa n : Nat) : (s.dropCopies pa n).dap = s.dap := rfl
@[simp] theorem State.dropCopies_regW (s : State) (pa n : Nat) (w : World) (a o : Nat) : (s.dropCopies pa n).regW w a o = s.regW w a o := State.regW_congr rfl
@[simp] theorem State.dropCopies_reg (s : State) (pa n : Nat) (a o : Nat) : (s.dropCopies pa n).reg a o = s.reg a o := State.regW_congr rfl
@[simp] theorem State.emberWrite_now (s : State) (pa : Nat) (bs : List Byte) : (s.emberWrite pa bs).now = s.now := by simp [State.emberWrite]
@[simp] theorem State.emberWrite_seq (s : State) (pa : Nat) (bs : List Byte) : (s.emberWrite pa bs).seq = s.seq := by simp [State.emberWrite]
@[simp] theorem State.emberWrite_free (s : State) (pa : Nat) (bs : List Byte) : (s.emberWrite pa bs).free = s.free := by simp [State.emberWrite]
@[simp] theorem State.emberWrite_resp (s : State) (pa : Nat) (bs : List Byte) : (s.emberWrite pa bs).resp = s.resp := by simp [State.emberWrite]
@[simp] theorem State.emberWrite_regs (s : State) (pa : Nat) (bs : List Byte) : (s.emberWrite pa bs).regs = s.regs := by simp [State.emberWrite]
@[simp] theorem State.emberWrite_irq (s : State) (pa : Nat) (bs : List Byte) : (s.emberWrite pa bs).irq = s.irq := by simp [State.emberWrite]
@[simp] theorem State.emberWrite_sweep (s : State) (pa : Nat) (bs : List Byte) : (s.emberWrite pa bs).sweep = s.sweep := by simp [State.emberWrite]
@[simp] theorem State.emberWrite_upsets (s : State) (pa : Nat) (bs : List Byte) : (s.emberWrite pa bs).upsets = s.upsets := by simp [State.emberWrite]
@[simp] theorem State.emberWrite_store (s : State) (pa : Nat) (bs : List Byte) : (s.emberWrite pa bs).store = s.store := by simp [State.emberWrite]
@[simp] theorem State.emberWrite_ptp (s : State) (pa : Nat) (bs : List Byte) : (s.emberWrite pa bs).ptp = s.ptp := by simp [State.emberWrite]
@[simp] theorem State.emberWrite_errCount (s : State) (pa : Nat) (bs : List Byte) : (s.emberWrite pa bs).errCount = s.errCount := by simp [State.emberWrite]
@[simp] theorem State.emberWrite_errRows (s : State) (pa : Nat) (bs : List Byte) : (s.emberWrite pa bs).errRows = s.errRows := by simp [State.emberWrite]
@[simp] theorem State.emberWrite_dict (s : State) (pa : Nat) (bs : List Byte) : (s.emberWrite pa bs).dict = s.dict := by simp [State.emberWrite]
@[simp] theorem State.emberWrite_dev (s : State) (pa : Nat) (bs : List Byte) : (s.emberWrite pa bs).dev = s.dev := by simp [State.emberWrite]
@[simp] theorem State.emberWrite_out (s : State) (pa : Nat) (bs : List Byte) : (s.emberWrite pa bs).out = s.out := by simp [State.emberWrite]
@[simp] theorem State.emberWrite_lanes (s : State) (pa : Nat) (bs : List Byte) : (s.emberWrite pa bs).lanes = s.lanes := by simp [State.emberWrite]
@[simp] theorem State.emberWrite_bb (s : State) (pa : Nat) (bs : List Byte) : (s.emberWrite pa bs).bb = s.bb := by simp [State.emberWrite]
@[simp] theorem State.emberWrite_tb (s : State) (pa : Nat) (bs : List Byte) : (s.emberWrite pa bs).tb = s.tb := by simp [State.emberWrite]
@[simp] theorem State.emberWrite_usb (s : State) (pa : Nat) (bs : List Byte) : (s.emberWrite pa bs).usb = s.usb := by simp [State.emberWrite]
@[simp] theorem State.emberWrite_sealEng (s : State) (pa : Nat) (bs : List Byte) : (s.emberWrite pa bs).sealEng = s.sealEng := by simp [State.emberWrite]
@[simp] theorem State.emberWrite_bus (s : State) (pa : Nat) (bs : List Byte) : (s.emberWrite pa bs).bus = s.bus := by simp [State.emberWrite]
@[simp] theorem State.emberWrite_ledger (s : State) (pa : Nat) (bs : List Byte) : (s.emberWrite pa bs).ledger = s.ledger := by simp [State.emberWrite]
@[simp] theorem State.emberWrite_rtc (s : State) (pa : Nat) (bs : List Byte) : (s.emberWrite pa bs).rtc = s.rtc := by simp [State.emberWrite]
@[simp] theorem State.emberWrite_pdc (s : State) (pa : Nat) (bs : List Byte) : (s.emberWrite pa bs).pdc = s.pdc := by simp [State.emberWrite]
@[simp] theorem State.emberWrite_job (s : State) (pa : Nat) (bs : List Byte) : (s.emberWrite pa bs).job = s.job := by simp [State.emberWrite]
@[simp] theorem State.emberWrite_boot (s : State) (pa : Nat) (bs : List Byte) : (s.emberWrite pa bs).boot = s.boot := by simp [State.emberWrite]
@[simp] theorem State.emberWrite_dap (s : State) (pa : Nat) (bs : List Byte) : (s.emberWrite pa bs).dap = s.dap := by simp [State.emberWrite]
@[simp] theorem State.emberWrite_regW (s : State) (pa : Nat) (bs : List Byte) (w : World) (a o : Nat) : (s.emberWrite pa bs).regW w a o = s.regW w a o := State.regW_congr (s.emberWrite_regs pa bs)
@[simp] theorem State.emberWrite_reg (s : State) (pa : Nat) (bs : List Byte) (a o : Nat) : (s.emberWrite pa bs).reg a o = s.reg a o := State.regW_congr (s.emberWrite_regs pa bs)
@[simp] theorem State.masterWriteMem_now (s : State) (pa : Nat) (bs : List Byte) : (s.masterWriteMem pa bs).now = s.now := by simp [State.masterWriteMem]
@[simp] theorem State.masterWriteMem_seq (s : State) (pa : Nat) (bs : List Byte) : (s.masterWriteMem pa bs).seq = s.seq := by simp [State.masterWriteMem]
@[simp] theorem State.masterWriteMem_free (s : State) (pa : Nat) (bs : List Byte) : (s.masterWriteMem pa bs).free = s.free := by simp [State.masterWriteMem]
@[simp] theorem State.masterWriteMem_resp (s : State) (pa : Nat) (bs : List Byte) : (s.masterWriteMem pa bs).resp = s.resp := by simp [State.masterWriteMem]
@[simp] theorem State.masterWriteMem_regs (s : State) (pa : Nat) (bs : List Byte) : (s.masterWriteMem pa bs).regs = s.regs := by simp [State.masterWriteMem]
@[simp] theorem State.masterWriteMem_irq (s : State) (pa : Nat) (bs : List Byte) : (s.masterWriteMem pa bs).irq = s.irq := by simp [State.masterWriteMem]
@[simp] theorem State.masterWriteMem_sweep (s : State) (pa : Nat) (bs : List Byte) : (s.masterWriteMem pa bs).sweep = s.sweep := by simp [State.masterWriteMem]
@[simp] theorem State.masterWriteMem_upsets (s : State) (pa : Nat) (bs : List Byte) : (s.masterWriteMem pa bs).upsets = s.upsets := by simp [State.masterWriteMem]
@[simp] theorem State.masterWriteMem_store (s : State) (pa : Nat) (bs : List Byte) : (s.masterWriteMem pa bs).store = s.store := by simp [State.masterWriteMem]
@[simp] theorem State.masterWriteMem_ptp (s : State) (pa : Nat) (bs : List Byte) : (s.masterWriteMem pa bs).ptp = s.ptp := by simp [State.masterWriteMem]
@[simp] theorem State.masterWriteMem_errCount (s : State) (pa : Nat) (bs : List Byte) : (s.masterWriteMem pa bs).errCount = s.errCount := by simp [State.masterWriteMem]
@[simp] theorem State.masterWriteMem_errRows (s : State) (pa : Nat) (bs : List Byte) : (s.masterWriteMem pa bs).errRows = s.errRows := by simp [State.masterWriteMem]
@[simp] theorem State.masterWriteMem_dict (s : State) (pa : Nat) (bs : List Byte) : (s.masterWriteMem pa bs).dict = s.dict := by simp [State.masterWriteMem]
@[simp] theorem State.masterWriteMem_dev (s : State) (pa : Nat) (bs : List Byte) : (s.masterWriteMem pa bs).dev = s.dev := by simp [State.masterWriteMem]
@[simp] theorem State.masterWriteMem_out (s : State) (pa : Nat) (bs : List Byte) : (s.masterWriteMem pa bs).out = s.out := by simp [State.masterWriteMem]
@[simp] theorem State.masterWriteMem_lanes (s : State) (pa : Nat) (bs : List Byte) : (s.masterWriteMem pa bs).lanes = s.lanes := by simp [State.masterWriteMem]
@[simp] theorem State.masterWriteMem_bb (s : State) (pa : Nat) (bs : List Byte) : (s.masterWriteMem pa bs).bb = s.bb := by simp [State.masterWriteMem]
@[simp] theorem State.masterWriteMem_tb (s : State) (pa : Nat) (bs : List Byte) : (s.masterWriteMem pa bs).tb = s.tb := by simp [State.masterWriteMem]
@[simp] theorem State.masterWriteMem_usb (s : State) (pa : Nat) (bs : List Byte) : (s.masterWriteMem pa bs).usb = s.usb := by simp [State.masterWriteMem]
@[simp] theorem State.masterWriteMem_sealEng (s : State) (pa : Nat) (bs : List Byte) : (s.masterWriteMem pa bs).sealEng = s.sealEng := by simp [State.masterWriteMem]
@[simp] theorem State.masterWriteMem_bus (s : State) (pa : Nat) (bs : List Byte) : (s.masterWriteMem pa bs).bus = s.bus := by simp [State.masterWriteMem]
@[simp] theorem State.masterWriteMem_ledger (s : State) (pa : Nat) (bs : List Byte) : (s.masterWriteMem pa bs).ledger = s.ledger := by simp [State.masterWriteMem]
@[simp] theorem State.masterWriteMem_rtc (s : State) (pa : Nat) (bs : List Byte) : (s.masterWriteMem pa bs).rtc = s.rtc := by simp [State.masterWriteMem]
@[simp] theorem State.masterWriteMem_pdc (s : State) (pa : Nat) (bs : List Byte) : (s.masterWriteMem pa bs).pdc = s.pdc := by simp [State.masterWriteMem]
@[simp] theorem State.masterWriteMem_job (s : State) (pa : Nat) (bs : List Byte) : (s.masterWriteMem pa bs).job = s.job := by simp [State.masterWriteMem]
@[simp] theorem State.masterWriteMem_boot (s : State) (pa : Nat) (bs : List Byte) : (s.masterWriteMem pa bs).boot = s.boot := by simp [State.masterWriteMem]
@[simp] theorem State.masterWriteMem_dap (s : State) (pa : Nat) (bs : List Byte) : (s.masterWriteMem pa bs).dap = s.dap := by simp [State.masterWriteMem]
@[simp] theorem State.masterWriteMem_regW (s : State) (pa : Nat) (bs : List Byte) (w : World) (a o : Nat) : (s.masterWriteMem pa bs).regW w a o = s.regW w a o := State.regW_congr (s.masterWriteMem_regs pa bs)
@[simp] theorem State.masterWriteMem_reg (s : State) (pa : Nat) (bs : List Byte) (a o : Nat) : (s.masterWriteMem pa bs).reg a o = s.reg a o := State.regW_congr (s.masterWriteMem_regs pa bs)

end Sys2Proof.Machine
end

