-- ==== Sys2Proof/Tests/Slice0.lean ====
section
/-!
SUPPORT. Tests/Slice0.lean: ill-formed operands that WellFormed refuses, single steps with results worked out from the spec by hand, and states that meet the
statements' hypotheses.
-/
namespace Sys2Proof.Tests
set_option Elab.async false
open Sys2Proof.Machine

/-- A Trade supervisor. -/
def tq : Req := { world := .trade, sup := true, cmr := 0xFFFF, tile := none }
/-- An Open supervisor of colours 1 to 14. -/
def oq : Req := { world := .opn, sup := true, cmr := 0x7FFE, tile := none }
/-- State.reset with registers set: slot, offset, value. -/
def regs (l : List (Nat × Nat × Word)) : State := l.foldl (fun s p => s.setReg p.1 p.2.1 p.2.2) State.reset
/-- A state with tile 0 changed. -/
def tile0 (s : State) (f : Tile → Tile) : State := s.modTile 0 f
/-- Slots given colour 5, as the Trade image gives them for the Open world. -/
def shared (l : List Nat) (s : State) : State := l.foldl (fun s n => s.setReg 0 (0x1004 + 8 * n) 0x50000000) s
/-- Tile 0 runs context 0 as the reset sequence starts it, at 0x01000000. -/
def running : State := (State.reset.modBoot (fun b => { b with rst := .off, tinder := .done })).runFresh 0 0 (bootCtx .trade 0x1000000)
/-- A tile whose write buffer holds one line. -/
def buffered (line : Nat) (ember sent : Bool) : Tile → Tile :=
  fun x => x.modCaches (fun c => { c with wbuf := [{ ember := ember, line := line, mask := 1, data := [(0, 7)], seq := 1, sent := sent }] })
/-- A tile that waits for an access to peripheral space. -/
def accessing (pa : Nat) (size : Nat) (tries : Nat) : Tile → Tile :=
  fun x => x.modFlow (fun f => { f with freeze := .access { write := true, size := size, pa := pa, v := 1, ea := 0, tries := tries, stored := none } })

theorem witness_StepsKeepOrder : State.reset.ok = true ∧ (∃ t, step State.reset = .next t)
    ∧ ({ State.reset with pending := [.emberTick, .idcode] } : State).ok = true := ⟨by decide, ⟨_, rfl⟩, by decide⟩

theorem witness_EmptyQueueTicks : State.reset.pending = [] ∧ running.wdRuns .trade = true ∧ running.bridgeDown = false ∧ running.boot.tinder ≠ .recovery
    ∧ running.boot.waitOpen = false ∧ (State.reset.modBoot (fun b => { b with rst := .held })).boot.rst = .held
    ∧ ({ running with dev := { running.dev with st := .banked } } : State).bridgeDown = true := by and_intros <;> decide

theorem witness_GateDecides : let s := State.reset
    slotKind 0x007 = .empty ∧ slotKind 0x00C ≠ .empty ∧ ¬ bit (s.gate0 0x030) 3 = true ∧ ¬ (({ tq with sup := false } : Req).sup = true ∨ bit (s.gate0 0x00C) 5 = true)
    ∧ slotKind 0x021 = .fixed ∧ slotKind 0xFFF = .empty
    ∧ colourPasses .trade true 0xFFFF 15 = true ∧ ¬ colourPasses .opn true 0x7FFE (s.gateColour 0x00C) = true
    ∧ ¬ colourPasses .opn false 0x7FFE ((regs [(0, 0x1060, 0x3C)]).gateColour 0x00C) = true
    ∧ s.bridgeDown = false ∧ s.gateDecide oq 0x00C 0x1000 true = some 0x29 ∧ s.gateDecide oq 0x00C 0x1100 false = some 0x29 := by and_intros <;> decide

theorem witness_ProtectionWritten : let s := State.reset
    s.admits tq 0x001 0x1100 ∧ s.admits tq 0x001 (0x1104 + 24) ∧ s.admits tq 0x001 0x1200 ∧ s.admits tq 0x001 (0x1204 + 24)
    ∧ s.admits tq 0 (0x1000 + 8 * 4095) ∧ s.admits tq 0 0x1000 ∧ slotKind 4095 ≠ .fixed ∧ slotKind 0x030 ≠ .fixed ∧ fld (0x1C : Word) 7 6 ≠ 3
    ∧ s.admits tq 2 0x1000 ∧ s.admits tq 5 (0x1008 + 16 * 7) ∧ (s.takeBits 2 0x1000 0x0FFFFFFF 1).regionsClash 0 = false
    ∧ (s.takeBits 5 (0x1008 + 16 * 7) 0xFFFF0007 0xFFFF0007).regionsClash 3 = false
    ∧ s.admits tq 0x040 0x1020 ∧ s.admits tq 0x05F 0x102C ∧ bit (s.reg 0x05F 0x1000) 29 = false ∧ bit (s.reg 0x05F 0x1014) 31 = false
    ∧ tq.cmr.getLsbD (fld (s.reg 0x040 0x1024) 31 28) = true ∧ tq.cmr.getLsbD (fld (0xF0000000 : Word) 31 28) = true ∧ s.admits tq 0x040 0x1000
    ∧ (regs [(0x040, 0x1000, 0x80000000), (0x040, 0x100C, 16)]).admits tq 0x040 0x1018
    ∧ bit ((regs [(0x040, 0x1000, 0x80000000), (0x040, 0x100C, 16)]).reg 0x040 0x1000) 31 = true
    ∧ fld ((regs [(0x040, 0x1000, 0x80000000), (0x040, 0x100C, 16)]).reg 0x040 0x100C) 23 0 % 16 = 0 := by
  and_intros <;> decide

theorem witness_RecolourDone : let s := regs [(0x001, 0x1000, 0x100000), (0x001, 0x1004, 1), (0x001, 0x100C, 3)]
    s.admits tq 0x001 0x1010 ∧ s.recolourOk tq 0x1000000 1 0 3 = true
    ∧ (regs [(0x001, 0x1000, 0x17FFF0), (0x001, 0x1004, 1), (0x001, 0x100C, 15)]).recolourOk tq 0x17FFF00 1 0 15 = true := by
  and_intros <;> decide

/-- A sweep that runs over one area of shared SRAM of one step. -/
def sweeping : State := regs [(0x021, 0x1100, 0x100000), (0x021, 0x1104, 0x100001), (0x021, 0x1108, 0x80000000), (0x021, 0x1204, 4), (0x021, 0x1208, 1), (0x021, 0x1210, 1),
  (0x003, 0x1000, 0x10000), (0x003, 0x1004, 0x18000), (0x003, 0x1008, 0xFFFF0007)]

theorem witness_SweepCommanded : let s := State.reset
    s.admits tq 0x021 0x1000 ∧ s.admits tq 0x021 0x103C ∧ s.admits tq 0x021 0x1100 ∧ s.admits tq 0x021 0x11F8 ∧ s.sweepState ≠ 1
    ∧ (bit (s.reg 0x021 0x103C) 31 = true → bit (s.reg 0x021 0x103C) 30 = tq.world.bit) ∧ bit (0x40000000 : Word) 30 = tq.world.bit
    ∧ s.areaRefused tq (s.sweepArea 15) = false ∧ (s.takeBits 0x021 0x11F8 0x8000FFFF 0x80008000).areaRefused tq ((s.takeBits 0x021 0x11F8 0x8000FFFF 0x80008000).sweepArea 15) = false
    ∧ s.admits tq 0x021 0x1204 ∧ s.admits tq 0x021 0x1200 ∧ ((List.range 16).map s.sweepArea).any s.areaTagless = false
    ∧ sweeping.admits tq 0x021 0x1200 ∧ sweeping.sweepState = 1 ∧ sweeping.sweep.pause = none ∧ sweeping.reg 0x021 0x120C ≠ sweeping.reg 0x021 0x1210
    ∧ (sweeping.modSweep (fun e => { e with pause := some 5 })).sweep.pause.isSome = true := by
  and_intros <;> decide

theorem witness_SweepAdvances : let done := (sweeping.setReg 0x021 0x120C 1).modSweep (fun e => { e with slot := 4096 })
    sweeping.sweepState = 1 ∧ sweeping.sweep.pause = none
    ∧ (sweeping.sweepLocate (sweeping.reg 0x021 0x120C).toNat (List.range 16)).map (·.2) = some 0x1000000
    ∧ (sweeping.sweepLines (sweeping.sweepArea 0) (sweeping.stepBytes / 64) 0x1000000).2 = 0 ∧ sweeping.sweep.abort = false
    ∧ (sweeping.modSweep (fun e => { e with pause := some 0 })).sweep.pause = some 0
    ∧ sweeping.sweep.slot < 4096 ∧ sweeping.dir 0 = .stored ∧ sweeping.dir 16 = .free
    ∧ done.reg 0x021 0x120C = done.reg 0x021 0x1210 ∧ 4096 ≤ done.sweep.slot ∧ done.sweepState = 1
    ∧ ({ running with regs := sweeping.regs } : State).dir 0 = .running 0 0 := by
  and_intros <;> decide

theorem witness_PointChanged : let s := State.reset
    s.admits tq 0x010 0x1000 ∧ s.admits tq 0x01F 0x1004 ∧ (s.tile 15).sys.dvfs = .steady
    ∧ ((regs [(0x010, 0x1000, 1)]).dvfsTarget 0 = 1) ∧ ((tile0 (regs [(0x010, 0x1000, 1)]) (·.modSys (fun y => { y with dvfs := .switching 1 }))).tile 0).sys.dvfs = .switching 1
    ∧ (regs [(0x010, 0x1000, 1)]).dvfsActive 0 < 1 ∧ ((tile0 (regs [(0x010, 0x1000, 1)]) (·.modSys (fun y => { y with dvfs := .rampUp 1 }))).tile 0).sys.dvfs = .rampUp 1
    ∧ ((tile0 s (·.modSys (fun y => { y with dvfs := .rampDown }))).tile 0).sys.dvfs = .rampDown ∧ s.dvfsTarget 0 = s.dvfsActive 0 := by
  and_intros <;> decide

theorem witness_InterruptWordsWritten : let s := State.reset
    s.admits tq 0x009 0x1000 ∧ s.admits tq 0x009 0x1100 ∧ s.admits tq 0x009 0x1200 ∧ s.admits tq 0x009 0x1300 ∧ s.admits tq 0x009 0x1400
    ∧ s.admits tq 0x009 (0x1400 + 4 * 15) ∧ s.named .trade 1 0x1 32 = true ∧ s.named .opn 1 0x2 33 = true := by
  and_intros <;> decide

theorem witness_SourceConfigured : let s := State.reset
    s.admits tq 0x008 0x1000 ∧ irqPresent 0 = true ∧ irqFixed 0 = false ∧ s.admits tq 0x008 (0x1000 + 4 * 508) ∧ irqPresent 32 = true ∧ s.irqWorld 32 = .trade
    ∧ World.ofBit (bit (0x40000 : Word) 18) = .trade ∧ s.irq.line.getLsbD 0 ≠ true ∧ s.irq.line.getLsbD 511 ≠ true := by
  and_intros <;> first | (simp [State.reset, Irq.reset]; done) | decide

theorem witness_HoldsAndTimers : let s := regs [(0x00C, 0x1004, 5), (0x00C, 0x11F0, 0x80000000), (0x00C, 0x11F4, 9)]
    s.admits tq 0x00A 0x1004 ∧ s.admits tq 0x00A 0x1008 ∧ s.admits tq 0x00C 0x1000 ∧ s.reg 0x00C 0x1004 ≠ 0 ∧ bit (s.reg 0x00C 0x1000) 31 = false
    ∧ s.admits tq 0x00C 0x1004 ∧ bit (s.reg 0x00C 0x11F0) 31 = true ∧ s.reg 0x00C 0x11F8 = 0 := by
  and_intros <;> decide

theorem witness_MasterErrorsTaken : let s := regs [(0x05F, 0x1014, 0x80000010), (0x021, 0x1208, 1)]
    let j : State := { State.reset with sealEng := { Seal.reset with jobs := [0x1000000] } }
    let w := tile0 State.reset (buffered 0x8000000 false true)
    bit (s.reg 0x05F 0x1014) 31 = true ∧ fld (s.reg 0x021 0x1208) 1 0 = 1 ∧ j.sealEng.jobs = [0x1000000]
    ∧ ((tile0 State.reset (accessing 0x100C1000 4 0)).tile 0).flow.freeze ≠ .none ∧ (State.reset.place 0x100C1000).target.isSome = true
    ∧ (w.tile 0).flow.freeze = .none ∧ ((w.tile 0).caches.wbuf.find? (fun e => e.sent && ((w.place e.line).target == some .emram))).isSome = true := by
  and_intros <;> decide

theorem witness_MemoryEventsTaken : let e : WbEnt := { ember := true, line := 0x6000000, mask := 1, data := [(0, 7)], seq := 1, sent := false }
    let x := (tile0 State.reset (buffered 0x6000000 true false)).tile 0
    let y := (tile0 State.reset (buffered 0x8000000 false false)).tile 0
    let p : Prog := { line := 0x8000000, mask := 1, who := .tile 0, old := List.replicate 64 0 }
    let s : State := { State.reset with mem := { Mem.reset with progs := vset Mem.reset.progs 3 (some p) } }
    x.caches.wbuf.find? (fun e => !e.sent && !x.caches.wbuf.any (fun f => f.sent && f.ember == e.ember)) = some e
    ∧ y.caches.wbuf.find? (fun e => !e.sent && !y.caches.wbuf.any (fun f => f.sent && f.ember == e.ember)) = some { e with ember := false, line := 0x8000000 }
    ∧ State.reset.inJournal 0x8000000 = false ∧ State.reset.inLedger 0x8000000 = false ∧ vget State.reset.mem.progs (emBank 0x8000000) none = none
    ∧ vget s.mem.progs (3 : BitVec 2).toNat none = some p ∧ (s.tile 0).caches.wbuf = []
    ∧ bit ((regs [(0x023, 0x1000, 0x40000000), (0x023, 0x1014, 2)]).reg 0x023 0x1000) 30 = true
    ∧ 1 < ((regs [(0x023, 0x1000, 0x40000000), (0x023, 0x1014, 2)]).reg 0x023 0x1014).toNat
    ∧ ((regs [(0x023, 0x1000, 0x40000000), (0x023, 0x1014, 1)]).reg 0x023 0x1014).toNat ≤ 1
    ∧ ((Tile.reset.modCaches (fun c => { c with wbacks := [0x1000000] })).caches.wbacks.contains 0x1000000) = true
    ∧ (((buffered 0x6000000 true true) Tile.reset).caches.wbuf.find? (fun e => e.line == 0x6000000 && State.reset.entryReady e)).isSome = true
    ∧ ((buffered 0x6000000 true true) Tile.reset).caches.wbacks.contains 0x6000000 = false := by
  and_intros <;> decide

theorem witness_TranslationCommanded : let s := State.reset
    let l2 := tile0 s (fun x => { (x.modFlow (fun f => { f with freeze := .walk 0x2000 false false })) with tlbs := { Tlbs.reset with l2 := [(0, { va := 0x2000, size := 12, pa := 0x1000000, r := true, w := true, x := true, u := false, se := false, colour := 0 })] } })
    s.admits tq 0x010 0x1100 ∧ s.admits tq 0x01F 0x117C ∧ s.admits tq 0x010 0x1184 ∧ s.admits tq 0x022 0x1800
    ∧ (l2.tile 0).flow.freeze = .walk 0x2000 false false ∧ (l2.fillXlate 0 0x2000 false).2 = none
    ∧ ((tile0 s (·.modFlow (fun f => { f with freeze := .walk 0x2000 false false }))).fillXlate 0 0x2000 false).2.isSome = true := by
  and_intros <;> decide

theorem witness_AccessesPerformed : let s := tile0 running (accessing 0x100C1000 4 0)
    let o := tile0 running (accessing 0x10070000 4 0)
    let c := tile0 running (accessing 0x10811000 4 2)
    let f := regs [(0x05F, 0x1000, 0xB100FFFF), (0x05F, 0x1008, 0x100000), (0x05F, 0x100C, 80), (0x05F, 0x1014, 0x80000050)]
    s.place 0x100C1000 = .periph 0x00C 0x1000 ∧ s.gateDecide ((s.tile 0).req 0) 0x00C 0x1000 true = none ∧ s.bridgeDown = false ∧ s.unreachable 0x00C = false
    ∧ o.place 0x10070000 = .periph 0x007 0 ∧ o.gateDecide ((o.tile 0).req 0) 0x007 0 true = some 0x25
    ∧ ((tile0 running (·.modFlow (fun f => { f with freeze := .response 1 (.err 0x25) 0 }))).tile 0).flow.freeze = .response 1 (.err 0x25) 0
    ∧ c.place 0x10811000 = .periph 0x081 0x1000 ∧ behindCauseway 0x081 = true ∧ c.gateDecide ((c.tile 0).req 0) 0x081 0x1000 true = none
    ∧ s.admits tq 0x040 0x1004 ∧ s.admits tq 0x05F 0x1010 ∧ bit (s.reg 0x05F 0x1000) 29 = false ∧ s.admits tq 0x001 0x1000 ∧ s.admits tq 0x001 0x100C
    ∧ bit (f.reg 0x05F 0x1014) 31 = true ∧ fld (f.reg 0x05F 0x1000) 25 24 = 1 ∧ f.place 0x1000000 = .sram
    ∧ ({ f with mem := { f.mem with colours := [(0x1000000, 5)] } } : State).chanCheck 31 0x1000000 64 = none := by
  and_intros <;> decide
/-- A capability of the Trade world over every address, with the given offsets. -/
def allCap (addr : Word) (entry : Bool) : Cap := if entry then (bootCtx .trade addr).pcc else (bootCtx .trade addr).getC 1
theorem witness_BundlesIssue : let s := running
    let h := tile0 s (·.modFlow (fun f => { f with held := some [(0x800C0005, 0)] }))
    let m := tile0 s (·.modCtx (fun c => { c with pcc := c.pcc.withAddr 0x1000002 }))
    (State.reset.tile 15).mayIssue = false ∧ (m.tile 0).mayIssue = true ∧ m.inTinder = false ∧ (m.tile 0).ctx.pcc.addr.toNat % 4 ≠ 0
    ∧ (h.tile 0).mayIssue = true ∧ h.inTinder = false ∧ (h.tile 0).flow.repSkip = false
    ∧ (∃ raw len m v, h.idleOver.decodeBundle 0 (h.tile 0) = .ok (raw, len, [m]) ∧ m.src = .imm v ∧ m.dst = .w 1 ∧ v = 5 ∧ guardTrue (h.tile 0).tick.ctx.pred m.guard = true)
    ∧ (h.tile 0).run = some 0 ∧ (h.tile 0).ctx.lstat = 0 ∧ (h.tile 0).ctx.bsh = 0 ∧ (h.tile 0).flow.modeSh = none
    ∧ (h.tile 0).flow.armWin = Vector.replicate 4 0 ∧ (h.tile 0).flow.infl = [] := by
  and_intros <;> first | decide | exact ⟨_, _, _, _, rfl, rfl, rfl, rfl, by decide⟩

theorem witness_FreezesEnd : let fr (z : Freeze) := (tile0 running (·.modFlow (fun f => { f with freeze := z }))).tile 0
    let b := tile0 State.reset (buffered 0x1000000 false true)
    (fr (.gfence 0)).flow.freeze = .gfence 0 ∧ ((fr (.gfence 0)).run.isSome = true) ∧ (∀ u, (running.tile u).outstanding 5 = false)
    ∧ (b.tile 0).outstanding 5 = true ∧ (fr (.mfence true 5)).flow.freeze = .mfence true 5 ∧ (fr .dwbinv).flow.freeze = .dwbinv
    ∧ (fr .precise).flow.freeze = .precise ∧ (fr (.line 0x1000000 false true 0)).flow.freeze = .line 0x1000000 false true 0
    ∧ running.bankBusy 0x8000000 = false ∧ running.isDamaged (lineOf 0x1000000) 64 = false := by
  and_intros <;> decide
/-- A tile with one world's configuration changed. -/
def worldCfg (w : World) (f : WorldCfg → WorldCfg) : Tile → Tile := fun x => { x with cfg := vset x.cfg w.idx (f (vget x.cfg w.idx WorldCfg.reset)) }
/-- The Trade descriptor 24 (that of PCC_ALIGN) in the table at 0x01001000, in level mode, with tile 0 running under it. -/
def described : State :=
  ((((tile0 running (worldCfg .trade (fun c => { c with edtb := (rootC1 .trade).withAddr 0x1001000 }))).capStore 0x1001300 ((rootPcc .trade 0x1003000).withOt 1)).capStore
    0x1001308 ((rootC2 .trade).withAddr 0x1002000)).capStore 0x1001310 (Cap.ofDW 0x8001C0000F00)).modTile 0 (·.modCtx (fun c => { c with status := 0xC00F0000 }))
/-- The entry of that exception. -/
def pccAlign : Entry := ⟨24, 0x46, 0x1000002, true, false⟩
/-- A state where source i is enabled and pending at a target that its SCFG names. -/
def signalled (s : State) (i : Nat) (scfg : Word) : State :=
  let s1 := s.setReg 0x008 (0x1000 + 4 * i) scfg
  { s1 with irq := { s1.irq with en := s1.irq.en ||| 1#512 <<< i, pend := s1.irq.pend ||| 1#512 <<< i } }
/-- A world's host on tile 0: HVALID with its number, flat. -/
def hosted (w : World) (n : Nat) : Tile → Tile := worldCfg w (fun c => { c with wcfg := BitVec.ofNat 32 (0x90000000 + n), mask := 0x20000000 })

theorem witness_ContextsMove : let f (n : CtxId) : State := tile0 running (fun x => (x.modFlow (fun y => { y with freeze := .fill n .run })).modSys (fun y => { y with recorded := some n }))
    let sp : State := tile0 running (fun x => { x with spill := [{ num := 2, ctx := Ctx.reset 2 }] })
    ((f 1).tile 0).flow.freeze = .fill 1 .run ∧ (f 1).dir 1 = .recorded 0 ∧ (f 1).store.slotBad 1 = false ∧ ((f 1).tile 0).victim = some 1
    ∧ (vget ((f 1).tile 0).banks 1 Bank.reset).st ≠ .dirty ∧ ((f 1).tile 0).run = some 0
    ∧ ((f 15).modStore (fun y => { y with damaged := [(15 * 48, true)] })).dir 15 = .recorded 0
    ∧ ((f 15).modStore (fun y => { y with damaged := [(15 * 48, true)] })).store.slotBad 15 = true ∧ ((f 15).tile 0).flow.issuing = false
    ∧ ((f 15).tile 0).sys.recorded = some 15 ∧ (sp.tile 0).spill = [{ num := 2, ctx := Ctx.reset 2 }] := by
  and_intros <;> decide

theorem witness_ExceptionsTaken : let x := (described.tile 0).drain
    let m := tile0 described (fun x => worldCfg .trade (fun c => { c with wcfg := 0x80000000 }) ((x.modFlow (fun f => { f with mcs := [⟨0x30, 5⟩] })).modCtx (fun c => { c with status := 0xE0100000 })))
    let r := tile0 described (·.modFlow (fun f => { f with infl := [{ unit := .alu, trig := 0, dist := 9, comp := 1, code := some 0x48, flags := 0 }] }))
    let fl := tile0 described (·.modFlow (fun f => { f with fault := some ⟨0x46, 0x1000002⟩ }))
    (fl.tile 0).flow.fault = some ⟨0x46, 0x1000002⟩ ∧ (fl.tile 0).live = true ∧ (fl.tile 0).run.isSome = true ∧ (fl.tile 0).flow.report = none
    ∧ (r.tile 0).boundary = true ∧ (r.tile 0).haltDue = false ∧ (r.tile 0).flow.reportDue = true ∧ (r.tile 0).flow.report.isSome = true
    ∧ m.mcDue 0 = some ⟨0x30, 5⟩ ∧ (m.tile 0).flow.report = none
    ∧ (worldCfg .trade (fun c => { c with wcfg := 0x20000000 }) x).efheld .trade = true ∧ x.efheld .trade = false
    ∧ (worldCfg .trade (fun c => { c with pstat := 2 }) x).shadowHeld .trade true = true ∧ x.shadowHeld .trade x.sup = false := by
  and_intros <;> decide

theorem witness_ExceptionsTaken_entered : let s1 := described.setTile 0 (described.tile 0).drain
    let p := (s1.setTile 0 (s1.tile 0).copyImage).readDesc 0 .trade pccAlign.idx
    ∃ d, p.2 = some d ∧ d.usable .trade = true ∧ (p.1.tile 0).flat .trade = false ∧ (p.1.tile 0).ctx.mlvl ≤ d.level
      ∧ (p.1.ownStoreCheck 0 .trade d.mask d.stack ((p.1.tile 0).ctx.frame pccAlign.cause pccAlign.faddr false (p.1.tile 0).flow.modeSh)
          (d.stack.addr - 64)).2.toBool = true := by
  refine ⟨_, rfl, ?_⟩
  and_intros <;> decide +kernel
theorem witness_InterruptsDelivered : let flat (w : World) (s : State) : State := tile0 s (fun x => worldCfg w (fun c => { c with wcfg := 0x80000000 }) (x.modCtx (fun c => { c with status := c.status ||| 0x20000000 })))
    let d := flat .trade (signalled running 384 0x40F00)
    let c := tile0 d (·.modFlow (fun f => { f with deliv := some ⟨.trade, false, false⟩ }))
    let a := tile0 (flat .trade running) (·.modFlow (fun f => { f with deliv := some ⟨.trade, false, false⟩ }))
    (d.tile 0).flow.deliv = none ∧ d.irqDue 0 = true ∧ (d.tile 0).flow.report = none
    ∧ c.deliverable 0 .trade (maskPasses true (c.tile 0).ctx.status) = some 384 ∧ a.deliverable 0 .trade (maskPasses true (a.tile 0).ctx.status) = none := by
  and_intros <;> decide +kernel

theorem witness_InterruptsDelivered_hosts : let opn := (State.reset.modBoot (fun b => { b with rst := .off, tinder := .done })).runFresh 0 8 (bootCtx .opn 0x1000000)
    let x := tile0 (signalled opn 384 0x40F00) (hosted .trade 0)
    let e := tile0 running (fun x => hosted .opn 9 (x.modFlow (fun f => { f with enter := some (.opn, 46) })))
    let i := tile0 (signalled (State.reset.modBoot (fun b => { b with rst := .off, tinder := .done })) 384 0x40F00) (fun x => hosted .trade 0 x)
    (x.tile 0).flow.enter = none ∧ x.crossDue 0 = true ∧ (x.tile 0).flow.report = none
    ∧ (e.tile 0).flow.enter = some (.opn, 46) ∧ (e.tile 0).live = true ∧ (e.tile 0).flow.freeze = .none ∧ e.hostReady 0 .opn = true
    ∧ i.idleDue 0 = some (.trade, none) := by
  and_intros <;> decide +kernel
/-- A local record in slot 31 of a world's mailbox: key, operation and inline value. -/
def posted (w : World) (key op : Nat) (v : List Byte) (s : State) : State :=
  let b := (toBytes 2 (key / 256) ++ toBytes 1 key ++ toBytes 1 op ++ [0, 0] ++ toBytes 2 7 ++ toBytes 2 v.length ++ [0, 0] ++ List.replicate 4 0 ++ v)
  { s with mem := s.mem.putBytes (mailboxOf w + 64 * 31) b }
/-- A descriptor of an Open value of two bytes, kept in ember, that Control may write. -/
def ownEntry : DictDesc :=
  { index := 0x1100, sub := 1, type := 3, access := 1, rrole := 1, wrole := 2, expert := false, ember := true, owner := 2, maxlen := 2, min := 0, max := 0xFFFF
    dflt := 0, name := List.replicate 24 0 }
/-- A catalogue that holds it. -/
def owned : State := State.reset.modDict (fun d => { d with cat := [ownEntry] })
/-- A request of key from Open's local slot 0 that waits at the owner's slot 3 for its answer. -/
def forwarded (key op : Nat) : State := owned.modDict (fun d => { d with
  fwds := [{ slot := 3, world := .opn, req := { src := .mailbox .trade 0, op := op, key := key, value := [], tag := 0 }, area := false, num := 0, start := some 0 }] })

theorem witness_LocalRequestsAnswered : let o := posted .opn 0x021001 2 [1] State.reset
    let r := posted .opn 0x021001 1 [] State.reset
    let n := posted .opn 0x110002 1 [] State.reset
    let bad := posted .opn 0x021001 2 [2] State.reset
    let q := posted .opn 0x110001 2 [5, 0] owned
    let u := posted .opn 0x110001 4 [5, 0] owned
    State.reset.dict.areaBusy .opn = false
    ∧ o.localReady .opn 31 ∧ (o.localRecord .opn 31).op = 2 ∧ (∀ e ∈ o.dict.entry 0x021001, (o.localTaken .opn 31).checkReq (o.localRecord .opn 31) e 4 = 0)
    ∧ r.localReady .opn 31 ∧ (r.localRecord .opn 31).op = 1 ∧ (r.dict.entry (r.localRecord .opn 31).key).isSome = true
    ∧ n.localReady .opn 31 ∧ n.dict.entry (n.localRecord .opn 31).key = none
    ∧ bad.localReady .opn 31 ∧ (∀ e ∈ bad.dict.entry 0x021001, (bad.localTaken .opn 31).checkReq (bad.localRecord .opn 31) e 4 = 6)
    ∧ q.localReady .opn 31 ∧ q.dict.entry (q.localRecord .opn 31).key = some ownEntry ∧ (q.localTaken .opn 31).checkReq (q.localRecord .opn 31) ownEntry 4 = 0
    ∧ ((q.localTaken .opn 31).queueWrite (q.localRecord .opn 31) ownEntry 4).2 = 0
    ∧ u.localReady .opn 31 ∧ (u.localTaken .opn 31).mayUpdate .opn ownEntry = true ∧ ownEntry.typeOk [5, 0] = true ∧ ownEntry.rangeOk [5, 0] = true
    ∧ cmdOf ownEntry.index = none ∧ owned.dict.cat.find? (fun e => e.key == 0x110001) = some ownEntry ∧ ownerWorld ownEntry.owner = .opn := by
  and_intros <;> decide +kernel

theorem witness_LocalRequestsAnswered_catalogue : let g := posted .opn 0 5 ownEntry.bytes State.reset
    let i := posted .opn 0x240001 2 [9, 0] State.reset
    ownEntry.bytes.length = 64 ∧ State.reset.registerOk .opn ownEntry.bytes = true ∧ (g.localRecord .opn 31).op = 5
    ∧ (i.localRecord .opn 31).op = 2 ∧ (i.localRecord .opn 31).key = 0x240001
    ∧ 1024 ≤ (State.reset.modDict (fun d => { d with cat := List.replicate 1024 ownEntry })).dict.cat.length
    ∧ State.reset.isDamaged (mailboxOf .opn + 64 * 31) 64 = false := by
  and_intros <;> decide +kernel

theorem witness_DictionaryEventsTaken : let f := forwarded 0x110001 1
    let g := forwarded 0x110001 2
    let late : State := { (f.modDict (fun d => { d with vals := [(0x016004, [2, 0])] })) with now := 2000 }
    let w := State.reset.modDict (fun d => { d with wq := vset d.wq 1 [0x110001], devReset := some 0 })
    let u : State := { (State.reset.modDict (fun d => { d with unlock := vset d.unlock 1 (some 5), clk := .stopped })) with now := 5 }
    (shared [0x028] f).admits oq 0x028 0x1010 ∧ (f.dict.fwds.find? (fun f => f.world == .opn && f.slot == fld (35 : Word) 5 0 - 32)).isSome = true
    ∧ f.mem.val (mailboxOf .opn + 0x800 + 64 * 3 + 5) 1 ≠ 0xFF ∧ (g.dict.entry 0x110001).isSome = true
    ∧ g.mem.val (mailboxOf .opn + 0x800 + 64 * 3 + 5) 1 = 0 ∧ g.isDamaged (mailboxOf .opn + 0x800 + 64 * 3) 64 = false
    ∧ late.dict.clk ≠ .stopped ∧ 0 + late.dict.num 0x016004 * 1000 ≤ late.now ∧ (shared [0x028] w).admits oq 0x028 0x101C ∧ vget w.dict.wq 1 [] = [0x110001]
    ∧ u.dict.clk = .stopped ∧ u.deadlinePassed = true ∧ w.dict.devReset = some 0 ∧ w.dict.grant = none := by
  and_intros <;> decide +kernel

theorem witness_LongCommandsRun : let p := posted .opn 0x901001 2 [1] State.reset
    let run := State.reset.modDict (fun d => { d.setCmd 0 { Cmd.reset with st := 1, n := 2 } with queue := [0], started := true, grant := some ⟨true, false, 0⟩ })
    let next : State := { (State.reset.modDict (fun d => { d.setCmd 0 { Cmd.reset with st := 1 } with queue := [0] })) with now := 2 }
    p.localReady .opn 31 ∧ (p.localRecord .opn 31).key % 256 = 1 ∧ cmdOf ((p.localRecord .opn 31).key / 256) = some 0 ∧ (p.dict.entry 0x901001).isSome = true
    ∧ (∀ e ∈ p.dict.entry 0x901001, (p.localTaken .opn 31).checkReq (p.localRecord .opn 31) e 4 = 0) ∧ p.localByte .opn 31 = 1 ∧ ofBytes (p.localRecord .opn 31).value = 1
    ∧ ((p.localTaken .opn 31).cmdStart 0 4).2 = 0 ∧ (State.reset.dict.cmd 5).st ≠ 1
    ∧ ((State.reset.modDict (fun d => { d.setCmd 1 { Cmd.reset with st := 1 } with queue := [0, 1] })).dict.cmd 1).st = 1
    ∧ ((State.reset.modDict (fun d => d.setCmd 1 { Cmd.reset with st := 3 })).dict.cmd 1).st = 3
    ∧ next.dict.lastDone + 2 ≤ next.now ∧ (shared [0x02C] run).admits oq 0x02C 0x1004 ∧ (shared [0x02C] run).admits oq 0x02C 0x1008 ∧ run.dict.granted .opn = some (0, ⟨true, false, 0⟩)
    ∧ ({ run with now := 10000 } : State).dict.clk ≠ .stopped ∧ (State.reset.modDict (fun d => { d with follow := true })).dict.follow = true := by
  and_intros <;> decide +kernel
/-- A session of node 7 over lane 0 with keys of zeros. -/
def session9 : Session :=
  { num := 9, role := 3, carrier := .lane 0, peer := { addr := 0, port := 0 }, node := 7, keys := List.replicate 48 0, out := 1, hi := 3, window := 1, unlock := none
    comm := false, last := 0, frames := 1, answered := [], pendTags := [], xfers := [], subs := [], evseq := 1, notes := [] }
/-- A frame that arrives over lane 0. -/
def overLane (b : List Byte) : FerryFrame := { carrier := .lane 0, peer := { addr := 0, port := 0 }, dstAddr := 0, dstPort := 0, plain := true, bytes := b }
/-- A frame sealed with keys of zeros under SEQ 4. -/
def sealedIn (h pay : List Byte) : FerryFrame :=
  let c := gcmSeal (List.replicate 16 0) (ferryNonce (List.replicate 8 0) 4) h pay
  overLane (h ++ c.1 ++ c.2)
/-- The header of a frame of that session. -/
def header9 (type len : Nat) : List Byte := ferryHeader type State.reset.dict.node 7 9 4 len

theorem zero_keys (c : Nat) : (aesEncKeys (roundKeys (List.replicate 16 0)) (natBlock c)).length = 16 :=
  aesEncKeys_length _ _ (by decide +kernel) (by decide +kernel)

/-- A field inside the first part of a frame. -/
theorem frameVal_append (h x : List Byte) (o n : Nat) (hn : o + n ≤ h.length) : frameVal (h ++ x) o n = frameVal h o n := by
  rw [frameVal, frameVal, List.drop_append_of_le_length (by omega), List.take_append_of_le_length (by rw [List.length_drop]; omega)]
theorem frameByte_append (h x : List Byte) (i : Nat) (hi : i < h.length) : frameByte (h ++ x) i = frameByte h i := by
  simp [frameByte, List.getElem?_append_left hi]

/-- The three parts of a protected frame. -/
theorem frame_parts (h c t : List Byte) (hl : h.length = 16) (ht : t.length = 16) :
    (h ++ (c ++ t)).take 16 = h ∧ ((h ++ (c ++ t)).drop 16).take c.length = c ∧ ((h ++ (c ++ t)).drop (16 + c.length)).take 16 = t := by
  refine ⟨by rw [← hl, List.take_left], by rw [← hl, List.drop_left, List.take_left], ?_⟩
  rw [← List.drop_drop, ← hl, List.drop_left, List.drop_left, hl, ← ht, List.take_length]

/-- A frame sealed under SEQ 4 opens with its payload. -/
theorem sealed_opens (h pay : List Byte) (hl : h.length = 16) (hs : frameVal h 8 4 = 4) (hn : frameVal h 12 2 = pay.length) :
    ferryOpen (List.replicate 48 0) (sealedIn h pay).bytes = some pay := by
  obtain ⟨l1, l2⟩ := gcmSeal_lengths (List.replicate 16 0) (ferryNonce (List.replicate 8 0) 4) h pay zero_keys
  obtain ⟨p1, p2, p3⟩ := frame_parts h _ _ hl l2
  have hg := gcmOpen_gcmSeal (List.replicate 16 0) (ferryNonce (List.replicate 8 0) 4) h pay zero_keys
  simp only [ferryOpen, sealedIn, overLane, List.append_assoc]
  rw [frameVal_append _ _ _ _ (by omega), frameVal_append _ _ _ _ (by omega), hs, hn, ← l1, p1, p2, p3]
  exact hg

/-- What a header of session 9 must say for a payload. -/
def headerFits (node : Nat) (h : List Byte) (ty len : Nat) : Bool :=
  h.length == 16 && frameByte h 0 == 1 && frameByte h 1 == ty && frameVal h 2 2 == node && decide (frameByte h 3 < 64) && decide (frameByte h 5 < 64)
    && frameVal h 6 2 == 9 && frameVal h 8 4 == 4 && frameVal h 12 2 == len && frameVal h 14 2 == 0 && ferryProtTypes.contains ty && decide (len ≤ 1424)

theorem sealed_admitted (s : State) (ty : Nat) (h pay : List Byte) (hc : s.dict.clk ≠ .stopped) (hf : headerFits s.dict.node h ty pay.length = true) :
    ferryProtected (sealedIn h pay) = true ∧ s.ferryAdmit (sealedIn h pay) = (s, true) ∧ frameByte (sealedIn h pay).bytes 1 = ty
      ∧ frameVal (sealedIn h pay).bytes 6 2 = 9 ∧ frameVal (sealedIn h pay).bytes 8 4 = 4 ∧ ferryOpen (List.replicate 48 0) (sealedIn h pay).bytes = some pay := by
  simp only [headerFits, Bool.and_eq_true, beq_iff_eq, decide_eq_true_eq] at hf
  obtain ⟨⟨⟨⟨⟨⟨⟨⟨⟨⟨⟨f0, f1⟩, f2⟩, f3⟩, f4⟩, f5⟩, f6⟩, f7⟩, f8⟩, f9⟩, f10⟩, f11⟩ := hf
  obtain ⟨l1, l2⟩ := gcmSeal_lengths (List.replicate 16 0) (ferryNonce (List.replicate 8 0) 4) h pay zero_keys
  have v (o n : Nat) (hn : o + n ≤ 16) : frameVal (sealedIn h pay).bytes o n = frameVal h o n := by
    simp only [sealedIn, overLane, List.append_assoc]
    exact frameVal_append _ _ _ _ (by omega)
  have b (o : Nat) (hn : o < 16) : frameByte (sealedIn h pay).bytes o = frameByte h o := by
    simp only [sealedIn, overLane, List.append_assoc]
    exact frameByte_append _ _ _ (by omega)
  have hlen : (sealedIn h pay).bytes.length = 32 + pay.length := by
    simp only [sealedIn, overLane, List.length_append, l1, l2, f0]
    omega
  have hcar : laneCarrier (sealedIn h pay).carrier = true := rfl
  have hpr : ferryProtected (sealedIn h pay) = true := by
    simp only [ferryProtected, hcar, if_true, b 1 (by omega), v 12 2 (by omega), f2, f8, f10, hlen, Bool.true_and, decide_eq_true_eq]
    omega
  have hw : s.engineWake (sealedIn h pay).carrier = s := by simp [State.engineWake, hc]
  have hmal : ferryMalformed (sealedIn h pay) = false := by
    simp only [ferryMalformed, hcar, if_true, b 1 (by omega), b 0 (by omega), b 3 (by omega), b 5 (by omega), v 12 2 (by omega), v 14 2 (by omega), f1, f8, f9, hlen]
    simp
    omega
  refine ⟨hpr, ?_, by rw [b 1 (by omega), f2], by rw [v 6 2 (by omega), f6], by rw [v 8 4 (by omega), f7], sealed_opens h pay f0 f7 f8⟩
  have ha : s.ferryAddressed (sealedIn h pay) = true := rfl
  simp only [State.ferryAdmit, ha, hw, hmal, hpr, v 2 2 (by omega), f3]
  simp

/-- A state whose one session is session 9 with transfers and subscriptions. -/
def inSession (x : List Xfer) (b : List Subn) : State := State.reset.modDict (fun d => { d with sess := [{ session9 with xfers := x, subs := b }] })
/-- That state after the frame. -/
def heard (x : List Xfer) (b : List Subn) : State :=
  State.reset.modDict (fun d => { d with sess := [{ session9 with xfers := x, subs := b, hi := 4, window := 3, frames := 2 }] })

/-- A sealed frame of session 9 is taken. -/
theorem sealed_session (ty : Nat) (h pay : List Byte) (x : List Xfer) (b : List Subn) (hf : headerFits State.reset.dict.node h ty pay.length = true) :
    (inSession x b).ferrySession (sealedIn h pay) ty = (heard x b, some (9, pay)) := by
  have hn : ∀ (d : Dict) (l : List Session), ({ d with sess := l } : Dict).node = d.node := by
    intro d l
    simp only [Dict.node, Dict.num, Dict.entry, Dict.builtin, Dict.isleEntries, Dict.val]
  obtain ⟨hpr, had, hty, hnum, hseq, hop⟩ := sealed_admitted (inSession x b) ty h pay (show EngClk.pll ≠ .stopped by decide) (by rw [inSession, State.modDict, hn]; exact hf)
  have hs9 : (inSession x b).dict.session 9 = some { session9 with xfers := x, subs := b } := rfl
  have hop' : ferryOpen session9.keys (sealedIn h pay).bytes = some pay := hop
  have hac : ({ session9 with xfers := x, subs := b } : Session).accept 4 = some (4, 3) := by
    show session9.accept 4 = _
    decide
  simp only [State.ferrySession, hty, had, hpr, hnum, hs9, hseq, hop', hac, ne_eq, not_true_eq_false, if_false, Bool.not_true, Bool.false_eq_true]
  rfl

/-- And as a request. -/
theorem sealed_request (ty : Nat) (h pay : List Byte) (x : List Xfer) (b : List Subn) (hf : headerFits State.reset.dict.node h ty pay.length = true) :
    (inSession x b).ferryRequest (sealedIn h pay) ty = (heard x b, some (9, frameVal pay 0 2, pay)) := by
  simp only [State.ferryRequest, sealed_session ty h pay x b hf]
  rfl

/-- A transfer being written and one being read. -/
def writing : Xfer := { id := 3, write := true, key := 0x110001, total := 2048, data := List.replicate 4 0, next := 1, last := 0 }
def reading : Xfer := { id := 4, write := false, key := 0x022001, total := 3000, data := List.replicate 3000 0, next := 0, last := 0 }
/-- A subscription. -/
def subscribed : Subn := { id := 1, key := 0x020001, periodic := true, period := 1000, minint := 100, last := some 0, waiting := true, gap := false }

/-- A frame of session 9 with TAG 1 that a request handler takes. -/
def takes (ty : Nat) (pay : List Byte) (x : List Xfer) (b : List Subn) : Prop :=
  (inSession x b).ferryRequest (sealedIn (header9 ty pay.length) pay) ty = (heard x b, some (9, 1, pay))
theorem takes_of (ty : Nat) (pay : List Byte) (x : List Xfer) (b : List Subn)
    (hf : headerFits State.reset.dict.node (header9 ty pay.length) ty pay.length = true) (ht : frameVal pay 0 2 = 1) : takes ty pay x b := by
  rw [takes, sealed_request ty _ pay x b hf, ht]

theorem witness_SessionRequestsTaken : let p30 : List Byte := [1, 0, 0x00, 0x02, 1, 1, 0x60, 0xEA, 0x60, 0xEA]
    let p26 : List Byte := [1, 0, 0x00, 0x11, 1, 3, 1, 0, 0, 8, 2, 0, 7, 7]
    takes 0x20 [1, 0, 0x00, 0x01, 1, 0] [] [] ∧ takes 0x22 [1, 0, 0x00, 0x01, 1, 0, 1, 0, 9] [] []
    ∧ takes 0x24 [1, 0, 0x20, 0x02, 1, 4, 0, 0] [] [] ∧ (heard [] []).dict.xferRoom 9 4 = true
    ∧ takes 0x24 [1, 0, 0x20, 0x02, 1, 4, 1, 0] [reading] [] ∧ (heard [reading] []).dict.xfer 9 4 = some reading ∧ 1024 * (1 + 1) < reading.total
    ∧ reading.key = reqKey [1, 0, 0x20, 0x02, 1, 4, 1, 0]
    ∧ takes 0x26 p26 [writing] [] ∧ (heard [writing] []).dict.xfer 9 3 = some writing ∧ frameByte p26 6 = writing.next ∧ frameVal p26 8 2 = writing.total
    ∧ reqKey p26 = writing.key ∧ writing.data.length + frameVal p26 10 2 < writing.total ∧ p26.length = 12 + frameVal p26 10 2
    ∧ takes 0x28 [1, 0, 0x10, 0x90, 1, 1, 1, 0, 2] [] [] ∧ (cmdOf (frameVal [1, 0, 0x10, 0x90, 1, 1, 1, 0, 2] 2 2)).isSome = true
    ∧ takes 0x30 p30 [] [subscribed] ∧ ((heard [] [subscribed]).dict.entry (reqKey p30)).any (fun e => e.ember && roleReads 3 e.rrole) = true
    ∧ frameVal p30 6 2 = 60000 ∧ frameVal p30 8 2 = 60000
    ∧ takes 0x32 [1, 0, 1, 0] [] [subscribed] ∧ [subscribed].any (fun b => b.id == frameByte [1, 0, 1, 0] 2) = true ∧ takes 0x40 [1, 0] [] []
    ∧ (inSession [] []).ferrySession (sealedIn (header9 0x42 0) []) 0x42 = (heard [] [], some (9, [])) := by
  have hx : (heard [reading] []).dict.xfer 9 4 = some reading := rfl
  have hc := sealed_session 0x42 (header9 0x42 0) [] [] [] (by decide)
  and_intros <;> first | with_reducible exact hx | with_reducible exact hc | (with_reducible refine takes_of _ _ _ _ ?_ ?_ <;> decide) | decide

theorem witness_FramesAdmitted : let f := overLane (header9 0x01 0)
    let many := State.reset.modDict (fun d => { d with unprot := List.replicate 100 0 })
    State.reset.ferryAddressed { f with carrier := .usb 0 } = false ∧ State.reset.ferryAddressed f = true
    ∧ ferryMalformed (overLane (List.replicate 15 1)) = true ∧ ferryMalformed f = false ∧ ferryProtected f = false
    ∧ frameVal (overLane (ferryHeader 0x20 5 7 9 4 0)).bytes 2 2 ≠ State.reset.dict.node ∧ ferryMalformed (overLane (ferryHeader 0x20 5 7 9 4 0)) = false
    ∧ (State.reset.dict.unprot.filter (fun t => decide (State.reset.now < t + 1000000))).length < 100
    ∧ 100 ≤ (many.dict.unprot.filter (fun t => decide (many.now < t + 1000000))).length
    ∧ ferryProtected (overLane (header9 0x40 0 ++ List.replicate 16 0)) = true := by
  and_intros <;> decide

theorem witness_ReplayRefused : session9.accept 4 = some (4, 3) ∧ session9.accept 2 = some (3, 3) ∧ 3 + 64 ≤ ({ session9 with hi := 67 } : Session).hi ∧ session9.hi < 4 := by
  and_intros <;> decide

/-- A handshake of session 9 in row 1: open before its reply, or after it. -/
def handshake (reply : Option (List Byte)) : Hs :=
  { world := .trade, carrier := .lane 0, peer := { addr := 0, port := 0 }, node := 7, session := 9, init := List.replicate 64 0, words := [], reply := reply, role := 3
    comm := false, deadline := 0 }
/-- State.reset with it. -/
def shaking (reply : Option (List Byte)) : State := State.reset.modDict (fun d => { d with hs := vset d.hs 1 (some (handshake reply)) })

theorem witness_HandshakeRuns : let f := overLane (header9 0x01 4 ++ List.replicate 4 0)
    let ini := overLane (header9 0x10 0x98 ++ [3] ++ List.replicate 0x97 0)
    let pay := (ini.bytes.drop 16).take (frameVal ini.bytes 12 2)
    let s : State := { (State.reset.modDict (fun d => { d with vals := [(0x022001, [1, 0])] })) with dev := { State.reset.dev with started := Vector.replicate 2 true } }
    let b := shaking none
    State.reset.ferryAdmit f = ((State.reset.ferryAdmit f).1, true) ∧ frameVal f.bytes 12 2 = 4 ∧ frameVal f.bytes 17 3 = 0
    ∧ (State.reset.ferryAdmit f).1.dict.num 0x020005 = 1 ∧ frameByte f.bytes 16 = 0
    ∧ (s.ferryAdmit ini).2 = true ∧ initForm pay = true ∧ (s.ferryAdmit ini).1.dict.sessCount none < 32 ∧ (s.ferryAdmit ini).1.dict.noAnchors = false
    ∧ (s.ferryAdmit ini).1.worldState .opn = 2 ∧ (List.range 4).find? (fun j => (vget s.dict.hs j none).isNone) = some 0
    ∧ b.admits tq 0x028 0x110C ∧ vget b.dict.hs (fld (1 : Word) 1 0) none = some (handshake none) ∧ bit (0x101 : Word) 8 = true
    ∧ vget (shaking (some [])).dict.hs 1 none = some (handshake (some [])) ∧ (handshake (some [])).deadline ≤ (shaking (some [])).now
    ∧ ferryPlainTypes.contains 0x50 = false ∧ ferryProtected (overLane (header9 0x50 0)) = false ∧ (State.reset.ferryAdmit (overLane (header9 0x50 0))).2 = true
    ∧ ferryProtected (overLane (header9 0x40 0 ++ List.replicate 16 0)) = true ∧ State.reset.dict.session 9 = none
    ∧ (State.reset.ferryAdmit (overLane (header9 0x40 0 ++ List.replicate 16 0))).2 = true := by
  have ha : State.reset.ferryAdmit (overLane (header9 0x01 4 ++ List.replicate 4 0)) = ((State.reset.ferryAdmit (overLane (header9 0x01 4 ++ List.replicate 4 0))).1, true) :=
    Prod.ext rfl (by decide)
  and_intros <;> first | with_reducible exact ha | decide +kernel

/-- CONFIRM of the handshake whose reply is empty. -/
theorem witness_HandshakeRuns_confirm : let h := handshake (some [])
    let f := sealedIn (header9 0x12 32) (sha256 (h.init ++ []))
    let s := shaking (some [])
    s.ferryAdmit f = (s, true) ∧ ferryProtected f = true ∧ vget s.dict.hs 1 none = some h ∧ ferryOpen h.keys f.bytes = some (sha256 (h.init ++ []))
    ∧ (List.range 4).find? (fun j => (vget s.dict.hs j none).any (fun h => h.session == 9 && h.reply.isSome)) = some 1
    ∧ frameVal f.bytes 8 4 ≠ 0 := by
  have hl := sha256_length ((handshake (some [])).init ++ [])
  have hn : (shaking (some [])).dict.node = State.reset.dict.node := by
    simp only [shaking, State.modDict, Dict.node, Dict.num, Dict.entry, Dict.builtin, Dict.isleEntries, Dict.val]
  obtain ⟨h1, h2, -, -, -, h3⟩ := sealed_admitted (shaking (some [])) 0x12 (header9 0x12 32) (sha256 ((handshake (some [])).init ++ []))
    (show EngClk.pll ≠ .stopped by decide) (by rw [hl, hn]; decide)
  exact ⟨h2, h1, rfl, h3, by decide, by decide⟩
/-- An enabled Trade queue whose ring begins at 0x01000000, with one descriptor of 64 bytes at 0x01001000 there that the hardware owns. -/
def ringed (slot off : Nat) (s : State) : State :=
  let t := (s.setReg slot off 0xA000FFFF).setReg slot (off + 4) 0x100000
  { t with mem := { (t.mem.putBytes 0x1000000 [0x00, 0x01, 0x10, 0, 64, 0, 0x80, 0]) with colours := [(0x1000000, 5), (0x1001000, 5)] } }
/-- A broadcast frame of 60 bytes from the address of zeros. -/
def broadcast : List Byte := List.replicate 6 0xFF ++ List.replicate 54 0

theorem witness_SessionTimersRun : let at_ (n : Nat) (x : List Xfer) (b : List Subn) : State := { inSession x b with now := n }
    let c := posted .opn 0x023003 2 [9, 0] (inSession [] [])
    let i := posted .opn 0x020001 2 [127] (inSession [] [])
    (at_ 2000000 [reading] []).dict.clk ≠ .stopped ∧ ((at_ 2000000 [reading] []).dict.xfer 9 4).isSome = true ∧ reading.last + 2000000 ≤ (at_ 2000000 [reading] []).now
    ∧ ((at_ 2000000 [writing] []).dict.xfer 9 3).isSome = true ∧ ((at_ 2000000 [writing] []).dict.xfer 9 3).all (·.write) = true
    ∧ ((at_ 100000 [] [subscribed]).dict.session 9).isSome = true ∧ [subscribed].find? (fun b => b.id == 1) = some subscribed
    ∧ ((at_ 100000 [] [subscribed]).dict.entry subscribed.key).isSome = true ∧ 0 + subscribed.minint * 1000 ≤ (at_ 100000 [] [subscribed]).now
    ∧ 0 + subscribed.period * 1000 ≤ (at_ 1000000 [] [subscribed]).now
    ∧ session9.last + (at_ 3600000000 [] []).dict.num 0x020004 * 1000000 ≤ (at_ 3600000000 [] []).now
    ∧ c.localReady .opn 31 ∧ (∀ e ∈ c.dict.entry 0x023003, (c.localTaken .opn 31).checkReq (c.localRecord .opn 31) e 4 = 0) ∧ (c.dict.entry 0x023003).isSome = true
    ∧ i.localReady .opn 31 ∧ (i.localTaken .opn 31).checkReq (i.localRecord .opn 31) (mkEnt 0x020001 2 5 1 3 false 1 0 127 0) 4 = 0 := by
  and_intros <;> decide +kernel

theorem witness_LaneRegistersWritten : let s := State.reset
    let on := regs [(0x060, 0x1000, 0x80140200), (0x060, 0x1004, 0x40000000)]
    let ash : State := { regs [(0x06F, 0x1004, 0xC0000000)] with dev := { State.reset.dev with permits := [(31, 1)] } }
    s.admits tq 0x060 0x1000 ∧ bit (s.reg 0x060 0x1000) 31 = false ∧ fld (0x80140200 : Word) 23 16 = 20 ∧ fld (0x80140200 : Word) 11 8 = 2
    ∧ on.admits tq 0x060 0x1000 ∧ bit (on.reg 0x060 0x1000) 31 = true ∧ fld (on.reg 0x060 0x1004) 31 30 = 1 ∧ fld (0x00140200 : Word) 30 28 = fld (on.reg 0x060 0x1000) 30 28
    ∧ fld (0x80140300 : Word) 11 8 ≠ fld (on.reg 0x060 0x1000) 11 8
    ∧ s.admits tq 0x06F (0x1020 + 56) ∧ s.admits tq 0x060 (0x1024 + 8) ∧ fld (0x80000000 : Word) 31 30 = 2
    ∧ ash.admits tq 0x06F 0x1014 ∧ ash.permitted 31 = true ∧ fld (ash.reg 0x06F 0x1004) 31 30 = 3 ∧ s.permitted 31 = false
    ∧ s.admits tq 0x070 (0x1000 + 64 * 255) ∧ s.admits tq 0x070 (0x101C + 64 * 255) := by
  and_intros <;> decide +kernel

theorem witness_LaneFramesMove : let on := regs [(0x060, 0x1000, 0x80140200), (0x060, 0x1004, 0x40000000), (0x060, 0x102C, 0x80000000)]
    let t1 := regs [(0x060, 0x1000, 0xC0140200)]
    let plca := on.setReg 0x060 0x1000 0xA0140200
    let rx (s : State) : State := s.modLane 0 (fun l => { l with fifo := [{ queue := 1, stat := 0, tag := 1, time := 0, frame := broadcast }] })
    let q := rx (ringed 0x070 0x1040 on)
    let tx := on.modLane 0 (fun l => { l with tx := some { queue := 2, frame := broadcast }, armed := true })
    on.pen 0 = true ∧ on.lstate 0 = 1 ∧ (State.reset.pen 0 = false) ∧ 1518 < (List.replicate 1519 (0 : Byte)).length
    ∧ ((on.lane 0).fcs.filter (fun t => decide (on.now < t + 1000000))).length < 15 ∧ groupAddr broadcast = true ∧ broadcast.length ≤ 1518
    ∧ fld (on.reg 0x060 (0x1024 + 8 * 1)) 31 30 = 2 ∧ (broadcast.drop 6).take 6 = on.enrAddr 0 1 ∧ on.laneMode 0 ≠ 2
    ∧ ((List.replicate 6 0xFF ++ List.replicate 54 1 : List Byte).drop 6).take 6 ≠ on.enrAddr 0 1
    ∧ (rx on).qRuns (laneQ 0 1 false) = false ∧ q.qRuns (laneQ 0 1 false) = true
    ∧ ((q.modLane 0 (fun l => { l with fifo := [] })).qFetch (laneQ 0 1 false) (some 132)).2 = some { buf := 0x1001000, buflen := 64, own := true }
    ∧ q.qCheck (laneQ 0 1 false) 0x1001000 60 = none ∧ bit (q.q (laneQ 0 1 false) 0) 28 = false
    ∧ (tx.lane 0).tx.isSome = true ∧ tx.lstate 0 = 1 ∧ (tx.lane 0).armed = true ∧ (on.lane 0).tx = none
    ∧ (on.setReg 0x060 0x1004 0x80000000).lstate 0 = 2 ∧ plca.pen 0 = true ∧ plca.laneMode 0 = 1 ∧ t1.pen 0 = true ∧ t1.laneMode 0 = 2 ∧ t1.lstate 0 = 0 := by
  and_intros <;> decide +kernel

theorem witness_LaneLinksBackOff : let up := regs [(0x060, 0x1000, 0x80140200), (0x060, 0x1004, 0x40000000)]
    let four := up.modLane 0 (fun l => { l with ups := [0, 0, 0, 0] })
    let wait := (regs [(0x060, 0x1004, 0x80000000)]).modLane 0 (fun l => { l with due := some 0 })
    let test (n : Nat) : State := (regs [(0x060, 0x1004, 0x80000000)]).modLane 0 (fun l => { l with test := some 0, fails := n })
    let e : DictDesc := { ownEntry with index := 0x3000, sub := 6, type := 2, ember := false, maxlen := 1, max := 255 }
    let p := posted .opn 0x300006 2 [1] (State.reset.modDict (fun d => { d with cat := [e] }))
    up.lstate 0 = 1 ∧ (up.now :: (up.lane 0).ups).length < (up.lane 0).thresh
    ∧ (four.lane 0).thresh ≤ (four.now :: (four.lane 0).ups.filter (fun t => decide (four.now < t + (four.lane 0).window * 1000000))).length
    ∧ wait.lstate 0 = 2 ∧ (wait.lane 0).test = none ∧ (wait.lane 0).due = some 0 ∧ ((test 1).lane 0).test = some 0 ∧ ((test 1).lane 0).fails < 2 ∧ 2 ≤ ((test 2).lane 0).fails
    ∧ p.localReady .opn 31 ∧ (p.localRecord .opn 31).key = 0x300006 + 0x10000 * 0 ∧ p.dict.entry 0x300006 = some e ∧ e.key = 0x300006
    ∧ ofBytes (p.localRecord .opn 31).value = 1 ∧ (p.localTaken .opn 31).checkReq (p.localRecord .opn 31) e 4 = 0 ∧ p.dict.areaBusy .opn = false := by
  and_intros <;> decide +kernel

theorem witness_BackboneRuns : let up := regs [(0x079, 0x1000, 0x80070001), (0x079, 0x1004, 0x80000000), (0x078, 0x1000, 0x80000000), (0x078, 0x1100, 0x80700001)]
    let f : List Byte := List.replicate 60 0
    let known : State := { up with bb := { up.bb with addrs := [{ mac := 0, port := 0, seen := 0 }] } }
    let other : State := { up with bb := { up.bb with addrs := [{ mac := 0, port := 0, seen := 0 }, { mac := 4, port := 1, seen := 0 }] } }
    let g : List Byte := [0, 0, 0, 0, 0, 4] ++ List.replicate 54 0
    let flood : State := { up with bb := { up.bb with fcs := vset up.bb.fcs 0 (List.replicate 15 0) } }
    let sleep : State := { (State.reset.modDict (fun d => { d with vals := [(0x021001, [0]), (0x021002, toBytes 4 0xC0A80001)] })) with dev := { State.reset.dev with st := .banked } }
    let arp : List Byte := List.replicate 12 0 ++ [8, 6] ++ toBytesBE 8 0x0001080006040001 ++ List.replicate 16 0 ++ toBytesBE 4 sleep.dict.address
    bit (up.reg 0x079 0x1000) 31 = true ∧ bit (up.reg 0x079 0x1004) 31 = true ∧ bit ((regs [(0x079, 0x1000, 0)]).reg 0x079 0x1000) 31 = false
    ∧ 1518 < (List.replicate 1519 (0 : Byte)).length ∧ bit (up.reg 0x078 0x1000) 31 = true ∧ f.length ≤ 1518
    ∧ 16 ≤ (flood.now :: (vget flood.bb.fcs 0 []).filter (fun t => decide (flood.now < t + 1000000))).length
    ∧ known.vlanRow (known.vlanOf 0 f).1 = some 0x80700001 ∧ bit (0x80700001 : Word) 20 = true ∧ groupAddr f = false
    ∧ known.bb.addrs.find? (fun x => x.mac == ofBytesBE ((f.drop 6).take 6)) = some { mac := 0, port := 0, seen := 0 }
    ∧ other.bb.addrs.find? (fun x => x.mac == ofBytesBE ((g.drop 6).take 6)) = some { mac := 0, port := 0, seen := 0 }
    ∧ other.bb.addrs.find? (fun x => x.mac == ofBytesBE (g.take 6)) = some { mac := 4, port := 1, seen := 0 } ∧ other.bb.addrs.Pairwise (fun x y => x.mac ≠ y.mac)
    ∧ up.vlanRow (up.vlanOf 0 (List.replicate 12 0 ++ [0x81, 0, 0x0F, 0xFF] ++ List.replicate 46 0)).1 = none
    ∧ up.admits tq 0x078 (0x1100 + 4 * 63) ∧ fld (0x80000002 : Word) 11 0 ≠ fld (up.reg 0x078 0x1100) 11 0 ∧ fld (up.reg 0x078 0x1100) 11 0 = fld (0x80000001 : Word) 11 0
    ∧ bit ((up.setReg 0x079 0x1004 0).reg 0x079 0x1000) 18 = true ∧ bit ((up.setReg 0x079 0x1004 0).reg 0x079 0x1004) 31 = false
    ∧ (Sparse.get LRec.reset 32 up.ledger.recs).st ≠ 2 ∧ sleep.bridgeDown = true ∧ arpFor f sleep.dict.address = false ∧ sleep.dict.clk ≠ .stopped
    ∧ arpFor arp sleep.dict.address = true := by
  and_intros <;> decide +kernel

theorem witness_TimeBlockRuns : let s := State.reset
    let three : State := { s with tb := { s.tb with ofs := [(0, 0), (0, 0), (0, 0)], locked := true } }
    let late : State := { three with now := 2000000 }
    s.admits tq 0x07B 0x1010 ∧ 4 ≤ (((1000 : Word).toInt, s.now) :: three.tb.ofs).length ∧ (∀ o ∈ ((1000 : Word).toInt, s.now) :: three.tb.ofs, -1000 ≤ o.1 ∧ o.1 ≤ 1000)
    ∧ ¬ (∀ o ∈ ((1001 : Word).toInt, s.now) :: three.tb.ofs, -1000 ≤ o.1 ∧ o.1 ≤ 1000) ∧ s.admits tq 0x07B 0x100C
    ∧ (500000 : Word).toInt ≤ 500000 ∧ 500000 < (500001 : Word).toInt ∧ s.admits tq 0x07B 0x1014 ∧ s.admits tq 0x07B 0x1020
    ∧ late.tb.ofs.head? = some (0, 0) ∧ (0 : Nat) + 2000000 ≤ late.now ∧ late.tb.locked = true
    ∧ bit ((regs [(0x07B, 0x1108, 0x80000000)]).reg 0x07B 0x1108) 31 = true ∧ bit (s.reg 0x07B 0x1138) 31 = false := by
  and_intros <;> decide +kernel

theorem witness_UsbPortsRun : let s := State.reset
    let host := (ringed 0x07C 0x17C0 s).modUsb 0 (fun x => { x with role := 1, attached := true })
    let bulk := host.setReg 0x07C 0x17E0 0x5000
    let dev := (ringed 0x07C 0x10C0 s).modUsb 0 (fun x => { x with role := 2, attached := true })
    s.admits tq 0x07D 0x0800 ∧ (s.usbPort 1).attached = false ∧ (host.usbPort 0).attached = true ∧ host.admits tq 0x07C 0x0808 ∧ (host.usbPort 0).host = true
    ∧ ((s.modUsb 1 (fun x => { x with role := 2 })).usbPort 1).host = false ∧ (s.modUsb 1 (fun x => { x with role := 2 })).usbState 1 = 1 ∧ host.usbState 0 < 3
    ∧ (host.usbPort 0).resetEnd = none ∧ host.qRuns (usbQ 0 31) = true ∧ (host.qFetch (usbQ 0 31) none).2 = some { buf := 0x1001000, buflen := 64, own := true }
    ∧ fld (host.reg 0x07C 0x17E0) 13 12 = 0 ∧ (host.qFetch (usbQ 0 31) none).1.qCheck (usbQ 0 31) 0x1001000 (8 + 56) = none
    ∧ (bulk.usbPort 0).host = true ∧ bulk.qRuns (usbQ 0 31) = true ∧ (bulk.qFetch (usbQ 0 31) none).2 = some { buf := 0x1001000, buflen := 64, own := true }
    ∧ fld (bulk.reg 0x07C 0x17E0) 13 12 = 1 ∧ bit (bulk.reg 0x07C 0x17E0) 14 = true ∧ (bulk.qFetch (usbQ 0 31) none).1.qCheck (usbQ 0 31) 0x1001000 64 = none
    ∧ (dev.usbPort 0).attached = true ∧ (dev.usbPort 0).host = false ∧ (dev.usbPort 0).resetEnd = none ∧ dev.qRuns (usbQ 0 3) = true
    ∧ (dev.qFetch (usbQ 0 3) none).2 = some { buf := 0x1001000, buflen := 64, own := true }
    ∧ (dev.qFetch (usbQ 0 3) none).1.qCheck (usbQ 0 3) 0x1001000 64 = none := by
  and_intros <;> decide +kernel
/-- The seal engine with one job whose descriptor lies at 0x01000000, its slot 1 as given, and the regions and colours that let it there. -/
def sealing (x : KeySlot) : State :=
  let s := (regs [(0x004, 0x1000, 0x10000), (0x004, 0x1004, 0x18000), (0x004, 0x1008, 0xFFFF0007)]).modSeal (fun e => { e with jobs := [0x1000000], slots := [(1, x)] })
  { s with mem := s.mem.putBytes 0x1000000 ([1] ++ List.replicate 31 0 ++ toBytes 4 0x100100 ++ [1, 0] ++ List.replicate 10 0) }
/-- A loaded, armed key slot. -/
def armed : KeySlot := { key := List.replicate 16 0, pairid := 5, seq := 7, limit := 65536, valid := true, armed := true }

theorem witness_SealEngineCommanded : let s := sealing armed
    let k := regs [(0x030, 0x1130, 0xFFFF), (0x030, 0x1134, 0xFFFEFFFF), (0x030, 0x1100, 1)]
    let e := s.setReg 0x030 0x1100 1
    let s0 := s.modSeal (fun e => { e with jobs := [] })
    let b := s.mem.read 0x1000000 48
    k.admits tq 0x030 0x1104 ∧ fld (k.kdata 4) 15 0 = 0xFFFF ∧ k.pairHeld 1 0xFFFF = false ∧ (k.kdata 5).toNat ≤ 0xFFFEFFFF ∧ fld (State.reset.kdata 4) 15 0 = 0
    ∧ (e.keySlot (fld (e.reg 0x030 0x1100) 4 0)).valid = true ∧ (e.keySlot (fld (e.reg 0x030 0x1100) 4 0)).limit ≤ 0xFFFEFFFF ∧ (State.reset.keySlot 0).valid = false
    ∧ s.admits tq 0x030 0x1004 ∧ s.sealEng.jobs.length < 8 ∧ (s.modSeal (fun e => { e with jobs := List.replicate 8 0x1000000 })).sealEng.jobs.length = 8
    ∧ State.reset.sealEng.jobs = [] ∧ s.sealEng.jobs = [0x1000000] ∧ s0.sealMay 0x1000000 48 false = true ∧ s.isDamaged 0x1000000 48 = false
    ∧ (s.keySlot (frameByte b 0x24)).valid = true ∧ (s.keySlot (frameByte b 0x24)).armed = true ∧ (s.keySlot (frameByte b 0x24)).seq ≠ (s.keySlot (frameByte b 0x24)).limit
    ∧ ((sealing KeySlot.reset).keySlot 1).valid = false ∧ ((sealing { armed with seq := 65536 }).keySlot 1).seq = ((sealing armed).keySlot 1).limit
    ∧ jobValid b = true ∧ jobValid (0 :: b.drop 1) = false ∧ frameVal b 0x20 4 * 16 = 0x1001000 ∧ s0.sealMay 0x1001000 40 true = true
    ∧ s.sealMay 0x1000026 6 true = true ∧ s.place 0x1000026 = .sram ∧ s.place 0x1000028 = .sram ∧ s.isDamaged 0x1000020 16 = false := by
  and_intros <;> decide +kernel
theorem witness_SealEngineCommanded_stored (b : List Byte) : ((sealing armed).masterStore 0x1001000 b).2 = false := rfl

theorem witness_JournalKept : let s := regs [(0x030, 0x1200, 0x80), (0x030, 0x1204, 1), (0x030, 0x1208, 6), (0x030, 0x120C, 2)]
    let gathered (n : Nat) : State := s.modSeal (fun e => { e with gather := (toBytes 4 n ++ List.replicate 60 0).mapIdx (fun i x => (i, x)) })
    let full := (gathered 16386).setReg 0x030 0x1208 16386
    let cmd (arg : List Byte) : State := s.modDict (fun d => { d.setCmd 3 { Cmd.reset with st := 1, arg := arg } with queue := [3], started := true, grant := some ⟨true, false, 0⟩ })
    let ex (arg : List Byte) : State := { (cmd arg) with mem := (cmd arg).mem.putBytes 0x8000140 [5] }
    let held := s.modSeal (fun e => { e with exported := some { first := 2, count := 3, records := [], sig := [] } })
    s.admits tq 0x030 0x1204 ∧ s.admits tq 0x030 0x120C ∧ bit (s.reg 0x030 0x1204) 0 = true ∧ s.reg 0x030 0x120C < (6 : Word) ∧ (6 : Word) ≤ s.reg 0x030 0x1208
    ∧ (2 : Word) ≤ s.reg 0x030 0x120C ∧ s.reg 0x030 0x1208 < (7 : Word) ∧ s.sealEng.gather.length < 64
    ∧ (gathered 6).sealEng.gather.length = 64 ∧ vget s.mem.progs 0 none = none ∧ ofBytes (((gathered 6).sealEng.gather.map (·.2)).take 4) = 6
    ∧ ofBytes (((gathered 7).sealEng.gather.map (·.2)).take 4) ≠ 6 ∧ ((6 : Word) - 2).toNat < 16384
    ∧ 16384 ≤ (full.reg 0x030 0x1208 - full.reg 0x030 0x120C).toNat
    ∧ (cmd []).dict.granted .trade = some (3, ⟨true, false, 0⟩) ∧ (cmd []).exportOf [] = .error 2
    ∧ ((ex [5, 0, 0, 0, 1, 0]).exportOf [5, 0, 0, 0, 1, 0]).toBool = true ∧ ((((ex [5, 0, 0, 0, 1, 0]).stepN .trade 1).stepDone .trade 0).dict.cmd 3).st = 2
    ∧ held.sealEng.exported.isSome = true ∧ s.sealEng.exported = none := by
  and_intros <;> first | decide +kernel | rfl

theorem witness_DisplaysPaired : let p : Pairing := { lane := 15, node := 7, slot := 31, pairid := 65535, since := 0 }
    let busy := State.reset.modSeal (fun e => { e with pairing := some p })
    let late : State := { busy with now := 10000000 }
    let held := State.reset.modSeal (fun e => { e with slots := [(31, { armed with pairid := 65535 })], pairings := [(65535, p)] })
    State.reset.sealEng.pairing = none ∧ busy.sealEng.pairing.isSome = true ∧ (0x0F07 : Nat) / 256 ≤ 15 ∧ 15 < (0x1001 : Nat) / 256
    ∧ (List.range 32).find? (fun k => !((State.reset.tradeAnswer 0x800201 0).keySlot k).valid) = some 0
    ∧ frameVal [0xFF, 0xFF, 1, 0, 0, 0] 0 2 = p.pairid ∧ frameVal [0xFF, 0xFF, 1, 0, 0, 0] 2 4 = 1 ∧ State.reset.pairHeld 31 65535 = false
    ∧ late.sealEng.pairing = some p ∧ p.since + 10000000 ≤ late.now ∧ busy.now < p.since + 10000000
    ∧ State.reset.sealEng.slots.find? (fun x => x.2.valid && x.2.pairid == 5) = none
    ∧ (held.sealEng.slots.find? (fun x => x.2.valid && x.2.pairid == 65535)).isSome = true ∧ Sparse.find? 65535 held.sealEng.pairings = some p := by
  and_intros <;> decide +kernel

/-- A state whose bus die has ASHLOAD written and port p in a state. -/
def port (p st : Nat) : State := (regs [(0x090 + p, 0x1000, 0xA0000000), (0x090 + p, 0x1004, BitVec.ofNat 32 (st * 2 ^ 29))]).modBus (fun b => { b with ashloaded := true })

theorem witness_PortsSwitched : let off := port 15 0
    let back := (port 15 3).modHot 15 (fun h => { h with due := some 0 })
    let lots (n : Nat) := (port 0 2).modHot 0 (fun h => { h with ups := List.replicate n 0 })
    let lost := (port 0 3).modBus (fun b => { b with cwLost := true })
    let ash : State := { port 15 5 with dev := { State.reset.dev with permits := [(15, 1)] } }
    let e : DictDesc := { ownEntry with index := 0x1103, type := 2, maxlen := 1, max := 15 }
    let p := posted .opn 0x110301 2 [15] (State.reset.modDict (fun d => { d with cat := [e] }))
    off.admits tq 0x09F 0x1000 ∧ fld (0xA00A0005 : Word) 23 16 = 10 ∧ fld (0xA00A0005 : Word) 7 0 = 5 ∧ off.bus.ashloaded = true ∧ off.pst 15 = 0 ∧ off.bstate ≠ 4 ∧ off.over = false
    ∧ State.reset.bus.ashloaded = false ∧ (port 0 1).pst 0 = 1 ∧ (lots 0).upsetApplies 0 1 = true
    ∧ ((lots 0).now :: ((lots 0).hot 0).ups).length < (lots 0).portThresh
    ∧ (lots 4).portThresh ≤ ((lots 4).now :: ((lots 4).hot 0).ups.filter (fun t => decide ((lots 4).now < t + (lots 4).portWindow))).length
    ∧ off.hardApplies 15 8 = true ∧ back.pst 15 = 3 ∧ (back.hot 15).due = some 0 ∧ (back.hot 15).hot = false ∧ back.bus.cwLost = false ∧ lost.bus.cwLost = true
    ∧ ((back.modHot 15 (fun h => { h with hot := true })).hot 15).hot = true ∧ (40 : BitVec 8).toInt ≤ back.tfet - 15 ∧ State.reset.admits tq 0x081 0x100C
    ∧ p.localReady .opn 31 ∧ p.dict.entry 0x110301 = some e ∧ e.key = 0x110301
    ∧ (p.localTaken .opn 31).checkReq (p.localRecord .opn 31) e 4 = 0 ∧ ofBytes (p.localRecord .opn 31).value = 15
    ∧ ash.admits tq 0x09F 0x1018 ∧ ash.permitted 15 = true ∧ ash.pst 15 = 5 ∧ off.permitted 15 = false := by
  and_intros <;> decide +kernel

theorem witness_BudgetKept : let on := port 3 2
    let shed : State := { on.modBus (fun b => { b with overSince := some 0 }) with now := 1000000 }
    let low : State := { (port 3 4).modBus (fun b => { b with lowSince := some 0 }) with now := 1000000 }
    let chg := regs [(0x083, 0x1000, 0x80000000)]
    let full : State := { (regs [(0x083, 0x1010, 0x40000000)]).modBus (fun b => { b with fullSince := some 0 }) with now := 10000000 }
    shed.bus.overSince = some 0 ∧ 0 + shed.btime ≤ shed.now ∧ shed.charging = false ∧ shed.shedPick 1 = some 3
    ∧ (shed.setReg 0x083 0x1010 0x20000000).charging = true ∧ low.bstate = 0 ∧ low.bus.cwLost = false ∧ low.restorePick (· == 0) = some 3
    ∧ on.admits tq 0x081 0x1008 ∧ fld (4000 : Word) 15 0 ≤ 4000 ∧ 4000 < fld (4001 : Word) 15 0
    ∧ (on.modBus (fun b => { b with convAshed := true })).bus.convAshed = true ∧ chg.bus.convAshed = false ∧ chg.sstate ≠ 4 ∧ bit (chg.reg 0x083 0x1000) 31 = true
    ∧ (∀ k, k < 8 → bit (chg.tab (0x1340 + 4 * k)) 16 = false) ∧ (∃ r, chg.chargeRow (25 : BitVec 8).toInt = some r ∧ chg.vstore < chg.rowVcv r ∧ 100 * chg.vstore < 98 * chg.rowVcv r)
    ∧ chg.chargeRow (127 : BitVec 8).toInt = none ∧ full.sstate = 2 ∧ full.bus.fullSince = some 0 ∧ chg.admits tq 0x083 0x100C
    ∧ chg.admits tq 0x082 0x1004 ∧ chg.tableOk (fld (5 : Word) 3 0) = true ∧ chg.tableOk (fld (0 : Word) 3 0) = false := by
  and_intros <;> first | decide +kernel | exact ⟨_, rfl, by decide +kernel, by decide +kernel⟩

theorem witness_RideThroughRuns : let s := (port 5 2).setReg 0x083 0x1000 0x40000000
    let r : Ride := { start := 0, vrt := 4600, fwin := 1000000, fwarn := 0, floor := 2000, delays := [0, 0xFFFFFFFF, 5, 0], shed := [], warned := false }
    let ride (st : Nat) : State := { ((port 5 st).setReg 0x081 0x1000 0x20000000).modBus (fun b => { b with ride := some r }) with now := 1000000 }
    let back := (port 5 4).setReg 0x095 0x1004 0x88000000
    let rest := (back.setReg 0x081 0x1000 0x60000000).modBus (fun b => { b with nextRestore := some 0 })
    let ready := s.setReg 0x083 0x1010 (BitVec.ofNat 32 (fld (s.reg 0x083 0x1008) 15 0 + 100))
    0 < fld (ready.reg 0x083 0x1004) 15 0 ∧ bit (ready.reg 0x083 0x1000) 30 = true ∧ fld (ready.reg 0x083 0x1008) 15 0 + 100 ≤ ready.vstore ∧ ready.bstate = 0
    ∧ fld (ready.reg 0x083 0x1004) 15 0 ≤ (0xFFFF : BitVec 16).toNat ∧ (ride 2).bus.ride = some r ∧ r.delays.getD 2 0xFFFFFFFF = 5 ∧ r.shed.contains 2 = false
    ∧ r.start + 5 * 1000 ≤ (ride 2).now ∧ (ride 2).bstate = 1 ∧ (ride 2).shedPick 0 = some 5 ∧ r.warned = false ∧ r.start + (r.fwin - r.fwarn) ≤ (ride 2).now
    ∧ ((ride 2).setReg 0x083 0x1010 0x80000000).sstate = 4 ∧ (∃ p, p < 16 ∧ (ride 4).pst p = 4) ∧ (rest.restorePick (· != 0) = some 5) ∧ rest.bstate = 3
    ∧ (∃ p, p < 16 ∧ back.pst p = 4 ∧ back.shr p ≠ 0) ∧ (back.modBus (fun b => { b with cwLost := true })).bus.cwLost = true := by
  and_intros <;> first | decide +kernel | exact ⟨5, by decide, by decide +kernel⟩

theorem witness_BusDieEvents : let off := State.reset.modBus (fun b => { b with started := false })
    let ov := (port 5 4).setReg 0x081 0x1000 0x80000000
    let held := State.reset.modBoot (fun b => { b with rst := .held })
    let lost : State := { State.reset.modBus (fun b => { b with cwLost := true }) with now := 10000 }
    let slept : State := { State.reset with dev := { State.reset.dev with st := .dormant } }
    off.bus.started = false ∧ State.reset.bus.started = true ∧ State.reset.bstate ≠ 4 ∧ (ov.bstate = 4) ∧ (port 5 4).pst 5 = 4
    ∧ (((ov.setReg 0x095 0x1004 0x90000000).pst 5 = 4) ∧ (ov.setReg 0x095 0x1004 0x90000000).shr 5 ≠ 0)
    ∧ 16000 < (16001 : BitVec 16).toNat ∧ held.boot.rst = .held ∧ lost.bus.cwLast + 10000 ≤ lost.now ∧ State.reset.now < State.reset.bus.cwLast + 10000
    ∧ lost.bus.cwLost = true ∧ slept.dev.st = .dormant ∧ slept.bus.cwLost = false ∧ State.reset.admits tq 0x080 0x1004 := by
  and_intros <;> decide +kernel

theorem witness_LedgerKept : let s := State.reset
    let on (l : List LedgerMsg) : State := { regs [(0x00F, 0x1000, 0x80000084), (0x00F, 0x1004, 0x80000000)] with upsets := l }
    let dirty : State := { on [] with ledger := { s.ledger with dirty := some 0 } }
    let cmd : State := s.modDict (fun d => { d.setCmd 5 { Cmd.reset with st := 1, arg := [183, 0, 1] } with queue := [5], started := true, grant := some ⟨false, false, 0⟩ })
    s.admits tq 0x00F 0x1000 ∧ bit (s.reg 0x00F 0x1000) 31 = false ∧ bit ((on []).reg 0x00F 0x1000) 31 = true ∧ bit ((on []).reg 0x00F 0x1004) 31 = true
    ∧ bit (s.reg 0x00F 0x1004) 31 ≠ true ∧ (on [.clear 183]).upsets = [.clear 183] ∧ (on [.outcome 16 6 5 3 true]).upsets = [.outcome 16 6 5 3 true]
    ∧ dirty.ledger.dirty.isSome = true ∧ s.admits tq 0x00F 0x1204 ∧ fld (183 : Word) 15 0 < 184 ∧ fld (0xFFFF : Word) 15 0 = 0xFFFF
    ∧ cmd.dict.granted .opn = some (5, ⟨false, false, 0⟩) ∧ frameVal (cmd.dict.cmd 5).arg 0 2 < 184 ∧ frameByte (cmd.dict.cmd 5).arg 2 ≤ 1 ∧ (cmd.dict.cmd 5).k = 0
    ∧ s.admits tq 0x00F (0x1100 + 16 * 15 + 4 * 3) := by
  and_intros <;> decide +kernel

theorem witness_RecordsCounted : let s := State.reset
    ridClass 32 ≠ 5 ∧ ridClass 32 ≠ 8 ∧ 0 < s.lwindow (ridClass 32) ∧ (s.lrec 32).st ≠ 2 ∧ s.lthresh 32 ≠ 0 ∧ 1 < s.lthresh 32
    ∧ (∃ rid, rid < 184 ∧ ridClass rid ≠ 5 ∧ ridClass rid ≠ 8 ∧ 0 < s.lwindow (ridClass rid) ∧ s.lthresh rid = 0)
    ∧ s.lthresh 32 ≤ (s.now :: (List.replicate 9 0).filter (fun t => decide (s.now < t + s.lwindow (ridClass 32)))).length := by
  and_intros <;> decide +kernel
/-- State.reset after a bus power-on reset whose sequence is over. -/
def up : State := State.reset.modBoot (fun b => { b with rst := .off, tinder := .done })
/-- Source 384, software, of the Trade world, aimed at tile 3 with WAKE set, enabled and pending. -/
def woken (s : State) : State := signalled s 384 0xC0F03

theorem witness_EmberClockRuns : let s := State.reset
    let lock : State := { s with tb := { s.tb with locked := true } }
    let alm := regs [(0x029, 0x1028, 1), (0x02B, 0x1048, 1)]
    let far := regs [(0x029, 0x1020, 5), (0x029, 0x1028, 1), (0x02B, 0x1040, 5), (0x02B, 0x1048, 1)]
    lock.rtcLocked = true ∧ s.rtcLocked = false ∧ s.admits tq 0x029 0x1018 ∧ bit (alm.reg 0x029 0x1028) 0 = true ∧ (alm.reg 0x029 0x1020).toNat ≤ alm.rtcNs
    ∧ far.rtcNs < (far.reg 0x029 0x1020).toNat ∧ bit (alm.reg 0x02B 0x1048) 0 = true ∧ (alm.reg 0x02B 0x1040).toNat ≤ alm.rtcNs
    ∧ far.rtcNs < (far.reg 0x02B 0x1040).toNat := by
  and_intros <;> decide +kernel

theorem witness_SleepEntered : let slow : State := { up with dev := { up.dev with st := .idle }, pdc := { up.pdc with idleSince := some 0 }, now := 100 }
    let idle (t o : Word) : State := (slow.setRegW .trade 0x02B 0x1004 t).setRegW .opn 0x02B 0x1004 o
    let at_ (e : Option (Nat × Nat)) : State := { up with pdc := { up.pdc with entry := e } }
    let g := (woken up).modTile 3 (·.modSys (fun y => { y with gated := true }))
    up.admits { tq with tile := some 15 } 0x02B 0x1008 ∧ (g.tile 3).sys.powered = true ∧ (g.tile 3).sys.gated = true ∧ g.restartDue 3 = true ∧ up.restartDue 3 = false
    ∧ up.admits tq 0x02B 0x1004 ∧ fld (4 : Word) 2 0 = 4 ∧ 4 < fld (5 : Word) 2 0 ∧ up.dev.st = .run ∧ up.boot.rst = .off ∧ up.allQuiet = true ∧ running.allQuiet = false
    ∧ (idle 2 4).target = 2 ∧ (idle 3 4).target = 3 ∧ (idle 0 4).target ≤ 1 ∧ (idle 2 4).allQuiet = true ∧ (idle 2 4).wakeAny = false ∧ (idle 2 4).pdc.idleSince = some 0
    ∧ (at_ (some (1, 4))).wakeAny = false ∧ (at_ (some (2, 4))).pdc.entry = some (2, 4) ∧ (woken (at_ (some (1, 3)))).wakeAny = true
    ∧ (woken (at_ (some (1, 3)))).pdc.entry = some (1, 3) := by
  and_intros <;> decide +kernel

theorem witness_WakesAndExits : let st (d : DevSt) (s : State) : State := { s with dev := { s.dev with st := d } }
    let off := (woken up).modTile 3 (·.modSys (fun y => { y with powered := false }))
    let banked : State := { st .banked up with pdc := { up.pdc with waking := some 384, mirror := [(384, 0xC0F03)] } }
    let out (s : State) : State := s.modTile 3 (·.modSys (fun y => { y with ashed := true }))
    let rec3 := up.modTile 3 (·.modSys (fun y => { y with recorded := some 5 }))
    (st .banked (signalled up 53 0xC0F03)).heldSource 0 = some 53 ∧ (st .banked (signalled up 53 0xC0F03)).irqPending 53 = true
    ∧ (st .doze off).wakes 384 = true ∧ (st .doze off).irqTile 384 = 3 ∧ ((st .doze off).tile 3).inService = true ∧ ((st .doze off).tile 3).sys.powered = false
    ∧ up.wakes 384 = false ∧ banked.pdc.waking = some 384 ∧ fld (banked.mirror 384) 3 0 = 3 ∧ (banked.tile 3).inService = true ∧ ((out banked).tile 3).inService = false
    ∧ (out (st .doze off)).wakes 384 = true ∧ ((out (st .doze off)).tile 3).inService = false ∧ (st .dormant banked).dev.st = .dormant
    ∧ (rec3.tile 3).sys.recorded = some 5 ∧ (rec3.tile 3).sys.resetting = false ∧ (rec3.tile 3).sys.halted = false ∧ (rec3.tile 3).run = none
    ∧ (rec3.tile 3).flow.freeze = .none ∧ (up.tile 3).sys.recorded = none ∧ up.admits tq 0x02A 0x1004 := by
  and_intros <;> decide +kernel

/-- A store bank's header of an empty payload under a SEQ. -/
def bankHeader (seq : Nat) : List Byte :=
  toBytes 4 0x53505A4B ++ toBytes 2 1 ++ [0, 0] ++ toBytes 4 seq ++ toBytes 4 0 ++ toBytes 4 (crc32c []).toNat ++ List.replicate 12 0
/-- The two banks with their SEQs. -/
def stored (x y : Option Nat) : State :=
  let p (a : Nat) (o : Option Nat) (m : Mem) : Mem := match o with | some n => m.putBytes a (bankHeader n) | none => m
  { State.reset with mem := p 0x83C0000 y (p 0x8380000 x State.reset.mem) }

theorem witness_LineScrubbed : State.reset.dev.st ≠ .dormant ∧ ({ State.reset with dev := { State.reset.dev with st := .dormant } } : State).dev.st = .dormant := by decide

theorem witness_StoreBankChosen : (stored (some 0xFFFFFFFF) (some 0)).storeInUse = some (1, 0) ∧ (stored (some 0) (some 0x80000000)).storeInUse = some (0, 0)
    ∧ (stored (some 5) (some 5)).storeInUse = some (0, 5) ∧ (stored (some 4) none).storeInUse = some (0, 4) ∧ (stored none (some 4)).storeInUse = some (1, 4)
    ∧ (stored none none).storeSeq 0 = none ∧ (stored none none).storeSeq 1 = none := by
  and_intros <;> decide +kernel

theorem witness_ParametersStored : let run (i : Nat) (arg : List Byte) (k : Nat) (first : Bool) : State := State.reset.modDict (fun d =>
      { d.setCmd i { Cmd.reset with st := 1, arg := arg, k := k, n := 2 } with queue := [i], started := true, grant := some ⟨first, false, 0⟩ })
    let two (k : Nat) : State := { run 0 [] k false with job := { payload := List.replicate 300 7, bank := 1, seq := 5 } }
    let put (k : Nat) (s : State) : State := { s with mem := s.mem.putBytes (0x83C0020 + 256 * k) (List.replicate (if k = 0 then 256 else 44) 7) }
    let auto : State := { State.reset.modDict (fun d => { d with cat := [{ ownEntry with index := 0x1600, sub := 7 }], vals := [(0x160007, [1, 0])], rws := some 0 }) with now := 1000000 }
    (run 0 [1] 0 true).dict.granted .opn = some (0, ⟨true, false, 0⟩) ∧ (∃ b ∈ ((run 0 [1] 0 true).dict.cmd 0).arg, b ≠ 0)
    ∧ (run 0 [] 0 true).storeInUse = none ∧ (stored (some 0xFFFFFFFF) none).storeInUse = some (0, 0xFFFFFFFF)
    ∧ ((two 0).job.payload.length + 63) / 64 + 3 = 8 ∧ ((two 0).dict.cmd 0).k + 1 < 8 / 4 ∧ (two 0).sectorAshed (0x83C0020) 256 = false
    ∧ ((two 0).masterStore 0x83C0020 (List.replicate 256 7)).2 = false ∧ ((two 1).dict.cmd 0).k + 1 = 8 / 4 ∧ ((two 1).masterStore 0x83C0120 (List.replicate 44 7)).2 = false
    ∧ (((two 1).masterStore 0x83C0120 (List.replicate 44 7)).1.mem.read 0x83C0020 300 ≠ (two 1).job.payload)
    ∧ ((put 0 (two 1)).masterStore 0x83C0120 (List.replicate 44 7)).1.mem.read 0x83C0020 300 = (two 1).job.payload
    ∧ ((two 2).masterStore 0x83C0000 (bankHeader 5)).2 = false
    ∧ (run 1 [2] 0 true).dict.granted .opn = some (1, ⟨true, false, 0⟩) ∧ 1 < frameByte ((run 1 [2] 0 true).dict.cmd 1).arg 0 ∧ frameByte ((run 1 [] 0 true).dict.cmd 1).arg 0 = 0
    ∧ auto.dict.num 0x160007 ≠ 0 ∧ (auto.dict.cmd 0).st ≠ 1 ∧ auto.dict.rws = some 0 ∧ 0 + auto.dict.num 0x160007 * 1000000 ≤ auto.now ∧ State.reset.dict.rws = none
    ∧ owned.dict.entry 0x110001 = some ownEntry ∧ ownEntry.typeOk [1] = false ∧ ownEntry.typeOk [1, 0] = true ∧ ownEntry.rangeOk [1, 0] = true := by
  and_intros <;> decide +kernel

theorem witness_ResetsLeave : let held := State.reset.modBoot (fun b => { b with rst := .held })
    let wd := (up.setReg 0x00D 0x1000 0x80000000).modBoot (fun b => { b with left := Vector.replicate 2 0 })
    held.boot.rst = .held ∧ held.bus.started = true ∧ wd.wdRuns .trade = true ∧ vget wd.boot.left 0 0 = 0 ∧ vget up.boot.left 0 0 ≠ 0
    ∧ up.admits tq 0x00D 0x1128 ∧ bit (up.reg 0x00D 0x1118) 0 = false ∧ bit ((up.setReg 0x00D 0x1118 1).reg 0x00D 0x1118) 0 = true := by
  and_intros <;> decide +kernel

theorem witness_BootRuns : let rdy := up.modBoot (fun b => { b with tinder := .ready })
    State.reset.boot.rst = .running ∧ State.reset.bus.started = true ∧ up.boot.rst ≠ .running
    ∧ ([0xF, 0xF] : List (BitVec 4)).getD 0 0xF = 0xF ∧ bit (State.reset.reg 0x00D 0x1120) 0 = false ∧ bit ((regs [(0x00D, 0x1120, 0x7FFF)]).reg 0x00D 0x1120) 14 = true
    ∧ bit ((regs [(0x00D, 0x1120, 0x7FFF)]).reg 0x00D 0x1120) 15 = false ∧ rdy.boot.tinder = .ready ∧ up.boot.tinder ≠ .ready ∧ up.recover.boot.tinder = .recovery := by
  and_intros <;> decide +kernel

theorem witness_BootControlsHeld : let late : State := { up.modBoot (fun b => { b with burn := some 0 }) with now := 1000 }
    let st : State := { up.modBoot (fun b => { b with selfTest := [(15, 0, none)] }) with now := 2000 }
    let cmd : State := up.modDict (fun d => { d.setCmd 2 { Cmd.reset with st := 1, arg := [3] } with queue := [2], started := true, grant := some ⟨true, false, 0⟩ })
    up.admits tq 0x00D 0x1118 ∧ up.admits tq 0x00D 0x1110 ∧ up.admits tq 0x00D 0x1114 ∧ up.admits tq 0x00D 0x1120 ∧ bit (up.reg 0x00D 0x1118) 0 = false
    ∧ (up.tile 15).run = none ∧ up.admits tq 0x00D 0x1130 ∧ up.boot.burn = none ∧ late.boot.burn = some 0 ∧ 0 + 1000 ≤ late.now ∧ up.now < 0 + 1000
    ∧ up.admits tq 0x00D 0x1134 ∧ up.admits tq 0x00D 0x1104 ∧ (up.tile 15).sys.ashed = false
    ∧ st.boot.selfTest.find? (fun e => e.1 == (15 : TileId).toNat) = some ((15 : TileId).toNat, 0, none) ∧ 0 + 2000 ≤ st.now
    ∧ up.admits tq 0x00D 0x1108 ∧ up.admits tq 0x02B 0x1108 ∧ (up.tile 15).tidle = true ∧ (up.tile 15).flow.freeze = .none ∧ (up.ctx 7).claimed = true ∧ (up.ctx 7).world = .trade
    ∧ (up.ctx 7).parked = false ∧ up.dir 7 = .stored ∧ (running.tile 0).tidle = false
    ∧ cmd.dict.granted .trade = some (2, ⟨true, false, 0⟩) ∧ frameByte (cmd.dict.cmd 2).arg 0 ≤ 3 := by
  and_intros <;> first | rfl | decide +kernel

theorem witness_WorldsReset : let wd := (up.setReg 0x00E 0x1000 0xC0000000).setReg 0x00E 0x1008 5000
    let due := wd.modBoot (fun b => { b with left := Vector.replicate 2 0 })
    let pr := wd.modBoot (fun b => { b with primed := Vector.replicate 2 true })
    let link := (up.runFresh 0 8 (bootCtx .opn 0)).modTile 0 (fun x => { x with link := .interrupt 8 0 })
    up.admits tq 0x00D 0x1100 ∧ up.admits tq 0x02B 0x1100 ∧ (∀ t ∈ allTiles, up.openCaller t = false) ∧ link.openCaller 0 = true
    ∧ up.admits { tq with sup := true, world := .trade } 0x02B 0x1100 ∧ due.wdRuns .opn = true ∧ vget due.boot.left 1 0 = 0 ∧ up.wdRuns .opn = false
    ∧ fld (wd.reg 0x00E 0x1008) 19 0 ≠ 0 ∧ vget wd.boot.warned 1 false = false ∧ vget wd.boot.left 1 0 ≤ fld (wd.reg 0x00E 0x1008) 19 0 * 1000
    ∧ up.admits tq 0x00D 0x100C ∧ up.admits tq 0x00E 0x100C ∧ vget pr.boot.primed 1 false = true ∧ vget wd.boot.primed 1 false = false
    ∧ bit (wd.reg 0x00E 0x1000) 30 = true ∧ bit (wd.reg 0x00E 0x1000) 31 = true ∧ bit (up.reg 0x00E 0x1000) 30 = false ∧ bit (up.reg 0x00E 0x1000) 31 = false
    ∧ up.admits tq 0x00E 0x1000 ∧ up.admits tq 0x00E 0x1004 ∧ up.admits tq 0x00E 0x1008 := by
  and_intros <;> decide +kernel

theorem witness_TapOperates : let may := regs [(0x005, 0x1000, 0), (0x005, 0x1004, 0xFFFFFFF), (0x005, 0x1008, 0xFFFF0007)]
    let at9 (a : Nat) (s : State) : State := { s with dap := { s.dap with addr := a } }
    let c5 : State := { may with mem := { may.mem with colours := [(0x1000000, 5)] } }
    State.reset.bridgeDown = false ∧ ({ State.reset with dev := { State.reset.dev with st := .banked } } : State).bridgeDown = true
    ∧ (0xFFFFFFFFC : BitVec 36).toNat % 4 = 0 ∧ (1 : BitVec 36).toNat % 4 ≠ 0
    ∧ State.reset.dapCheck 0x1000000 false = some false ∧ State.reset.dapCheck 0x6000000 true = some true
    ∧ c5.dapCheck 0x1000000 false = none ∧ c5.dapCheck 0x1000000 true = none ∧ c5.place 0x1000000 = .sram ∧ c5.isDamaged 0x1000000 4 = false
    ∧ c5.mergeFails 0x1000000 4 = false ∧ (at9 0x4000000 may).dapCheck 0x4000000 false = none ∧ may.place 0x4000000 = .ctxStore
    ∧ (may.store.slot (slotAddr 0x4000000).1).world = .trade ∧ may.scopeBit 0 = false ∧ (slotAddr 0x4000000).2 ≠ 90 := by
  and_intros <;> decide +kernel

theorem witness_DebugUnlocked : let tok (n : Nat) : State := { up with dap := { up.dap with nonce := [1, 2, 3, 4], token := (List.replicate n 0).set 4 1 |>.set 5 2 |>.set 6 3 |>.set 7 4 } }
    let open_ : State := { up with dap := { up.dap with unlockEnd := some 0, scope := 7 } }
    (tok 31).dap.token.length = 31 ∧ 32 ≤ (tok 32).dap.token.length ∧ up.admits tq 0x038 0x1020 ∧ ((tok 32).dap.token.drop 4).take 4 = (tok 32).dap.nonce
    ∧ fld (0x80017080 : Word) 18 16 ≠ 0 ∧ fld (0x80017080 : Word) 15 0 = 28800 ∧ fld (0x80017081 : Word) 15 0 = 28801 ∧ open_.dap.unlockEnd = some 0 ∧ 0 ≤ open_.now
    ∧ open_.dap.unlockEnd.isSome = true ∧ up.dap.unlockEnd = none ∧ up.scopeBit 2 = false ∧ open_.scopeBit 2 = true ∧ up.dap.deferred ≤ 0xFFFF := by
  and_intros <;> decide +kernel
/-! Operands that the device's surroundings cannot bring: each check of WellFormed refuses its term. -/

/-- A frame over lane 0 from an address of more than 48 bits. -/
def badFrame : FerryFrame := { overLane [] with peer := { addr := 2 ^ 48, port := 0 } }
/-- Measurements of a bus die with 15 ports. -/
def badMeas : PowerMeas :=
  { imeas := List.replicate 15 0, vout := List.replicate 16 0, ntc := List.replicate 8 0, vbus := 0, vstore := 0, scurr := 0, conv := 0, logicp := 0 }

theorem test_illformed_operands : ([.masterRegionWrite tq 0 0 3 0, .enrolmentRowWrite tq 0 0 false 0, .qctlWrite tq 0x078 16 0, .kick tq 0x07C 32, .switchRegisterWrite tq 3 0 0,
    .budgetTick badMeas, .deviceResetSequence (List.replicate 15 0xF) 0, .bootControlWrite tq 3 0, .dapaccSetAddress 2, .backboneLinkChange 0 true 3 false false,
    .writeBackResponse 0 1 false] : List Instr).all (fun c => !c.wellFormed) = true := by decide
theorem test_illformed_frames : ([.hello badFrame, .init badFrame, .confirm badFrame, .ferryRead badFrame, .ferryWrite badFrame, .segRead badFrame, .segWrite badFrame,
    .ferryCommand badFrame, .subscribe badFrame, .unsubscribe badFrame, .keepalive badFrame, .close badFrame, .ferryUndefinedType badFrame, .noSession badFrame,
    .hello { overLane [] with carrier := .usb 0, peer := { addr := 2 ^ 32, port := 0 } }] : List Instr).all (fun c => !c.wellFormed) = true := by decide
theorem test_wellformed_operands : ([.masterRegionWrite tq 0 0 2 0, .enrolmentRowWrite tq 0 7 false 0, .qctlWrite tq 0x078 15 0, .kick tq 0x070 255, .switchRegisterWrite tq 2 0 0,
    .deviceResetSequence (List.replicate 16 0xF) 0, .bootControlWrite tq 2 0, .dapaccSetAddress 4, .backboneLinkChange 0 true 2 false false,
    .writeBackResponse 0 64 false, .hello (overLane [])] : List Instr).all (·.wellFormed) = true := by decide

/-! The spec's worked examples. -/

/-- The capability of the first worked example of "Capabilities". -/
def object : Cap := { bits := 0x0641685000123470, tag := true }
theorem test_capability_decode : object.base = 0x123450 ∧ object.top = 0x1234B4 ∧ object.representable 0x12364F = true ∧ object.representable 0x123650 = false
    ∧ object.representable 0x12344F = false ∧ object.ot = 0 ∧ object.tw = .opn := by decide
theorem test_setbounds_rounds : setbounds 0x400A05 3000 = (3, 0x400A00, 0x4015C0)
    ∧ ({ bits := 0x0640000000400A05, tag := true } : Cap).withBounds (setbounds 0x400A05 3000) = { bits := 0x064D714000400A05, tag := true } := by decide +kernel

/-- Tile 0 of `running` with a bundle held. -/
def holding (l : List (Word × Nat)) : State := tile0 running (·.modFlow (fun f => { f with held := some l }))
/-- The moves of a decoded bundle. -/
def moves (s : State) : Option (List (Nat × Dst × Src)) :=
  match s.decodeBundle 0 (s.tile 0) with
  | .ok (_, _, l) => some (l.map (fun m => (m.guard, m.dst, m.src)))
  | .error _ => none
theorem test_bundle_of_table_5_9 : moves (holding [(0x04808C00, 0), (0x04BC0000, 0), (0x04808C00, 0), (0x84BC0004, 0)])
    = some [(0, .lsuCA false, .c 3), (0, .lsu false .ldw, .imm 0), (0, .lsuCA true, .c 3), (0, .lsu true .ldw, .imm 4)] := by decide +kernel
theorem test_branch_with_long_literal : moves (holding [(0x957BF800, 0), (0x00024000, 0)]) = some [(2, .bru .br, .imm 0x24000)] := by decide +kernel
theorem test_branch_immediate : moves (holding [(0x957FFFC0, 0)]) = some [(2, .bru .br, .imm (-64))] := by decide +kernel
theorem test_branch_bits_in_slot_2 : moves (holding [(0x04808C00, 0), (0x04BC0000, 0), (0x957BF800, 0), (0x00024000, 0)])
    = some [(0, .lsuCA false, .c 3), (0, .lsu false .ldw, .imm 0), (2, .macA, .imm 0x24000)] := by decide +kernel

/-- The Open page tables of the worked example of "Translation", on tile 4. -/
def tables : State :=
  let s := ((State.reset.setRegW .opn 0x014 0x1180 0x80000000).setRegW .opn 0x014 0x1184 0x2200).setRegW .opn 0x014 0x110C 0
  let m := ((s.mem.putBytes 0x11001D0 (toBytes 8 0x01100803)).putBytes 0x1100898 (toBytes 8 0x01100A03)).putBytes 0x1100A28 (toBytes 8 0x610234502D)
  { s with mem := { m with colours := [(0x1100100, 3), (0x1100800, 3), (0x1100A00, 3)] } }
theorem test_walk_of_table_10_14 : (tables.fillXlate 4 0x3A4C5120 false).2 = none
    ∧ (match (tables.fillXlate 4 0x3A4C5120 false).1.access9 4 .opn false 0x0040 0x3A4C5120 .load with
      | .ok x => x = { pa := 0x102345120, r := true, w := true, x := false, u := true, se := false, colour := 6 }
      | _ => False) := by
  constructor
  · decide +kernel
  · rfl

theorem test_seal_frame_of_table_14_11 : let s : State := { State.reset with ptp := 0x17D84A3C1B2E9F00, tb := { State.reset.tb with locked := true } }
    (s.sealFrame { armed with pairid := 0x15, seq := 0x12A07 }
      ([1, 1] ++ List.replicate 14 0 ++ toBytes 4 734 ++ toBytes 4 12 ++ [2, 3, 5, 0, 0, 0, 5, 0])).take 32
      = [1, 1, 0x15, 0, 7, 0x2A, 1, 0, 0, 0x9F, 0x2E, 0x1B, 0x3C, 0x4A, 0xD8, 0x17, 0xDE, 2, 0, 0, 0x0C, 0, 0, 0, 2, 3, 0x25, 0, 0, 0, 5, 0] := by decide +kernel

theorem test_store_banks_of_the_worked_example : (stored (some 0xFFFFFFFE) (some 0xFFFFFFFF)).storeInUse = some (1, 0xFFFFFFFF)
    ∧ (stored (some 0) (some 0xFFFFFFFF)).storeInUse = some (0, 0) := by decide +kernel

theorem test_interrupt_cause : BitVec.ofNat 32 ((1 <<< 31) + (309 <<< 9)) = (0x80026A00 : Word) ∧ BitVec.ofNat 32 ((1 <<< 31) + (168 <<< 9)) = (0x80015000 : Word) := by decide

/-- AES-128 of FIPS 197 and SHA-256 of FIPS 180-4 on their published vectors: the ciphers that the spec names by their standards. -/
theorem test_sha256_abc : sha256 [0x61, 0x62, 0x63]
    = [0xba, 0x78, 0x16, 0xbf, 0x8f, 0x01, 0xcf, 0xea, 0x41, 0x41, 0x40, 0xde, 0x5d, 0xae, 0x22, 0x23, 0xb0, 0x03, 0x61, 0xa3, 0x96, 0x17, 0x7a, 0x9c, 0xb4, 0x10,
       0xff, 0x61, 0xf2, 0x00, 0x15, 0xad] := by decide +kernel
theorem test_aes_fips197 : aesEnc ((List.range 16).map (BitVec.ofNat 8)) ((List.range 16).map (fun i => BitVec.ofNat 8 (17 * i)))
    = [0x69, 0xc4, 0xe0, 0xd8, 0x6a, 0x7b, 0x04, 0x30, 0xd8, 0xcd, 0xb7, 0x80, 0x70, 0xb4, 0xc5, 0x5a] := by decide +kernel

/-- ECDSA P-256 with SHA-256 on the vector of RFC 6979 (A.2.5, "sample"). -/
theorem test_ecdsa_rfc6979 :
    let key : List Byte := 4 :: toBytesBE 64 (0x60FED4BA255A9D31C961EB74C6356D68C049B8923B61FA6CE669622E60F29FB6 * 2 ^ 256 + 0x7903FE1008B8BC99A41AE9E95628BC64F2F1B20C2D7E9F5177A3C294D4462299)
    let sig := toBytesBE 64 (0xEFD48B2AACB6A8FD1140DD9CD45E81D69D2C877B56AAF991C34D0EA84EAF3716 * 2 ^ 256 + 0xF7CB1C942D657C41D436C7A1B6E29F65F3E900DBB9AFF4064DC4AB2F843ACDA8)
    ecdsaVerify key (asciiBytes "sample") sig = true ∧ ecdsaVerify key (asciiBytes "simple") sig = false := by decide +kernel

/-! Steps. -/

theorem test_step_idle_counts_time : (match step State.reset with | .next s => s.now | _ => 0) = 1 := by decide +kernel
theorem test_step_takes_the_front : (match step { State.reset with pending := [.emberClockFail, .idcode] } with | .next s => some (s.rtc.fail, s.pending.length) | _ => none)
    = some (true, 1) := by decide +kernel
/-- A refused write has an error response and is counted in REFUSED (R100, R101). -/
theorem test_refused_write_is_counted : (match exec (.registerWrite oq 0x00C 0x1004 5) State.reset with
    | .next s => some (s.resp, fld (s.reg 0 (0x1004 + 8 * 0x00C)) 15 0, s.reg 0x00C 0x1004) | _ => none) = some (some (.err 0x29), 1, 0) := by decide +kernel
theorem test_bundle_moves_an_immediate : (match exec (.bundleIssue 0) (holding [(0x800C0005, 0)]) with
    | .next s => some ((s.tile 0).ctx.getW 1, (s.tile 0).ctx.pcc.addr, s.reg 0x010 0x100C) | _ => none) = some (5, 0x1000004, 1) := by decide +kernel
/-- W0 discards writes (R116). -/
theorem test_bundle_discards_W0 : (match exec (.bundleIssue 0) (holding [(0x80040005, 0)]) with
    | .next s => some ((s.tile 0).ctx.getW 0) | _ => none) = some 0 := by decide +kernel
theorem test_overcurrent_smoulders : (match exec (.portUpset 0 1) (port 0 2) with
    | .next s => some (s.pst 0, fld (s.preg 0 0x1004) 23 16, (s.hot 0).due) | _ => none) = some (3, 1, some 50000) := by decide +kernel
theorem test_watchdog_kick_reloads : (match exec (.wdkick tq .trade 0x3C5A) (up.modBoot (fun b => { b with primed := Vector.replicate 2 true, left := Vector.replicate 2 7 })) with
    | .next s => some (vget s.boot.left 0 0) | _ => none) = some 5000000 := by decide +kernel
end Sys2Proof.Tests
end

namespace Sys2Proof.Machine

/-- The equation of `step` on a queue with a command in front (R8; the queue is the model's own, log 1). -/
theorem step_of_pending_cons {s : State} {c : Instr} {rest : List Instr} (h : s.pending = c :: rest) :
    step s = exec c { s with pending := rest } := by
  unfold step
  rw [h]

/-- Settles O1: the equation of `step` for a queue with a front. -/
theorem stepRunsFront : Obligations.StepRunsFront :=
  fun _ _ _ hfront => step_of_pending_cons hfront

end Sys2Proof.Machine

namespace Sys2Proof.Machine

/-! What every command keeps of a state in order. The frame laws of Laws/Frame*.lean say it operation by operation; here they are put together
over the commands. -/

/-- From s to t the waiting commands stay as they are and canonical memory stays canonical. -/
def State.KeepsOrder (s t : State) : Prop := t.pending = s.pending ∧ (s.mem.wf = true → t.mem.wf = true)

/-- The outcome of a command that goes on, from a state s, to a state that keeps its order. -/
def OutcomeKeepsOrder (s : State) (o : Host.Outcome State Fault Refusal) : Prop := ∃ t, o = .next t ∧ s.KeepsOrder t

theorem State.KeepsOrder.of_frame {s t : State} (h : t.pending = s.pending ∧ t.mem = s.mem) : s.KeepsOrder t :=
  ⟨h.1, fun hwf => h.2.symm ▸ hwf⟩

theorem State.KeepsOrder.refl (s : State) : s.KeepsOrder s := .of_frame ⟨rfl, rfl⟩

theorem OutcomeKeepsOrder.next {s t : State} (h : s.KeepsOrder t) : OutcomeKeepsOrder s (.next t) := ⟨t, rfl, h⟩

theorem regWrite_keepsOrder (s : State) (q : Req) (slot off : Nat) (v : Word) : s.KeepsOrder (s.regWrite q slot off v) :=
  ⟨s.regWrite_pending q slot off v, s.regWrite_wf q slot off v⟩

/-- A mailbox request that is taken only where it is the one its command names. -/
theorem localRequest_keepsOrder (s : State) (p : Prop) [Decidable p] (w : World) (slot : Nat) :
    s.KeepsOrder (if p then s.localRequest w slot else s) := by
  split
  · exact ⟨s.localRequest_pending w slot, s.localRequest_wf w slot⟩
  · exact .refl s

theorem takeReport_keepsOrder (s : State) (t : TileId) (e : Entry) : s.KeepsOrder (s.takeReport t e) :=
  ⟨s.takeReport_pending t e, s.takeReport_wf t e⟩

theorem execInterruptDelivery_keepsOrder (t : TileId) (s : State) : OutcomeKeepsOrder s (execInterruptDelivery t s) := by
  refine .next ?_
  dsimp only
  split
  case h_1 d _ => exact ⟨s.delivCommit_pending t d, s.delivCommit_wf t d⟩
  case h_2 =>
    split
    · split
      · exact takeReport_keepsOrder ..
      · exact .of_frame (s.delivStart_frame ..)
    · exact .refl s

theorem execMachineCheck_keepsOrder (t : TileId) (s : State) : OutcomeKeepsOrder s (execMachineCheck t s) := by
  refine .next ?_
  split
  case h_1 => exact .refl s
  case h_2 m _ =>
    split
    · exact takeReport_keepsOrder ..
    · exact ⟨s.mcTake_pending t m, s.mcTake_wf t m⟩

theorem execCrossWorldEntry_keepsOrder (t : TileId) (s : State) : OutcomeKeepsOrder s (execCrossWorldEntry t s) := by
  refine .next ?_
  dsimp only
  split
  case h_1 w i _ =>
    split
    · exact ⟨s.hostEnter_pending t w i, s.hostEnter_wf t w i⟩
    · exact .refl s
  case h_2 =>
    split
    · split
      · exact takeReport_keepsOrder ..
      · exact .of_frame (s.crossStart_frame t)
    · exact .of_frame (s.haltedCross_frame t)

theorem execTxExamination_keepsOrder (p : Option (BitVec 4)) (s : State) : OutcomeKeepsOrder s (execTxExamination p s) := by
  refine .next ?_
  cases p with
  | none => exact ⟨s.hostExamine_pending, s.hostExamine_wf⟩
  | some k => exact ⟨s.laneExamine_pending k.toNat, s.laneExamine_wf k.toNat⟩

/-- Every command goes on from every state, leaves the waiting commands alone and keeps memory canonical. -/
theorem exec_keepsOrder (c : Instr) (s : State) : OutcomeKeepsOrder s (exec c s) := by
  cases c with
  -- Rows that write one register: bridge, gate and block (R100).
  | tdvfsWrite | tfloorWrite | rcGo | tdrOprWrite | sweepProgramWrite | sweepStart | sweepAbort | gateWrite | cctlWrite | cgo | dmaWindowWrite
  | masterRegionWrite | scfgWrite | ipset | ipclr | ieset | ieclr | iovrClear | iholdset | iholdclr | timerEnable | tloadWrite | blockRegisterWrite
  | xbaseXctlWrite | tlbi | fwdDone | wqAck | stepn | stepdone | hsDone | lpctlWrite | enrolmentRowWrite | ashclr | tbofs | tbadjWrite | tbstep
  | tbset | uctlWrite | uportReset | uportSuspend | uportResume | jsubmit | loadClear | loadWrapped | wrapOut | erase | extend | jlock | jexpseqWrite
  | cwclr | pctlWrite | ashload | pashclr | ceilWrite | storageRegisterWrite | tapply | llockSet | lclr | lpolWrite | rtcset | tgate | wpermitWrite
  | wlclr | wdkick | watchdogRegisterWrite | devrst | veclock | bootControlWrite | svnburn | keyrevburn | wreset | treset | tstart | unlock | relock
  | registerWrite =>
    exact .next (regWrite_keepsOrder ..)
  -- Rows that take a world's request from its mailbox (Table 11-7).
  | dictRead | dictWrite | describe | update | register | unregister | commandStart | commandAbort | commandAcknowledge | isleEntriesRemove
  | sessionCloseWrite | islandBlockWrite | laneClearPermit | portClearPermit =>
    exact .next (localRequest_keepsOrder ..)
  -- Rows whose operation touches neither the queue nor memory: its frame law says so.
  | pendingResultVisible | contextFillComplete | spillComplete | gateFenceComplete | fenceComplete | dwbinvComplete | pageWalk | dvfsClockSwitchEnd
  | dvfsRampEnd | sweepPauseExpiry | fillEngineSlotTest | sweepDone | irqLineEdge | timerExpiry | dramRefreshRateChange | dramBackgroundZeroing
  | emberDeadlineScan | engineClockStart | stepGrant | charSweepCommand | hello | helloAckDelayExpiry | init | confirm | handshakeExpiry
  | snapshotExpiry | segWriteDiscard | subscribe | unsubscribe | minintExpiry | periodExpiry | keepalive | close | sessionIdleExpiry
  | ferryUndefinedType | noSession | plcaCycle | laneBackoffExpiry | laneLineTestEnd | permitExpiry | addressAgeing | backboneLinkUpset | lockLoss
  | ptpTimestamp | usbPortEvent | pairingTimeout | journalExport | busUvloRising | overvoltageLockout | overvoltageRelease | logicSupplyLimit
  | causewayLost | causewayResume | causewayKeepalive | inrushComplete | portUpset | hardSignature | portBackoffExpiry | budgetTick | budgetShed
  | budgetRestore | chargeEvaluation | chargeFull | converterUpset | switchOver | classShedDelayExpiry | pmaxShed | finishWindowWarning
  | finishWindowExpiry | storageFloor | busReturn | restoreStep | ledgerUpsetRecord | ledgerClear | emberTick | emberClockFail | emberClockReturn
  | rtcFollow | rtcAlarm | openWakeTime | tileGateRestart | targetEvaluation | idleEntry | entryStop | wakeEvent | dozeExit | bankedExit | tileResume
  | exitToAshedTile | autoStore | parameterStoreLoad | watchdogWarning | imageVerify | extest | samplePreload | clamp | highz | bypass
  | dapaccSetAddress | haltreq | resume | tokenAppend | tokclr | nonceRead | uleftExpiry | logicRailReturn | backboneLinkChange | laneLinkUp
  | writeBackResponse | tileResetComplete | svnBurnComplete | fetCooled | trstN =>
    exact .next (.of_frame (by simp))
  -- The other single operations, most of which can write memory: one law for the queue, one for the canonical form.
  | bundleIssue | exceptionEntry | impreciseReport | preciseFreezeEnd | idleHostEntry | cacheLineArrival | peripheralResponse | targetTimeout
  | writeBufferDrain | emramLineProgrammed | sweepStepEnd | peripheralAccess | dmaRequestComplete | ownerTimeout | expertUnlockExpiry
  | stepLimitExpiry | deviceResetCommand | ferryRead | ferryWrite | segRead | segWrite | ferryCommand | laneFrameReceive | receiveDescriptorComplete
  | qctlWrite | kick | laneFrameTransmit | laneUpset | backboneFrameForward | switchRegisterWrite | hostFrameInSleep | usbTransferComplete
  | sealJobRun | journalLineCheck | pair | unpair | exportAcknowledge | busUvloFalling | logicBrownOut | causewayRepeat | ledgerCopyWrite | sleepEntry
  | dormantExit | scrubLine | store | restoreDefaults | busPowerOnReset | resetN | tradeWatchdogExpiry | openWatchdogExpiry | deviceResetSequence
  | tinderRomBoot | recoveryTransfer | dapaccRead | dapaccWrite | dreset | dramRefresh =>
    exact .next ⟨by simp, fun hwf => by simp [hwf]⟩
  -- Rows that choose between several operations.
  | interruptDelivery t => exact execInterruptDelivery_keepsOrder t s
  | machineCheck t => exact execMachineCheck_keepsOrder t s
  | crossWorldEntry t => exact execCrossWorldEntry_keepsOrder t s
  | txExamination p => exact execTxExamination_keepsOrder p s
  | idcode => exact .next (.of_frame (s.tapInstr_frame 2))

/-- A state in order, part by part. -/
theorem State.ok_iff (s : State) : s.ok = true ↔ s.mem.wf = true ∧ s.pending.all Instr.wellFormed = true := by
  simp only [State.ok, Bool.and_eq_true]

theorem State.KeepsOrder.ok {s t : State} (h : s.KeepsOrder t) (hs : s.ok = true) : t.ok = true := by
  obtain ⟨hpending, hmem⟩ := h
  obtain ⟨hwf, hall⟩ := s.ok_iff.mp hs
  exact t.ok_iff.mpr ⟨hmem hwf, hpending ▸ hall⟩

/-- A state in order stays in order when the command at the front of its queue is taken off. -/
theorem State.ok_of_pending_cons {s : State} {c : Instr} {rest : List Instr} (hs : s.ok = true) (hqueue : s.pending = c :: rest) :
    ({ s with pending := rest } : State).ok = true := by
  obtain ⟨hwf, hall⟩ := s.ok_iff.mp hs
  rw [hqueue, List.all_cons, Bool.and_eq_true] at hall
  exact (State.ok_iff _).mpr ⟨hwf, hall.2⟩

/-- The equation of `step` on an empty queue (log 2). -/
theorem step_of_pending_nil {s : State} (h : s.pending = []) : step s = .next s.tick := by
  unfold step
  rw [h]

/-- Settles O5: the tick or the front command keeps what remains of the queue, and keeps memory canonical. -/
theorem stepsKeepOrder : Obligations.StepsKeepOrder := by
  intro s t hs hstep
  cases hqueue : s.pending with
  | nil =>
    rw [step_of_pending_nil hqueue] at hstep
    cases hstep
    exact State.KeepsOrder.ok ⟨s.tick_pending, s.tick_wf⟩ hs
  | cons c rest =>
    rw [step_of_pending_cons hqueue] at hstep
    obtain ⟨u, hexec, hkeeps⟩ := exec_keepsOrder c { s with pending := rest }
    rw [hexec] at hstep
    cases hstep
    exact hkeeps.ok (State.ok_of_pending_cons hs hqueue)

end Sys2Proof.Machine

namespace Sys2Proof.Machine

/-! What the writes of the gates, the colour controller and the sweep engine share: a plain write by its row's mask, a write that goes
through its gate to its block, and the answer that ends it. -/

/-- A key other than the written one reads as before, whatever an unlisted key reads as. -/
theorem Sparse.get_write_ne {V : Type} [DecidableEq V] (d e : V) {k j : Nat} (v : V) (m : List (Nat × V)) (h : j ≠ k) :
    Sparse.get d j (Sparse.write e k v m) = Sparse.get d j m := by
  rw [Sparse.write]
  split
  · rw [Sparse.get_erase, if_neg h]
  · rw [Sparse.get_put, if_neg h]

/-- The bits that a plain write of a register takes, where its ones clear nothing and the worlds share it (R8). -/
def rowMask (slot off : Nat) : Option Word :=
  (findReg slot off).bind (fun r => if r.w1c = 0 ∧ r.banked = false then some r.rw else none)

/-- A plain write takes the bits of the row's mask (R8). -/
theorem State.plainWrite_of_rowMask (s : State) (w : World) {slot off : Nat} (v : Word) {m : Word} (h : rowMask slot off = some m) :
    s.plainWrite w slot off v = s.takeBits slot off m v := by
  obtain ⟨r, hrow, hmask⟩ := Option.bind_eq_some_iff.mp h
  split at hmask
  · rename_i hplain
    cases hmask
    exact s.plainWrite_takes w slot off v hrow hplain.1 hplain.2
  · cases hmask

/-- A write of a slot on the logic side that its gate admits and its block answers without an error leaves what the block leaves. -/
theorem State.regWrite_next {s t : State} {q : Req} {slot off : Nat} {v : Word} (hadmits : s.admits q slot off)
    (hlogic : behindCauseway slot = false) (haligned : off % 4 = 0) (hblock : s.slotWrite q slot off v = (t, .ok 0)) :
    (Host.Outcome.next (s.regWrite q slot off v) : Host.Outcome State Fault Refusal) = .next t.done :=
  congrArg _ (State.regWrite_done hadmits haligned (by rwa [s.cwSeen_logic slot hlogic]))

/-- An access answered changes what was changed before, and the answer. -/
theorem State.onlyIn_done {s t : State} {l n : List Part} (h : s.onlyIn t l) (hl : l ⊆ n) (hr : .resp ∈ n) : s.onlyIn t.done n := by
  refine State.onlyIn_trans h (m := [.resp]) ?_ hl (by simpa using hr)
  intro p hp
  cases p <;> simp [State.agrees] at hp ⊢

/-- An access answered writes no register. -/
theorem State.regsBut_done {s t : State} {l : List (Nat × Nat)} (h : s.regsBut t l) : s.regsBut t.done l := State.regsBut_congr h t.done_regs

/-- Of two states with the same interrupt state and SENSE of a source, raising the source leaves the same interrupt state. -/
theorem State.raise_irq_of_sense {s t : State} {i : Nat} (hsense : t.irqSense i = s.irqSense i) (hirq : t.irq = s.irq) :
    (t.raise i).irq = (s.raise i).irq := by
  simp only [State.raise, hsense]
  split
  · exact hirq
  · simp only [State.irqEdge, hirq]
    repeat' split
    all_goals rfl
  · simp only [State.irqEdge, hirq]
    split <;> rfl

/-- Registers apart from a list that names no source configuration leave every source's SENSE (Table 9-1). -/
theorem State.regsBut.irqSense {s t : State} {l : List (Nat × Nat)} (h : s.regsBut t l) (hl : ∀ o, (0x008, o) ∉ l) {i : Nat} (hi : i < 512) :
    t.irqSense i = s.irqSense i := by
  rw [State.irqSense, State.irqSense, State.scfg, State.scfg, State.reg, State.reg, h .trade 0x008 _ (by decide) (by omega) (hl _)]

end Sys2Proof.Machine

namespace Sys2Proof.Machine

/-! The target gates: the decision of Table 3-11 branch by branch, and what a counted refusal changes (R99 to R101). -/

/-- The colour a gate checks for a world: 15 for the Trade world at a shared slot, else the slot's (R99). -/
def State.gateCheckColour (s : State) (w : World) (slot : Nat) : Colour :=
  if bit (s.gate0 slot) 2 = true ∧ w = .trade then 15 else s.gateColour slot

/-- The bit of gate word 0 that admits a world (Table 3-9). -/
def gateWorldBit (w : World) : Nat := if w = .trade then 4 else 3

/-- The decision of Table 3-11, one step after another, in the terms of the statements. -/
theorem State.gateDecide_eq (s : State) (q : Req) (slot off : Nat) (write : Bool) :
    s.gateDecide q slot off write =
      if slotKind slot = .empty then some 0x25
      else if ¬ bit (s.gate0 slot) (gateWorldBit q.world) = true then some 0x26
      else if ¬ (q.sup = true ∨ bit (s.gate0 slot) 5 = true) then some 0x27
      else if slotKind slot = .fixed then none
      else if colourPasses q.world q.sup q.cmr (s.gateCheckColour q.world slot) = true then none
      else if q.sup = false then some 0x28
      else if write = false ∧ (fld (s.gate0 slot) 7 6 = 0 ∧ off < 0x1000 ∨ fld (s.gate0 slot) 7 6 = 1 ∧ off < 0x1100) then none
      else some 0x29 := by
  simp [State.gateDecide, State.gateCheckColour, gateWorldBit]

/-- A refusal counted changes gate word 1 of its slot alone. -/
theorem State.countRefused_regsBut (s : State) {slot : Nat} (h : slot < 0x1000) :
    s.regsBut (s.countRefused slot) [(0, 0x1004 + 8 * slot)] :=
  State.regsBut_setReg (State.regsBut_of_eq _ rfl) _ (by decide) (by omega) (List.mem_singleton.mpr rfl)

/-- A refusal counted and answered touches the registers and the answer alone. -/
theorem State.countRefused_onlyIn (s : State) (slot : Nat) (c : Code) :
    s.onlyIn { s.countRefused slot with resp := some (.err c) } [.regs, .resp] := by
  intro p hp
  cases p <;> simp [State.agrees, State.countRefused] at hp ⊢

/-- REFUSED counts up and stays at 0xFFFF (R101). -/
theorem State.refused_countRefused (s : State) (slot : Nat) :
    fld ((s.countRefused slot).gate1 slot) 15 0 = min (fld (s.gate1 slot) 15 0 + 1) 0xFFFF := by
  have hcount : ∀ n < 0x10000, (if n = 0xFFFF then n else n + 1) % 0x10000 = min (n + 1) 0xFFFF := by
    intro n hn
    split <;> omega
  have hreads : (s.countRefused slot).gate1 slot = setFld (s.gate1 slot) 15 0 _ := s.reg_setReg_self 0 _ _
  rw [hreads, fld_setFld_self _ _ _ _ (by decide) (by decide)]
  exact hcount _ (fld_lt _ 15 0)

/-- The slot's colour stays when a refusal is counted. -/
theorem State.colour_countRefused (s : State) (slot : Nat) :
    fld ((s.countRefused slot).gate1 slot) 31 28 = fld (s.gate1 slot) 31 28 := by
  have hreads : (s.countRefused slot).gate1 slot = setFld (s.gate1 slot) 15 0 _ := s.reg_setReg_self 0 _ _
  rw [hreads]
  exact fld_setFld_ne _ _ _ _ _ _ (by decide) (by decide) (by decide)

/-- A read that its gate refuses is counted and answered with the refusal. -/
theorem State.busRead_refused {s : State} {q : Req} {slot off : Nat} {c : Code} (hb : s.bridgeDown = false)
    (h : s.gateDecide q slot off false = some c) : s.busRead q slot off = (s.countRefused slot, .err c) := by
  simp [State.busRead, hb, h]

/-- Settles O7: the decision read off branch by branch; a refused access ends in `countRefused`, which writes gate word 1 alone. -/
theorem gateDecides : Obligations.GateDecides := by
  intro s q sl off v write
  dsimp only
  have hdecide := s.gateDecide_eq q sl.toNat off.toNat write
  refine ⟨?_, ?_, ?_, ?_, ?_, ?_, ?_, ?_, fun e hbridge hrefused => State.busRead_refused hbridge hrefused⟩
  · intro hempty
    rw [hdecide, if_pos hempty]
  · intro hslot (hworld : ¬ bit _ (gateWorldBit q.world) = true)
    rw [hdecide, if_neg hslot, if_pos hworld]
  · intro hslot (hworld : bit _ (gateWorldBit q.world) = true) hlevel
    rw [hdecide, if_neg hslot, if_neg (not_not_intro hworld), if_pos hlevel]
  · intro hfixed (hworld : bit _ (gateWorldBit q.world) = true) hlevel
    rw [hdecide, if_neg (by simp [hfixed]), if_neg (not_not_intro hworld), if_neg (not_not_intro hlevel), if_pos hfixed]
  · intro hslot hfixed (hworld : bit _ (gateWorldBit q.world) = true) hlevel
      (hcolour : colourPasses _ _ _ (s.gateCheckColour q.world sl.toNat) = true)
    rw [hdecide, if_neg hslot, if_neg (not_not_intro hworld), if_neg (not_not_intro hlevel), if_neg hfixed, if_pos hcolour]
  · intro hslot hfixed (hworld : bit _ (gateWorldBit q.world) = true) hlevel
      (hcolour : ¬ colourPasses _ _ _ (s.gateCheckColour q.world sl.toNat) = true) huser
    rw [hdecide, if_neg hslot, if_neg (not_not_intro hworld), if_neg (not_not_intro hlevel), if_neg hfixed, if_neg hcolour, if_pos huser]
  · intro hslot hfixed (hworld : bit _ (gateWorldBit q.world) = true) hlevel
      (hcolour : ¬ colourPasses _ _ _ (s.gateCheckColour q.world sl.toNat) = true) hsup
    rw [hdecide, if_neg hslot, if_neg (not_not_intro hworld), if_neg (not_not_intro hlevel), if_neg hfixed, if_neg hcolour,
      if_neg (by simp [hsup])]
  · intro e hbridge hrefused
    exact ⟨_, congrArg Host.Outcome.next (s.regWrite_refused q sl.toNat off.toNat v e hbridge hrefused), rfl,
      s.refused_countRefused sl.toNat, s.colour_countRefused sl.toNat,
      State.regsBut_congr (s.countRefused_regsBut sl.isLt) rfl, s.countRefused_onlyIn sl.toNat e⟩

end Sys2Proof.Machine

namespace Sys2Proof.Machine

/-! The recolour of R84: what one granule's step and the whole loop leave, and what the caches keep (R85). -/

/-- The recolour of one granule: it takes the new colour where it carries the old one. -/
def Mem.recolour (m : Mem) (a : Nat) (old new : Colour) : Mem :=
  if m.colourOf a = old then { m with colours := Sparse.write (granuleReset a) a new m.colours } else m

/-- The colours after the recolour of one granule. -/
theorem Mem.colourOf_recolour (m : Mem) (a b : Nat) (old new : Colour) :
    (m.recolour a old new).colourOf b = if b = a ∧ m.colourOf b = old then new else m.colourOf b := by
  unfold Mem.recolour
  by_cases hba : b = a
  · subst hba
    by_cases hold : m.colourOf b = old
    · rw [if_pos hold, if_pos ⟨rfl, hold⟩]
      exact (Sparse.get_write _ _ _ _ _).trans (if_pos rfl)
    · rw [if_neg hold, if_neg (fun h => hold h.2)]
  · rw [if_neg (fun h : b = a ∧ _ => hba h.1)]
    split
    · exact Sparse.get_write_ne _ _ _ _ hba
    · rfl

/-- The granule that a step recolours is the loop's next one. -/
theorem recolourLoop_succ (g : Nat) (old new : Colour) (n a : Nat) (m : Mem) (ch sk : Nat) :
    recolourLoop g old new (n + 1) a m ch sk =
      recolourLoop g old new n (a + g) (m.recolour a old new) (ch + b2n (m.colourOf a == old)) (sk + b2n (!(m.colourOf a == old))) := by
  by_cases hold : m.colourOf a = old <;> simp [recolourLoop, Mem.recolour, hold, b2n]

/-- The recolour of one granule leaves bytes, tags and damage marks alone. -/
theorem Mem.recolour_frame (m : Mem) (a : Nat) (old new : Colour) :
    (m.recolour a old new).bytes = m.bytes ∧ (m.recolour a old new).tags = m.tags ∧ (m.recolour a old new).damaged = m.damaged := by
  unfold Mem.recolour
  split <;> exact ⟨rfl, rfl, rfl⟩

/-- The recolour of a range leaves bytes, tags and damage marks alone. -/
theorem recolourLoop_frame (g : Nat) (old new : Colour) (n a : Nat) (m : Mem) (ch sk : Nat) :
    (recolourLoop g old new n a m ch sk).1.bytes = m.bytes ∧ (recolourLoop g old new n a m ch sk).1.tags = m.tags
      ∧ (recolourLoop g old new n a m ch sk).1.damaged = m.damaged := by
  induction n generalizing a m ch sk with
  | zero => exact ⟨rfl, rfl, rfl⟩
  | succ n ih =>
    obtain ⟨hbytes, htags, hdamaged⟩ := m.recolour_frame a old new
    rw [recolourLoop_succ, ← hbytes, ← htags, ← hdamaged]
    exact ih ..

/-- The granules after a range's own first granule lie above it. -/
theorem granule_after_ne {g : Nat} (hg : 0 < g) (a i : Nat) : a + g + i * g ≠ a := by omega

/-- Granule i + 1 of a range is granule i after its first one. -/
theorem granule_succ (a g i : Nat) : a + (i + 1) * g = a + g + i * g := by
  rw [Nat.succ_mul]
  omega

/-- Outside the range every granule keeps its colour. -/
theorem recolourLoop_colour_outside (g : Nat) (old new : Colour) (n a b : Nat) (m : Mem) (ch sk : Nat) (hb : ∀ i < n, b ≠ a + i * g) :
    (recolourLoop g old new n a m ch sk).1.colourOf b = m.colourOf b := by
  induction n generalizing a m ch sk with
  | zero => rfl
  | succ n ih =>
    have hfirst : b ≠ a := by simpa using hb 0 (Nat.succ_pos n)
    have hrest : ∀ i < n, b ≠ a + g + i * g := fun i hi e => hb (i + 1) (by omega) (e.trans (granule_succ a g i).symm)
    rw [recolourLoop_succ, ih _ _ _ _ hrest, Mem.colourOf_recolour, if_neg (fun h => hfirst h.1)]

/-- In the range a granule takes the new colour where it carried the old one. -/
theorem recolourLoop_colour_inside (g : Nat) (hg : 0 < g) (old new : Colour) (n a i : Nat) (hi : i < n) (m : Mem) (ch sk : Nat) :
    (recolourLoop g old new n a m ch sk).1.colourOf (a + i * g) = if m.colourOf (a + i * g) = old then new else m.colourOf (a + i * g) := by
  induction n generalizing a m ch sk i with
  | zero => omega
  | succ n ih =>
    rw [recolourLoop_succ]
    cases i with
    | zero =>
      rw [Nat.zero_mul, Nat.add_zero, recolourLoop_colour_outside _ _ _ _ _ _ _ _ _ (fun i _ => (granule_after_ne hg a i).symm),
        Mem.colourOf_recolour]
      simp
    | succ i =>
      rw [granule_succ, ih _ _ (by omega), Mem.colourOf_recolour, if_neg (fun h : _ = a ∧ _ => granule_after_ne hg a i h.1)]

/-- How many of n granules from a carry a colour. -/
def Mem.coloured (m : Mem) (g : Nat) (old : Colour) (n a : Nat) : Nat := ((List.range n).filter (fun i => m.colourOf (a + i * g) == old)).length

/-- The granules of a range are its first one and those after it. -/
theorem Mem.coloured_succ (m : Mem) (g : Nat) (old : Colour) (n a : Nat) :
    m.coloured g old (n + 1) a = b2n (m.colourOf a == old) + m.coloured g old n (a + g) := by
  simp only [Mem.coloured, List.range_succ_eq_map, List.filter_cons, List.filter_map, Function.comp_def, granule_succ,
    Nat.succ_eq_add_one, Nat.zero_mul, Nat.add_zero]
  split
  · simp [*, b2n, Nat.add_comm]
  · simp [*, b2n]

/-- At most every granule of a range carries a colour. -/
theorem Mem.coloured_le (m : Mem) (g : Nat) (old : Colour) (n a : Nat) : m.coloured g old n a ≤ n :=
  Nat.le_trans (List.length_filter_le _ _) (Nat.le_of_eq List.length_range)

/-- The recolour of a granule leaves the count of those after it. -/
theorem Mem.coloured_recolour (m : Mem) {g : Nat} (hg : 0 < g) (old new c : Colour) (n a : Nat) :
    (m.recolour a old new).coloured g c n (a + g) = m.coloured g c n (a + g) := by
  unfold Mem.coloured
  congr 2
  funext i
  rw [Mem.colourOf_recolour, if_neg (fun h => granule_after_ne hg a i h.1)]

/-- CHANGED and SKIPPED after a range: those that carried the old colour and the rest. -/
theorem recolourLoop_counts (g : Nat) (hg : 0 < g) (old new : Colour) (n a : Nat) (m : Mem) (ch sk : Nat) :
    (recolourLoop g old new n a m ch sk).2 = (ch + m.coloured g old n a, sk + (n - m.coloured g old n a)) := by
  induction n generalizing a m ch sk with
  | zero => simp [recolourLoop, Mem.coloured]
  | succ n ih =>
    have hle := m.coloured_le g old n (a + g)
    rw [recolourLoop_succ, ih, m.coloured_recolour hg, m.coloured_succ]
    cases m.colourOf a == old <;> simp [b2n] <;> omega

/-- The granules that a recolour steps over are not empty (Table 3-1). -/
theorem State.granuleSize_pos (s : State) (pa : Nat) : 0 < (s.granuleSize pa).getD 256 := by
  unfold State.granuleSize
  split <;> decide

/-- The state a recolour leaves (R84, R85): the loop's memory and counts, and no cached line of the range. -/
def State.recoloured (s : State) (base count g : Nat) (old new : Colour) : State :=
  let r := recolourLoop g old new count base s.mem 0 0
  ((({ s with mem := r.1 } : State).mapTiles (·.modCaches (·.invalidate (fun x => decide (base ≤ x.pa) && decide (x.pa < base + count * g))))).setReg
    0x001 0x1014 (BitVec.ofNat 32 r.2.1)).setReg 0x001 0x1018 (BitVec.ofNat 32 r.2.2)

/-- A permitted write to RC_GO recolours what slot 0x001 names (R84). -/
theorem State.rcGo_permitted {s : State} {q : Req} {base count : Nat} {old new : Colour} (hbase : base = (s.reg 0x001 0x1000).toNat * 16)
    (hcount : count = (s.reg 0x001 0x1004).toNat) (hold : old = BitVec.ofNat 4 (fld (s.reg 0x001 0x1008) 3 0))
    (hnew : new = BitVec.ofNat 4 (fld (s.reg 0x001 0x100C) 3 0)) (h : s.recolourOk q base count old new = true) :
    s.rcGo q = (s.recoloured base count ((s.granuleSize base).getD 256) old new, .ok 0) := by
  subst hbase hcount hold hnew
  rw [State.rcGo]
  exact if_pos h

section
variable (s : State) (base count g : Nat) (old new : Colour)

/-- A recolour touches memory, registers and tiles alone. -/
theorem State.recoloured_onlyIn : s.onlyIn (s.recoloured base count g old new) [.mem, .regs, .tiles] := by
  intro p hp
  cases p <;> simp [State.agrees, State.recoloured] at hp ⊢

/-- A recolour writes CHANGED and SKIPPED alone. -/
theorem State.recoloured_regsBut : s.regsBut (s.recoloured base count g old new) [(0x001, 0x1014), (0x001, 0x1018)] :=
  State.regsBut_setReg (State.regsBut_setReg (State.regsBut_of_eq _ rfl) _ (by decide) (by decide) (by decide)) _ (by decide) (by decide)
    (by decide)

theorem State.recoloured_changed (hg : 0 < g) :
    (s.recoloured base count g old new).reg 0x001 0x1014 = BitVec.ofNat 32 (s.mem.coloured g old count base) := by
  simp [State.recoloured, State.reg_setReg, recolourLoop_counts g hg]

theorem State.recoloured_skipped (hg : 0 < g) :
    (s.recoloured base count g old new).reg 0x001 0x1018 = BitVec.ofNat 32 (count - s.mem.coloured g old count base) := by
  simp [State.recoloured, recolourLoop_counts g hg]

/-- No cache keeps a line of the recoloured range (R85). -/
theorem State.recoloured_caches (u : TileId) :
    ∀ l ∈ ((s.recoloured base count g old new).tile u).caches.ic ++ ((s.recoloured base count g old new).tile u).caches.dc,
      ¬ (base ≤ l.2.pa ∧ l.2.pa < base + count * g) := by
  rintro l hl ⟨hlo, hhi⟩
  simp only [State.recoloured, State.setReg_tile, State.tile_mapTiles, Tile.modCaches, Caches.invalidate, dropLines, ← List.filter_append,
    List.mem_filter] at hl
  simp [hlo, hhi] at hl

end

/-- Settles O9: the loop's colours and counts by induction over the granules, the rest from the shape of `recoloured`. -/
theorem recolourDone : Obligations.RecolourDone := by
  intro s q v base count old new g n hadmits hok
  have hg : 0 < g := s.granuleSize_pos base
  have hwrite : (s.cwSeen 0x001).slotWrite q 0x001 0x1010 v = (s.recoloured base count g old new, .ok 0) := by
    rw [s.cwSeen_logic 0x001 (by decide), s.slotWrite_colour q 0x1010 v (by decide)]
    exact State.rcGo_permitted rfl rfl rfl rfl hok
  obtain ⟨hbytes, htags, hdamaged⟩ := recolourLoop_frame g old new count base s.mem 0 0
  exact ⟨_, congrArg Host.Outcome.next (State.regWrite_done hadmits rfl hwrite), rfl,
    State.onlyIn_done (s.recoloured_onlyIn base count g old new) (by decide) (by decide),
    State.regsBut_done (s.recoloured_regsBut base count g old new),
    hbytes, htags, hdamaged,
    fun i hi => recolourLoop_colour_inside g hg old new count base i hi s.mem 0 0,
    fun a ha => recolourLoop_colour_outside g old new count base a s.mem 0 0 ha,
    s.recoloured_changed base count g old new hg, s.recoloured_skipped base count g old new hg,
    fun u => s.recoloured_caches base count g old new u⟩

end Sys2Proof.Machine

namespace Sys2Proof.Machine

/-! Writes of the registers that bound what masters reach: colour ranges, gates, master-side regions and general DMA channels. -/

/-! Trade DRAM and Open pool ranges (R83). -/

/-- A Trade supervisor writes the ranges of Table 3-3. -/
theorem State.colourWrite_range (s : State) {q : Req} {off : Nat} (v : Word) {m : Word} (hworld : q.world = .trade) (hsup : q.sup = true)
    (hlo : 0x1100 ≤ off) (hhi : off < 0x1220) (hmask : rowMask 0x001 off = some m) :
    s.colourWrite q off v = (s.takeBits 0x001 off m v, .ok 0) := by
  rw [State.colourWrite, if_neg (by omega), if_pos ⟨hlo, hhi⟩, if_pos (by simp [hworld, hsup]), s.plainWrite_of_rowMask _ _ hmask]

/-- TDR_OPR_WRITE by a Trade supervisor (R83). -/
theorem exec_tdrOprWrite {s : State} {q : Req} (off9 : BitVec 9) {off : Nat} (v : Word) {m : Word} (hworld : q.world = .trade)
    (hsup : q.sup = true) (hoff : 0x1100 + off9.toNat / 4 * 4 = off) (hhi : off < 0x1220) (hmask : rowMask 0x001 off = some m)
    (hadmits : s.admits q 0x001 off) : exec (.tdrOprWrite q off9 v) s = .next (s.takeBits 0x001 off m v).done := by
  subst hoff
  refine State.regWrite_next hadmits (by decide) (by omega) ?_
  rw [s.slotWrite_colour _ _ _ (by omega)]
  exact s.colourWrite_range v hworld hsup (by omega) hhi hmask

/-! Gates (R97, R98). -/

/-- Who may write gate word 0 of a slot (R98). -/
def State.mayGate0 (s : State) (q : Req) (n : Nat) (v : Word) : Prop :=
  q.world = .trade ∨ bit (s.gate0 n) 8 = false ∧ bit (s.gate0 n) 2 = false ∧ bit v 8 = false ∧ bit v 2 = false ∧ bit v 4 = false

/-- Who may write gate word 1 of a slot (R98). -/
def State.mayGate1 (s : State) (q : Req) (n : Nat) (v : Word) : Prop :=
  q.world = .trade ∨ bit (s.gate0 n) 8 = false ∧ bit (s.gate0 n) 2 = false ∧ fld v 31 28 ≠ 15

/-- A permitted write of gate word 0 takes its writable bits (Table 3-9). -/
theorem State.gateWrite_word0 {s : State} {q : Req} {n : Nat} {v : Word} (hsup : q.sup = true) (hslot : slotKind n ≠ .fixed)
    (hdm : fld v 7 6 ≠ 3) (hmay : s.mayGate0 q n v) : s.gateWrite q n false v = (s.takeBits 0 (0x1000 + 8 * n) 0x1FC v, .ok 0) := by
  have htakes : s.takeBits 0 (0x1000 + 8 * n) 0x1FC v = s.setReg 0 (0x1000 + 8 * n) ((s.gate0 n &&& ~~~ 0x1FC) ||| (v &&& 0x1FC)) := rfl
  rw [htakes]
  rcases hmay with hworld | ⟨htrade, hshared, hv8, hv2, hv4⟩
  · simp [State.gateWrite, hsup, hslot, hdm, hworld]
  · simp [State.gateWrite, hsup, hslot, hdm, htrade, hshared, hv8, hv2, hv4]

/-- A permitted write of gate word 1 sets the colour and clears the ones it names in REFUSED (Table 3-10). -/
theorem State.gateWrite_word1 {s : State} {q : Req} {n : Nat} {v : Word} (hsup : q.sup = true) (hslot : slotKind n ≠ .fixed)
    (hmay : s.mayGate1 q n v) : s.gateWrite q n true v =
      (s.setReg 0 (0x1004 + 8 * n) (setFld (s.gate1 n) 31 28 (fld v 31 28) &&& ~~~ (v &&& 0xFFFF)), .ok 0) := by
  rcases hmay with hworld | ⟨htrade, hshared, hcolour⟩
  · simp [State.gateWrite, hsup, hslot, hworld]
  · simp [State.gateWrite, hsup, hslot, htrade, hshared, hcolour]

/-- GATE_WRITE writes the gate of its slot. -/
theorem exec_gateWrite {s t : State} {q : Req} (n : BitVec 12) (word1 : Bool) {v : Word} {off : Nat}
    (hoff : 0x1000 + 8 * n.toNat + (if word1 then 4 else 0) = off) (hadmits : s.admits q 0 off)
    (hgate : s.gateWrite q n.toNat word1 v = (t, .ok 0)) : exec (.gateWrite q n word1 v) s = .next t.done := by
  have hn : n.toNat < 0x1000 := n.isLt
  have hrange : 0x1000 ≤ off ∧ off < 0x9000 ∧ off % 4 = 0 ∧ (off - 0x1000) / 8 = n.toNat := by split at hoff <;> omega
  obtain ⟨hlo, hhi, haligned, hslot⟩ := hrange
  have hword : (off / 4 % 2 == 1) = word1 := by cases word1 <;> simp at hoff ⊢ <;> omega
  have hrow : exec (.gateWrite q n word1 v) s = .next (s.regWrite q 0 off v) := by rw [← hoff]; rfl
  rw [hrow]
  refine State.regWrite_next hadmits (by decide) haligned ?_
  rw [s.slotWrite_gate _ _ _ hlo, if_pos hhi, hslot, hword, hgate]

/-! Master-side regions (R110). -/

/-- A Trade supervisor's write of a region that leaves no two enabled regions overlapping is kept (R110). -/
theorem State.masterWrite_region (s : State) {q : Req} {u off : Nat} (v : Word) {m : Word} (hworld : q.world = .trade) (hsup : q.sup = true)
    (hlo : 0x1000 ≤ off) (hhi : off < 0x1080) (hmask : rowMask (2 + u) off = some m) (hapart : (s.takeBits (2 + u) off m v).regionsClash u = false) :
    s.masterWrite q u off v = (s.takeBits (2 + u) off m v, .ok 0) := by
  simp [State.masterWrite, hworld, hsup, hlo, hhi, s.plainWrite_of_rowMask _ _ hmask, hapart]

/-- MASTER_REGION_WRITE of a word of a region by a Trade supervisor (R110). -/
theorem exec_masterRegionWrite {s : State} {q : Req} (u : BitVec 2) (r : BitVec 3) (k : BitVec 2) {off : Nat} (v : Word) {m : Word}
    (hworld : q.world = .trade) (hsup : q.sup = true) (hoff : 0x1000 + 16 * r.toNat + 4 * k.toNat = off)
    (hmask : rowMask (2 + u.toNat) off = some m) (hadmits : s.admits q (2 + u.toNat) off)
    (hapart : (s.takeBits (2 + u.toNat) off m v).regionsClash u.toNat = false) :
    exec (.masterRegionWrite q u r k v) s = .next (s.takeBits (2 + u.toNat) off m v).done := by
  have hu : u.toNat < 4 := u.isLt
  have hr : r.toNat < 8 := r.isLt
  have hk : k.toNat < 4 := k.isLt
  subst hoff
  refine State.regWrite_next hadmits ?_ (by omega) ?_
  · simp [behindCauseway, within]; omega
  · rw [s.slotWrite_master q u.toNat _ v hu (by omega)]
    exact s.masterWrite_region v hworld hsup (by omega) (by omega) hmask hapart

/-! General DMA channels (R104 to R107). -/

/-- Who may write a channel's registers (R106): anyone while the channel is the Open world's, else a Trade supervisor. -/
def State.mayChannel (s : State) (q : Req) (c : Nat) : Prop := bit (s.reg (0x040 + c) 0x1000) 29 = false ∨ q.world = .trade ∧ q.sup = true

/-- A channel refuses nothing of those who may write it. -/
theorem State.chanRefuses_of_may {s : State} {q : Req} {c : Nat} (h : s.mayChannel q c) : s.chanRefuses q c = false := by
  rcases h with hopen | ⟨hworld, hsup⟩
  · simp [State.chanRefuses, State.chanWorld, State.chan, hopen, World.ofBit]
  · simp [State.chanRefuses, hworld, hsup]

/-- A write that a channel's block answers without an error, by its register. -/
theorem regWrite_chan {s t : State} {q : Req} (c : BitVec 5) {off : Nat} {v : Word} (hadmits : s.admits q (0x040 + c.toNat) off)
    (hlo : 0x1000 ≤ off) (haligned : off % 4 = 0) (hblock : s.chanWrite q c.toNat off v = (t, .ok 0)) :
    (Host.Outcome.next (s.regWrite q (0x040 + c.toNat) off v) : Host.Outcome State Fault Refusal) = .next t.done := by
  have hc : c.toNat < 32 := c.isLt
  refine State.regWrite_next hadmits ?_ haligned ?_
  · simp [behindCauseway, within]; omega
  · rw [s.slotWrite_chan q c.toNat off v hc hlo, hblock]

/-- The colour that a write of window word k must find in its writer's mask (R104). -/
def State.windowColour (s : State) (c k : Nat) (v : Word) : Nat :=
  if k % 2 = 1 then fld v 31 28 else fld (s.chan c (0x1024 + 8 * (k / 2))) 31 28

/-- A window word written by a supervisor whose mask holds the window's colour, while the channel rests (R104, R106). -/
theorem State.chanWindow_permitted {s : State} {q : Req} {c k : Nat} {v m : Word} (hmay : s.mayChannel q c) (hidle : s.chanBusy c = false)
    (hsup : q.sup = true) (hcolour : q.cmr.getLsbD (s.windowColour c k v) = true) (hmask : rowMask (0x040 + c) (0x1020 + 4 * k) = some m) :
    s.chanWindow q c k v = (s.takeBits (0x040 + c) (0x1020 + 4 * k) m v, .ok 0) := by
  rw [State.windowColour] at hcolour
  simp [State.chanWindow, State.chanRefuses_of_may hmay, hidle, hsup, hcolour, s.plainWrite_of_rowMask _ _ hmask, -BitVec.getLsbD_eq_getElem]

/-- DMA_WINDOW_WRITE as R104 permits it. -/
theorem exec_dmaWindowWrite {s : State} {q : Req} (c : BitVec 5) (k : BitVec 2) {v m : Word} (hmay : s.mayChannel q c.toNat)
    (hidle : s.chanBusy c.toNat = false) (hsup : q.sup = true) (hadmits : s.admits q (0x040 + c.toNat) (0x1020 + 4 * k.toNat))
    (hmask : rowMask (0x040 + c.toNat) (0x1020 + 4 * k.toNat) = some m) (hcolour : q.cmr.getLsbD (s.windowColour c.toNat k.toNat v) = true) :
    exec (.dmaWindowWrite q c k v) s = .next (s.takeBits (0x040 + c.toNat) (0x1020 + 4 * k.toNat) m v).done := by
  have hblock : s.chanWrite q c.toNat (0x1020 + 4 * k.toNat) v = s.chanWindow q c.toNat k.toNat v := by
    have hk : ∀ k : BitVec 2, k = 0 ∨ k = 1 ∨ k = 2 ∨ k = 3 := by decide
    rcases hk k with rfl | rfl | rfl | rfl <;> rfl
  exact regWrite_chan c hadmits (by omega) (by omega)
    (hblock.trans (State.chanWindow_permitted hmay hidle hsup hcolour hmask))

/-- CCTL as a permitted write leaves it (R103, R105, R106). -/
theorem State.cctlWrite_permitted {s : State} {q : Req} {c : Nat} {v : Word} (hmay : s.mayChannel q c)
    (hmode : s.chanBusy c = true → fld v 25 24 = fld (s.chan c 0x1000) 25 24) :
    s.cctlWrite q c v = (s.setReg (0x040 + c) 0x1000 ((v &&& 0x93000000) ||| (if bit v 31 = true then 0 else s.chan c 0x1000 &&& 0x40FF0000)
      ||| (if q.world = .trade then 0x20000000 else 0) ||| ((v.setWidth 16 &&& q.cmr).setWidth 32)), .ok 0) := by
  have hkept : (s.chanBusy c && fld v 25 24 != fld (s.chan c 0x1000) 25 24) = false := by
    cases hbusy : s.chanBusy c
    · rfl
    · simp [hmode hbusy]
  simp [State.cctlWrite, State.chanRefuses_of_may hmay, hkept]

/-- CGO starts a channel that is enabled, rests and has a sound length and mode (R107). -/
theorem State.cgo_starts {s : State} {q : Req} {c : Nat} (hmay : s.mayChannel q c) (hen : bit (s.chan c 0x1000) 31 = true)
    (hmode : bit (s.chan c 0x1000) 25 = false) (hidle : s.chanBusy c = false) (hlen : fld (s.chan c 0x100C) 23 0 ≠ 0)
    (hunit : fld (s.chan c 0x100C) 23 0 % 16 = 0) :
    s.cgo q c = (s.modReg (0x040 + c) 0x1014 (fun w => setFld (setBit w 31 true) 23 0 (fld (s.chan c 0x100C) 23 0)), .ok 0) := by
  simp [State.cgo, State.chanRefuses_of_may hmay, hen, hmode, hidle, hlen, hunit]

/-! The masks of the rows that the obligation names (Tables 3-3, 3-11a, 3-12). -/

theorem rowMask_tdrBase : ∀ k : BitVec 2, rowMask 0x001 (0x1100 + 8 * k.toNat) = some 0x800FFFFF := by decide
theorem rowMask_tdrLimit : ∀ k : BitVec 2, rowMask 0x001 (0x1104 + 8 * k.toNat) = some 0x000FFFFF := by decide
theorem rowMask_oprBase : ∀ k : BitVec 2, rowMask 0x001 (0x1200 + 8 * k.toNat) = some 0x8FFFFFFF := by decide
theorem rowMask_oprLimit : ∀ k : BitVec 2, rowMask 0x001 (0x1204 + 8 * k.toNat) = some 0x0FFFFFFF := by decide
theorem rowMask_regionBase : ∀ (u : BitVec 2) (r : BitVec 3), rowMask (2 + u.toNat) (0x1000 + 16 * r.toNat) = some 0x0FFFFFFF := by decide
theorem rowMask_regionLimit : ∀ (u : BitVec 2) (r : BitVec 3), rowMask (2 + u.toNat) (0x1004 + 16 * r.toNat) = some 0x0FFFFFFF := by decide
theorem rowMask_regionRights : ∀ (u : BitVec 2) (r : BitVec 3), rowMask (2 + u.toNat) (0x1008 + 16 * r.toNat) = some 0xFFFF0007 := by decide
theorem rowMask_windowBase0 : ∀ c : BitVec 5, rowMask (0x040 + c.toNat) 0x1020 = some 0x800FFFFF := by decide
theorem rowMask_windowLimit0 : ∀ c : BitVec 5, rowMask (0x040 + c.toNat) 0x1024 = some 0xF00FFFFF := by decide
theorem rowMask_windowBase1 : ∀ c : BitVec 5, rowMask (0x040 + c.toNat) 0x1028 = some 0x800FFFFF := by decide
theorem rowMask_windowLimit1 : ∀ c : BitVec 5, rowMask (0x040 + c.toNat) 0x102C = some 0xF00FFFFF := by decide

/-- Settles O8: each write goes through its gate to its block, whose permitted case says what the register takes. -/
theorem protectionWritten : Obligations.ProtectionWritten := by
  intro s q k u n r c v chan cctl mayChannel
  refine ⟨?ranges, ?gate0, ?gate1, ?regions, ?windows, ?control, ?start⟩
  case ranges =>
    intro hworld hsup
    have hk : k.toNat < 4 := k.isLt
    have hlow : ∀ j < 512, (BitVec.ofNat 9 j).toNat = j := fun j hj => by simp [Nat.mod_eq_of_lt hj]
    exact ⟨exec_tdrOprWrite _ v hworld hsup (by rw [hlow _ (by omega)]; omega) (by omega) (rowMask_tdrBase k),
      exec_tdrOprWrite _ v hworld hsup (by rw [hlow _ (by omega)]; omega) (by omega) (rowMask_tdrLimit k),
      exec_tdrOprWrite _ v hworld hsup (by rw [hlow _ (by omega)]; omega) (by omega) (rowMask_oprBase k),
      exec_tdrOprWrite _ v hworld hsup (by rw [hlow _ (by omega)]; omega) (by omega) (rowMask_oprLimit k)⟩
  case gate0 =>
    exact fun hadmits hsup hslot hdm hmay => exec_gateWrite n false rfl hadmits (State.gateWrite_word0 hsup hslot hdm hmay)
  case gate1 =>
    exact fun hadmits hsup hslot hmay => exec_gateWrite n true (by simp; omega) hadmits (State.gateWrite_word1 hsup hslot hmay)
  case regions =>
    intro hworld hsup
    exact ⟨exec_masterRegionWrite u r 0 v hworld hsup rfl (rowMask_regionBase u r),
      exec_masterRegionWrite u r 1 v hworld hsup (by simp; omega) (rowMask_regionLimit u r),
      exec_masterRegionWrite u r 2 v hworld hsup (by simp; omega) (rowMask_regionRights u r)⟩
  case windows =>
    intro hmay hidle hsup
    exact ⟨fun hadmits => exec_dmaWindowWrite c 0 hmay hidle hsup hadmits (rowMask_windowBase0 c),
      fun hadmits => exec_dmaWindowWrite c 1 hmay hidle hsup hadmits (rowMask_windowLimit0 c),
      fun hadmits => exec_dmaWindowWrite c 2 hmay hidle hsup hadmits (rowMask_windowBase1 c),
      fun hadmits => exec_dmaWindowWrite c 3 hmay hidle hsup hadmits (rowMask_windowLimit1 c)⟩
  case control =>
    exact fun hadmits hmay hmode => regWrite_chan c hadmits (by decide) (by decide) (State.cctlWrite_permitted hmay hmode)
  case start =>
    exact fun hadmits hmay hen hmode hidle hlen hunit => regWrite_chan c hadmits (by decide) (by decide)
      (State.cgo_starts hmay hen hmode hidle hlen hunit)

end Sys2Proof.Machine

namespace Sys2Proof.Machine

/-! The sweep engine's programme, START and ABORT (R86, R91, R93). -/

/-- A register of the sweep engine other than CTRL, written behind its gate. -/
theorem exec_sweepProgramWrite {s t : State} {q : Req} (off16 : BitVec 16) {off : Nat} {v : Word} (hoff : off16.toNat = off)
    (hadmits : s.admits q 0x021 off) (hlo : 0x1000 ≤ off) (haligned : off % 4 = 0) (hctrl : off ≠ 0x1200)
    (hprogram : s.sweepProgram q off v = (t, .ok 0)) : exec (.sweepProgramWrite q off16 v) s = .next t.done := by
  subst hoff
  refine State.regWrite_next hadmits (by decide) haligned ?_
  rw [s.slotWrite_sweep _ _ _ hlo, State.sweepWrite, if_neg hctrl, hprogram]

theorem rowMask_sweepRange : ∀ k j : BitVec 2,
    rowMask 0x021 (0x1000 + 16 * k.toNat + 4 * j.toNat) = some (if j = 3 then 0xC000000F else 0xFFFFFFFF) := by decide
theorem rowMask_sweepArea : ∀ (a : BitVec 4) (j : BitVec 2), j ≠ 3 →
    rowMask 0x021 (0x1100 + 16 * a.toNat + 4 * j.toNat) = some (if j = 2 then 0x8000FFFF else 0xFFFFFFFF) := by decide
theorem rowMask_sweepPace : rowMask 0x021 0x1204 = some 0xFFFFFFFF := by decide

/-- A range word is taken where the range is its writer's and the engine rests (R86). -/
theorem State.sweepProgram_range {s : State} {q : Req} {k j : Nat} {v m : Word} (hk : k < 4) (hj : j < 4) (hrest : s.sweepState ≠ 1)
    (hown : bit (s.reg 0x021 (0x100C + 16 * k)) 31 = true → bit (s.reg 0x021 (0x100C + 16 * k)) 30 = q.world.bit)
    (hworld : j = 3 → bit v 30 = q.world.bit) (hmask : rowMask 0x021 (0x1000 + 16 * k + 4 * j) = some m) :
    s.sweepProgram q (0x1000 + 16 * k + 4 * j) v = (s.takeBits 0x021 (0x1000 + 16 * k + 4 * j) m v, .ok 0) := by
  have hword3 : (0x1000 + 16 * k + 4 * j) / 16 * 16 + 12 = 0x100C + 16 * k := by omega
  have hlast : (0x1000 + 16 * k + 4 * j) % 16 = 12 ↔ j = 3 := by omega
  have hbad : ((bit (s.reg 0x021 (0x100C + 16 * k)) 31 && bit (s.reg 0x021 (0x100C + 16 * k)) 30 != q.world.bit)
      || ((0x1000 + 16 * k + 4 * j) % 16 == 12 && bit v 30 != q.world.bit)) = false := by
    simpa [hlast] using ⟨hown, hworld⟩
  rw [State.sweepProgram, if_pos (by omega), hword3, s.plainWrite_of_rowMask _ _ hmask]
  exact if_neg (by rw [hbad]; simpa using hrest)

/-- An area word is taken where its writer may have the area before and after, and the engine rests (R86). -/
theorem State.sweepProgram_area {s : State} {q : Req} {a j : Nat} {v m : Word} (ha : a < 16) (hj : j < 4) (hrest : s.sweepState ≠ 1)
    (hmask : rowMask 0x021 (0x1100 + 16 * a + 4 * j) = some m) (hbefore : s.areaRefused q (s.sweepArea a) = false)
    (hafter : (s.takeBits 0x021 (0x1100 + 16 * a + 4 * j) m v).areaRefused q ((s.takeBits 0x021 (0x1100 + 16 * a + 4 * j) m v).sweepArea a) = false) :
    s.sweepProgram q (0x1100 + 16 * a + 4 * j) v = (s.takeBits 0x021 (0x1100 + 16 * a + 4 * j) m v, .ok 0) := by
  have harea : (0x1100 + 16 * a + 4 * j - 0x1100) / 16 = a := by omega
  rw [State.sweepProgram, if_neg (by omega), if_pos (by omega), harea, s.plainWrite_of_rowMask _ _ hmask]
  simp [hrest, hbefore, hafter]

/-- STEPKIB of 4 to 1,024 is taken (Table 3-7). -/
theorem State.sweepProgram_pace {s : State} {q : Req} {v : Word} (hlo : 4 ≤ fld v 15 0) (hhi : fld v 15 0 ≤ 1024) :
    s.sweepProgram q 0x1204 v = (s.takeBits 0x021 0x1204 0xFFFFFFFF v, .ok 0) := by
  rw [State.sweepProgram, if_neg (by decide), if_neg (by decide), if_pos rfl, s.plainWrite_of_rowMask _ _ rowMask_sweepPace]
  exact if_pos ⟨hlo, hhi⟩

/-! The end of a sweep (R94). -/

section
variable (s : State) (st reason : Nat)

/-- The end of a sweep touches registers, the engine and the interrupts alone. -/
theorem State.sweepEnd_onlyIn : s.onlyIn (s.sweepEnd st reason) [.regs, .sweep, .irq] := by
  intro p hp
  cases p <;> simp [State.agrees, State.sweepEnd, State.setSweep] at hp ⊢

theorem State.setSweep_regsBut : s.regsBut (s.setSweep st reason) [(0x021, 0x1208)] :=
  State.regsBut_setReg (State.regsBut_of_eq _ rfl) _ (by decide) (by decide) (by decide)

/-- The end of a sweep writes STATE and REASON alone. -/
theorem State.sweepEnd_regsBut : s.regsBut (s.sweepEnd st reason) [(0x021, 0x1208)] :=
  State.regsBut_congr (s.setSweep_regsBut st reason) (by simp [State.sweepEnd])

@[simp] theorem State.sweepEnd_state : (s.sweepEnd st reason).reg 0x021 0x1208 = BitVec.ofNat 32 (reason * 4 + st) := by
  simp [State.sweepEnd, State.setSweep]

@[simp] theorem State.sweepEnd_sweep : (s.sweepEnd st reason).sweep = { s.sweep with abort := false, pause := none } := by
  simp [State.sweepEnd, State.setSweep]

/-- The interrupt of the world that wrote START rises (R94). -/
theorem State.sweepEnd_irq : (s.sweepEnd st reason).irq = (s.raise (if s.sweep.world = .trade then 48 else 49)).irq := by
  have hworld : (if s.sweep.world == .trade then 48 else 49) = if s.sweep.world = .trade then 48 else 49 := by simp
  rw [State.sweepEnd, hworld]
  refine State.raise_irq_of_sense ?_ (by simp [State.setSweep])
  exact (s.setSweep_regsBut st reason).irqSense (by simp) (by split <;> decide)

end

/-! START (R91, R93). -/

/-- The engine's registers that hold ranges decide which capabilities are condemned (R87). -/
theorem State.condemned_congr {s t : State} (h : ∀ o < 0x1200, t.reg 0x021 o = s.reg 0x021 o) (mask : BitVec 16) (c : Cap) :
    t.condemned mask c = s.condemned mask c := by
  have hrange : List.range 4 = [0, 1, 2, 3] := rfl
  simp [State.condemned, hrange, h]

/-- The counters cleared by START, and the engine afresh for the world that wrote it (R91, R93). -/
def State.sweepCleared (s : State) (w : World) : State :=
  ((s.setReg 0x021 0x120C 0).setReg 0x021 0x1214 0).modSweep (fun _ => { Sweep.reset with world := w })

/-- START of a programme whose areas keep tags: the tiles and the isle descriptors filtered, N fixed, STATE RUNNING (R91, R93). -/
def State.sweepStarted (s : State) (w : World) : State :=
  ((((s.sweepCleared w).mapTiles s.sweepTile).sweepIsles).setReg 0x021 0x1210
    (BitVec.ofNat 32 ((((List.range 16).map s.sweepArea).map s.areaSteps).sum))).setSweep 1 0

theorem State.sweepStart_eq {s : State} (q : Req) (hrest : s.sweepState ≠ 1) (htags : ((List.range 16).map s.sweepArea).any s.areaTagless = false) :
    s.sweepStart q = s.sweepStarted q.world := by
  rw [State.sweepStart, if_neg (by simpa using hrest)]
  exact if_neg (by rw [htags]; decide)

/-- The registers that START writes (Table 3-7). -/
def sweepCounters : List (Nat × Nat) := [(0x021, 0x1208), (0x021, 0x120C), (0x021, 0x1210), (0x021, 0x1214)]

section
variable (s : State) (w : World)

theorem State.sweepStarted_onlyIn : s.onlyIn (s.sweepStarted w) [.regs, .sweep, .tiles, .store] := by
  intro p hp
  cases p <;> simp [State.agrees, State.sweepStarted, State.sweepCleared, State.sweepIsles, State.setSweep] at hp ⊢

theorem State.sweepCleared_regsBut : s.regsBut (s.sweepCleared w) sweepCounters := by
  have hk : s.regsBut (s.setReg 0x021 0x120C 0) sweepCounters :=
    State.regsBut_setReg (State.regsBut_of_eq _ rfl) _ (by decide) (by decide) (by decide)
  exact State.regsBut_congr (State.regsBut_setReg hk (a := 0x021) (o := 0x1214) 0 (by decide) (by decide) (by decide)) rfl

theorem State.sweepStarted_regsBut : s.regsBut (s.sweepStarted w) sweepCounters := by
  have hfiltered : s.regsBut (((s.sweepCleared w).mapTiles s.sweepTile).sweepIsles) sweepCounters :=
    State.regsBut_congr (s.sweepCleared_regsBut w) rfl
  exact State.regsBut_setReg (State.regsBut_setReg hfiltered _ (by decide) (by decide) (by decide)) _ (by decide) (by decide) (by decide)

/-- A capability is filtered by the ranges, which START leaves alone. -/
theorem State.sweepCap_sweepCleared (f : Tile → Tile) : ((s.sweepCleared w).mapTiles f).sweepCap = s.sweepCap := by
  have hranges : ∀ o < 0x1200, ((s.sweepCleared w).mapTiles f).reg 0x021 o = s.reg 0x021 o := by
    intro o ho
    exact (State.mapTiles_reg _ f 0x021 o).trans
      (s.sweepCleared_regsBut w .trade 0x021 o (by decide) (by omega) (by simp [sweepCounters]; omega))
  funext mask c
  rw [State.sweepCap, State.condemned_congr hranges, State.sweepCap]

theorem State.sweepStarted_store : (s.sweepStarted w).store =
    { s.store with isles := s.store.isles.map (fun p => (p.1, { p.2 with root := s.sweepCap p.2.mask p.2.root })) } := by
  simp only [State.sweepStarted, State.setSweep, State.setReg_store, State.sweepIsles, State.modStore_store, State.sweepCap_sweepCleared]
  rfl

theorem State.sweepStarted_tile (u : TileId) : (s.sweepStarted w).tile u = s.sweepTile (s.tile u) := by
  simp [State.sweepStarted, State.setSweep, State.sweepIsles, State.sweepCleared]

theorem State.sweepStarted_sweep : (s.sweepStarted w).sweep = { Sweep.reset with world := w } := by
  simp [State.sweepStarted, State.setSweep, State.sweepIsles, State.sweepCleared]

/-- The engine's registers after START (Table 3-7): RUNNING, K and COUNT zero, N fixed. -/
theorem State.sweepStarted_regs : (s.sweepStarted w).reg 0x021 0x1208 = 1 ∧ (s.sweepStarted w).reg 0x021 0x120C = 0
    ∧ (s.sweepStarted w).reg 0x021 0x1214 = 0
    ∧ (s.sweepStarted w).reg 0x021 0x1210 = BitVec.ofNat 32 ((((List.range 16).map s.sweepArea).map s.areaSteps).sum) := by
  simp [State.sweepStarted, State.setSweep, State.sweepIsles, State.sweepCleared, State.reg_setReg]

end

/-! ABORT (R93), and the commands of CTRL. -/

/-- Between steps ABORT ends the sweep at once (R93). -/
theorem State.sweepAbort_ends {s : State} (hruns : s.sweepState = 1)
    (hbetween : s.sweep.pause.isSome = true ∨ s.reg 0x021 0x120C = s.reg 0x021 0x1210) : s.sweepAbort = s.sweepEnd 3 1 := by
  rw [State.sweepAbort, if_neg (by simp [hruns]), if_pos (by simpa using hbetween)]

/-- During a step ABORT waits for its end (R93). -/
theorem State.sweepAbort_waits {s : State} (hruns : s.sweepState = 1) (hpause : s.sweep.pause = none)
    (hstep : s.reg 0x021 0x120C ≠ s.reg 0x021 0x1210) : s.sweepAbort = s.modSweep (fun e => { e with abort := true }) := by
  rw [State.sweepAbort, if_neg (by simp [hruns]), if_neg (by simp [hpause, hstep])]

theorem exec_sweepStart {s : State} {q : Req} (hadmits : s.admits q 0x021 0x1200) : exec (.sweepStart q) s = .next (s.sweepStart q).done :=
  State.regWrite_next hadmits (by decide) (by decide) (s.slotWrite_sweep q 0x1200 1 (by decide))

theorem exec_sweepAbort {s : State} {q : Req} (hadmits : s.admits q 0x021 0x1200) : exec (.sweepAbort q) s = .next s.sweepAbort.done :=
  State.regWrite_next hadmits (by decide) (by decide) (s.slotWrite_sweep q 0x1200 2 (by decide))

/-- Settles O10: the programme's writes by their rows' masks; START and ABORT by the states that `sweepStarted` and `sweepEnd` name. -/
theorem sweepCommanded : Obligations.SweepCommanded := by
  intro s q off k j a v old rmask amask
  refine ⟨?range, ?area, ?pace, ?start, ?abortEnds, ?abortWaits⟩
  case range =>
    intro hadmits hoff hrest hown hworld
    rw [hoff]
    exact exec_sweepProgramWrite off hoff hadmits (by omega) (by omega) (by omega)
      (State.sweepProgram_range k.isLt j.isLt hrest hown (fun hj => hworld (BitVec.eq_of_toNat_eq hj)) (rowMask_sweepRange k j))
  case area =>
    intro hadmits hoff hj hrest hbefore hafter
    rw [hoff] at hafter ⊢
    have ha : a.toNat < 16 := a.isLt
    have hword : j.toNat < 4 := j.isLt
    exact exec_sweepProgramWrite off hoff hadmits (by omega) (by omega) (by omega)
      (State.sweepProgram_area ha hword hrest (rowMask_sweepArea a j hj) hbefore hafter)
  case pace =>
    exact fun hadmits hlo hhi => exec_sweepProgramWrite 0x1204 rfl hadmits (by decide) (by decide) (by decide) (State.sweepProgram_pace hlo hhi)
  case start =>
    intro hadmits hrest htags
    obtain ⟨hstate, hk, hcount, hn⟩ := s.sweepStarted_regs q.world
    refine ⟨(s.sweepStarted q.world).done, by rw [exec_sweepStart hadmits, State.sweepStart_eq q hrest htags], rfl,
      State.onlyIn_done (s.sweepStarted_onlyIn q.world) (by decide) (by decide),
      State.regsBut_done (s.sweepStarted_regsBut q.world), ?_⟩
    simp only [State.done_reg, State.done_sweep, State.done_tile, State.done_store]
    exact ⟨hstate, hk, hcount, hn, s.sweepStarted_sweep q.world, s.sweepStarted_tile q.world, s.sweepStarted_store q.world⟩
  case abortEnds =>
    intro hadmits hruns hbetween
    refine ⟨(s.sweepEnd 3 1).done, by rw [exec_sweepAbort hadmits, State.sweepAbort_ends hruns hbetween], rfl,
      State.onlyIn_done (s.sweepEnd_onlyIn 3 1) (by decide) (by decide), State.regsBut_done (s.sweepEnd_regsBut 3 1), ?_⟩
    simp only [State.done_reg, State.done_sweep, State.done_irq]
    exact ⟨s.sweepEnd_state 3 1, s.sweepEnd_sweep 3 1, s.sweepEnd_irq 3 1⟩
  case abortWaits =>
    intro hadmits hruns hpause hstep
    rw [exec_sweepAbort hadmits, State.sweepAbort_waits hruns hpause hstep]

end Sys2Proof.Machine

namespace Sys2Proof.Machine

/-! The sweep engine's steps, the walk of the context store and the end (R91, R93, R94). -/

/-- A step whose lines are done raises K and begins the pause (R93). -/
theorem State.sweepStepEnd_of_done {s : State} {a : SweepArea} {lo : Nat} (hruns : s.sweepState = 1) (hpause : s.sweep.pause = none)
    (hstep : s.sweepLocate (s.reg 0x021 0x120C).toNat (List.range 16) = some (a, lo))
    (hdone : (s.sweepLines a (s.stepBytes / 64) lo).2 = 0) (habort : s.sweep.abort = false) :
    s.sweepStepEnd = (((s.sweepLines a (s.stepBytes / 64) lo).1.setReg 0x021 0x120C (BitVec.ofNat 32 ((s.reg 0x021 0x120C).toNat + 1))).modSweep
      (fun e => { e with pause := if fld (s.reg 0x021 0x1204) 31 16 = 0 then none else some (s.now + fld (s.reg 0x021 0x1204) 31 16) })) := by
  obtain ⟨s1, hlines⟩ : ∃ s1, s.sweepLines a (s.stepBytes / 64) lo = (s1, 0) := ⟨_, Prod.ext rfl hdone⟩
  rw [State.sweepStepEnd, if_neg (by simp [hruns, hpause]), hstep, hlines]
  simp [hlines, habort]

/-- The pause ends when its time has come (R93). -/
theorem State.sweepPauseOver_due {s : State} {e : Nat} (hpause : s.sweep.pause = some e) (hdue : e ≤ s.now) :
    s.sweepPauseOver = s.modSweep (fun y => { y with pause := none }) := by
  rw [State.sweepPauseOver, hpause]
  exact if_pos hdue

/-- The walk filters a context that is in no bank against its own mask (R91). -/
theorem State.fillTest_elsewhere {s : State} (hruns : s.sweepState = 1) (hslot : s.sweep.slot < 4096)
    (hresident : ∀ t b, s.dir (BitVec.ofNat 12 s.sweep.slot) ≠ .resident t b) (hrunning : ∀ t b, s.dir (BitVec.ofNat 12 s.sweep.slot) ≠ .running t b) :
    s.fillTest = (s.modSweep (fun e => { e with slot := s.sweep.slot + 1 })).modCtx (BitVec.ofNat 12 s.sweep.slot)
      (fun x => x.mapCaps (s.sweepCap x.cmr)) := by
  rw [State.fillTest, if_neg (by simp [hruns, hslot])]
  dsimp only
  split
  · exact absurd ‹_› (hresident _ _)
  · exact absurd ‹_› (hrunning _ _)
  · rfl

/-- The walk passes over a context in a bank, which its tile filters (R91). -/
theorem State.fillTest_banked {s : State} {t : TileId} {b : Nat} (hruns : s.sweepState = 1) (hslot : s.sweep.slot < 4096)
    (hbank : s.dir (BitVec.ofNat 12 s.sweep.slot) = .resident t b ∨ s.dir (BitVec.ofNat 12 s.sweep.slot) = .running t b) :
    s.fillTest = s.modSweep (fun e => { e with slot := s.sweep.slot + 1 }) := by
  rw [State.fillTest, if_neg (by simp [hruns, hslot])]
  rcases hbank with h | h <;> simp only [h]

/-! The end of the last step and the last slot (R88, R94). -/

/-- The revocation ranges swept are no longer enabled (R88). -/
def State.rangesSwept (s : State) : State := (List.range 4).foldl (fun s k => s.modReg 0x021 (0x100C + 16 * k) (fun v => setBit v 31 false)) s

/-- The last words of the ranges (Table 3-5). -/
def sweepRangeWords : List (Nat × Nat) := [(0x021, 0x100C), (0x021, 0x101C), (0x021, 0x102C), (0x021, 0x103C)]

theorem State.sweepDone_eq {s : State} (hruns : s.sweepState = 1) (hpause : s.sweep.pause = none)
    (hsteps : s.reg 0x021 0x120C = s.reg 0x021 0x1210) (hslots : 4096 ≤ s.sweep.slot) : s.sweepDone = s.rangesSwept.sweepEnd 2 0 := by
  rw [State.sweepDone, if_pos (by simp [hruns, hpause, hsteps, hslots])]
  rfl

section
variable (s : State)

/-- Range by range. -/
theorem State.rangesSwept_eq : s.rangesSwept = (((s.modReg 0x021 0x100C (fun v => setBit v 31 false)).modReg 0x021 0x101C
    (fun v => setBit v 31 false)).modReg 0x021 0x102C (fun v => setBit v 31 false)).modReg 0x021 0x103C (fun v => setBit v 31 false) := rfl

theorem State.rangesSwept_onlyIn : s.onlyIn s.rangesSwept [.regs] := by
  intro p hp
  cases p <;> simp [State.agrees, State.rangesSwept_eq] at hp ⊢

theorem State.rangesSwept_regsBut : s.regsBut s.rangesSwept sweepRangeWords := by
  have hword : ∀ {t : State} {o : Nat}, s.regsBut t sweepRangeWords → o < 0x10000 → (0x021, o) ∈ sweepRangeWords →
      s.regsBut (t.modReg 0x021 o (fun v => setBit v 31 false)) sweepRangeWords :=
    fun h ho hm => State.regsBut_setReg h _ (by decide) ho hm
  rw [State.rangesSwept_eq]
  exact hword (hword (hword (hword (State.regsBut_of_eq _ rfl) (by decide) (by decide)) (by decide) (by decide)) (by decide) (by decide))
    (by decide) (by decide)

theorem State.rangesSwept_word (k : BitVec 2) :
    s.rangesSwept.reg 0x021 (0x100C + 16 * k.toNat) = setBit (s.reg 0x021 (0x100C + 16 * k.toNat)) 31 false := by
  have hcases : ∀ k : BitVec 2, k = 0 ∨ k = 1 ∨ k = 2 ∨ k = 3 := by decide
  rcases hcases k with rfl | rfl | rfl | rfl <;> simp [State.rangesSwept_eq, State.reg_modReg]

theorem State.rangesSwept_sweepEnd_onlyIn : s.onlyIn (s.rangesSwept.sweepEnd 2 0) [.regs, .sweep, .irq] :=
  State.onlyIn_trans s.rangesSwept_onlyIn (s.rangesSwept.sweepEnd_onlyIn 2 0) (by decide) (by decide)

theorem State.rangesSwept_sweepEnd_regsBut : s.regsBut (s.rangesSwept.sweepEnd 2 0) ((0x021, 0x1208) :: sweepRangeWords) :=
  State.regsBut_trans s.rangesSwept_regsBut (s.rangesSwept.sweepEnd_regsBut 2 0) (by decide) (by decide)

theorem State.rangesSwept_sweepEnd_word (k : BitVec 2) :
    (s.rangesSwept.sweepEnd 2 0).reg 0x021 (0x100C + 16 * k.toNat) = setBit (s.reg 0x021 (0x100C + 16 * k.toNat)) 31 false := by
  have hk : k.toNat < 4 := k.isLt
  rw [← s.rangesSwept_word k]
  exact s.rangesSwept.sweepEnd_regsBut 2 0 .trade 0x021 _ (by decide) (by omega) (by simp; omega)

theorem State.rangesSwept_sweepEnd_irq :
    (s.rangesSwept.sweepEnd 2 0).irq = (s.raise (if s.sweep.world = .trade then 48 else 49)).irq := by
  have hsweep : s.rangesSwept.sweep = s.sweep := s.rangesSwept_onlyIn .sweep (by decide)
  rw [State.sweepEnd_irq, hsweep]
  exact State.raise_irq_of_sense (s.rangesSwept_regsBut.irqSense (by simp [sweepRangeWords]) (by split <;> decide))
    (s.rangesSwept_onlyIn .irq (by decide))

end

/-! One line (R87, R89). -/

/-- A tag that is set reads as set; every other doubleword's tag reads as before (R38). -/
theorem Mem.tagAt_setTag (m : Mem) (pa p : Nat) (b : Bool) : (m.setTag pa b).tagAt p = if p / 8 = pa / 8 then b else m.tagAt p := by
  have hkey : p / 8 * 8 = pa / 8 * 8 ↔ p / 8 = pa / 8 := by omega
  simp only [Mem.tagAt, Mem.setTag, Sparse.get_write, hkey]

/-- Memory with the tags of several doublewords cleared. -/
def Mem.untagAll (m : Mem) (l : List Nat) : Mem := l.foldl (fun m p => m.setTag p false) m

theorem Mem.untagAll_cons (m : Mem) (x : Nat) (l : List Nat) : m.untagAll (x :: l) = (m.setTag x false).untagAll l := rfl

/-- The tags of the listed doublewords are clear, every other one reads as before. -/
theorem Mem.tagAt_untagAll (m : Mem) (l : List Nat) (p : Nat) : (m.untagAll l).tagAt p = (m.tagAt p && !l.any (fun x => p / 8 == x / 8)) := by
  induction l generalizing m with
  | nil => simp [Mem.untagAll]
  | cons x l ih =>
    rw [Mem.untagAll_cons, ih, Mem.tagAt_setTag, List.any_cons]
    by_cases hx : p / 8 = x / 8
    · simp [hx]
    · simp [hx, beq_eq_false_iff_ne.mpr hx]

/-- Clearing tags leaves every byte. -/
theorem Mem.byte_untagAll (m : Mem) (l : List Nat) (p : Nat) : (m.untagAll l).byte p = m.byte p := by
  induction l generalizing m with
  | nil => rfl
  | cons x l ih => rw [Mem.untagAll_cons, ih]; rfl

/-- The doublewords of the line at pa that the engine clears (R87). -/
def State.lineGone (s : State) (a : SweepArea) (pa : Nat) : List Nat :=
  ((List.range 8).map (fun i => pa + 8 * i)).filter (fun p => s.mem.tagAt p && s.sweepClears a p)

/-- The engine's work on a line: tags cleared, COUNT raised by their number (R89). -/
theorem State.sweepLine_eq (s : State) (a : SweepArea) (pa : Nat) :
    s.sweepLine a pa = ({ s with mem := s.mem.untagAll (s.lineGone a pa) } : State).modReg 0x021 0x1214
      (· + BitVec.ofNat 32 (s.lineGone a pa).length) := by
  have hfold : ∀ (l : List Nat) (t : State), l.foldl (fun s p => { s with mem := s.mem.setTag p false }) t = { t with mem := t.mem.untagAll l } := by
    intro l
    induction l with
    | nil => exact fun _ => rfl
    | cons x l ih => exact fun t => ih _
  rw [State.sweepLine, hfold]
  rfl

/-- Whether the engine clears the tag of the doubleword of p when it works on the line at pa. -/
def State.goneAt (s : State) (a : SweepArea) (pa p : Nat) : Bool :=
  decide (pa ≤ p / 8 * 8) && decide (p / 8 * 8 < pa + 64) && s.mem.tagAt p && s.sweepClears a (p / 8 * 8)

theorem Mem.tagAt_aligned (m : Mem) (p : Nat) : m.tagAt (p / 8 * 8) = m.tagAt p := by
  rw [Mem.tagAt, Mem.tagAt, Nat.mul_div_cancel _ (by decide)]

/-- A doubleword is among those cleared where it lies in the line, has a tag and is to be cleared. -/
theorem State.lineGone_any {s : State} {a : SweepArea} {pa : Nat} (hline : pa % 64 = 0) (p : Nat) :
    (s.lineGone a pa).any (fun x => p / 8 == x / 8) = s.goneAt a pa p := by
  rw [Bool.eq_iff_iff]
  simp only [State.lineGone, State.goneAt, List.any_eq_true, List.mem_filter, List.mem_map, List.mem_range, beq_iff_eq, Bool.and_eq_true,
    decide_eq_true_eq]
  constructor
  · rintro ⟨x, ⟨⟨i, hi, rfl⟩, htag, hclears⟩, hp⟩
    have hword : p / 8 * 8 = pa + 8 * i := by omega
    rw [← s.mem.tagAt_aligned p, hword]
    exact ⟨⟨⟨by omega, by omega⟩, htag⟩, hclears⟩
  · rintro ⟨⟨⟨hlo, hhi⟩, htag⟩, hclears⟩
    refine ⟨p / 8 * 8, ⟨⟨(p / 8 * 8 - pa) / 8, by omega, by omega⟩, ?_, hclears⟩, by omega⟩
    rwa [s.mem.tagAt_aligned p]

/-- The engine clears as many tags as there are doublewords of the line to be cleared. -/
theorem State.lineGone_length {s : State} {a : SweepArea} {pa : Nat} (hline : pa % 64 = 0) :
    (s.lineGone a pa).length = ((List.range 8).filter (fun i => s.goneAt a pa (pa + 8 * i))).length := by
  rw [State.lineGone, List.filter_map, List.length_map]
  congr 1
  refine List.filter_congr fun i hi => ?_
  have hword : (pa + 8 * i) / 8 * 8 = pa + 8 * i := by omega
  have hi : i < 8 := List.mem_range.mp hi
  simp [State.goneAt, hword, show 8 * i < 64 by omega]

theorem State.sweepLine_onlyIn (s : State) (a : SweepArea) (pa : Nat) : s.onlyIn (s.sweepLine a pa) [.mem, .regs] := by
  intro p hp
  rw [State.sweepLine_eq]
  cases p <;> simp [State.agrees] at hp ⊢

/-- The engine's work on a line writes COUNT alone. -/
theorem State.sweepLine_regsBut (s : State) (a : SweepArea) (pa : Nat) : s.regsBut (s.sweepLine a pa) [(0x021, 0x1214)] := by
  rw [State.sweepLine_eq]
  exact State.regsBut_setReg (State.regsBut_of_eq _ rfl) _ (by decide) (by decide) (by decide)

theorem State.sweepLine_mem (s : State) (a : SweepArea) (pa : Nat) : (s.sweepLine a pa).mem = s.mem.untagAll (s.lineGone a pa) := by
  rw [State.sweepLine_eq]
  rfl

theorem State.sweepLine_count (s : State) (a : SweepArea) (pa : Nat) :
    (s.sweepLine a pa).reg 0x021 0x1214 = s.reg 0x021 0x1214 + BitVec.ofNat 32 (s.lineGone a pa).length := by
  rw [State.sweepLine_eq, State.reg_modReg_self]
  rfl

/-- Settles O11: the engine's events by the states they leave, its work on a line by the list of doublewords it clears. -/
theorem sweepAdvances : Obligations.SweepAdvances := by
  refine ⟨fun s => ⟨?step, ?pause, ?walk, ?banked, ?done⟩, ?line⟩
  case step =>
    intro a lo hruns hpause hstep hdone habort
    refine ⟨_, congrArg Host.Outcome.next (State.sweepStepEnd_of_done hruns hpause hstep hdone habort), ?_, ?_, rfl⟩
    · simp
    · rfl
  case pause =>
    exact fun e hpause hdue => congrArg Host.Outcome.next (State.sweepPauseOver_due hpause hdue)
  case walk =>
    exact fun hruns hslot hresident hrunning => congrArg Host.Outcome.next (State.fillTest_elsewhere hruns hslot hresident hrunning)
  case banked =>
    exact fun t b hruns hslot hbank => congrArg Host.Outcome.next (State.fillTest_banked hruns hslot hbank)
  case done =>
    intro hruns hpause hsteps hslots
    exact ⟨_, congrArg Host.Outcome.next (State.sweepDone_eq hruns hpause hsteps hslots), s.rangesSwept_sweepEnd_onlyIn,
      s.rangesSwept_sweepEnd_regsBut, s.rangesSwept.sweepEnd_state 2 0, s.rangesSwept_sweepEnd_word, s.rangesSwept_sweepEnd_irq⟩
  case line =>
    intro s a pa hline gone t
    refine ⟨fun p => ?_, fun p => ?_, ?_, s.sweepLine_onlyIn a pa, s.sweepLine_regsBut a pa⟩
    · rw [s.sweepLine_mem, Mem.tagAt_untagAll, State.lineGone_any hline]
      rfl
    · rw [s.sweepLine_mem, Mem.byte_untagAll]
    · rw [s.sweepLine_count, State.lineGone_length hline]
      rfl

end Sys2Proof.Machine

namespace Sys2Proof.Machine

/-! Contexts on their way to and from their slots (R90, R210 to R212, R220): the store, the victim, the banks, and the three events. -/

/-! The context store. -/

/-- Entries left out by key read as unlisted, the others as before. -/
theorem Sparse.get_filter_key {V : Type} (d : V) (f : Nat → Bool) (k : Nat) (m : List (Nat × V)) :
    Sparse.get d k (m.filter (fun p => f p.1)) = if f k = true then Sparse.get d k m else d := by
  induction m with
  | nil => simp [Sparse.get]
  | cons p r ih =>
    obtain ⟨a, w⟩ := p
    rw [List.filter_cons]
    by_cases hak : a = k
    · subst hak
      by_cases hf : f a = true
      · simp [hf, Sparse.get]
      · rw [if_neg hf, ih, if_neg hf, if_neg hf]
    · by_cases hf : f a = true
      · simp [hf, Sparse.get, hak, ih]
      · simp [hf, Sparse.get, hak, ih]

/-- A slot that was written reads as written, every other as before. -/
theorem CtxStore.slot_setSlot (x : CtxStore) (n m : CtxId) (c : Ctx) : (x.setSlot n c).slot m = if m = n then c else x.slot m := by
  by_cases hmn : m = n
  · subst hmn
    rw [if_pos rfl]
    exact (Sparse.get_write _ _ _ _ _).trans (if_pos rfl)
  · rw [if_neg hmn]
    exact Sparse.get_write_ne _ _ _ _ (fun h => hmn (BitVec.eq_of_toNat_eq h))

/-- A slot whose damage marks are removed holds no error (R566). -/
theorem CtxStore.slotBad_repaired (x : CtxStore) (n : CtxId) :
    ({ x with damaged := x.damaged.filter (fun p => p.1 / 48 != n.toNat) } : CtxStore).slotBad n = false := by
  rw [CtxStore.slotBad, List.any_eq_false]
  intro i hi
  have hi : i < 48 := List.mem_range.mp hi
  rw [Sparse.get_filter_key false (fun k => k / 48 != n.toNat), if_neg (by simp; omega)]
  decide

/-! Where a context is (R207). -/

theorem mem_allTiles (t : TileId) : t ∈ allTiles := by
  revert t
  decide

/-- A context that no bank holds by the directory is in no bank of any tile. -/
theorem State.bankOf_of_dir {s : State} {n : CtxId} (hresident : ∀ u b, s.dir n ≠ .resident u b) (hrunning : ∀ u b, s.dir n ≠ .running u b)
    (t : TileId) : (s.tile t).bankOf n = none := by
  cases hfind : allTiles.find? (fun t => ((s.tile t).bankOf n).isSome) with
  | none => simpa using List.find?_eq_none.mp hfind t (mem_allTiles t)
  | some u =>
    have hdir : s.dir n = if (s.tile u).run = some (((s.tile u).bankOf n).getD 0) ∨ (s.tile u).link.caller = some n
        then .running u (((s.tile u).bankOf n).getD 0) else .resident u (((s.tile u).bankOf n).getD 0) := by
      rw [State.dir, hfind]
    split at hdir
    · exact absurd hdir (hrunning _ _)
    · exact absurd hdir (hresident _ _)

section
variable {s : State} {t : TileId} {n : CtxId} (hdir : s.dir n = .stored ∨ s.dir n = .recorded t)
include hdir

theorem State.bring_of_slot : s.bring t n = .fill := by
  rcases hdir with h | h <;> simp only [State.bring, h]

theorem State.ctx_of_slot : s.ctx n = s.store.slot n := by
  rcases hdir with h | h <;> simp only [State.ctx, h]

theorem State.bankOf_of_slot (u : TileId) : (s.tile u).bankOf n = none := by
  refine State.bankOf_of_dir ?_ ?_ u <;> rcases hdir with h | h <;> simp [h]

end

/-! The victim bank (R210). -/

/-- Whether a bank may be given up: it neither runs nor belongs to a linked caller (R210, R276). -/
def Tile.mayGiveUp (x : Tile) (b : Nat) : Bool :=
  x.run != some b && (x.link.caller != some (vget x.banks b Bank.reset).num || (vget x.banks b Bank.reset).st == .empty)

/-- The least recently run bank of a state among those that may be given up. -/
def Tile.oldest (x : Tile) (st : BankSt) : Option Nat :=
  (List.range 7).foldl (fun a b =>
    if x.mayGiveUp b && (vget x.banks b Bank.reset).st == st then
      match a with
      | none => some b
      | some c => if (vget x.banks b Bank.reset).stamp < (vget x.banks c Bank.reset).stamp then some b else a
    else a) none

theorem Tile.victim_eq (x : Tile) : x.victim =
    match (List.range 7).find? (fun b => x.mayGiveUp b && (vget x.banks b Bank.reset).st == .empty) with
    | some b => some b
    | none =>
      match x.oldest .clean with
      | some b => some b
      | none => x.oldest .dirty := rfl

/-- A choice kept or replaced by an item of the list with a property has the property. -/
theorem foldl_choice {α : Type} (P : α → Prop) (f : Option α → α → Option α) (l : List α)
    (hf : ∀ a, ∀ b ∈ l, f a b = a ∨ f a b = some b ∧ P b) (a : Option α) (ha : ∀ c, a = some c → P c) (c : α) (hc : l.foldl f a = some c) : P c := by
  induction l generalizing a with
  | nil => exact ha c hc
  | cons b l ih =>
    refine ih (fun a d hd => hf a d (List.mem_cons_of_mem _ hd)) (f a b) ?_ hc
    rcases hf a b List.mem_cons_self with h | ⟨h, hP⟩
    · rwa [h]
    · intro d hd
      rw [h] at hd
      cases hd
      exact hP

/-- A bank of the tile that may be given up. -/
theorem Tile.oldest_mayGiveUp {x : Tile} {st : BankSt} {v : Nat} (h : x.oldest st = some v) : v < 7 ∧ x.mayGiveUp v = true := by
  refine foldl_choice (fun v => v < 7 ∧ x.mayGiveUp v = true) _ (List.range 7) ?_ none (by simp) v h
  intro a b hb
  by_cases hok : (x.mayGiveUp b && (vget x.banks b Bank.reset).st == st) = true
  · have hP : b < 7 ∧ x.mayGiveUp b = true := ⟨List.mem_range.mp hb, (Bool.and_eq_true _ _ ▸ hok).1⟩
    rw [if_pos hok]
    cases a with
    | none => exact .inr ⟨rfl, hP⟩
    | some c =>
      dsimp only
      split
      · exact .inr ⟨rfl, hP⟩
      · exact .inl rfl
  · exact .inl (if_neg hok)

theorem Tile.victim_mayGiveUp {x : Tile} {v : Nat} (h : x.victim = some v) : v < 7 ∧ x.mayGiveUp v = true := by
  rw [Tile.victim_eq] at h
  split at h
  · rename_i b hfind
    cases h
    exact ⟨List.mem_range.mp (List.mem_of_find?_eq_some hfind), (Bool.and_eq_true _ _ ▸ List.find?_some hfind).1⟩
  · split at h
    · rename_i b hclean
      cases h
      exact Tile.oldest_mayGiveUp hclean
    · exact Tile.oldest_mayGiveUp h

/-- The victim is never the running bank (R210). -/
theorem Tile.run_ne_victim {x : Tile} {v : Nat} (h : x.victim = some v) : x.run ≠ some v := by
  obtain ⟨-, hok⟩ := Tile.victim_mayGiveUp h
  simp [Tile.mayGiveUp] at hok
  exact hok.1

/-! A bank loaded and run (R209, R210). -/

/-- A tile's bank after one was changed. -/
theorem Tile.bank_modBank (x : Tile) {b : Nat} (hb : b < 7) (f : Bank → Bank) (i : Nat) :
    vget (x.modBank b f).banks i Bank.reset = if i = b then f (vget x.banks b Bank.reset) else vget x.banks i Bank.reset :=
  vget_vset x.banks b i _ _ hb

/-- Whether a bank holds context n and has not handed it over (R238). -/
def Bank.holds (k : Bank) (n : CtxId) : Bool := k.st != .empty && !k.handed && k.num == n

theorem Tile.bankOf_eq_some_iff (x : Tile) (n : CtxId) (v : Nat) :
    x.bankOf n = some v ↔ (vget x.banks v Bank.reset).holds n = true ∧ v ∈ List.range 7 ∧ ∀ i < v, (!(vget x.banks i Bank.reset).holds n) = true :=
  List.find?_range_eq_some

theorem Tile.bankOf_eq_none_iff (x : Tile) (n : CtxId) :
    x.bankOf n = none ↔ ∀ i ∈ List.range 7, ¬ (vget x.banks i Bank.reset).holds n = true :=
  List.find?_eq_none

/-- A context loaded into a bank of a tile that had it in none is found there. -/
theorem Tile.bankOf_load {x : Tile} {n : CtxId} {v : Nat} (hv : v < 7) (hnone : x.bankOf n = none) (c : Ctx) :
    (x.modBank v (fun _ => Bank.load n c .clean)).bankOf n = some v := by
  refine (Tile.bankOf_eq_some_iff _ n v).mpr ⟨?_, List.mem_range.mpr hv, fun i hi => ?_⟩
  · simp [x.bank_modBank hv, Bank.holds, Bank.load]
  · rw [x.bank_modBank hv, if_neg (Nat.ne_of_lt hi)]
    simpa using (x.bankOf_eq_none_iff n).mp hnone i (List.mem_range.mpr (by omega))

/-- A tile whose running bank, if any, has become DIRTY (R209). -/
def Tile.rested (x : Tile) (stamp : Nat) : Tile :=
  match x.run with
  | some o => x.modBank o (fun k => { k with st := .dirty, stamp := stamp })
  | none => x

/-- A bank that became the running one (R209). -/
def Bank.started (k : Bank) (stamp : Nat) : Bank := { k with st := .running, handed := false, stamp := stamp + 1 }

/-- A tile after bank b became its running bank (R209). -/
def Tile.started (x : Tile) (b stamp : Nat) : Tile := { (x.rested stamp).modBank b (·.started stamp) with run := some b }

theorem State.runBank_tile (s : State) (t : TileId) (b : Nat) : (s.runBank t b).tile t = (s.tile t).started b s.seq :=
  s.tile_setTile t _

theorem State.runBank_tilesBut (s : State) (t : TileId) (b : Nat) : s.tilesBut (s.runBank t b) t :=
  fun u hu => s.tile_setTile_ne t u _ hu

/-- A bank that did not run stays as it was when the running one is left. -/
theorem Tile.bank_rested {x : Tile} {b : Nat} (hother : ∀ o, x.run = some o → o ≠ b ∧ o < 7) (stamp : Nat) :
    vget (x.rested stamp).banks b Bank.reset = vget x.banks b Bank.reset := by
  unfold Tile.rested
  split
  · rename_i o hrun
    obtain ⟨hne, ho⟩ := hother o hrun
    rw [Tile.bank_modBank _ ho, if_neg hne.symm]
  · rfl

/-- The bank made running keeps its context (R209). -/
theorem Tile.bank_started {x : Tile} {b : Nat} (hb : b < 7) (hother : ∀ o, x.run = some o → o ≠ b ∧ o < 7) (stamp : Nat) :
    vget (x.started b stamp).banks b Bank.reset = (vget x.banks b Bank.reset).started stamp := by
  rw [← Tile.bank_rested hother stamp]
  exact (Tile.bank_modBank (x.rested stamp) hb (·.started stamp) b).trans (if_pos rfl)

/-- A tile that begins a context loaded into one of its banks: it runs there, with clear ports and no freeze (R212). -/
theorem Tile.begun_started {x : Tile} {b : Nat} {n : CtxId} {c : Ctx} (hb : b < 7) (hother : ∀ o, x.run = some o → o ≠ b ∧ o < 7)
    (hbank : vget x.banks b Bank.reset = Bank.load n c .clean) (stamp : Nat) :
    let y := (x.started b stamp).begun .run
    y.run = some b ∧ y.ctxNum = n ∧ y.ctx = c ∧ y.ports = Image.clear ∧ y.flow.freeze = .none := by
  have hrunBank : ((x.started b stamp).begun .run).runBank = (Bank.load n c .clean).started stamp :=
    hbank ▸ Tile.bank_started hb hother stamp
  exact ⟨rfl, congrArg Bank.num hrunBank, congrArg Bank.ctx hrunBank, rfl, rfl⟩

/-! The fill (R210 to R212, R220). -/

/-- The state in which a context's filtered copy stands in the victim bank, CLEAN (R90, R210). -/
def State.filled (s : State) (t : TileId) (n : CtxId) (v : Nat) : State :=
  s.setTile t ((s.tile t).modBank v (fun _ => Bank.load n (s.filterCtx (s.store.slot n)) .clean))

section
variable {s : State} {t : TileId} {n : CtxId} {v : Nat} (hdir : s.dir n = .stored ∨ s.dir n = .recorded t)
include hdir

/-- A fill from the slot into a victim that is not DIRTY spills nothing (R210). -/
theorem State.fillInto_of_slot (hvictim : (s.tile t).victim = some v) (hclean : (vget (s.tile t).banks v Bank.reset).st ≠ .dirty) :
    s.fillInto t n = some (s.filled t n v) := by
  simp only [State.fillInto, hvictim, hclean, false_and, if_false, State.ctx_of_slot hdir]
  rcases hdir with h | h <;> rw [h] <;> rfl

/-- The context filled in becomes the running one of its tile (R212). -/
theorem State.resume_filled (hv : v < 7) : (s.filled t n v).resume t n = (s.filled t n v).runBank t v := by
  rw [State.resume, State.filled, State.tile_setTile, Tile.bankOf_load hv (State.bankOf_of_slot hdir t)]

/-- A completed fill of a sound slot for a start runs the context (R211, R212). -/
theorem State.fillComplete_runs (hfreeze : (s.tile t).flow.freeze = .fill n .run) (hsound : s.store.slotBad n = false)
    (hvictim : (s.tile t).victim = some v) (hclean : (vget (s.tile t).banks v Bank.reset).st ≠ .dirty) :
    s.fillComplete t = ((s.filled t n v).runBank t v).modTile t (·.begun .run) := by
  obtain ⟨hv, -⟩ := Tile.victim_mayGiveUp hvictim
  simp only [State.fillComplete, hfreeze, State.bring_of_slot hdir, hsound, State.fillInto_of_slot hdir hvictim hclean,
    State.resume_filled hdir hv, Bool.false_and, Bool.false_eq_true, if_false]

/-- A completed fill of a slot that holds an error marks the slot (R220). -/
theorem State.fillComplete_damaged (hfreeze : (s.tile t).flow.freeze = .fill n .run) (hbad : s.store.slotBad n = true) :
    s.fillComplete t = s.fillDamaged t n := by
  have hslot : (s.dir n == .stored || s.dir n == .recorded t) = true := by simpa using hdir
  simp only [State.fillComplete, hfreeze, State.bring_of_slot hdir, hbad, hslot, Bool.and_self, if_true]

end

/-- The tile after its fill: the filtered context runs in the victim bank. -/
theorem State.filled_begun_tile {s : State} {t : TileId} {n : CtxId} {v : Nat} (hv : v < 7)
    (hother : ∀ o, (s.tile t).run = some o → o ≠ v ∧ o < 7) :
    let y := (((s.filled t n v).runBank t v).modTile t (·.begun .run)).tile t
    y.run = some v ∧ y.ctxNum = n ∧ y.ctx = s.filterCtx (s.store.slot n) ∧ y.ports = Image.clear ∧ y.flow.freeze = .none := by
  have hfilled : (s.filled t n v).tile t = (s.tile t).modBank v (fun _ => Bank.load n (s.filterCtx (s.store.slot n)) .clean) := s.tile_setTile t _
  have hbank : vget ((s.filled t n v).tile t).banks v Bank.reset = Bank.load n (s.filterCtx (s.store.slot n)) .clean := by
    rw [hfilled, Tile.bank_modBank _ hv, if_pos rfl]
  have hother : ∀ o, ((s.filled t n v).tile t).run = some o → o ≠ v ∧ o < 7 := by rwa [hfilled]
  rw [State.tile_modTile, State.runBank_tile]
  exact Tile.begun_started hv hother hbank _

/-- The fill touches its own tile alone. -/
theorem State.filled_begun_tilesBut (s : State) (t : TileId) (n : CtxId) (v : Nat) :
    s.tilesBut (((s.filled t n v).runBank t v).modTile t (·.begun .run)) t := by
  intro u hu
  rw [State.tile_modTile_ne _ _ _ _ hu, State.runBank_tilesBut _ _ _ u hu]
  exact s.tile_setTile_ne t u _ hu

/-! A slot that holds an error (R220). -/

/-- The slot marked, its damage marks removed, and the upset reported (R220). -/
def State.slotMarked (s : State) (n : CtxId) : State :=
  (s.modStore (fun x => { x.setSlot n (x.slot n).damage with damaged := x.damaged.filter (fun p => p.1 / 48 != n.toNat) })).report
    { cls := 6, num := b2n (2048 ≤ n.toNat), kind := none, pa := 0, hard := true }

section
variable (s : State) (t : TileId) (n : CtxId)

theorem State.fillDamaged_store : (s.fillDamaged t n).store =
    { s.store.setSlot n (s.store.slot n).damage with damaged := s.store.damaged.filter (fun p => p.1 / 48 != n.toNat) } := rfl

theorem State.fillDamaged_upsets : (s.fillDamaged t n).upsets =
    s.upsets ++ [.upset { cls := 6, num := b2n (2048 ≤ n.toNat), kind := none, pa := 0, hard := true }] := rfl

/-- A tile that goes on without the context it waited for; its record of it ends (R220). -/
def Tile.fillLost (x : Tile) (n : CtxId) : Tile :=
  (x.modFlow (fun f => { f with freeze := .none })).modSys (fun y => { y with recorded := if y.recorded = some n then none else y.recorded })

/-- Where no bundle waits the tile goes on without the context. -/
theorem State.fillDamaged_tile (hidle : (s.tile t).flow.issuing = false) : (s.fillDamaged t n).tile t = (s.tile t).fillLost n := by
  have hmarked : (s.slotMarked n).tile t = s.tile t := State.tile_congr rfl
  refine (State.tile_modTile (s.slotMarked n) t _).trans ?_
  rw [hmarked]
  exact if_neg (by simp [hidle])

end

/-! The spill (R210). -/

section
variable {s : State} {t : TileId} {c : Spill} {r : List Spill} (hspill : (s.tile t).spill = c :: r)
include hspill

theorem State.spillComplete_store : (s.spillComplete t).store =
    { s.store.setSlot c.num c.ctx with damaged := s.store.damaged.filter (fun p => p.1 / 48 != c.num.toNat) } := by
  rw [State.spillComplete, hspill]
  rfl

theorem State.spillComplete_tile (u : TileId) : (s.spillComplete t).tile u =
    (if u = t then { s.tile t with spill := r } else s.tile u).modFlow Flow.spillDone := by
  rw [State.spillComplete, hspill]
  simp only [State.tile_mapTiles]
  split
  · subst u
    rw [State.tile_modTile, State.modStore_tile]
  · rw [State.tile_modTile_ne _ _ _ _ ‹_›, State.modStore_tile]

end

/-- A tile that waits for a spill goes on (R210). -/
theorem Flow.freeze_spillDone {f : Flow} (h : f.freeze = .spill) : f.spillDone.freeze = .none := by
  simp [Flow.spillDone, h]

/-- Settles O22: each event by the state it leaves, its slots by `slot_setSlot` and its banks by `bank_modBank`. -/
theorem contextsMove : Obligations.ContextsMove := by
  intro s t n x
  refine ⟨?fill, ?damaged, ?spill⟩
  case fill =>
    intro v hfreeze hdir hsound hvictim hclean hrun
    obtain ⟨hv, -⟩ := Tile.victim_mayGiveUp hvictim
    have hother : ∀ o, (s.tile t).run = some o → o ≠ v ∧ o < 7 :=
      fun o ho => ⟨fun h => Tile.run_ne_victim hvictim (h ▸ ho), hrun o ho⟩
    obtain ⟨hyrun, hynum, hyctx, hyports, hyfreeze⟩ := State.filled_begun_tile (n := n) hv hother
    exact ⟨_, congrArg Host.Outcome.next (State.fillComplete_runs hdir hfreeze hsound hvictim hclean), hyrun, hynum, hyctx, hyports, hyfreeze,
      s.filled_begun_tilesBut t n v, rfl⟩
  case damaged =>
    intro hfreeze hdir hbad hidle
    have htile := s.fillDamaged_tile t n hidle
    refine ⟨_, congrArg Host.Outcome.next (State.fillComplete_damaged hdir hfreeze hbad), ?_, ?_, ?_, ?_, ?_, s.fillDamaged_upsets t n⟩
    · rw [s.fillDamaged_store]
      exact (s.store.slot_setSlot n n _).trans (if_pos rfl)
    · rw [s.fillDamaged_store]
      exact (s.store.setSlot n (s.store.slot n).damage).slotBad_repaired n
    · rw [htile]
      rfl
    · rw [htile]
      rfl
    · rw [htile]
      rfl
  case spill =>
    intro c r hspill
    refine ⟨s.spillComplete t, rfl, ?_, fun m hm => ?_, ?_, (s.spillComplete_frame t).2, fun u hu => ?_, fun u => ?_⟩
    · rw [State.spillComplete_store hspill]
      exact (s.store.slot_setSlot c.num c.num _).trans (if_pos rfl)
    · rw [State.spillComplete_store hspill]
      exact (s.store.slot_setSlot c.num m _).trans (if_neg hm)
    · rw [State.spillComplete_tile hspill, if_pos rfl]
      rfl
    · rw [State.spillComplete_tile hspill]
      split
      · subst u
        exact Flow.freeze_spillDone hu
      · exact Flow.freeze_spillDone hu
    · rw [State.spillComplete_tile hspill]
      split
      · subst u
        rfl
      · rfl

end Sys2Proof.Machine

namespace Sys2Proof.Machine

/-! The DVFS points (R150, R151): one phase of a change, its start towards the target, and the writes that start it. -/

/-- The phase of a change that goes from a point to another (R150): upwards the voltage ramps first, downwards the clock switches first. -/
def Dvfs.toward (active target : Nat) : Dvfs :=
  if target = active then .steady else if active < target then .rampUp (BitVec.ofNat 2 target) else .switching (BitVec.ofNat 2 target)

/-- From s to r, TDVFS of tile t takes ACTIVE and BUSY, the change of point its phase, and nothing else moves. -/
def State.DvfsPhased (s r : State) (t : TileId) (active : Nat) (busy : Bool) (d : Dvfs) : Prop :=
  s.onlyIn r [.regs, .tiles] ∧ s.regsBut r [(tileSlot t, 0x1000)] ∧ s.tilesBut r t ∧ r.dvfsActive t = active
    ∧ bit (r.reg (tileSlot t) 0x1000) 7 = busy ∧ (r.tile t).sys.dvfs = d

theorem tileSlot_lt (t : TileId) : tileSlot t < 0x1000 := by
  have ht := t.isLt
  rw [tileSlot]
  omega

theorem tileSlot_logic : ∀ t : TileId, behindCauseway (tileSlot t) = false := by decide

section
variable {s r u : State} {t : TileId} {a : Nat} {busy : Bool} {d : Dvfs}

/-- Two phases in turn leave what the second leaves. -/
theorem State.DvfsPhased.trans {a' : Nat} {busy' : Bool} {d' : Dvfs} (h : s.DvfsPhased u t a' busy' d') (h' : u.DvfsPhased r t a busy d) :
    s.DvfsPhased r t a busy d := by
  obtain ⟨honly, hregs, htiles, -⟩ := h
  obtain ⟨honly', hregs', htiles', hends⟩ := h'
  exact ⟨State.onlyIn_trans honly honly' (by simp) (by simp), State.regsBut_trans hregs hregs' (by simp) (by simp),
    fun x hx => (htiles' x hx).trans (htiles x hx), hends⟩

/-- POINT and FLOOR are no part of what a phase sets. -/
theorem State.dvfsPhase_point : fld ((s.dvfsPhase t a busy d).reg (tileSlot t) 0x1000) 1 0 = fld (s.reg (tileSlot t) 0x1000) 1 0 := by
  rw [State.dvfsPhase, State.modTile_reg, State.reg_modReg_self, fld_setBit_ne _ _ _ _ _ (by decide) (by decide),
    fld_setFld_ne _ _ _ _ _ _ (by decide) (by decide) (by decide)]

theorem State.dvfsPhase_floor : (s.dvfsPhase t a busy d).reg (tileSlot t) 0x1004 = s.reg (tileSlot t) 0x1004 := by
  rw [State.dvfsPhase, State.modTile_reg, State.reg_modReg _ _ (tileSlot_lt t) (tileSlot_lt t) (by decide) (by decide), if_neg (by simp)]

/-- A phase leaves the target where it is. -/
theorem State.dvfsPhase_target : (s.dvfsPhase t a busy d).dvfsTarget t = s.dvfsTarget t := by
  rw [State.dvfsTarget, State.dvfsPhase_point, State.dvfsPhase_floor, State.dvfsTarget]

/-- What one phase of a change sets and leaves. -/
theorem State.dvfsPhase_phased (ha : a < 4) : s.DvfsPhased (s.dvfsPhase t a busy d) t a busy d := by
  refine ⟨?only, ?regs, fun x hx => ?tiles, ?active, ?busy, ?phase⟩
  case only =>
    intro p hp
    cases p <;> simp [State.agrees, State.dvfsPhase] at hp ⊢
  case regs =>
    exact State.regsBut_congr (State.regsBut_setReg (State.regsBut_of_eq _ rfl) _ (tileSlot_lt t) (by decide) (by simp)) (State.modTile_regs ..)
  case tiles =>
    exact (State.tile_modTile_ne _ _ _ _ hx).trans (State.modReg_tile ..)
  case active =>
    rw [State.dvfsActive, State.dvfsPhase, State.modTile_reg, State.reg_modReg_self, fld_setBit_ne _ _ _ _ _ (by decide) (by decide),
      fld_setFld_self _ _ _ _ (by decide) (by decide)]
    exact Nat.mod_eq_of_lt ha
  case busy =>
    rw [State.dvfsPhase, State.modTile_reg, State.reg_modReg_self, bit_setBit_self _ _ _ (by decide)]
  case phase =>
    rw [State.dvfsPhase, State.tile_modTile]
    rfl

theorem State.dvfsActive_lt (s : State) (t : TileId) : s.dvfsActive t < 4 := fld_lt _ 3 2

/-- A change towards the target is one phase: BUSY while the target is not the point that runs. -/
theorem State.dvfsStart_eq (s : State) (t : TileId) : s.dvfsStart t =
    s.dvfsPhase t (s.dvfsActive t) (s.dvfsTarget t != s.dvfsActive t) (Dvfs.toward (s.dvfsActive t) (s.dvfsTarget t)) := by
  unfold State.dvfsStart Dvfs.toward
  by_cases hg : s.dvfsTarget t = s.dvfsActive t
  · simp [hg]
  · have hbusy : (s.dvfsTarget t != s.dvfsActive t) = true := by simpa using hg
    by_cases hup : s.dvfsActive t < s.dvfsTarget t <;> simp [hg, hup, hbusy]

theorem State.dvfsStart_phased (s : State) (t : TileId) : s.DvfsPhased (s.dvfsStart t) t (s.dvfsActive t) (s.dvfsTarget t != s.dvfsActive t)
    (Dvfs.toward (s.dvfsActive t) (s.dvfsTarget t)) := by
  rw [State.dvfsStart_eq]
  exact State.dvfsPhase_phased (s.dvfsActive_lt t)

/-- Where the target runs already, the change ends. -/
theorem State.dvfsStart_ends (h : s.dvfsTarget t = s.dvfsActive t) : s.DvfsPhased (s.dvfsStart t) t (s.dvfsActive t) false .steady := by
  simpa [h, Dvfs.toward] using s.dvfsStart_phased t

/-- A write in a settled tile starts the change (R150). -/
theorem State.dvfsWritten_of_steady (h : (s.tile t).sys.dvfs = .steady) : s.dvfsWritten t = s.dvfsStart t := by
  simp [State.dvfsWritten, h]

/-! The ends of the clock switch and of the ramps (R150). -/

/-- At the end of a clock switch the point runs; after a lower point the voltage ramps down, else the change ends. -/
theorem State.dvfsSwitchEnd_phased {p : BitVec 2} (hphase : (s.tile t).sys.dvfs = .switching p) (htarget : s.dvfsTarget t = p.toNat) :
    s.DvfsPhased (s.dvfsSwitchEnd t) t p.toNat (decide (p.toNat < s.dvfsActive t)) (if p.toNat < s.dvfsActive t then .rampDown else .steady) := by
  simp only [State.dvfsSwitchEnd, hphase]
  by_cases hdown : p.toNat < s.dvfsActive t
  · simp only [hdown, if_true, decide_true]
    exact State.dvfsPhase_phased p.isLt
  · simp only [hdown, if_false, decide_false]
    have hruns : s.DvfsPhased (s.dvfsPhase t p.toNat true .steady) t p.toNat true .steady := State.dvfsPhase_phased p.isLt
    obtain ⟨-, -, -, hactive, -⟩ := id hruns
    have hends : (s.dvfsPhase t p.toNat true .steady).dvfsTarget t = (s.dvfsPhase t p.toNat true .steady).dvfsActive t := by
      rw [State.dvfsPhase_target, hactive, htarget]
    have hstart := State.dvfsStart_ends hends
    rw [hactive] at hstart
    exact hruns.trans hstart

/-- At the end of a ramp upwards the clock switches to the target. -/
theorem State.dvfsRampEnd_up {p : BitVec 2} (hphase : (s.tile t).sys.dvfs = .rampUp p) (htarget : s.dvfsTarget t = p.toNat)
    (hup : s.dvfsActive t < p.toNat) : s.dvfsRampEnd t = s.dvfsPhase t (s.dvfsActive t) true (.switching p) := by
  simp [State.dvfsRampEnd, hphase, htarget, hup]

/-- At the end of a ramp downwards the target is looked at afresh. -/
theorem State.dvfsRampEnd_down (hphase : (s.tile t).sys.dvfs = .rampDown) : s.dvfsRampEnd t = s.dvfsStart t := by
  simp [State.dvfsRampEnd, hphase]

end

/-! The writes of POINT and FLOOR (R150, R151). -/

/-- A write of a register of a tile's slot that starts the change: what it wrote, and the phase after it. -/
theorem State.dvfsStart_after {s u : State} {t : TileId} {off : Nat} {v : Word} {l : List (Nat × Nat)} (hset : u = s.setReg (tileSlot t) off v)
    (hoff : off < 0x10000) (hwritten : (tileSlot t, off) ∈ l) (hpoint : (tileSlot t, 0x1000) ∈ l) :
    let r := (u.dvfsStart t).done
    r.resp = some (.ok 0) ∧ s.onlyIn r [.regs, .tiles, .resp] ∧ s.regsBut r l ∧ s.tilesBut r t ∧ r.dvfsActive t = u.dvfsActive t
      ∧ bit (r.reg (tileSlot t) 0x1000) 7 = (u.dvfsTarget t != u.dvfsActive t)
      ∧ (r.tile t).sys.dvfs = Dvfs.toward (u.dvfsActive t) (u.dvfsTarget t) := by
  obtain ⟨honly, hregs, htiles, hends⟩ := u.dvfsStart_phased t
  subst hset
  have hu : s.onlyIn (s.setReg (tileSlot t) off v) [.regs] := by
    intro p hp
    cases p <;> simp [State.agrees] at hp ⊢
  have hur : s.regsBut (s.setReg (tileSlot t) off v) l := State.regsBut_setReg (State.regsBut_of_eq _ rfl) _ (tileSlot_lt t) hoff hwritten
  exact ⟨rfl, State.onlyIn_done (State.onlyIn_trans hu honly (n := [.regs, .tiles]) (by simp) (by simp)) (by simp) (by simp),
    State.regsBut_done (State.regsBut_trans hur hregs (by simp) (by simpa using hpoint)),
    fun x hx => (htiles x hx).trans (State.setReg_tile ..), hends⟩

/-- The phases of a change that a start goes through leave POINT and FLOOR. -/
theorem State.dvfsStart_point (s : State) (t : TileId) :
    fld ((s.dvfsStart t).reg (tileSlot t) 0x1000) 1 0 = fld (s.reg (tileSlot t) 0x1000) 1 0 := by
  rw [State.dvfsStart_eq, State.dvfsPhase_point]

theorem State.dvfsStart_floor (s : State) (t : TileId) : (s.dvfsStart t).reg (tileSlot t) 0x1004 = s.reg (tileSlot t) 0x1004 := by
  rw [State.dvfsStart_eq, State.dvfsPhase_floor]

/-- TDVFS with POINT written. -/
def State.pointSet (s : State) (t : TileId) (v : Word) : State :=
  s.setReg (tileSlot t) 0x1000 (setFld (s.reg (tileSlot t) 0x1000) 1 0 (fld v 1 0))

/-- TFLOOR with FLOOR written. -/
def State.floorSet (s : State) (t : TileId) (v : Word) : State := s.setReg (tileSlot t) 0x1004 (v &&& 3)

section
variable (s : State) (t : TileId) (v : Word)

theorem State.pointSet_point : fld ((s.pointSet t v).reg (tileSlot t) 0x1000) 1 0 = fld v 1 0 := by
  rw [State.pointSet, State.reg_setReg_self, fld_setFld_self _ _ _ _ (by decide) (by decide)]
  exact Nat.mod_eq_of_lt (fld_lt v 1 0)

theorem State.pointSet_active : (s.pointSet t v).dvfsActive t = s.dvfsActive t := by
  rw [State.dvfsActive, State.pointSet, State.reg_setReg_self, fld_setFld_ne _ _ _ _ _ _ (by decide) (by decide) (by decide), State.dvfsActive]

theorem State.pointSet_target : (s.pointSet t v).dvfsTarget t = max (fld v 1 0) (fld (s.reg (tileSlot t) 0x1004) 1 0) := by
  have hfloor : (s.pointSet t v).reg (tileSlot t) 0x1004 = s.reg (tileSlot t) 0x1004 := by
    rw [State.pointSet, State.reg_setReg _ _ (tileSlot_lt t) (tileSlot_lt t) (by decide) (by decide), if_neg (by simp)]
  rw [State.dvfsTarget, State.pointSet_point, hfloor]

theorem State.floorSet_floor : (s.floorSet t v).reg (tileSlot t) 0x1004 = v &&& 3 := s.reg_setReg_self ..

theorem State.floorSet_point : (s.floorSet t v).reg (tileSlot t) 0x1000 = s.reg (tileSlot t) 0x1000 := by
  rw [State.floorSet, State.reg_setReg _ _ (tileSlot_lt t) (tileSlot_lt t) (by decide) (by decide), if_neg (by simp)]

theorem State.floorSet_active : (s.floorSet t v).dvfsActive t = s.dvfsActive t := by
  rw [State.dvfsActive, State.floorSet_point, State.dvfsActive]

theorem fld_and_three : fld (v &&& 3) 1 0 = fld v 1 0 := by
  have hmask : (v &&& 3).toNat = v.toNat % 4 := (BitVec.toNat_and v 3).trans (Nat.and_two_pow_sub_one_eq_mod v.toNat 2)
  rw [fld, fld, hmask]
  exact Nat.mod_mod v.toNat 4

theorem State.floorSet_target : (s.floorSet t v).dvfsTarget t = max (fld (s.reg (tileSlot t) 0x1000) 1 0) (fld v 1 0) := by
  rw [State.dvfsTarget, State.floorSet_point, State.floorSet_floor, fld_and_three]

end

section
variable {s : State} {q : Req} {t : TileId} {v : Word} (hsteady : (s.tile t).sys.dvfs = .steady)
include hsteady

/-- TDVFS_WRITE in a settled tile (R150). -/
theorem exec_tdvfsWrite (hadmits : s.admits q (tileSlot t) 0x1000) :
    exec (.tdvfsWrite q t v) s = .next ((s.pointSet t v).dvfsStart t).done := by
  refine State.regWrite_next hadmits (tileSlot_logic t) (by decide) ?_
  have hstill : ((s.pointSet t v).tile t).sys.dvfs = .steady := by rwa [State.pointSet, State.setReg_tile]
  rw [s.slotWrite_tile q t 0x1000 v (by decide), if_pos rfl, ← State.dvfsWritten_of_steady hstill]
  rfl

/-- TFLOOR_WRITE by a Trade supervisor in a settled tile (R151). -/
theorem exec_tfloorWrite (hadmits : s.admits q (tileSlot t) 0x1004) (hworld : q.world = .trade) (hsup : q.sup = true) :
    exec (.tfloorWrite q t v) s = .next ((s.floorSet t v).dvfsStart t).done := by
  refine State.regWrite_next hadmits (tileSlot_logic t) (by decide) ?_
  have hstill : ((s.floorSet t v).tile t).sys.dvfs = .steady := by rwa [State.floorSet, State.setReg_tile]
  rw [s.slotWrite_tile q t 0x1004 v (by decide), if_neg (by decide), if_pos rfl, ← State.dvfsWritten_of_steady hstill]
  simp [State.tfloorWrite, hworld, hsup, State.floorSet]

end

/-- Settles O12: every event of a change is one phase, or one phase and the end of the change. -/
theorem pointChanged : Obligations.PointChanged := by
  intro s q t v slot a toward
  refine ⟨?point, ?floor, ?switchEnd, ?rampUpEnd, ?rampDownEnd⟩
  case point =>
    intro hadmits hsteady g
    obtain ⟨hresp, honly, hregs, htiles, hends⟩ := State.dvfsStart_after (s := s) (u := s.pointSet t v) (l := [(slot, 0x1000)]) rfl
      (by decide) (by simp [slot]) (by simp [slot])
    rw [State.pointSet_active, State.pointSet_target] at hends
    exact ⟨_, exec_tdvfsWrite hsteady hadmits, hresp, honly, hregs, htiles,
      ((s.pointSet t v).dvfsStart_point t).trans (s.pointSet_point t v), hends⟩
  case floor =>
    intro hadmits hworld hsup hsteady g
    obtain ⟨hresp, honly, hregs, htiles, hends⟩ := State.dvfsStart_after (s := s) (u := s.floorSet t v)
      (l := [(slot, 0x1000), (slot, 0x1004)]) rfl (by decide) (by simp [slot]) (by simp [slot])
    rw [State.floorSet_active, State.floorSet_target] at hends
    exact ⟨_, exec_tfloorWrite hsteady hadmits hworld hsup, hresp, honly, hregs, htiles,
      ((s.floorSet t v).dvfsStart_floor t).trans (s.floorSet_floor t v), hends⟩
  case switchEnd =>
    exact fun p hphase htarget => ⟨_, rfl, State.dvfsSwitchEnd_phased hphase htarget⟩
  case rampUpEnd =>
    exact fun p hphase htarget hup =>
      ⟨_, congrArg Host.Outcome.next (State.dvfsRampEnd_up hphase htarget hup), State.dvfsPhase_phased (s.dvfsActive_lt t)⟩
  case rampDownEnd =>
    exact fun hphase htarget => ⟨_, congrArg Host.Outcome.next (State.dvfsRampEnd_down hphase), State.dvfsStart_ends htarget⟩

end Sys2Proof.Machine

namespace Sys2Proof.Machine

/-! The issue of a bundle (R119, R157, R169): what a tile's changes leave of its running context, and the bundle whose one move
takes an immediate into a word register. -/

/-! The running context. -/

theorem Tile.run_modCtx (x : Tile) (f : Ctx → Ctx) : (x.modCtx f).run = x.run := by
  unfold Tile.modCtx
  split <;> rfl

/-- The running context is read from the banks and the number of the running one. -/
theorem Tile.ctx_congr {x y : Tile} (hrun : y.run = x.run) (hbanks : y.banks = x.banks) : y.ctx = x.ctx := by
  rw [Tile.ctx, Tile.ctx, Tile.runBank, Tile.runBank, hrun, hbanks]

theorem Tile.ctx_modCfg (x : Tile) (w : World) (f : WorldCfg → WorldCfg) : (x.modCfg w f).ctx = x.ctx := rfl

theorem Tile.ctx_age (x : Tile) (new : List Infl) : (x.age new).ctx = x.ctx := rfl

/-- The running context after a change of it. -/
theorem Tile.ctx_modCtx {x : Tile} {b : Nat} (hrun : x.run = some b) (hb : b < 7) (f : Ctx → Ctx) : (x.modCtx f).ctx = f x.ctx := by
  have hbank := Tile.bank_modBank x hb (fun k => { k with ctx := f k.ctx }) b
  rw [if_pos rfl] at hbank
  rw [Tile.ctx, Tile.runBank, Tile.run_modCtx, Tile.ctx, Tile.runBank, hrun]
  simp only [Tile.modCtx, hrun, Option.getD_some]
  rw [hbank]

/-- A tile one bundle on keeps its context but for the predicates (R131). -/
theorem Tile.ctx_tick {x : Tile} {b : Nat} (hrun : x.run = some b) (hb : b < 7) :
    x.tick.ctx = { x.ctx with pred := x.ports.cmpPreds x.ctx.pred } := by
  rw [← Tile.ctx_modCtx hrun hb (fun c => { c with pred := x.ports.cmpPreds x.ctx.pred })]
  simp only [Tile.tick, Tile.ctx, Tile.runBank]

theorem Tile.run_tick (x : Tile) : x.tick.run = x.run := by
  simp only [Tile.tick, Tile.run_modCtx]

theorem Tile.flow_tick (x : Tile) : x.tick.flow = x.flow := by
  simp only [Tile.tick, Tile.modCtx]
  split <;> rfl

/-- An instruction-cache hit touches neither the banks nor the number of the running one. -/
theorem Tile.ctx_touchInstr (x : Tile) (w : World) (pa : Nat) : (x.touchInstr w pa).ctx = x.ctx := by
  unfold Tile.touchInstr
  split <;> rfl

theorem Tile.ctx_touchInstrs (x : Tile) (w : World) (raw : List (Word × Nat)) :
    (raw.foldl (fun y p => y.touchInstr w p.2) x).ctx = x.ctx := by
  induction raw generalizing x with
  | nil => rfl
  | cons p raw ih => exact (ih _).trans (x.ctx_touchInstr w p.2)

/-- A word register after one was written; W0 stays zero (R119). -/
theorem Ctx.getW_setW (c : Ctx) {n : Nat} (hn : n < 32) (v : Word) (k : Nat) :
    (c.setW n v).getW k = if k = n then (if n = 0 then 0 else v) else c.getW k := by
  unfold Ctx.setW Ctx.getW
  by_cases h0 : n = 0
  · subst h0
    by_cases hk : k = 0 <;> simp [hk]
  · by_cases hk : k = 0
    · simp [hk, Ne.symm h0]
    · simp [h0, hk, vget_vset _ _ _ _ _ hn]

theorem Ctx.setW_frame (c : Ctx) (n : Nat) (v : Word) : (c.setW n v).lstat = c.lstat ∧ (c.setW n v).status = c.status
    ∧ ∀ k, (c.setW n v).getC k = c.getC k := by
  unfold Ctx.setW
  split <;> exact ⟨rfl, rfl, fun _ => rfl⟩

/-- A context that goes on with the bundle at an address, its repeat count spent (R122, R193). -/
def Ctx.goOn (c : Ctx) (pcc : Cap) (a : Word) : Ctx := { c with lstat := setFld c.lstat 31 16 0, pcc := pcc.jumpTo a }

/-- No transfer and no repeat is pending in a context with BSH and LSTAT zero (R122, R193). -/
theorem Ctx.dleft_of_bsh {c : Ctx} (h : c.bsh = 0) : c.dleft = 0 := by
  rw [Ctx.dleft, h]
  decide

theorem Ctx.repc_of_lstat {c : Ctx} (h : c.lstat = 0) : c.repc = 0 := by
  rw [Ctx.repc, h]
  decide

/-- A context that took a word register and goes on with another bundle keeps its other registers and its status (R119). -/
theorem Ctx.goOn_setW (c : Ctx) {n : Nat} (hn : n < 32) (v : Word) (pcc : Cap) (a : Word) :
    let d := (c.setW n v).goOn pcc a
    d.getW n = (if n = 0 then 0 else v) ∧ d.pcc = pcc.jumpTo a ∧ (∀ k, k ≠ n → d.getW k = c.getW k) ∧ (∀ k, d.getC k = c.getC k)
      ∧ d.status = c.status := by
  obtain ⟨-, hstatus, hcaps⟩ := c.setW_frame n v
  exact ⟨(c.getW_setW hn v n).trans (if_pos rfl), rfl, fun k hk => (c.getW_setW hn v k).trans (if_neg hk), hcaps, hstatus⟩

theorem Cap.addr_ofWord (w : Word) : (Cap.ofWord w).addr = w := by
  simp [Cap.ofWord, Cap.addr]

/-! A tile that changes more than once. -/

theorem State.setTile_setTile (s : State) (t : TileId) (x y : Tile) : (s.setTile t x).setTile t y = s.setTile t y := by
  simp [State.setTile, vset]

theorem State.modTile_setTile (s : State) (t : TileId) (x : Tile) (f : Tile → Tile) : (s.setTile t x).modTile t f = s.setTile t (f x) := by
  rw [State.modTile, State.tile_setTile, State.setTile_setTile]

/-- A device that runs again keeps its tiles, registers and memory (R492). -/
theorem State.idleOver_keeps (s : State) : s.idleOver.tiles = s.tiles ∧ s.idleOver.regs = s.regs ∧ s.idleOver.mem = s.mem := by
  unfold State.idleOver
  split <;> exact ⟨rfl, rfl, rfl⟩

/-! The loop levels and the next bundle. -/

/-- Where no level is active and none is written, the end of a bundle leaves the levels (R184). -/
theorem loopEnd_idle {c : Ctx} (hlstat : c.lstat = 0) (pc : Word) (last : Bool) : loopEnd c pc [] last = (c, none) := by
  have hact : ∀ n, c.act n = false := fun n => by simp [Ctx.act, hlstat, bit]
  cases last <;> simp [loopEnd, loopEnd0, loopEnd0.go, armings, hact]

/-- Without a delay, a repeat or a transfer the next bundle is the one that follows (R122). -/
theorem Bun.nextPc_sequential {b : Bun} (hdelay : b.c.dleft = 0) (hrep : b.c.repc = 0) (c : Ctx) :
    b.nextPc c .none none none = (c.goOn b.c.pcc (b.pc + BitVec.ofNat 32 (4 * b.len)), false) := by
  simp [Bun.nextPc, hdelay, hrep, Ctx.goOn]

/-! One immediate move into a word register. -/

/-- The move at an address, under a guard, of an immediate into word register n. -/
def wordMove (a : Word) (g n : Nat) (v : Word) : Move := ⟨a, g, .w n, .imm v⟩

/-- The move delivers its immediate (R55). -/
theorem State.moveVal0_wordMove (s : State) (t : TileId) (x : Tile) (pc a : Word) (g n : Nat) (v : Word) :
    (s.moveVal0 t x pc (wordMove a g n v)).addr = v := by
  simp [State.moveVal0, State.moveVal, State.source, wordMove, Dst.holdsCap, Cap.addr_ofWord]

/-- Where nothing is to be reported first and steps 4 and 5 find nothing, a bundle comes to what step 6 finds (Table 5-8). -/
theorem State.judgeBundle_of_good {s : State} {b : Bun} (hreport : reportNow s b = false) (hstep4 : s.step4All b.t b.x b.pc b.moves = none)
    (hconflict : conflict b.moves (fld (Image.word b.view.ports slotCmpPD) 2 0) = false)
    (harm : ∀ n < 4, vget b.x.flow.armWin n 0 = 0) (hdelay : b.c.dleft = 0) :
    s.judgeBundle b = settle s b (s.judgeAll b 0 b.moves).1 (s.judgeAll b 0 b.moves).2 := by
  have hwindow : (List.range 4).any (fun n => decide (0 < vget b.x.flow.armWin n 0) && (vget b.c.ls n 0 == b.pc || vget b.c.le n 0 == b.pc))
      = false := by
    simp only [List.any_eq_false, List.mem_range]
    intro n hn
    simp [harm n hn]
  rw [State.judgeBundle, hreport, hstep4, hconflict, hwindow, hdelay]
  rfl

/-- A bundle of one immediate move into a word register is judged good where no window of an arming is open and no transfer is pending. -/
theorem State.judgeBundle_wordMove {s : State} {t : TileId} {x : Tile} {len : Nat} {a : Word} {g n : Nat} {v : Word}
    (harm : x.flow.armWin = Vector.replicate 4 0) (hdelay : x.ctx.dleft = 0) :
    s.judgeBundle (s.bundle t x len [wordMove a g n v]) = .ok [MoveRes.none] := by
  have hstep4 : s.step4All t x x.ctx.pcc.addr [wordMove a g n v] = none := by
    simp [State.step4All, State.step4, wordMove, Dst.privileged, Src.privileged, Dst.isAtt, Src.isAtt, Dst.isFloat, Src.isFloat]
  have hconflict : ∀ pd, conflict [wordMove a g n v] pd = false := fun pd => by simp [conflict, conflict.pairs, wordMove]
  have hclosed : ∀ n < 4, vget x.flow.armWin n 0 = 0 := by
    rw [harm]
    decide
  exact (State.judgeBundle_of_good rfl hstep4 (hconflict _) hclosed hdelay).trans rfl

/-- The flow of a tile after a bundle that arms no level and skips nothing. -/
def Flow.completed (f : Flow) : Flow :=
  { f with freeze := .none, issuing := false, presp := [], held := none, checked := [], preciseDone := false, modeSh := none, noTake := false,
           impDue := false, armWin := armWindows f.armWin [], repSkip := false }

/-- A mode change that was pending when its bundle began, applied (R258). -/
def Tile.modeApplied (x : Tile) : Option ModeSh → Tile
  | some m => x.modCtx (·.applyMode m)
  | none => x

/-- A bundle counted in ISSUED of its tile, and the free counter moved on. -/
def State.bundleCounted (s : State) (t : TileId) : State := { s.modReg (tileSlot t) 0x100C (· + 1) with free := s.free + 1 }

theorem State.withFree_tiles (s : State) (n : Nat) : ({ s with free := n } : State).tiles = s.tiles := rfl
theorem State.withFree_regs (s : State) (n : Nat) : ({ s with free := n } : State).regs = s.regs := rfl
theorem State.withFree_mem (s : State) (n : Nat) : ({ s with free := n } : State).mem = s.mem := rfl

section
variable (s : State) (t : TileId)

/-- Counting a bundle touches no tile and no memory. -/
theorem State.bundleCounted_tile (u : TileId) : (s.bundleCounted t).tile u = s.tile u :=
  State.tile_congr ((State.withFree_tiles _ _).trans (State.modReg_tiles s _ _ _))

theorem State.bundleCounted_mem : (s.bundleCounted t).mem = s.mem := (State.withFree_mem _ _).trans (State.modReg_frame s _ _ _).2

theorem State.bundleCounted_count : (s.bundleCounted t).reg (tileSlot t) 0x100C = s.reg (tileSlot t) 0x100C + 1 :=
  (State.regW_congr (State.withFree_regs _ _)).trans (s.reg_modReg_self _ _ _)

end

/-- The context at the end of a bundle that writes no level, transfers nowhere and repeats nothing. -/
def Bun.endCtx (b : Bun) (c : Ctx) : Ctx :=
  let e := loopEnd c b.pc [] (decide (b.c.repc ≤ 1))
  (b.nextPc e.1 .none none e.2).1

/-- The tile that a bundle of one move of value u into word register n leaves. -/
def Bun.wordDone (b : Bun) (n : Nat) (u : Word) : Tile :=
  (((((b.x.modFlow Flow.completed).modCtx (·.setW n u)).modCfg b.w (·.advance b.moves)).modCtx b.endCtx).age []).modeApplied b.x.flow.modeSh

/-- The commit of a bundle of one immediate move: the register and the end of the bundle, with no unit's effect between them. -/
theorem State.commitBundle_wordMove (s : State) (t : TileId) (x : Tile) (len : Nat) (a : Word) (g n : Nat) (v : Word) :
    let b := s.bundle t x len [wordMove a g n v]
    let y := ((b.x.modFlow Flow.completed).modCtx (·.setW n (s.moveVal0 t x b.pc (wordMove a g n v)).addr))
    let r := (s.setTile t y).modTile t (fun y => (((y.modCfg b.w (·.advance b.moves)).modCtx b.endCtx).age []).modeApplied b.x.flow.modeSh)
    s.commitBundle b [MoveRes.none] = (if (b.nextPc b.c .none none none).2 then r.arrive t else r).bundleCounted t := by
  exact rfl

/-- Where no transfer and no repeat is pending, the tile takes the register and goes on with the bundle that follows. -/
theorem State.commitBundle_wordDone {s : State} {t : TileId} {x : Tile} {len : Nat} {a : Word} {g n : Nat} {v : Word}
    (hdelay : x.ctx.dleft = 0) (hrep : x.ctx.repc = 0) :
    let b := s.bundle t x len [wordMove a g n v]
    s.commitBundle b [MoveRes.none] = (s.setTile t (b.wordDone n v)).bundleCounted t := by
  intro b
  have hval := s.moveVal0_wordMove t x b.pc a g n v
  have hstays : (b.nextPc b.c .none none none).2 = false := congrArg Prod.snd (Bun.nextPc_sequential (b := b) hdelay hrep b.c)
  have hcommit := s.commitBundle_wordMove t x len a g n v
  dsimp only at hcommit
  rw [hval, hstays, if_neg (by decide), State.modTile_setTile] at hcommit
  exact hcommit

/-- The context that such a bundle leaves: the register, and PCC past the bundle (R119, R122). -/
theorem Bun.ctx_wordDone {s : State} {t : TileId} {x : Tile} {len bank n : Nat} {ms : List Move} (hrun : x.run = some bank) (hbank : bank < 7)
    (hmode : x.flow.modeSh = none) (hlstat : x.ctx.lstat = 0) (hbsh : x.ctx.bsh = 0) (v : Word) :
    ((s.bundle t x len ms).wordDone n v).ctx =
      (x.ctx.setW n v).goOn x.ctx.pcc (x.ctx.pcc.addr + BitVec.ofNat 32 (4 * len)) := by
  have hdelay : (s.bundle t x len ms).c.dleft = 0 := Ctx.dleft_of_bsh hbsh
  have hrep : (s.bundle t x len ms).c.repc = 0 := Ctx.repc_of_lstat hlstat
  have hidle : (x.ctx.setW n v).lstat = 0 := (x.ctx.setW_frame n v).1.trans hlstat
  have hend : (s.bundle t x len ms).endCtx (x.ctx.setW n v) =
      (x.ctx.setW n v).goOn x.ctx.pcc (x.ctx.pcc.addr + BitVec.ofNat 32 (4 * len)) := by
    simp only [Bun.endCtx, loopEnd_idle hidle, Bun.nextPc_sequential hdelay hrep]
    rfl
  have hwritten : (((x.modFlow Flow.completed).modCtx (·.setW n v)).modCfg x.world (·.advance ms)).run = some bank :=
    (Tile.run_modCtx _ _).trans hrun
  have hreg : ((x.modFlow Flow.completed).modCtx (·.setW n v)).ctx = x.ctx.setW n v := Tile.ctx_modCtx (x := x.modFlow _) hrun hbank _
  have hdone : (s.bundle t x len ms).wordDone n v = ((((x.modFlow Flow.completed).modCtx (·.setW n v)).modCfg x.world
      (·.advance ms)).modCtx (s.bundle t x len ms).endCtx).age [] := congrArg (Tile.modeApplied _) hmode
  rw [hdone, Tile.ctx_age, Tile.ctx_modCtx hwritten hbank, Tile.ctx_modCfg, hreg, hend]

/-! The issue (Table 5-8). -/

/-- A bundle that decodes and is judged good is committed. -/
theorem State.issue_of_good {s : State} {t : TileId} {raw : List (Word × Nat)} {len : Nat} {ms : List Move} {l : List MoveRes}
    (hdecode : s.decodeBundle t (s.tile t) = .ok (raw, len, ms)) (hskip : (s.tile t).flow.repSkip = false) {b : Bun}
    (hb : b = s.bundle t (s.tile t).tick len (ms.filter (fun m => guardTrue (s.tile t).tick.ctx.pred m.guard)))
    (hjudge : s.judgeBundle b = .ok l) :
    s.issue t = (s.commitBundle b l).modTile t (fun y => raw.foldl (fun y p => y.touchInstr b.w p.2) y) := by
  subst hb
  simp only [State.issue, hdecode, hskip, Bool.false_eq_true, if_false, hjudge]

/-- A misaligned PCC faults before any fetch (R157, Table 5-8). -/
theorem State.issue_misaligned {s : State} {t : TileId} (h : (s.tile t).ctx.pcc.addr.toNat % 4 ≠ 0) :
    s.issue t = (s.setTile t ((s.tile t).squash ⟨0x46, (s.tile t).ctx.pcc.addr⟩)).fetchNoted t (s.tile t)
      (.fault ⟨0x46, (s.tile t).ctx.pcc.addr⟩) := by
  have hdecode : s.decodeBundle t (s.tile t) = .error (.fault ⟨0x46, (s.tile t).ctx.pcc.addr⟩) := by
    rw [State.decodeBundle]
    exact if_pos (by simpa using h)
  simp only [State.issue, hdecode]

theorem exec_bundleIssue_waits {s : State} {t : TileId} (h : (s.tile t).mayIssue = false) : exec (.bundleIssue t) s = .next s :=
  congrArg Host.Outcome.next (if_neg (by simp [h]))

theorem exec_bundleIssue_issues {s : State} {t : TileId} (hissue : (s.tile t).mayIssue = true) (htinder : s.inTinder = false) :
    exec (.bundleIssue t) s = .next (s.idleOver.issue t) :=
  congrArg Host.Outcome.next (if_pos (by simp [hissue, htinder]))

/-- The state that an issued bundle of one immediate move leaves: its tile, one bundle counted, its syllables touched (R119). -/
def State.wordIssued (s : State) (t : TileId) (raw : List (Word × Nat)) (b : Bun) (n : Nat) (v : Word) : State :=
  ((s.setTile t (b.wordDone n v)).bundleCounted t).modTile t (fun y => raw.foldl (fun y p => y.touchInstr b.w p.2) y)

section
variable (s : State) (t : TileId) (raw : List (Word × Nat)) (b : Bun) (n : Nat) (v : Word)

theorem State.wordIssued_ctx : ((s.wordIssued t raw b n v).tile t).ctx = (b.wordDone n v).ctx := by
  rw [State.wordIssued, State.tile_modTile, Tile.ctx_touchInstrs, State.bundleCounted_tile, State.tile_setTile]

theorem State.wordIssued_tilesBut : s.tilesBut (s.wordIssued t raw b n v) t := by
  intro u hu
  rw [State.wordIssued, State.tile_modTile_ne _ _ _ _ hu, State.bundleCounted_tile, State.tile_setTile_ne _ _ _ _ hu]

theorem State.wordIssued_mem : (s.wordIssued t raw b n v).mem = s.mem := by
  rw [State.wordIssued, (State.modTile_frame _ _ _).2, State.bundleCounted_mem, (State.setTile_frame _ _ _).2]

theorem State.wordIssued_count : (s.wordIssued t raw b n v).reg (tileSlot t) 0x100C = s.reg (tileSlot t) 0x100C + 1 := by
  rw [State.wordIssued, State.modTile_reg, State.bundleCounted_count, State.setTile_reg]

end

/-- Issue of a bundle whose one move takes an immediate into a word register, with nothing pending in the tile's flow. -/
theorem State.issue_wordMove {s : State} {t : TileId} {raw : List (Word × Nat)} {len : Nat} {a : Word} {g n : Nat} {v : Word}
    (hdecode : s.decodeBundle t (s.tile t) = .ok (raw, len, [wordMove a g n v])) (hskip : (s.tile t).flow.repSkip = false)
    (hguard : guardTrue (s.tile t).tick.ctx.pred g = true) (harm : (s.tile t).flow.armWin = Vector.replicate 4 0)
    (hlstat : (s.tile t).tick.ctx.lstat = 0) (hbsh : (s.tile t).tick.ctx.bsh = 0) :
    s.issue t = s.wordIssued t raw (s.bundle t (s.tile t).tick len [wordMove a g n v]) n v := by
  have htrue : [wordMove a g n v].filter (fun m => guardTrue (s.tile t).tick.ctx.pred m.guard) = [wordMove a g n v] := by
    simp [wordMove, hguard]
  have hdelay := Ctx.dleft_of_bsh hbsh
  have hgood := State.judgeBundle_wordMove (s := s) (t := t) (len := len) (a := a) (g := g) (n := n) (v := v)
    ((Tile.flow_tick (s.tile t)).symm ▸ harm) hdelay
  rw [State.issue_of_good hdecode hskip (congrArg _ htrue.symm) hgood, State.commitBundle_wordDone hdelay (Ctx.repc_of_lstat hlstat)]
  rfl

/-- Settles O20: the fault is found before the fetch; the move is judged good and its bundle's end leaves the register and PCC. -/
theorem bundlesIssue : Obligations.BundlesIssue := by
  intro s t x pc
  obtain ⟨htiles, hregs, hmem⟩ := s.idleOver_keeps
  have htile : s.idleOver.tile t = x := State.tile_congr htiles
  refine ⟨fun hmay => exec_bundleIssue_waits hmay, ?misaligned, ?moved⟩
  case misaligned =>
    intro hmay htinder hpc
    rw [exec_bundleIssue_issues hmay htinder, State.issue_misaligned (by rwa [htile]), htile]
  case moved =>
    rintro raw len ⟨a, g, d, src⟩ n v b hmay htinder hskip hdecode ⟨⟩ ⟨⟩ hn hguard hrun hb hlstat hbsh hmode harm -
    have htick : x.tick.ctx = { x.ctx with pred := x.ports.cmpPreds x.ctx.pred } := Tile.ctx_tick hrun hb
    have hlstatTick : x.tick.ctx.lstat = 0 := by rwa [htick]
    have hbshTick : x.tick.ctx.bsh = 0 := by rwa [htick]
    have hissue : s.idleOver.issue t = s.idleOver.wordIssued t raw (s.idleOver.bundle t x.tick len [wordMove a g n v]) n v := by
      rw [← htile] at hdecode hskip hguard harm hlstatTick hbshTick ⊢
      exact State.issue_wordMove hdecode hskip hguard harm hlstatTick hbshTick
    have hctx := Bun.ctx_wordDone (s := s.idleOver) (t := t) (len := len) (n := n) (ms := [wordMove a g n v]) (x.run_tick.trans hrun) hb
      (x.flow_tick.symm ▸ hmode) hlstatTick hbshTick v
    rw [htick] at hctx
    obtain ⟨hreg, hpcc, hwords, hcaps, hstatus⟩ := Ctx.goOn_setW { x.ctx with pred := x.ports.cmpPreds x.ctx.pred } hn v x.ctx.pcc
      (pc + BitVec.ofNat 32 (4 * len))
    refine ⟨_, (exec_bundleIssue_issues hmay htinder).trans (congrArg _ hissue), ?_⟩
    rw [State.wordIssued_ctx, hctx, State.wordIssued_count]
    exact ⟨hreg, hpcc, hwords, hcaps, hstatus, (State.wordIssued_mem ..).trans hmem,
      fun u hu => (State.wordIssued_tilesBut _ t raw _ n v u hu).trans (State.tile_congr htiles), congrArg (· + 1) (State.regW_congr hregs)⟩

end Sys2Proof.Machine

namespace Sys2Proof.Machine

/-! Interrupt delivery, hosts and cross-world entries (R264, R277, R291, R295 to R298). The world-down entry that asks neither
mask nor IHOLD is log 81, the cleared image and held shadow of a host entry log 83, an idle tile's delivery, idle again when abandoned, log 44. -/

/-! The delivery of an interrupt. -/

section
variable {s : State} {t : TileId}

/-- At a boundary where a source may be taken, with nothing to report, a delivery starts (R291, R296). -/
theorem exec_interruptDelivery_starts (hnone : (s.tile t).flow.deliv = none) (hdue : s.irqDue t = true)
    (hreport : (s.tile t).flow.report = none) :
    exec (.interruptDelivery t) s = .next (s.delivStart t ⟨(s.tile t).world, false, false⟩) := by
  change execInterruptDelivery t s = _
  simp only [execInterruptDelivery, hnone, hdue, hreport, if_true]

/-- A delivery that has started comes to its cycle 6 (R296). -/
theorem exec_interruptDelivery_commits {d : Delivery} (hdeliv : (s.tile t).flow.deliv = some d) :
    exec (.interruptDelivery t) s = .next (s.delivCommit t d) := by
  change execInterruptDelivery t s = _
  simp only [execInterruptDelivery, hdeliv]

/-- The commit in the running world takes the source that is deliverable then (R296, R297). -/
theorem State.delivCommit_takes {w : World} {i : Nat}
    (htop : s.deliverable t w (maskPasses ((s.tile t).flat w) (s.tile t).ctx.status) = some i) :
    s.delivCommit t ⟨w, false, false⟩ = (s.commitIrq t w i).enterNow t (entryIrq s i false) := by
  simp only [State.delivCommit, Bool.or_false, Bool.false_eq_true, if_false, htop]

/-- The commit in the running world is abandoned where no source is deliverable any more (R298). -/
theorem State.delivCommit_abandons {w : World}
    (hnone : s.deliverable t w (maskPasses ((s.tile t).flat w) (s.tile t).ctx.status) = none) :
    s.delivCommit t ⟨w, false, false⟩ = s.delivAbandon t ⟨w, false, false⟩ := by
  simp only [State.delivCommit, Bool.or_false, Bool.false_eq_true, if_false, hnone]

/-! The host contexts. -/

/-- A host context that needs no fill becomes the running one (R210, R215). -/
theorem State.hostSwitch_of_bank {s1 : State} {n : CtxId} {b : Nat} (hbring : s.bring t n = .bank s1 b) :
    s.hostSwitch t n = ((s1.runBank t b).modTile t (·.switched), true) := by
  simp only [State.hostSwitch, hbring]

/-- A cross-world entry that may start, with nothing to report, starts (R277, R291). -/
theorem exec_crossWorldEntry_starts (hnone : (s.tile t).flow.enter = none) (hdue : s.crossDue t = true)
    (hreport : (s.tile t).flow.report = none) : exec (.crossWorldEntry t) s = .next (s.crossStart t) := by
  change execCrossWorldEntry t s = _
  simp only [execCrossWorldEntry, hnone, hdue, hreport, if_true]

/-- The cross-world entry of a host that needs no fill (R277). -/
theorem State.crossStart_of_bank {s1 : State} {b : Nat} (hbring : s.bring t ((s.tile t).hctx .trade) = .bank s1 b) :
    s.crossStart t =
      (((s1.modTile t (fun y => { y.drain.copyImage with link := .interrupt (s.tile t).ctxNum ((s.tile t).hctx .trade) })).runBank t b).modTile t
        (·.switched)).modTile t (fun y => y.copyImage.modFlow (fun f => { f with deliv := some ⟨.trade, true, false⟩ })) := by
  simp only [State.crossStart, hbring]

/-- A live tile whose world halted and that waits for nothing enters the other world's host (R264). -/
theorem exec_crossWorldEntry_enters {w : World} {i : Nat} (henter : (s.tile t).flow.enter = some (w, i)) (hlive : (s.tile t).live = true)
    (hfreeze : (s.tile t).flow.freeze = .none) : exec (.crossWorldEntry t) s = .next (s.hostEnter t w i) := by
  change execCrossWorldEntry t s = _
  simp [execCrossWorldEntry, henter, hlive, hfreeze]

/-- The entry of a host that may be entered and needs no fill (R264). -/
theorem State.hostEnter_of_bank {s1 : State} {w : World} {b : Nat} (hready : s.hostReady t w = true)
    (hbring : s.bring t ((s.tile t).hctx w) = .bank s1 b) (i : Nat) :
    let s2 := (s1.runBank t b).modTile t (·.switched)
    s.hostEnter t w i = (s2.modTile t (·.copyImage)).enterNow t (entryIrq s2 i false) := by
  simp [State.hostEnter, hready, State.hostSwitch_of_bank hbring]

/-- An idle tile leaves its clock gate and its halt, on a device that runs (R295, R492). -/
def State.idleWoken (s : State) (t : TileId) : State :=
  s.idleOver.modTile t (·.modSys (fun y => { y with gated := false, halted := false }))

/-- Waking the tile leaves the worlds' host contexts. -/
theorem State.idleWoken_hctx (w : World) : ((s.idleWoken t).tile t).hctx w = (s.tile t).hctx w := by
  rw [State.idleWoken, State.tile_modTile, State.tile_congr s.idleOver_keeps.1]
  rfl

/-- The host entry of an idle tile for a source, where the host needs no fill (R295). -/
theorem State.idleEnter_of_bank {s1 : State} {w : World} {b : Nat} (hdue : s.idleDue t = some (w, none))
    (hbring : (s.idleWoken t).bring t ((s.tile t).hctx w) = .bank s1 b) :
    s.idleEnter t = ((s1.runBank t b).modTile t (·.switched)).delivStart t ⟨w, false, true⟩ := by
  rw [← State.idleWoken_hctx] at hbring
  have hswitch := State.hostSwitch_of_bank hbring
  rw [State.idleWoken] at hswitch
  simp only [State.idleEnter, hdue, hswitch]

end

/-- Settles O24: each event by the lemma for its case; a host context that stands in a bank is switched to without a wait. -/
theorem interruptsDelivered : Obligations.InterruptsDelivered := by
  intro s t x
  refine ⟨exec_interruptDelivery_starts, ?commits, ?abandons, ?crosses, ?enters, ?idles⟩
  case commits =>
    intro i hdeliv htop
    rw [exec_interruptDelivery_commits hdeliv, State.delivCommit_takes htop]
    rfl
  case abandons =>
    intro hdeliv hnone
    rw [exec_interruptDelivery_commits hdeliv, State.delivCommit_abandons hnone]
    rfl
  case crosses =>
    intro s1 b henter hdue hreport hbring
    rw [exec_crossWorldEntry_starts henter hdue hreport, State.crossStart_of_bank hbring]
  case enters =>
    intro w i s1 b henter hlive hfreeze hready hbring
    rw [exec_crossWorldEntry_enters henter hlive hfreeze, State.hostEnter_of_bank hready hbring]
  case idles =>
    exact fun w s1 b hdue hbring => congrArg Host.Outcome.next (State.idleEnter_of_bank hdue hbring)

end Sys2Proof.Machine

namespace Sys2Proof.Machine

/-! The words of pending, enable and overrun state (R286, R304). -/

/-- What a write of word k of a family of Table 9-4 does: IPSET, IPCLR, IESET, IECLR, IOVR in the order of their offsets. -/
def State.irqFamily (s : State) (w : World) (f k : Nat) (v : Word) : State :=
  match f with
  | 0 => s.ipset w k v
  | 1 => s.ipclr w k v
  | 2 => s.ieset w k v
  | 3 => s.ieclr w k v
  | 4 => s.iovr w k v
  | _ => s

/-- The block finds the family and the word of an offset. -/
theorem State.irqWrite_family (s : State) (q : Req) {f : Nat} (hf : f < 6) (k : BitVec 4) (v : Word) :
    s.irqWrite q 0x009 (0x1000 + 0x100 * f + 4 * k.toNat) v = (s.irqFamily q.world f k.toNat v, .ok 0) := by
  have hk : k.toNat < 16 := k.isLt
  have hword : (0x1000 + 0x100 * f + 4 * k.toNat) / 4 % 64 = k.toNat := by omega
  have hfamily : (0x1000 + 0x100 * f + 4 * k.toNat - 0x1000) / 0x100 = f := by omega
  rw [State.irqWrite, if_neg (by omega), if_neg (by omega), if_pos (by omega), hword, hfamily]
  have hcases : f = 0 ∨ f = 1 ∨ f = 2 ∨ f = 3 ∨ f = 4 ∨ f = 5 := by omega
  rcases hcases with rfl | rfl | rfl | rfl | rfl | rfl
  all_goals exact if_pos hk

/-- A write of a word that its gate admits does what its family does. -/
theorem regWrite_irqFamily {s : State} {q : Req} (f : Nat) (hf : f < 6) (k : BitVec 4) (v : Word) {off : Nat}
    (hoff : off = 0x1000 + 0x100 * f + 4 * k.toNat) (hadmits : s.admits q 0x009 off) :
    (Host.Outcome.next (s.regWrite q 0x009 off v) : Host.Outcome State Fault Refusal) = .next (s.irqFamily q.world f k.toNat v).done := by
  subst hoff
  refine State.regWrite_next hadmits (by decide) (by omega) ?_
  rw [s.slotWrite_irq9 _ _ _ (by omega), s.irqWrite_family q hf]

/-- An answered change of the interrupt state changes that and the answer. -/
theorem State.irqChanged_onlyIn (s : State) (x : Irq) : s.onlyIn ({ s with irq := x } : State).done [.irq, .resp] := by
  intro p hp
  cases p <;> simp [State.agrees, State.done] at hp ⊢

/-- The bits that a word's ones name of their writer's own sources (R286). -/
theorem State.getLsbD_named (s : State) (w : World) (k : Nat) (v : Word) {i : Nat} (hi : i < 512) :
    (irqPlace (v &&& s.ownMask w k) k).getLsbD i = s.named w k v i := by
  rw [State.getLsbD_place_own, State.named, decide_eq_true hi, Bool.true_and]

/-- The same, of the sources that exist (R304). -/
theorem State.getLsbD_namedPresent (s : State) (w : World) (k : Nat) (v : Word) {i : Nat} (hi : i < 512) :
    (irqPlace (v &&& s.ownMask w k &&& presentWord k) k).getLsbD i = (s.named w k v i && irqPresent i) := by
  rw [State.getLsbD_place_present, State.named, decide_eq_true hi, Bool.true_and]

section
variable (s : State) (w : World) (k : Nat) (v : Word) (x : BitVec 512) {i : Nat} (hi : i < 512)
include hi

/-- What setting the named sources that exist leaves. -/
theorem State.getLsbD_setPresent :
    (x ||| irqPlace (v &&& s.ownMask w k &&& presentWord k) k).getLsbD i = (x.getLsbD i || (s.named w k v i && irqPresent i)) := by
  rw [BitVec.getLsbD_or, s.getLsbD_namedPresent w k v hi]

/-- What setting the named sources leaves. -/
theorem State.getLsbD_setNamed : (x ||| irqPlace (v &&& s.ownMask w k) k).getLsbD i = (x.getLsbD i || s.named w k v i) := by
  rw [BitVec.getLsbD_or, s.getLsbD_named w k v hi]

/-- What clearing the named sources leaves. -/
theorem State.getLsbD_clearNamed : (x &&& ~~~ irqPlace (v &&& s.ownMask w k) k).getLsbD i = (x.getLsbD i && !s.named w k v i) := by
  rw [BitVec.getLsbD_and, BitVec.getLsbD_not, s.getLsbD_named w k v hi, decide_eq_true hi, Bool.true_and]

end

/-- Settles O13: each row writes its family's word, and that word's bits are those it names of its writer's own sources. -/
theorem interruptWordsWritten : Obligations.InterruptWordsWritten := by
  intro s q k v
  refine ⟨fun hset => ?_, fun hclr => ?_, fun hset => ?_, fun hclr => ?_, fun hclr => ?_⟩
  · exact ⟨_, regWrite_irqFamily 0 (by decide) k v rfl hset, rfl, s.irqChanged_onlyIn _, rfl, rfl, rfl,
      fun _ hi => s.getLsbD_setPresent _ _ _ _ hi⟩
  · exact ⟨_, regWrite_irqFamily 1 (by decide) k v rfl hclr, rfl, s.irqChanged_onlyIn _, rfl, rfl, rfl,
      fun _ hi => s.getLsbD_clearNamed _ _ _ _ hi⟩
  · exact ⟨_, regWrite_irqFamily 2 (by decide) k v rfl hset, rfl, s.irqChanged_onlyIn _, rfl, rfl, rfl,
      fun _ hi => s.getLsbD_setNamed _ _ _ _ hi⟩
  · exact ⟨_, regWrite_irqFamily 3 (by decide) k v rfl hclr, rfl, s.irqChanged_onlyIn _, rfl, rfl, rfl,
      fun _ hi => s.getLsbD_clearNamed _ _ _ _ hi⟩
  · exact ⟨_, regWrite_irqFamily 4 (by decide) k v rfl hclr, rfl, s.irqChanged_onlyIn _, rfl, rfl, rfl,
      fun _ hi => s.getLsbD_clearNamed _ _ _ _ hi⟩

end Sys2Proof.Machine

namespace Sys2Proof.Machine

/-! Delivery holds and timers (R303, R305). -/

/-- IHOLDSET sets the holds of the writer's world that its ones name (R303). -/
theorem exec_iholdset {s : State} {q : Req} (v : Word) (hadmits : s.admits q 0x00A 0x1004) :
    exec (.iholdset q v) s = .next (s.iholdSet q.world v).done :=
  State.regWrite_next hadmits (by decide) (by decide) (s.slotWrite_irqA q 0x1004 v (by decide))

/-- IHOLDCLR clears them (R303). -/
theorem exec_iholdclr {s : State} {q : Req} (v : Word) (hadmits : s.admits q 0x00A 0x1008) :
    exec (.iholdclr q v) s = .next (s.iholdClr q.world v).done :=
  State.regWrite_next hadmits (by decide) (by decide) (s.slotWrite_irqA q 0x1008 v (by decide))

/-- A write of TCTL reaches its timer. -/
theorem State.timerWrite_ctl (s : State) (q : Req) (k : BitVec 5) (v : Word) : s.timerWrite q (timOff k.toNat) v = s.tctlWrite q k.toNat v := by
  have hk : k.toNat < 32 := k.isLt
  have hword : timOff k.toNat % 16 = 0 := by rw [timOff]; omega
  have htimer : (timOff k.toNat - 0x1000) / 16 = k.toNat := by rw [timOff]; omega
  simp only [State.timerWrite, hword, htimer]
  exact if_pos (by rw [timOff]; omega)

/-- A write of TLOAD reaches its timer. -/
theorem State.timerWrite_load (s : State) (q : Req) (k : BitVec 5) (v : Word) :
    s.timerWrite q (timOff k.toNat + 4) v = s.tloadWrite q k.toNat v := by
  have hk : k.toNat < 32 := k.isLt
  have hword : (timOff k.toNat + 4) % 16 = 4 := by rw [timOff]; omega
  have htimer : (timOff k.toNat + 4 - 0x1000) / 16 = k.toNat := by rw [timOff]; omega
  simp only [State.timerWrite, hword, htimer]
  exact if_pos (by rw [timOff]; omega)

/-- A write of the timers' slot that its timer answers without an error. -/
theorem regWrite_timer {s t : State} {q : Req} {off : Nat} {v : Word} (hadmits : s.admits q 0x00C off) (hlo : 0x1000 ≤ off)
    (haligned : off % 4 = 0) (htimer : s.timerWrite q off v = (t, .ok 0)) :
    (Host.Outcome.next (s.regWrite q 0x00C off v) : Host.Outcome State Fault Refusal) = .next t.done :=
  State.regWrite_next hadmits (by decide) haligned ((s.slotWrite_timer q off v hlo).trans htimer)

/-- A stopped timer with a load is enabled for its writer's world and starts from the load (R305). -/
theorem State.tctlWrite_starts {s : State} {q : Req} {k : Nat} {v : Word} (hen : bit v 31 = true)
    (hload : s.reg 0x00C (timOff k + 4) ≠ 0) (hstopped : bit (s.reg 0x00C (timOff k)) 31 = false) :
    s.tctlWrite q k v = ((s.setReg 0x00C (timOff k) (setBit (v &&& 0xC0000000) 29 q.world.bit)).setReg 0x00C (timOff k + 8)
      (s.reg 0x00C (timOff k + 4)), .ok 0) := by
  have hown : s.timerOwn q.world k = true := by simp [State.timerOwn, hstopped]
  simp only [State.tctlWrite, hown, hen, hstopped, Bool.not_true, Bool.false_eq_true, if_true, if_false]
  exact if_neg hload

/-- A load other than zero is taken from a world that reaches the timer (R305). -/
theorem State.tloadWrite_takes {s : State} {q : Req} {k : Nat} {v : Word} (hv : v ≠ 0) (hown : s.timerOwn q.world k = true) :
    s.tloadWrite q k v = (s.setReg 0x00C (timOff k + 4) v, .ok 0) := by
  simp only [State.tloadWrite, hown, Bool.not_true, Bool.false_eq_true, if_false]
  exact if_neg hv

/-- A timer is reached while it is stopped, and by its own world (R305). -/
theorem State.timerOwn_iff (s : State) (w : World) (k : Nat) :
    s.timerOwn w k = true ↔ bit (s.reg 0x00C (timOff k)) 31 = false ∨ World.ofBit (bit (s.reg 0x00C (timOff k)) 29) = w := by
  simp [State.timerOwn]

/-- An enabled timer at zero raises its source, and reloads or stops (R305). -/
theorem State.timerExpire_due {s : State} {k : Nat} (hen : bit (s.reg 0x00C (timOff k)) 31 = true) (hzero : s.reg 0x00C (timOff k + 8) = 0) :
    s.timerExpire k = if bit (s.reg 0x00C (timOff k)) 30 = true
      then (s.raise k).setReg 0x00C (timOff k + 8) (s.reg 0x00C (timOff k + 4))
      else (s.raise k).setReg 0x00C (timOff k) (setBit (s.reg 0x00C (timOff k)) 31 false) := by
  simp [State.timerExpire, hen, hzero]

/-- Settles O15: each write by what its hold or its timer does with it. -/
theorem holdsAndTimers : Obligations.HoldsAndTimers := by
  intro s q k v
  have hload : 0x1004 + 16 * k.toNat = timOff k.toNat + 4 := by rw [timOff]; omega
  have hcount : 0x1008 + 16 * k.toNat = timOff k.toNat + 8 := by rw [timOff]; omega
  refine ⟨exec_iholdset v, exec_iholdclr v, ?enables, ?loads, ?expires⟩
  case enables =>
    rw [hload, hcount]
    intro hadmits hen hnonzero hstopped
    exact regWrite_timer hadmits (by rw [timOff]; omega) (by rw [timOff]; omega)
      ((s.timerWrite_ctl q k v).trans (State.tctlWrite_starts hen hnonzero hstopped))
  case loads =>
    rw [hload]
    intro hadmits hv hown
    exact regWrite_timer hadmits (by rw [timOff]; omega) (by rw [timOff]; omega)
      ((s.timerWrite_load q k v).trans (State.tloadWrite_takes hv ((s.timerOwn_iff _ _).mpr hown)))
  case expires =>
    rw [hload, hcount]
    exact fun hen hzero => congrArg Host.Outcome.next (State.timerExpire_due hen hzero)

end Sys2Proof.Machine

namespace Sys2Proof.Machine

/-! Wake events and what every exit leaves (R500, R503, Tables 16-6a, 16-8). -/

/-- The state with WLATCH bit b set for source j, which starts an exit where its mirrored WAKE is 1 (R500). -/
def State.latched (s : State) (b j : Nat) : State :=
  (s.modReg 0x02A 0x1000 (fun v => setBit v b true)).modPdc
    (fun p => { p with waking := if bit (s.mirror j) 19 = true then some (p.waking.getD j) else p.waking })

/-- A pending ember-held source of a sleeping device is latched (R500). -/
theorem State.wakeEvent_latches {s : State} {b j : Nat} (hheld : s.heldSource b = some j)
    (hdeep : s.dev.st = .banked ∨ s.dev.st = .dormant) (hpending : s.irqPending j = true) : s.wakeEvent b = s.latched b j := by
  have htaken : ((s.dev.st == .banked || s.dev.st == .dormant) && s.irqPending j) = true := by simpa [hpending] using hdeep
  simp only [State.wakeEvent, State.latched, hheld, htaken, if_true]
  split <;> rfl

section
variable (s : State) (b j : Nat)

theorem State.latched_bit (hb : b < 32) : bit ((s.latched b j).reg 0x02A 0x1000) b = true := by
  rw [State.latched, State.modPdc_reg, State.reg_modReg_self]
  exact bit_setBit_self _ _ _ hb

theorem State.latched_waking :
    (s.latched b j).pdc.waking = if bit (s.mirror j) 19 = true then some (s.pdc.waking.getD j) else s.pdc.waking := rfl

theorem State.latched_onlyIn : s.onlyIn (s.latched b j) [.regs, .pdc] := by
  intro p hp
  cases p <;> simp [State.agrees, State.latched] at hp ⊢

theorem State.latched_regsBut : s.regsBut (s.latched b j) [(0x02A, 0x1000)] :=
  State.regsBut_congr (State.regsBut_setReg (State.regsBut_of_eq _ rfl) _ (by decide) (by decide) (List.mem_singleton.mpr rfl)) rfl

end

/-- A device that is neither BANKED nor DORMANT latches nothing (R500). -/
theorem State.wakeEvent_awake {s : State} (hawake : ¬ (s.dev.st = .banked ∨ s.dev.st = .dormant)) (b : Nat) : s.wakeEvent b = s := by
  rw [State.wakeEvent]
  split
  · rfl
  · exact if_neg (by simp_all)

/-- What a latch hands over to the interrupt controller: its source becomes pending where it has a latch (R503). -/
def State.handOver (s : State) (b : Nat) : State :=
  match s.heldSource b with
  | some j => if s.irqSense j = 0 ∧ irqSoft j = false then s else { s with irq := { s.irq with pend := setIrqBit s.irq.pend j true } }
  | none => s

/-- Latches handed over change the interrupt state alone. -/
theorem State.foldl_handOver (l : List Nat) (s : State) : ∃ x, l.foldl State.handOver s = { s with irq := x } := by
  induction l generalizing s with
  | nil => exact ⟨s.irq, rfl⟩
  | cons b l ih =>
    have hone : ∃ x, s.handOver b = { s with irq := x } := by
      rw [State.handOver]
      split
      · split
        · exact ⟨s.irq, rfl⟩
        · exact ⟨_, rfl⟩
      · exact ⟨s.irq, rfl⟩
    obtain ⟨x, hx⟩ := hone
    obtain ⟨y, hy⟩ := ih { s with irq := x }
    exact ⟨y, by rw [List.foldl_cons, hx, hy]⟩

/-- What an exit for source i out of the state with code last records: WLATCH, WLAST, WEXITS, WAKEIRQ and LASTSTATE, and that nothing starts
or is entered any more (R503). -/
def State.exitNoted (s : State) (i last : Nat) : State :=
  ((((s.setReg 0x02A 0x1000 0).setReg 0x02A 0x100C (BitVec.ofNat 32 (2 ^ 31 + i))).modReg 0x02A 0x1010 (· + 1)).modReg 0x02B 0x1000
    (fun v => setFld (setFld v 24 16 i) 30 28 last)).modPdc (fun p => { p with waking := none, entry := none })

/-- An exit hands the latches over and is recorded. -/
theorem State.exitDone_eq (s : State) (i : Nat) : ∃ x, s.exitDone i = ({ s with irq := x } : State).exitNoted i s.dev.st.code := by
  obtain ⟨x, hx⟩ := State.foldl_handOver ((List.range 13).filter (fun b => bit (s.reg 0x02A 0x1000) b)) s
  exact ⟨x, congrArg (·.exitNoted i s.dev.st.code) hx⟩

/-- An exit recorded changes registers, the interrupt state and the controller alone. -/
theorem State.exitDone_onlyIn (s : State) (i : Nat) : s.onlyIn (s.exitDone i) [.regs, .irq, .pdc] := by
  obtain ⟨x, hx⟩ := s.exitDone_eq i
  rw [hx]
  intro p hp
  cases p <;> simp [State.agrees, State.exitNoted] at hp ⊢

/-- The controller as a recorded exit leaves it. -/
theorem State.exitDone_pdc (s : State) (i : Nat) : (s.exitDone i).pdc = { s.pdc with waking := none, entry := none } := by
  obtain ⟨x, hx⟩ := s.exitDone_eq i
  simp [hx, State.exitNoted]

/-- From s to r an exit for source j was recorded: WLATCH is clear, WLAST names the source, WEXITS counts the exit, and no exit or entry
is under way (R503). -/
def State.ExitShown (s r : State) (j : Nat) : Prop :=
  r.reg 0x02A 0x1000 = 0 ∧ r.reg 0x02A 0x100C = BitVec.ofNat 32 (2 ^ 31 + j) ∧ r.reg 0x02A 0x1010 = s.reg 0x02A 0x1010 + 1
    ∧ r.pdc.waking = none ∧ r.pdc.entry = none

/-- `exitDone` records an exit. -/
theorem State.exitDone_shown (s : State) (i : Nat) : s.ExitShown (s.exitDone i) i := by
  have hpdc := s.exitDone_pdc i
  obtain ⟨x, hx⟩ := s.exitDone_eq i
  refine ⟨?latches, ?last, ?count, by rw [hpdc], by rw [hpdc]⟩
  all_goals simp (disch := decide) [hx, State.exitNoted, State.reg_modReg, State.reg_setReg]

/-- The record of an exit stands where the wake logic's registers below WEVENT and the controller's part of it stay. -/
theorem State.ExitShown.congr {s r r' : State} {j : Nat} (h : s.ExitShown r j) (hregs : ∀ o < 0x1014, r'.reg 0x02A o = r.reg 0x02A o)
    (hwaking : r'.pdc.waking = r.pdc.waking) (hentry : r'.pdc.entry = r.pdc.entry) : s.ExitShown r' j := by
  rw [State.ExitShown, hregs _ (by decide), hregs _ (by decide), hregs _ (by decide), hwaking, hentry]
  exact h

/-! Exits that power a tile (R294, R501). -/

/-- Upsets reported one after another are appended in their order (R479). -/
theorem State.foldl_report (l : List Upset) (s : State) : l.foldl State.report s = { s with upsets := s.upsets ++ l.map .upset } := by
  induction l generalizing s with
  | nil => simp
  | cons u l ih => simp [ih, State.report]

/-- The retention log reported: it is empty (R504). -/
theorem State.scrubReport_eq (s : State) : s.scrubReport =
    { s with upsets := s.upsets ++ (s.pdc.log.filterMap scrubUpset).map .upset, pdc := { s.pdc with log := [] } } := by
  rw [State.scrubReport, State.foldl_report]
  rfl

/-- The report changes what waits for the ledger, and the controller, alone. -/
theorem State.scrubReport_onlyIn (s : State) : s.onlyIn s.scrubReport [.upsets, .pdc] := by
  rw [State.scrubReport_eq]
  intro p hp
  cases p <;> simp [State.agrees] at hp ⊢

/-- The device runs again, with tile t powered and the retention log reported. -/
def State.tileWoken (s : State) (t : TileId) : State := (s.scrubReport.powerTile t).devRun

section
variable (s : State) (t : TileId)

theorem State.powerTile_tile : (s.powerTile t).tile t = (s.tile t).modSys (fun y => { y with powered := true, gated := false, gateReq := false }) :=
  s.tile_modTile t _

theorem State.powerTile_tilesBut : s.tilesBut (s.powerTile t) t := fun u hu => s.tile_modTile_ne t u _ hu

theorem State.tileWoken_onlyIn : s.onlyIn (s.tileWoken t) [.upsets, .pdc, .tiles, .dev] := by
  rw [State.tileWoken, State.scrubReport_eq]
  intro p hp
  cases p <;> simp [State.agrees, State.powerTile, State.devRun] at hp ⊢

theorem State.tileWoken_runs : (s.tileWoken t).dev.st = .run := rfl

theorem State.tileWoken_pdc : (s.tileWoken t).pdc = { s.pdc with log := [], idleSince := none } := by
  rw [State.tileWoken, State.scrubReport_eq]
  rfl

theorem State.tileWoken_powered : ((s.tileWoken t).tile t).sys.powered = true := by
  have h : (s.tileWoken t).tile t = (s.scrubReport.powerTile t).tile t := State.tile_congr rfl
  rw [h, State.powerTile_tile]
  rfl

theorem State.tileWoken_tilesBut : s.tilesBut (s.tileWoken t) t := by
  intro u hu
  have hrest : (s.tileWoken t).tile u = (s.scrubReport.powerTile t).tile u := State.tile_congr rfl
  have hsame : s.scrubReport.tile u = s.tile u := by rw [State.scrubReport_eq]; exact State.tile_congr rfl
  exact hrest.trans ((s.scrubReport.powerTile_tilesBut t u hu).trans hsame)

/-- A recorded exit stands when the tile is woken. -/
theorem State.ExitShown.tileWoken {s0 : State} {j : Nat} (h : s0.ExitShown s j) : s0.ExitShown (s.tileWoken t) j :=
  h.congr (fun _ _ => State.regW_congr (s.tileWoken_onlyIn t .regs (by decide))) (by rw [State.tileWoken_pdc]) (by rw [State.tileWoken_pdc])

end

/-- A source that wakes and targets a tile in service without power (R294, R500). -/
def State.powersTile (s : State) (i : Nat) : Prop :=
  s.wakes i = true ∧ s.pdc.entry = none ∧ (s.tile (s.irqTile i)).inService = true ∧ (s.tile (s.irqTile i)).sys.powered = false

/-- Out of DOZE such a source ends the sleep and wakes its tile (R294, R501). -/
theorem State.dozeExit_wakes {s : State} {i : Nat} (hdoze : s.dev.st = .doze) (h : s.powersTile i) :
    s.dozeExit i = (s.exitDone i).tileWoken (s.irqTile i) := by
  obtain ⟨hwakes, hentry, hserves, hoff⟩ := h
  simp [State.dozeExit, hdoze, hwakes, hentry, hserves, hoff, State.tileWoken]

/-- In RUN or IDLE it powers its tile, and the device runs (R294, R492). -/
theorem State.dozeExit_powers {s : State} {i : Nat} (hup : s.dev.st = .run ∨ s.dev.st = .idle) (h : s.powersTile i) :
    s.dozeExit i = (s.powerTile (s.irqTile i)).devRun := by
  obtain ⟨hwakes, hentry, hserves, hoff⟩ := h
  rcases hup with hrun | hidle
  · simp [State.dozeExit, hrun, hwakes, hentry, hserves, hoff]
  · simp [State.dozeExit, hidle, hwakes, hentry, hserves, hoff]

/-- A source that does not wake powers nothing (R294). -/
theorem State.dozeExit_asleep {s : State} {i : Nat} (h : s.wakes i = false) : s.dozeExit i = s := by
  simp [State.dozeExit, h]

/-- Powering a tile of a device that runs changes tiles, device state and controller alone. -/
theorem State.powerTile_devRun_onlyIn (s : State) (t : TileId) : s.onlyIn (s.powerTile t).devRun [.tiles, .dev, .pdc] := by
  intro p hp
  cases p <;> simp [State.agrees, State.powerTile, State.devRun] at hp ⊢

/-- The RTC's time is read from the RTC alone. -/
theorem State.rtcNs_congr {s t : State} (h : t.rtc = s.rtc) : t.rtcNs = s.rtcNs := congrArg (fun r : Rtc => r.time / 2 ^ 32 % 2 ^ 64) h

/-- The restored domains change the time block and its time alone (R501, R429). -/
theorem State.domainsOn_onlyIn (s : State) : s.onlyIn s.domainsOn [.tb, .ptp] := by
  intro p hp
  cases p <;> simp [State.agrees, State.domainsOn] at hp ⊢

/-- A recorded exit stands when the domains are restored. -/
theorem State.ExitShown.domainsOn {s s0 : State} {j : Nat} (h : s0.ExitShown s j) : s0.ExitShown s.domainsOn j :=
  h.congr (fun _ _ => State.regW_congr rfl) rfl rfl

/-- The tile that the mirrored configuration of a source names (R500). -/
def State.mirrorTile (s : State) (j : Nat) : TileId := BitVec.ofNat 4 (fld (s.mirror j) 3 0)

/-- Out of BANKED the waking source's tile is woken, with the domains restored (R501). -/
theorem State.bankedExit_wakes {s : State} {j : Nat} (hbanked : s.dev.st = .banked) (hwaking : s.pdc.waking = some j)
    (hserves : (s.tile (s.mirrorTile j)).inService = true) : s.bankedExit = ((s.exitDone j).domainsOn).tileWoken (s.mirrorTile j) := by
  rw [State.mirrorTile] at hserves
  simp [State.bankedExit, hbanked, hwaking, hserves, State.tileWoken, State.mirrorTile]

/-- A waking source whose tile is out of service makes no exit from BANKED of that kind (R501). -/
theorem State.bankedExit_ashed {s : State} {j : Nat} (hbanked : s.dev.st = .banked) (hwaking : s.pdc.waking = some j)
    (hashed : (s.tile (s.mirrorTile j)).inService = false) : s.bankedExit = s := by
  rw [State.mirrorTile] at hashed
  simp [State.bankedExit, hbanked, hwaking, hashed]

/-! Exits whose tile is out of service: the device is IDLE again (R501; that it ends in IDLE is log 37). -/

/-- The device is IDLE from now on, with WEVENT bit 2 set. -/
def State.idleAgain (s : State) : State :=
  ((s.modDev (fun d => { d with st := .idle })).modPdc (fun p => { p with idleSince := some s.now })).wevent 4

section
variable (s : State)

/-- New bits of WEVENT change registers and the interrupt state alone (R503). -/
theorem State.wevent_onlyIn (bits : Word) : s.onlyIn (s.wevent bits) [.regs, .irq] := by
  intro p hp
  rw [State.wevent, State.newEvent]
  split <;> cases p <;> simp [State.agrees] at hp ⊢

/-- WEVENT takes the new bits, and no other register changes (R503). -/
theorem State.wevent_regs (bits : Word) : (s.wevent bits).regs = (s.modReg 0x02A 0x1014 (· ||| bits)).regs := by
  rw [State.wevent, State.newEvent]
  split
  · rfl
  · exact State.raise_regs _ _

theorem State.idleAgain_idle : s.idleAgain.dev.st = .idle :=
  congrArg Dev.st (((s.modDev (fun d => { d with st := .idle })).modPdc _).wevent_onlyIn 4 .dev (by decide))

theorem State.idleAgain_pdc : s.idleAgain.pdc = { s.pdc with idleSince := some s.now } :=
  ((s.modDev _).modPdc (fun p => { p with idleSince := some s.now })).wevent_onlyIn 4 .pdc (by decide)

theorem State.idleAgain_tiles : s.idleAgain.tiles = s.tiles := ((s.modDev _).modPdc _).wevent_onlyIn 4 .tiles (by decide)

theorem State.idleAgain_reg {o : Nat} (ho : o < 0x10000) :
    s.idleAgain.reg 0x02A o = if o = 0x1014 then s.reg 0x02A 0x1014 ||| 4 else s.reg 0x02A o := by
  have hregs : s.idleAgain.reg 0x02A o = (s.modReg 0x02A 0x1014 (· ||| 4)).reg 0x02A o := State.regW_congr (State.wevent_regs _ _)
  rw [hregs, State.reg_modReg _ _ (by decide) (by decide) (by decide) ho]
  simp

theorem State.idleAgain_wevent : bit (s.idleAgain.reg 0x02A 0x1014) 2 = true := by
  rw [State.idleAgain_reg _ (by decide), if_pos rfl, bit, BitVec.getLsbD_or]
  simp

/-- A recorded exit stands when the device is IDLE again. -/
theorem State.ExitShown.idleAgain {s : State} {s0 : State} {j : Nat} (h : s0.ExitShown s j) : s0.ExitShown s.idleAgain j :=
  h.congr (fun o ho => by rw [State.idleAgain_reg _ (by omega), if_neg (by omega)]) (by rw [State.idleAgain_pdc]) (by rw [State.idleAgain_pdc])

end

/-- Out of BANKED (R501). -/
theorem State.ashedExit_banked {s : State} {j : Nat} (hbanked : s.dev.st = .banked) (hwaking : s.pdc.waking = some j)
    (hashed : (s.tile (s.mirrorTile j)).inService = false) (i : Nat) : s.ashedExit i = (s.exitDone j).domainsOn.idleAgain := by
  rw [State.mirrorTile] at hashed
  simp [State.ashedExit, hbanked, hwaking, hashed, State.idleAgain]

/-- Out of DOZE (R294, R501). -/
theorem State.ashedExit_doze {s : State} {i : Nat} (hdoze : s.dev.st = .doze) (hwakes : s.wakes i = true)
    (hashed : (s.tile (s.irqTile i)).inService = false) (hentry : s.pdc.entry = none) : s.ashedExit i = (s.exitDone i).idleAgain := by
  simp [State.ashedExit, hdoze, hwakes, hashed, hentry, State.idleAgain]

/-! Tiles resume (R502). -/

/-- A tile that may resume fills its recorded context (R502). -/
theorem State.tileResume_fills {s : State} {t : TileId} {c : CtxId} (hrecorded : (s.tile t).sys.recorded = some c)
    (hserves : (s.tile t).inService = true) (hpowered : (s.tile t).sys.powered = true) (hreset : (s.tile t).sys.resetting = false)
    (hhalted : (s.tile t).sys.halted = false) (hrun : (s.tile t).run = none) (hfreeze : (s.tile t).flow.freeze = .none) :
    s.tileResume t = s.modFlow t (fun f => { f with freeze := .fill c .run }) := by
  simp [State.tileResume, hrecorded, hserves, hpowered, hreset, hhalted, hrun, hfreeze]

/-- A tile with no recorded context resumes nothing (R502). -/
theorem State.tileResume_unrecorded {s : State} {t : TileId} (h : (s.tile t).sys.recorded = none) : s.tileResume t = s := by
  rw [State.tileResume, h]

end Sys2Proof.Machine

namespace Sys2Proof.Machine

/-! The exit from DORMANT (R506, Table 16-10). -/

/-- A register that is kept reads as before. -/
theorem State.regW_keepRegs (s : State) {keep : Nat → Nat → Bool} (w : World) {slot off : Nat} (hslot : slot < 0x1000) (hoff : off < 0x10000)
    (hkeep : keep slot off = true) : (s.keepRegs keep).regW w slot off = s.regW w slot off := by
  have hkeySlot : slotOfKey (regKey w slot off) = slot := by rw [slotOfKey, regKey]; omega
  have hkeyOff : offOfKey (regKey w slot off) = off := by rw [offOfKey, regKey]; omega
  have hread := Sparse.get_filter_key (keyReset (regKey w slot off)) (fun k => keep (slotOfKey k) (offOfKey k)) (regKey w slot off) s.regs
  rw [hkeySlot, hkeyOff, if_pos hkeep] at hread
  exact hread

/-- A tile as DORMANT leaves it (Table 16-10). -/
def Tile.dormantLeft (x : Tile) : Tile :=
  { Tile.reset with sys := { TileSys.reset with mccount := x.sys.mccount, bist := x.sys.bist, ashed := x.sys.ashed, excluded := x.sys.excluded } }

/-- The addresses whose bytes DORMANT keeps: eMRAM and ember SRAM (Table 16-10). -/
def keptAsleep (a : Nat) : Bool := inEmram a || (decide (0x6000000 ≤ a) && decide (a < 0x6040000))

/-- The registers that DORMANT keeps: those of Table 16-10, and of a locked watchdog those that LOCK fixes. -/
def State.keepsAsleep (s : State) (slot off : Nat) : Bool :=
  keptByDormant slot off || (slot == 0x00D && bit (s.reg 0x00D 0x1000) 30 && (off == 0x1000 || off == 0x1004))
    || (slot == 0x00E && bit (s.reg 0x00E 0x1000) 30 && (off == 0x1000 || off == 0x1004))

section
variable (s : State)

/-- DORMANT keeps the RTC, the bus die, the ledger, the dictionary and the controller, among others (Table 16-10). -/
theorem State.dormantLoss_onlyIn :
    s.onlyIn s.dormantLoss [.regs, .mem, .irq, .sweep, .store, .lanes, .bb, .tb, .usb, .sealEng, .boot, .tiles] := by
  intro p hp
  cases p <;> simp at hp <;> exact rfl

/-- DORMANT keeps the wake logic's registers (Table 16-10). -/
theorem State.dormantLoss_reg_wake {o : Nat} (ho : o < 0x10000) : s.dormantLoss.reg 0x02A o = s.reg 0x02A o := by
  have hloss : s.dormantLoss.regs = (s.keepRegs s.keepsAsleep).regs := rfl
  have hkept : s.keepsAsleep 0x02A o = true := by simp [State.keepsAsleep, keptByDormant]
  exact (State.regW_congr hloss).trans (s.regW_keepRegs .trade (by decide) ho hkept)

/-- DORMANT keeps the bytes of eMRAM and of ember SRAM (Table 16-10). -/
theorem State.dormantLoss_bytes : s.dormantLoss.mem.bytes = s.mem.bytes.filter (fun p => keptAsleep p.1) := rfl

/-- What DORMANT leaves of a tile (Table 16-10). -/
theorem State.dormantLoss_tile (u : TileId) : s.dormantLoss.tile u = (s.tile u).dormantLeft := s.tile_mapTiles Tile.dormantLeft u

/-- The zeroing of DRAM changes memory and registers alone (R514). -/
theorem State.zeroDram_onlyIn : s.onlyIn s.zeroDram [.regs, .mem] := by
  intro p hp
  cases p <;> simp [State.agrees, State.zeroDram] at hp ⊢

/-- It adds no byte. -/
theorem State.zeroDram_bytes : s.zeroDram.mem.bytes = s.mem.bytes.filter (fun p => decide (p.1 < dramBase)) := rfl

/-- It changes the registers of the DRAM controller alone. -/
theorem State.zeroDram_reg_wake {o : Nat} (ho : o < 0x10000) : s.zeroDram.reg 0x02A o = s.reg 0x02A o := by
  rw [State.zeroDram, State.reg_setReg _ _ (by decide) (by decide) (by decide) ho, if_neg (by omega),
    State.reg_modReg _ _ (by decide) (by decide) (by decide) ho, if_neg (by omega)]
  rfl

/-- Of the pending sources those that a latch of WLATCH holds (R500, R503). -/
def State.latchedOf (s : State) (pend : BitVec 512) : BitVec 512 :=
  (List.range 512).foldl (fun v j =>
    if pend.getLsbD j && (List.range 13).any (fun b => s.heldSource b == some j && bit (s.reg 0x02A 0x1000) b) then setIrqBit v j true else v) 0

/-- The device out of DORMANT with its slots restored: the exit recorded, what DORMANT loses lost, the latched sources pending (R503, R506). -/
def State.dormantBack (s : State) (i : Nat) : State :=
  let r := (s.exitDone i).dormantLoss.dormantRestore
  { r with irq := { r.irq with pend := s.latchedOf (s.exitDone i).irq.pend } }

/-- The device out of DORMANT before its boot contexts resume: DRAM zeroed and announced, the domains on (R501, R506). -/
def State.dormantOver (s : State) (i : Nat) : State :=
  ((s.dormantBack i).zeroDram.domainsOn.scrubReport.modReg 0x023 0x1000 (fun v => setBit v 31 true)).devRun

/-- A world's boot context resumes on its boot tile, where the world has started and the tile has no context recorded (R506). -/
def State.bootResumed (s : State) (w : World) : State :=
  let t := s.bootTile w
  if vget s.dev.started w.idx false && (s.ctx (bootCtxNum w)).claimed && (s.tile t).sys.recorded.isNone then
    (s.modTile t (·.modSys (fun y => { y with recorded := some (bootCtxNum w) }))).tileResume t
  else s

end

/-- An exit from DORMANT (R506). -/
theorem State.dormantExit_eq {s : State} {j : Nat} (hdormant : s.dev.st = .dormant) (hwaking : s.pdc.waking = some j) :
    s.dormantExit = ((s.dormantOver j).bootResumed .trade).bootResumed .opn := by
  rw [State.dormantExit, hdormant, hwaking]
  rfl

section
variable (s : State) (j : Nat)

/-- The restored slots and the latched sources are all that changes after the loss. -/
theorem State.dormantBack_onlyIn : (s.exitDone j).dormantLoss.onlyIn (s.dormantBack j) [.store, .irq] := by
  intro p hp
  cases p <;> simp [State.agrees, State.dormantBack, State.dormantRestore] at hp ⊢

/-- DRAM announced to a device that runs changes registers, device state and controller alone. -/
theorem State.devRun_modReg_onlyIn (slot off : Nat) (f : Word → Word) : s.onlyIn (s.modReg slot off f).devRun [.regs, .dev, .pdc] := by
  intro p hp
  cases p <;> simp [State.agrees, State.devRun] at hp ⊢

/-- Two changes in turn change the parts of both. -/
theorem State.onlyIn.andThen {s t r : State} {l m : List Part} (h : s.onlyIn t l) (h' : t.onlyIn r m) : s.onlyIn r (l ++ m) :=
  State.onlyIn_trans h h' (List.subset_append_left l m) (List.subset_append_right l m)

/-- What follows the zeroing changes the time block, what the retention log reports, DRAM's announcement and the device's state. -/
theorem State.dormantOver_later : (s.dormantBack j).zeroDram.onlyIn (s.dormantOver j) [.tb, .ptp, .upsets, .pdc, .regs, .dev] :=
  State.onlyIn_mono ((State.domainsOn_onlyIn _).andThen <| (State.scrubReport_onlyIn _).andThen <| State.devRun_modReg_onlyIn _ _ _ _) (by decide)

/-- What the exit keeps of the state, beside what DORMANT loses. -/
theorem State.dormantOver_onlyIn : s.onlyIn (s.dormantOver j)
    [.regs, .mem, .irq, .sweep, .upsets, .store, .ptp, .dev, .lanes, .bb, .tb, .usb, .sealEng, .pdc, .boot, .tiles] :=
  State.onlyIn_mono
    ((s.exitDone_onlyIn j).andThen <| (State.dormantLoss_onlyIn _).andThen <| (s.dormantBack_onlyIn j).andThen <|
      (State.zeroDram_onlyIn _).andThen <| s.dormantOver_later j)
    (by decide)

theorem State.dormantOver_runs : (s.dormantOver j).dev.st = .run := rfl

/-- The time block reloads from the RTC, unlocked (R501, R429). -/
theorem State.dormantOver_time : (s.dormantOver j).ptp = s.rtcNs ∧ (s.dormantOver j).tb.locked = false := by
  have hlater := (State.scrubReport_onlyIn (s.dormantBack j).zeroDram.domainsOn).andThen
    (State.devRun_modReg_onlyIn _ 0x023 0x1000 (fun v => setBit v 31 true))
  have hrtc : (s.dormantBack j).zeroDram.rtc = s.rtc :=
    ((s.exitDone_onlyIn j).andThen <| (State.dormantLoss_onlyIn _).andThen <| (s.dormantBack_onlyIn j).andThen <| State.zeroDram_onlyIn _) .rtc
      (by decide)
  exact ⟨(hlater .ptp (by decide)).trans (State.rtcNs_congr hrtc), congrArg TimeBlk.locked (hlater .tb (by decide))⟩

/-- The exit stays recorded: the wake logic's registers live in the ember domain (R493, R503). -/
theorem State.dormantOver_shown : s.ExitShown (s.dormantOver j) j := by
  have hpdc : (s.dormantBack j).zeroDram.domainsOn.pdc = (s.exitDone j).pdc :=
    ((State.dormantLoss_onlyIn _).andThen <| (s.dormantBack_onlyIn j).andThen <| (State.zeroDram_onlyIn _).andThen <| State.domainsOn_onlyIn _) .pdc
      (by decide)
  have hover : (s.dormantOver j).pdc = { (s.exitDone j).pdc with log := [], idleSince := none } := by
    rw [← hpdc, State.dormantOver, State.scrubReport_eq]
    rfl
  refine (s.exitDone_shown j).congr (fun o ho => ?_) (by rw [hover]) (by rw [hover])
  calc (s.dormantOver j).reg 0x02A o
      = ((s.dormantBack j).zeroDram.domainsOn.scrubReport.modReg 0x023 0x1000 (fun v => setBit v 31 true)).reg 0x02A o := State.regW_congr rfl
    _ = (s.dormantBack j).zeroDram.domainsOn.scrubReport.reg 0x02A o := by
        rw [State.reg_modReg _ _ (by decide) (by decide) (by decide) (by omega), if_neg (by omega)]
    _ = (s.dormantBack j).zeroDram.reg 0x02A o := State.regW_congr (State.scrubReport_onlyIn _ .regs (by decide))
    _ = (s.dormantBack j).reg 0x02A o := State.zeroDram_reg_wake _ (by omega)
    _ = (s.exitDone j).dormantLoss.reg 0x02A o := State.regW_congr (s.dormantBack_onlyIn j .regs (by decide))
    _ = (s.exitDone j).reg 0x02A o := State.dormantLoss_reg_wake _ (by omega)

/-- Every byte left is one that DORMANT keeps (Table 16-10). -/
theorem State.dormantOver_bytes {p : Nat × Byte} (hp : p ∈ (s.dormantOver j).mem.bytes) : keptAsleep p.1 = true := by
  have hmem : (s.dormantOver j).mem = (s.dormantBack j).zeroDram.mem := s.dormantOver_later j .mem (by decide)
  have hback : (s.dormantBack j).mem = (s.exitDone j).dormantLoss.mem := s.dormantBack_onlyIn j .mem (by decide)
  rw [hmem, State.zeroDram_bytes, hback, State.dormantLoss_bytes] at hp
  exact (List.mem_filter.mp (List.mem_filter.mp hp).1).2

/-- No tile runs before the boot contexts resume. -/
theorem State.dormantOver_run (u : TileId) : ((s.dormantOver j).tile u).run = none := by
  have htiles : (s.dormantOver j).tiles = (s.exitDone j).dormantLoss.tiles :=
    ((s.dormantBack_onlyIn j).andThen <| (State.zeroDram_onlyIn _).andThen <| s.dormantOver_later j) .tiles (by decide)
  rw [State.tile_congr htiles, State.dormantLoss_tile]
  rfl

end

/-! The boot contexts resume (R506): a fill starts, and no tile runs yet. -/

/-- From s to t tiles alone change, and every tile runs what it ran. -/
def State.KeepsRuns (s t : State) : Prop := s.onlyIn t [.tiles] ∧ ∀ u, (t.tile u).run = (s.tile u).run

theorem State.KeepsRuns.refl (s : State) : s.KeepsRuns s := ⟨fun p _ => by cases p <;> rfl, fun _ => rfl⟩

theorem State.KeepsRuns.trans {s t r : State} (h : s.KeepsRuns t) (h' : t.KeepsRuns r) : s.KeepsRuns r :=
  ⟨State.onlyIn_trans h.1 h'.1 (List.Subset.refl _) (List.Subset.refl _), fun u => (h'.2 u).trans (h.2 u)⟩

/-- A change of a tile that leaves what runs there. -/
theorem State.KeepsRuns.modTile (s : State) (t : TileId) {f : Tile → Tile} (hf : ∀ x, (f x).run = x.run) : s.KeepsRuns (s.modTile t f) := by
  refine ⟨fun p hp => ?_, fun u => ?_⟩
  · cases p <;> simp [State.agrees] at hp ⊢
  · by_cases hu : u = t
    · subst hu
      rw [State.tile_modTile, hf]
    · rw [State.tile_modTile_ne _ _ _ _ hu]

/-- A tile that resumes starts a fill (R502). -/
theorem State.KeepsRuns.tileResume (s : State) (t : TileId) : s.KeepsRuns (s.tileResume t) := by
  rw [State.tileResume]
  split
  · split
    · exact .modTile s t fun _ => rfl
    · exact .refl s
  · exact .refl s

theorem State.KeepsRuns.bootResumed (s : State) (w : World) : s.KeepsRuns (s.bootResumed w) := by
  rw [State.bootResumed]
  split
  · refine State.KeepsRuns.trans ?_ (.tileResume _ _)
    exact .modTile s _ fun _ => rfl
  · exact .refl s

/-- A recorded exit stands when a boot context resumes. -/
theorem State.ExitShown.keepsRuns {s0 s t : State} {j : Nat} (h : s0.ExitShown s j) (hkeeps : s.KeepsRuns t) : s0.ExitShown t j :=
  h.congr (fun _ _ => State.regW_congr (hkeeps.1 .regs (by decide))) (congrArg Pdc.waking (hkeeps.1 .pdc (by decide)))
    (congrArg Pdc.entry (hkeeps.1 .pdc (by decide)))

/-! The obligation. -/

/-- The part of a recorded exit that the statement names for every exit. -/
theorem State.ExitShown.left {s r : State} {j : Nat} (h : s.ExitShown r j) :
    r.reg 0x02A 0x1000 = 0 ∧ r.reg 0x02A 0x100C = BitVec.ofNat 32 (2 ^ 31 + j) ∧ r.pdc.waking = none ∧ r.pdc.entry = none := by
  obtain ⟨hlatch, hlast, -, hcontroller⟩ := h
  exact ⟨hlatch, hlast, hcontroller⟩

/-- A recorded exit is counted in WEXITS. -/
theorem State.ExitShown.counts {s r : State} {j : Nat} (h : s.ExitShown r j) : r.reg 0x02A 0x1010 = s.reg 0x02A 0x1010 + 1 := by
  obtain ⟨-, -, hcount, -⟩ := h
  exact hcount

/-- Settles O51: each event by the state it leaves; every exit is recorded by `exitDone`, and what follows it keeps the record. -/
theorem wakesAndExits : Obligations.WakesAndExits := by
  intro s q v b n t deep i left counts
  refine ⟨?latched, ?awake, ?doze, ?powered, ?asleep, ?banked, ?bankedAshed, ?dozeAshed, ?dormant, ?resumed, ?unrecorded, ?cleared⟩
  case latched =>
    intro j hheld hdeep hpending
    exact ⟨_, congrArg Host.Outcome.next (State.wakeEvent_latches hheld hdeep hpending), s.latched_bit _ j b.isLt, s.latched_waking _ j,
      s.latched_onlyIn _ j, s.latched_regsBut _ j⟩
  case awake => exact fun hawake => congrArg Host.Outcome.next (State.wakeEvent_awake hawake _)
  case doze =>
    intro hwakes hdoze hentry hserves hoff
    have hshown := State.ExitShown.tileWoken _ (s.irqTile i) (s.exitDone_shown i)
    have htiles : (s.exitDone i).tiles = s.tiles := s.exitDone_onlyIn i .tiles (by decide)
    exact ⟨_, congrArg Host.Outcome.next (State.dozeExit_wakes hdoze ⟨hwakes, hentry, hserves, hoff⟩), State.tileWoken_runs _ _,
      State.tileWoken_powered _ _, fun u hu => (State.tileWoken_tilesBut _ _ u hu).trans (State.tile_congr htiles), hshown.left, hshown.counts,
      congrArg Pdc.log (State.tileWoken_pdc _ _)⟩
  case powered =>
    intro hwakes hup hentry hserves hoff
    exact ⟨_, congrArg Host.Outcome.next (State.dozeExit_powers hup ⟨hwakes, hentry, hserves, hoff⟩), rfl,
      congrArg (fun x : Tile => x.sys.powered) (s.powerTile_tile (s.irqTile i)), s.powerTile_tilesBut _, s.powerTile_devRun_onlyIn _⟩
  case asleep => exact fun hasleep => congrArg Host.Outcome.next (State.dozeExit_asleep hasleep)
  case banked =>
    intro j hbanked hwaking u hserves
    have hshown := State.ExitShown.tileWoken _ u (s.exitDone_shown j).domainsOn
    have htiles : (s.exitDone j).domainsOn.tiles = s.tiles := s.exitDone_onlyIn j .tiles (by decide)
    have hrtc : (s.exitDone j).rtc = s.rtc := s.exitDone_onlyIn j .rtc (by decide)
    have hwoken := State.tileWoken_onlyIn (s.exitDone j).domainsOn u
    exact ⟨_, congrArg Host.Outcome.next (State.bankedExit_wakes hbanked hwaking hserves), State.tileWoken_runs _ _,
      State.tileWoken_powered _ _, fun x hx => (State.tileWoken_tilesBut _ _ x hx).trans (State.tile_congr htiles), hshown.left, hshown.counts,
      (hwoken .ptp (by decide)).trans (State.rtcNs_congr hrtc), congrArg TimeBlk.locked (hwoken .tb (by decide))⟩
  case bankedAshed =>
    intro j hbanked hwaking hashed
    have hshown := (s.exitDone_shown j).domainsOn.idleAgain
    have hnow : (s.exitDone j).domainsOn.now = s.now := s.exitDone_onlyIn j .now (by decide)
    have htiles : (s.exitDone j).domainsOn.tiles = s.tiles := s.exitDone_onlyIn j .tiles (by decide)
    exact ⟨congrArg Host.Outcome.next (State.bankedExit_ashed hbanked hwaking hashed), _,
      congrArg Host.Outcome.next (State.ashedExit_banked hbanked hwaking hashed i), State.idleAgain_idle _,
      (congrArg Pdc.idleSince (State.idleAgain_pdc _)).trans (congrArg some hnow), (State.idleAgain_tiles _).trans htiles,
      State.idleAgain_wevent _, hshown.counts⟩
  case dozeAshed =>
    intro hdoze hwakes hashed hentry
    have htiles : (s.exitDone i).tiles = s.tiles := s.exitDone_onlyIn i .tiles (by decide)
    exact ⟨_, congrArg Host.Outcome.next (State.ashedExit_doze hdoze hwakes hashed hentry), State.idleAgain_idle _,
      (State.idleAgain_tiles _).trans htiles, State.idleAgain_wevent _, (s.exitDone_shown i).idleAgain.left⟩
  case dormant =>
    intro j hdormant hwaking
    have hresumed : (s.dormantOver j).KeepsRuns (((s.dormantOver j).bootResumed .trade).bootResumed .opn) :=
      (State.KeepsRuns.bootResumed _ _).trans (.bootResumed _ _)
    have hshown := (s.dormantOver_shown j).keepsRuns hresumed
    obtain ⟨hframe, hruns⟩ := hresumed
    obtain ⟨hptp, hlocked⟩ := s.dormantOver_time j
    have hdev := hframe .dev (by decide)
    have hmem := hframe .mem (by decide)
    have hkept := (s.dormantOver_onlyIn j).andThen hframe
    refine ⟨_, congrArg Host.Outcome.next (State.dormantExit_eq hdormant hwaking), (congrArg Dev.st hdev).trans (s.dormantOver_runs j),
      hshown.left, hshown.counts, (hframe .ptp (by decide)).trans hptp, (congrArg TimeBlk.locked (hframe .tb (by decide))).trans hlocked,
      hkept .rtc (by decide), hkept .bus (by decide), hkept .ledger (by decide), hkept .dict (by decide), fun p hp => ?_,
      fun u => (hruns u).trans (s.dormantOver_run j u)⟩
    have hbytes : keptAsleep p.1 = true := s.dormantOver_bytes j (hmem ▸ hp)
    simpa [keptAsleep] using hbytes
  case resumed =>
    exact fun c hrecorded hserves hpowered hreset hhalted hrun hfreeze =>
      congrArg Host.Outcome.next (State.tileResume_fills hrecorded hserves hpowered hreset hhalted hrun hfreeze)
  case unrecorded => exact fun hnone => congrArg Host.Outcome.next (State.tileResume_unrecorded hnone)
  case cleared => exact fun hadmits => State.regWrite_next hadmits (by decide) (by decide) (s.slotWrite_wake q 0x1004 v (by decide))

end Sys2Proof.Machine

namespace Sys2Proof.Machine

/-! The translation registers of a tile (R306, R310, R311, R326): rows, masks, and the writes of a world's own copy. -/

/-- A row names all tiles' slots or none of them. -/
def RegRow.tileUniform (r : RegRow) : Bool :=
  (decide (r.slot ≤ 0x010) && decide (0x020 ≤ r.slot + r.slots)) || decide (r.slot + r.slots ≤ 0x010) || decide (0x020 ≤ r.slot)

theorem regRows_tileUniform : ∀ r ∈ regRows, r.tileUniform = true := List.all_eq_true.mp (by decide)

/-- Such a row covers an offset in every tile's slot or in none. -/
theorem RegRow.covers_tileSlot {r : RegRow} (h : r.tileUniform = true) (t : TileId) (off : Nat) :
    r.covers (tileSlot t) off = r.covers 0x010 off := by
  have ht := t.isLt
  simp only [RegRow.tileUniform, Bool.or_eq_true, Bool.and_eq_true, decide_eq_true_eq] at h
  have hslots : (decide (r.slot ≤ tileSlot t) && decide (tileSlot t < r.slot + r.slots))
      = (decide (r.slot ≤ 0x010) && decide (0x010 < r.slot + r.slots)) := by
    rw [tileSlot, ← Bool.decide_and, ← Bool.decide_and, decide_eq_decide]
    omega
  rw [RegRow.covers, hslots, RegRow.covers]

/-- The registers of every tile have the rows of tile 0's (Tables 10-1 to 10-3). -/
theorem findReg_tileSlot (t : TileId) (off : Nat) : findReg (tileSlot t) off = findReg 0x010 off := by
  have hcovers := List.filter_congr fun r hr => RegRow.covers_tileSlot (regRows_tileUniform r hr) t off
  rw [findReg, findReg, ← List.head?_filter, ← List.head?_filter, hcovers]

/-- The bits that a plain write of a world-banked register takes, where its ones clear nothing (R8, R306). -/
def bankedMask (slot off : Nat) : Option Word :=
  (findReg slot off).bind (fun r => if r.w1c = 0 ∧ r.banked = true then some r.rw else none)

theorem bankedMask_tileSlot (t : TileId) (off : Nat) : bankedMask (tileSlot t) off = bankedMask 0x010 off := by
  rw [bankedMask, findReg_tileSlot, bankedMask]

/-- The bits of a word of a block register that are written (Table 10-1). -/
def blockMask (j : BitVec 2) : Word := if j = 0 ∨ j = 1 then 0xFFFF0000 else if j = 2 then 0x000FFFFF else 0x80000F7C

theorem bankedMask_block : ∀ (k : BitVec 3) (j : BitVec 2), bankedMask 0x010 (0x1100 + 16 * k.toNat + 4 * j.toNat) = some (blockMask j) := by
  decide
theorem bankedMask_xctl : bankedMask 0x010 0x1180 = some 0x80000000 := by decide
theorem bankedMask_xbase : bankedMask 0x010 0x1184 = some 0x01FFFFFF := by decide

/-- The word old with the bits of a mask taken from v (R8). -/
def takenBits (m old v : Word) : Word := (old &&& ~~~ m) ||| (v &&& m)

theorem getLsbD_takenBits {m : Word} {b : Nat} (hb : m.getLsbD b = true) (old v : Word) : (takenBits m old v).getLsbD b = v.getLsbD b := by
  rw [takenBits, BitVec.getLsbD_or, BitVec.getLsbD_and, BitVec.getLsbD_and, BitVec.getLsbD_not, hb]
  simp

/-- A field inside the mask is v's. -/
theorem fld_takenBits {m : Word} {hi lo : Nat} (hlo : lo ≤ hi) (hm : ∀ b ≤ hi, lo ≤ b → m.getLsbD b = true) (old v : Word) :
    fld (takenBits m old v) hi lo = fld v hi lo := by
  refine Nat.eq_of_testBit_eq fun i => ?_
  rw [testBit_fld, testBit_fld]
  by_cases hi' : i < hi - lo + 1
  · rw [getLsbD_takenBits (hm _ (by omega) (by omega))]
  · simp [hi']

/-- World w's copy of a register with the bits of a mask taken from v, its other bits as they were (R8, R306). -/
def State.takeOwnBits (s : State) (w : World) (slot off : Nat) (m v : Word) : State :=
  s.setRegW w slot off (takenBits m (s.regW w slot off) v)

/-- A plain write of a world-banked register goes to the writer's world's own copy. -/
theorem State.plainWrite_of_bankedMask (s : State) (w : World) {slot off : Nat} (v : Word) {m : Word} (h : bankedMask slot off = some m) :
    s.plainWrite w slot off v = s.takeOwnBits w slot off m v := by
  obtain ⟨r, hrow, hmask⟩ := Option.bind_eq_some_iff.mp h
  split at hmask
  · rename_i hplain
    obtain ⟨hclears, hbanked⟩ := hplain
    cases hmask
    have hwritten : ∀ old, r.written old v = takenBits r.rw old v := by
      intro old
      have hkeeps : ~~~ (v &&& r.w1c) = BitVec.allOnes 32 := by simp [hclears]
      rw [RegRow.written, hkeeps, BitVec.and_allOnes, takenBits]
    simp only [State.plainWrite, hrow, hbanked, if_true, hwritten]
    rfl
  · cases hmask

/-- A tile with its translation structures emptied (R326). -/
def Tile.xlateEmptied (x : Tile) : Tile := { x with tlbs := x.tlbs.empty }

/-- World w's copy of a translation register of tile t written and the tile's structures emptied (R326). -/
def State.xlateSet (s : State) (w : World) (t : TileId) (off : Nat) (m v : Word) : State :=
  (s.takeOwnBits w (tileSlot t) off m v).modTile t Tile.xlateEmptied

section
variable (s : State) (q : Req) (t : TileId) (v : Word)

/-- A write of a block register's word (R310). -/
theorem State.xlateWrite_block (k : BitVec 3) (j : BitVec 2) :
    s.xlateWrite q t (0x1100 + 16 * k.toNat + 4 * j.toNat) v
      = (s.takeOwnBits q.world (tileSlot t) (0x1100 + 16 * k.toNat + 4 * j.toNat) (blockMask j) v, .ok 0) := by
  have hmask := (bankedMask_tileSlot t _).trans (bankedMask_block k j)
  have hk := k.isLt
  have hj := j.isLt
  rw [State.xlateWrite, if_neg (by omega), if_neg (by omega), s.plainWrite_of_bankedMask _ _ hmask]

/-- A write of XBASE (R326). -/
theorem State.xlateWrite_xbase : s.xlateWrite q t 0x1184 v = (s.xlateSet q.world t 0x1184 0x01FFFFFF v, .ok 0) := by
  have hmask := (bankedMask_tileSlot t _).trans bankedMask_xbase
  rw [State.xlateWrite, if_neg (by decide), if_pos rfl, s.plainWrite_of_bankedMask _ _ hmask]
  rfl

/-- A write of XCTL by the Open world (R311, R326). -/
theorem State.xlateWrite_xctl (hworld : q.world = .opn) : s.xlateWrite q t 0x1180 v = (s.xlateSet .opn t 0x1180 0x80000000 v, .ok 0) := by
  have hmask := (bankedMask_tileSlot t _).trans bankedMask_xctl
  rw [State.xlateWrite, if_pos rfl, hworld, s.plainWrite_of_bankedMask _ _ hmask]
  rfl

end

/-- An admitted write of a tile's register other than TDVFS and TFLOOR does what the translation registers do with it. -/
theorem regWrite_xlate {s r : State} {q : Req} {t : TileId} {off : Nat} {v : Word} (hadmits : s.admits q (tileSlot t) off) (hlo : 0x1100 ≤ off)
    (haligned : off % 4 = 0) (hwrite : s.xlateWrite q t off v = (r, .ok 0)) :
    (Host.Outcome.next (s.regWrite q (tileSlot t) off v) : Host.Outcome State Fault Refusal) = .next r.done := by
  refine State.regWrite_next hadmits (tileSlot_logic t) haligned ?_
  rw [s.slotWrite_tile q t off v (by omega), if_neg (by omega), if_neg (by omega), hwrite]

section
variable (s : State) {w : World} {t : TileId} {off : Nat} {m v : Word}

/-- The register written and the tile's structures are all that changes. -/
theorem State.xlateSet_onlyIn : s.onlyIn (s.xlateSet w t off m v) [.regs, .tiles] := by
  intro p hp
  cases p <;> simp [State.agrees, State.xlateSet, State.takeOwnBits] at hp ⊢

theorem State.xlateSet_regsBut (hoff : off < 0x10000) : s.regsBut (s.xlateSet w t off m v) [(tileSlot t, off)] :=
  State.regsBut_congr (State.regsBut_setRegW (State.regsBut_of_eq _ rfl) _ (tileSlot_lt t) hoff (List.mem_singleton.mpr rfl))
    (State.modTile_regs ..)

theorem State.xlateSet_tilesBut : s.tilesBut (s.xlateSet w t off m v) t :=
  fun _ hx => (State.tile_modTile_ne _ _ _ _ hx).trans (State.setRegW_tile ..)

theorem State.xlateSet_regW : (s.xlateSet w t off m v).regW w (tileSlot t) off = takenBits m (s.regW w (tileSlot t) off) v := by
  rw [State.xlateSet, State.modTile_regW, State.takeOwnBits, State.regW_setRegW_self]

theorem State.xlateSet_tile : (s.xlateSet w t off m v).tile t = (s.tile t).xlateEmptied := by
  rw [State.xlateSet, State.tile_modTile, State.takeOwnBits, State.setRegW_tile]

variable (w t off m v) in
/-- What an answered write of XBASE or XCTL leaves. -/
theorem State.xlateSet_done (hoff : off < 0x10000) :
    let r := (s.xlateSet w t off m v).done
    r.resp = some (.ok 0) ∧ s.onlyIn r [.regs, .tiles, .resp] ∧ s.regsBut r [(tileSlot t, off)] ∧ s.tilesBut r t
      ∧ r.regW w (tileSlot t) off = takenBits m (s.regW w (tileSlot t) off) v ∧ r.tile t = (s.tile t).xlateEmptied :=
  ⟨rfl, State.onlyIn_done s.xlateSet_onlyIn (by decide) (by decide), State.regsBut_done (s.xlateSet_regsBut hoff), s.xlateSet_tilesBut,
    s.xlateSet_regW, s.xlateSet_tile⟩

end

/-! TLBI (R322, R323). -/

/-- An entry stays in a list of translations where its page lies below or above the range. -/
theorem mem_tlbDrop {l : List (Nat × TlbEnt)} {lo hi : Nat} {e : Nat × TlbEnt} :
    e ∈ tlbDrop l lo hi ↔ e ∈ l ∧ (e.2.va + 2 ^ e.2.size ≤ lo ∨ hi ≤ e.2.va) := by
  have hapart : (!(decide (e.2.va < hi) && decide (lo < e.2.va + 2 ^ e.2.size))) = true ↔ e.2.va + 2 ^ e.2.size ≤ lo ∨ hi ≤ e.2.va := by
    simp only [Bool.not_eq_true', Bool.and_eq_false_iff, decide_eq_false_iff_not]
    omega
  rw [tlbDrop, List.mem_filter, hapart]

/-- The entries that an invalidation leaves in a tile's micro-TLBs and second level. -/
theorem Tlbs.mem_drop (l : Tlbs) (lo hi : Nat) (e : Nat × TlbEnt) :
    e ∈ (l.drop lo hi).iu ++ (l.drop lo hi).du ++ (l.drop lo hi).l2 ↔
      e ∈ l.iu ++ l.du ++ l.l2 ∧ (e.2.va + 2 ^ e.2.size ≤ lo ∨ hi ≤ e.2.va) := by
  simp only [Tlbs.drop, List.mem_append, mem_tlbDrop, or_and_right]

/-- A range invalidated in every tile and counted in TLBICNT (R323). -/
def State.tlbiDone (s : State) (lo hi : Nat) : State :=
  (s.mapTiles (fun x => { x with tlbs := x.tlbs.drop lo hi })).modReg 0x022 0x1804 (· + 1)

/-- TLBI by a supervisor (R322). -/
theorem exec_tlbi {s : State} {q : Req} (v : Word) (hadmits : s.admits q 0x022 0x1800) (hsup : q.sup = true) :
    exec (.tlbi q v) s = .next (s.tlbiDone (tlbiRange v).1 (tlbiRange v).2).done := by
  refine State.regWrite_next hadmits (by decide) (by decide) ?_
  rw [s.slotWrite_mesh q 0x1800 v (by decide), if_neg (by decide), if_pos rfl, State.tlbi, hsup]
  rfl

section
variable (s : State) (lo hi : Nat)

theorem State.tlbiDone_onlyIn : s.onlyIn (s.tlbiDone lo hi) [.regs, .tiles] := by
  intro p hp
  cases p <;> simp [State.agrees, State.tlbiDone] at hp ⊢

theorem State.tlbiDone_regsBut : s.regsBut (s.tlbiDone lo hi) [(0x022, 0x1804)] :=
  State.regsBut_setReg (State.regsBut_of_eq _ rfl) _ (by decide) (by decide) (List.mem_singleton.mpr rfl)

theorem State.tlbiDone_count : (s.tlbiDone lo hi).reg 0x022 0x1804 = s.reg 0x022 0x1804 + 1 := by
  rw [State.tlbiDone, State.reg_modReg_self, State.mapTiles_reg]

theorem State.tlbiDone_tlbs (u : TileId) : ((s.tlbiDone lo hi).tile u).tlbs = (s.tile u).tlbs.drop lo hi := by
  rw [State.tlbiDone, State.modReg_tile, State.tile_mapTiles]

end

/-! The walk of a frozen tile (R318). -/

/-- A bundle that waited for a walk meets the walk's fault. -/
def Flow.walkFaulted (f : Flow) (c : Code) (va : Word) : Flow :=
  { f with freeze := .none, fault := some ⟨c, va⟩, issuing := false, presp := [], held := none, checked := [] }

section
variable {s s1 : State} {t : TileId} {va : Word} {fetch store : Bool} (hfreeze : (s.tile t).flow.freeze = .walk va fetch store)
include hfreeze

/-- A walk that brings the translation ends the freeze. -/
theorem State.pageWalk_fills (hfill : s.fillXlate t va fetch = (s1, none)) :
    s.pageWalk t = s1.modTile t (·.modFlow (fun f => { f with freeze := .none })) := by
  simp only [State.pageWalk, hfreeze, hfill]

/-- A walk that fails ends the freeze with its fault. -/
theorem State.pageWalk_faults {c : Code} (hfill : s.fillXlate t va fetch = (s1, some c)) :
    s.pageWalk t = s1.modFlow t (·.walkFaulted c va) := by
  simp only [State.pageWalk, hfreeze, hfill]
  rfl

end

/-- A change of one tile touches the tiles alone. -/
theorem State.modFlow_onlyIn (s : State) (t : TileId) (f : Flow → Flow) : s.onlyIn (s.modFlow t f) [.tiles] := by
  intro p hp
  cases p <;> simp [State.agrees, State.modFlow] at hp ⊢

/-- Settles O18: each write by the copy its row's mask changes, TLBI by what its filter leaves, the walk by what it ends in. -/
theorem translationCommanded : Obligations.TranslationCommanded := by
  intro s q t k j v slot mask off
  refine ⟨?block, ?xbase, ?xctl, ?tlbi, ?fills, ?faults⟩
  case block =>
    have haligned : off % 4 = 0 := by omega
    exact fun hadmits => regWrite_xlate hadmits (by omega) haligned (s.xlateWrite_block q t v k j)
  case xbase =>
    intro hadmits
    obtain ⟨hresp, honly, hregs, htiles, hreads, htile⟩ := s.xlateSet_done q.world t 0x1184 0x01FFFFFF v (by decide)
    exact ⟨_, regWrite_xlate hadmits (by decide) (by decide) (s.xlateWrite_xbase q t v), hresp, honly, hregs, htiles,
      (congrArg (fld · 24 0) hreads).trans (fld_takenBits (by decide) (by decide) _ v), htile⟩
  case xctl =>
    intro hadmits hworld
    obtain ⟨hresp, honly, hregs, htiles, hreads, htile⟩ := s.xlateSet_done .opn t 0x1180 0x80000000 v (by decide)
    exact ⟨_, regWrite_xlate hadmits (by decide) (by decide) (s.xlateWrite_xctl q t v hworld), hresp, honly, hregs, htiles,
      (congrArg (bit · 31) hreads).trans (getLsbD_takenBits (by decide) _ v), htile⟩
  case tlbi =>
    intro hadmits hsup
    refine ⟨_, exec_tlbi v hadmits hsup, rfl, State.onlyIn_done (s.tlbiDone_onlyIn _ _) (by decide) (by decide),
      State.regsBut_done (s.tlbiDone_regsBut _ _), s.tlbiDone_count _ _, fun u e => ?_⟩
    rw [State.done_tile, State.tlbiDone_tlbs]
    exact Tlbs.mem_drop ..
  case fills => exact fun va fetch store s1 hfreeze hfill => congrArg Host.Outcome.next (State.pageWalk_fills hfreeze hfill)
  case faults =>
    intro va fetch store s1 c hfreeze hfill
    have htile := s1.tile_modFlow t (·.walkFaulted c va)
    exact ⟨_, congrArg Host.Outcome.next (State.pageWalk_faults hfreeze hfill), s1.modFlow_onlyIn t _,
      fun _ hx => s1.tile_modFlow_ne t _ _ hx, congrArg (·.flow.freeze) htile, congrArg (·.flow.fault) htile,
      congrArg (·.flow.issuing) htile⟩

end Sys2Proof.Machine

namespace Sys2Proof.Machine

/-! Requests to the dictionary that a world places in its mailbox (R337 to R343, Tables 11-2, 11-7, 11-8): how the record in a local slot reaches
the engine, and what a read or a write of an entry does. -/

/-- The role of a world's local session (R340). -/
def localRole (w : World) : Nat := if w = .trade then 5 else 4

theorem State.srcRole_mailbox (s : State) (w : World) (n : Nat) : s.srcRole (.mailbox w n) = some (localRole w) := by
  cases w <;> rfl

@[simp] theorem State.localTaken_dict (s : State) (w : World) (n : Nat) : (s.localTaken w n).dict = s.dict := State.emberWrite_dict ..
@[simp] theorem State.localTaken_now (s : State) (w : World) (n : Nat) : (s.localTaken w n).now = s.now := State.emberWrite_now ..

/-- A sound record is submitted as the request it asks for. -/
theorem State.localRequest_of_ready {s : State} {w : World} {n : Nat} (hready : s.localReady w n) :
    s.localRequest w n = (s.localTaken w n).submit (s.localRecord w n) := by
  obtain ⟨hsound, hlength, -⟩ := hready
  rw [State.localRequest, hsound, if_neg (by decide), if_neg hlength]
  rfl

/-- With nothing waiting, a request that the engine answers is answered at once (R338). -/
theorem State.submit_answered {s t : State} {r : DReq} (hidle : s.dict.waiting = []) (hreq : s.dictReq r = some t) : s.submit r = t := by
  simp [State.submit, hidle, hreq]

/-- A local row takes the record that its command names, and leaves what the engine leaves of it. -/
theorem State.localRow_answered {s t : State} {w : World} {slot : BitVec 5} {p : Nat → Nat → Bool} (hready : s.localReady w slot.toNat)
    (hnamed : p (s.localRecord w slot.toNat).op (s.localRecord w slot.toNat).key = true)
    (hreq : (s.localTaken w slot.toNat).dictReq (s.localRecord w slot.toNat) = some t) :
    (Host.Outcome.next (s.localRow w slot p) : Host.Outcome State Fault Refusal) = .next t := by
  have hidle : (s.localTaken w slot.toNat).dict.waiting = [] := by
    obtain ⟨-, -, hwaiting⟩ := hready
    rw [State.localTaken_dict, hwaiting]
  refine congrArg _ ((if_pos hnamed).trans ?_)
  rw [State.localRequest_of_ready hready, State.submit_answered hidle hreq]

section
variable {s : State} {r : DReq} {w : World} {n : Nat} (hsrc : r.src = .mailbox w n)
include hsrc

theorem State.answer_mailbox (status : Nat) (v : List Byte) : s.answer r status v = s.localAnswer w n status v := by
  rw [State.answer, hsrc]

/-- An answer whose value needs no value area in use is given at once (Table 11-7). -/
theorem State.tryAnswer_mailbox (status : Nat) {v : List Byte} (hfits : v.length ≤ 48 ∨ s.dict.areaBusy w = false) :
    s.tryAnswer r status v = some (s.localAnswer w n status v) := by
  have hnow : (decide (48 < v.length) && s.dict.areaBusy w) = false := by
    rcases hfits with hinline | hfree
    · rw [decide_eq_false (Nat.not_lt.mpr hinline), Bool.false_and]
    · rw [hfree, Bool.and_false]
  simp only [State.tryAnswer, hsrc, hnow, State.answer_mailbox hsrc]
  rfl

/-- A read or write is judged by the role of its world's local session (R340). -/
theorem State.dictReq_readWrite (hop : r.op = 1 ∨ r.op = 2) : s.dictReq r = s.readWrite r (localRole w) := by
  rcases hop with hop | hop <;> simp [State.dictReq, hsrc, State.srcRole_mailbox, hop]

/-- One of an entry that does not exist is answered with status 1 (Table 11-2 step 1). -/
theorem State.dictReq_unknown (hop : r.op = 1 ∨ r.op = 2) (hentry : s.dict.entry r.key = none) : s.dictReq r = some (s.localAnswer w n 1 []) := by
  rw [State.dictReq_readWrite hsrc hop, State.readWrite, hentry]
  exact State.tryAnswer_mailbox hsrc 1 (.inl (by simp))

/-- One that a later step of Table 11-2 refuses is answered with that step's status. -/
theorem State.dictReq_refused (hop : r.op = 1 ∨ r.op = 2) {e : DictDesc} (hentry : s.dict.entry r.key = some e)
    (hrefused : s.checkReq r e (localRole w) ≠ 0) : s.dictReq r = some (s.localAnswer w n (s.checkReq r e (localRole w)) []) := by
  rw [State.dictReq_readWrite hsrc hop, ← State.tryAnswer_mailbox hsrc _ (.inl (by simp))]
  simp only [State.readWrite, hentry]

/-- DESCRIBE is answered with the descriptor, which needs the value area (R350). -/
theorem State.dictReq_describe (hop : r.op = 3) {e : DictDesc} (hentry : s.dict.entry r.key = some e) (hfree : s.dict.areaBusy w = false) :
    s.dictReq r = some (s.localAnswer w n 0 e.bytes) := by
  rw [← State.tryAnswer_mailbox hsrc 0 (.inr hfree)]
  simp [State.dictReq, hsrc, State.srcRole_mailbox, hop, hentry]

/-- UPDATE by the world that keeps a value that no command holds (R352). -/
theorem State.dictReq_update (hop : r.op = 4) {e : DictDesc} (hentry : s.dict.entry r.key = some e) (hmay : s.mayUpdate w e = true)
    (hember : e.ember = true) (htype : e.typeOk r.value = true) (hrange : e.rangeOk r.value = true) (hcmd : cmdOf e.index = none) :
    s.dictReq r = some (((s.modDict (·.setVal r.key r.value)).publish r.key r.value).localAnswer w n 0 []) := by
  have hupdate : s.update w r.key r.value = ((s.modDict (·.setVal r.key r.value)).publish r.key r.value, 0) := by
    simp only [State.update, hentry, hmay, hember, htype, hrange, hcmd]
    rfl
  simp [State.dictReq, hsrc, State.srcRole_mailbox, hop, hupdate, State.answer_mailbox hsrc]

/-- REGISTER is answered with the status of the registration (R349). -/
theorem State.dictReq_register (hop : r.op = 5) :
    s.dictReq r = some ((s.register w r.value).1.localAnswer w n (s.register w r.value).2 []) := by
  simp [State.dictReq, hsrc, State.srcRole_mailbox, hop, State.answer_mailbox hsrc]

/-- UNREGISTER of an entry by its owner (R349). -/
theorem State.dictReq_unregister (hop : r.op = 6) {e : DictDesc} (hfound : s.dict.cat.find? (fun e => e.key == r.key) = some e)
    (howner : ownerWorld e.owner = w) : s.dictReq r = some ((s.modDict (fun d =>
      { d with cat := d.cat.filter (fun e => e.key != r.key), vals := Sparse.erase r.key d.vals })).localAnswer w n 0 []) := by
  simp [State.dictReq, hsrc, State.srcRole_mailbox, hop, State.unregister, hfound, howner, State.answer_mailbox hsrc]

end

/-- A registration for which the catalogue has room (R349). -/
theorem State.register_takes {s : State} {w : World} {b : List Byte} (hlength : b.length = 64) (hroom : s.dict.cat.length < 1024)
    (hok : s.registerOk w b = true) : s.register w b = (s.modDict (fun d => { d with cat := d.cat ++ [DictDesc.ofBytes b] }), 0) := by
  rw [State.register, if_neg (by omega), if_neg (by omega), hok]
  rfl

/-- A full catalogue refuses every registration (R349). -/
theorem State.register_full {s : State} {b : List Byte} (w : World) (hlength : b.length = 64) (hfull : 1024 ≤ s.dict.cat.length) :
    s.register w b = (s, 12) := by
  rw [State.register, if_neg (by omega), if_pos hfull]

/-- No forwarded write of the entry waits for its owner (R338). -/
def Dict.noWriteAhead (d : Dict) (key : Nat) : Prop := d.fwds.any (fun f => f.req.op == 2 && f.req.key == key) = false

section
variable {s : State} {r : DReq} {w : World} {n : Nat} {e : DictDesc} (hsrc : r.src = .mailbox w n)
  (hentry : s.dict.entry r.key = some e) (hcheck : s.checkReq r e (localRole w) = 0) (hahead : s.dict.noWriteAhead r.key) (hember : e.ember = true)
include hsrc hentry hcheck hahead hember

/-- A read that passes, of an entry that ember keeps (R343). -/
theorem State.dictReq_read (hop : r.op = 1) (hfits : (s.dictVal (s.unlocked r.src) e).length ≤ 48 ∨ s.dict.areaBusy w = false) :
    s.dictReq r = some (s.localAnswer w n 0 (s.dictVal (s.unlocked r.src) e)) := by
  rw [State.dictReq_readWrite hsrc (.inl hop), ← State.tryAnswer_mailbox hsrc 0 hfits]
  simp only [State.readWrite, hentry, hcheck, hop, hember, show _ = false from hahead]
  rfl

/-- A write that passes, of a built-in entry (R342, R343, R359). -/
theorem State.dictReq_writeBuiltin (hop : r.op = 2) (howner : e.owner = 0) {t : State} (hwrite : s.builtinWrite r e (localRole w) = (t, 0)) :
    s.dictReq r = some ((((t.accepted r e).noteRws e).localAnswer w n 0 []).afterWrite e (s.dict.val e) r.value) := by
  rw [State.dictReq_readWrite hsrc (.inr hop), ← State.answer_mailbox hsrc]
  simp only [State.readWrite, hentry, hcheck, hop, hember, howner, hwrite, show _ = false from hahead]
  rfl

/-- A write that passes, of a registered entry, goes to its owner's write queue (R353, R354). -/
theorem State.dictReq_writeQueued (hop : r.op = 2) (howner : e.owner ≠ 0) (hroom : (s.queueWrite r e (localRole w)).2 = 0) :
    s.dictReq r = some ((((s.queueWrite r e (localRole w)).1.accepted r e).noteRws e).localAnswer w n 0 []) := by
  rw [State.dictReq_readWrite hsrc (.inr hop), ← State.answer_mailbox hsrc]
  simp only [State.readWrite, hentry, hcheck, hop, hember, if_neg howner, hroom, show _ = false from hahead]
  rfl

end

/-- The entries whose writes open a permit (R425, R471) are that of the ports and those of the lanes. -/
theorem State.permitWrite_other (s : State) {key : Nat} (v : List Byte) (hport : key ≠ 0x110301) (hlanes : key < 0x300006 ∨ 0x400000 ≤ key) :
    s.permitWrite key v = s := by
  rw [State.permitWrite, if_neg (fun h => hport h.1), if_neg (by omega)]

/-- Only writes of the node ID and of the session to close have an effect after their answer (R379, R390). -/
theorem State.afterWrite_other (s : State) {e : DictDesc} (old v : List Byte) (hnode : e.key ≠ 0x020001) (hclose : e.key ≠ 0x023003) :
    s.afterWrite e old v = s := by
  rw [State.afterWrite, if_neg (fun h => hnode h.1), if_neg hclose]

/-- An accepted write of an entry that is not Expert renews no unlock (R342). -/
theorem State.accepted_plain (s : State) (r : DReq) {e : DictDesc} (hexpert : e.expert = false) : s.accepted r e = s.permitWrite e.key r.value := by
  simp [State.accepted, hexpert]

/-- A write of a built-in value that is a value and no more (R343). -/
theorem State.builtinWrite_value (s : State) {r : DReq} {e : DictDesc} {role : Nat} (hcmd : cmdOf e.index = none)
    (hkey : e.key ∉ [0x01F001, 0x012003, 0x240001, 0x023003]) :
    s.builtinWrite r e role = ((s.modDict (·.setVal e.key (e.written (s.dict.val e) r.value))).publish e.key (e.written (s.dict.val e) r.value), 0) := by
  simp only [List.mem_cons, List.not_mem_nil, or_false, not_or] at hkey
  obtain ⟨hunlock, herrors, hisle, hclose⟩ := hkey
  simp only [State.builtinWrite, hcmd, if_neg hunlock, if_neg herrors, if_neg hisle, if_neg hclose]

/-- The entry 0x2400:01, through which an isle's entries are removed (R362). -/
def isleRemoveEntry : DictDesc := mkEnt 0x240001 2 2 0 4 true 1 0 255 0

theorem Dict.entry_isleRemove (d : Dict) : d.entry 0x240001 = some isleRemoveEntry := by
  have hcmd : cmdOf (0x240001 / 256) = none := by decide
  have hisle : isleOf (0x240001 / 256) = none := by decide
  have hfind : (builtinA ++ builtinB).find? (fun e => e.key == 0x240001) = some isleRemoveEntry := by
    simp [builtinA, DictDesc.key, mkEnt, roEnt, roBytes, isleRemoveEntry]
  simp only [Dict.entry, Dict.builtin, hcmd, hisle, hfind]

theorem isleRemoveEntry_key : isleRemoveEntry.key = 0x240001 := rfl

/-- A write of 0x2400:01 removes the entries of the isle it names (R362). -/
theorem State.builtinWrite_isleRemove (s : State) (r : DReq) (role : Nat) :
    s.builtinWrite r isleRemoveEntry role = (s.isleRemove (ofBytes r.value), 0) := by
  have hcmd : cmdOf isleRemoveEntry.index = none := by decide
  simp only [State.builtinWrite, hcmd, isleRemoveEntry_key]
  rfl

/-- It is an Expert entry, so its write renews the unlock (R342). -/
theorem State.accepted_isleRemove (s : State) (r : DReq) : s.accepted r isleRemoveEntry = s.setUnlock r.src (some (s.now + 600000000)) := by
  rw [State.accepted, isleRemoveEntry_key]
  exact State.permitWrite_other _ _ (by decide) (.inl (by decide))

section
variable {s : State} {r : DReq} {w : World} {n : Nat} (hsrc : r.src = .mailbox w n)
include hsrc

/-- A write that passes, of a built-in value that opens nothing, is no command's and has no effect of its own (R343). -/
theorem State.dictReq_writeValue {e : DictDesc} (hentry : s.dict.entry r.key = some e) (hcheck : s.checkReq r e (localRole w) = 0)
    (hahead : s.dict.noWriteAhead r.key) (hember : e.ember = true) (hop : r.op = 2) (howner : e.owner = 0) (hexpert : e.expert = false)
    (hcmd : cmdOf e.index = none) (hlow : e.key < 0x110000) (hplain : e.key ∉ [0x01F001, 0x012003, 0x240001, 0x023003, 0x020001]) :
    s.dictReq r = some ((((s.modDict (·.setVal e.key (e.written (s.dict.val e) r.value))).publish e.key
      (e.written (s.dict.val e) r.value)).noteRws e).localAnswer w n 0 []) := by
  simp only [List.mem_cons, List.not_mem_nil, or_false, not_or] at hplain
  obtain ⟨hunlock, herrors, hisle, hclose, hnode⟩ := hplain
  rw [State.dictReq_writeBuiltin hsrc hentry hcheck hahead hember hop howner
      (State.builtinWrite_value s hcmd (by simp [hunlock, herrors, hisle, hclose])),
    State.afterWrite_other _ _ _ hnode hclose, State.accepted_plain _ _ hexpert, State.permitWrite_other _ _ (by omega) (.inl (by omega))]

/-- A write of 0x2400:01 that passes: the isle's entries go, and the unlock is renewed (R342, R362). -/
theorem State.dictReq_isleRemove (hop : r.op = 2) (hkey : r.key = 0x240001) (hcheck : s.checkReq r isleRemoveEntry (localRole w) = 0)
    (hahead : s.dict.noWriteAhead r.key) :
    s.dictReq r = some (((s.isleRemove (ofBytes r.value)).setUnlock r.src (some (s.now + 600000000))).localAnswer w n 0 []) := by
  have hentry : s.dict.entry r.key = some isleRemoveEntry := by rw [hkey, Dict.entry_isleRemove]
  rw [State.dictReq_writeBuiltin hsrc hentry hcheck hahead rfl hop rfl (State.builtinWrite_isleRemove s r _), State.accepted_isleRemove,
    State.afterWrite_other _ _ _ (by decide) (by decide)]
  rfl

end

end Sys2Proof.Machine

namespace Sys2Proof.Machine

/-! What the engine writes in its mailboxes: which bytes memory holds after a write of ember SRAM (R345, R566), and what an answer to a local
request leaves (Tables 11-7 to 11-9). -/

/-- No check unit of eight bytes under the addresses from lo to hi holds an uncorrectable error. -/
def Mem.soundOn (m : Mem) (lo hi : Nat) : Prop := ∀ x, lo ≤ x → x < hi → Sparse.get false (x / 8 * 8) m.damaged = false

/-- Memory holds the bytes bs from pa. -/
def Mem.holds (m : Mem) (pa : Nat) (bs : List Byte) : Prop := ∀ i, i < bs.length → m.byte (pa + i) = bs.getD i 0

/-- Bytes that memory holds are read back. -/
theorem Mem.holds.read {m : Mem} {pa : Nat} {bs : List Byte} (h : m.holds pa bs) : m.read pa bs.length = bs := by
  refine List.ext_getElem (by simp [Mem.read]) fun i _ hi => ?_
  simp [Mem.read, h i hi, hi]

theorem ofBytes_toBytes (n v : Nat) : ofBytes (toBytes n v) = v % 256 ^ n := by
  induction n generalizing v with
  | zero => simp [toBytes, ofBytes, Nat.mod_one]
  | succ n ih =>
    calc ofBytes (toBytes (n + 1) v) = v % 256 + 256 * (v / 256 % 256 ^ n) := by rw [toBytes, ofBytes, ih]; rfl
      _ = v % 256 ^ (n + 1) := by rw [Nat.pow_succ', Nat.mod_mul]

/-- A number that memory holds in n bytes is read back. -/
theorem Mem.holds.val {m : Mem} {pa n v : Nat} (h : m.holds pa (toBytes n v)) (hv : v < 256 ^ n) : m.val pa n = v := by
  have hread := h.read
  rw [toBytes_len] at hread
  rw [Mem.val, hread, ofBytes_toBytes, Nat.mod_eq_of_lt hv]

/-- The bytes of the ROM are fixed. -/
theorem Mem.byte_rom (m m' : Mem) {p : Nat} (hp : p < 0x10000) : m'.byte p = m.byte p := by
  rw [Mem.byte, Mem.byte, if_pos hp, if_pos hp]

/-- The byte at p after the bytes bs were written from pa. -/
def Mem.byteAfter (m : Mem) (pa : Nat) (bs : List Byte) (p : Nat) : Byte :=
  if pa ≤ p ∧ p < pa + bs.length then bs.getD (p - pa) 0 else m.byte p

section
variable {s : State} {pa : Nat} {bs : List Byte}

/-- The marks of damage after a write of one check unit: at most fewer. -/
theorem State.writeUnit_damaged (u x : Nat) {y : Nat} (hy : Sparse.get false y s.mem.damaged = false) :
    Sparse.get false y (s.writeUnit u pa bs x).mem.damaged = false := by
  have hputs : ∀ (l : List Byte) (m : Mem) (q : Nat), (m.putBytes q l).damaged = m.damaged := by
    intro l
    induction l with
    | nil => exact fun _ _ => rfl
    | cons b l ih => exact fun m q => ih (m.setByte q b) (q + 1)
  simp only [State.writeUnit]
  split
  · simp [Sparse.get_erase, hy]
  · split
    · exact hy
    · exact (congrArg (Sparse.get false y) (hputs ..)).trans hy

/-- A write of one sound check unit changes those of the bytes that lie in it. -/
theorem State.writeUnit_byte {u x p : Nat} (hsound : Sparse.get false x s.mem.damaged = false) (hp : 0x10000 ≤ p) :
    (s.writeUnit u pa bs x).mem.byte p = if x ≤ p ∧ p < x + u then s.mem.byteAfter pa bs p else s.mem.byte p := by
  have hbytes : (s.writeUnit u pa bs x).mem.byte p = (s.mem.putBytes (max pa x)
      ((bs.drop (max pa x - pa)).take (min (pa + bs.length) (x + u) - max pa x))).byte p := by
    simp only [State.writeUnit, hsound]
    split <;> rfl
  rw [hbytes, Mem.byte_putBytes _ _ _ _ hp, List.length_take, List.length_drop, Mem.byteAfter]
  by_cases hin : (x ≤ p ∧ p < x + u) ∧ pa ≤ p ∧ p < pa + bs.length
  · obtain ⟨hunit, hwritten⟩ := hin
    rw [if_pos (by omega), if_pos hunit, if_pos hwritten, List.getElem?_take, if_pos (by omega), List.getElem?_drop,
      show max pa x - pa + (p - max pa x) = p - pa by omega, List.getD_eq_getElem?_getD]
  · rw [if_neg (by omega)]
    split
    · rw [if_neg (by omega)]
    · rfl

/-- The writes of the check units of a list, one after another. -/
theorem State.foldl_writeUnit_damaged (u : Nat) (l : List Nat) (s : State) {y : Nat} (hy : Sparse.get false y s.mem.damaged = false) :
    Sparse.get false y (l.foldl (fun s x => s.writeUnit u pa bs x) s).mem.damaged = false := by
  induction l generalizing s with
  | nil => exact hy
  | cons x l ih => exact ih _ (State.writeUnit_damaged u x hy)

theorem State.foldl_writeUnit_byte {u p : Nat} (hp : 0x10000 ≤ p) (l : List Nat) (s : State)
    (hsound : ∀ x ∈ l, Sparse.get false x s.mem.damaged = false) :
    (l.foldl (fun s x => s.writeUnit u pa bs x) s).mem.byte p
      = if ∃ x ∈ l, x ≤ p ∧ p < x + u then s.mem.byteAfter pa bs p else s.mem.byte p := by
  induction l generalizing s with
  | nil => simp
  | cons x l ih =>
    have hunit := State.writeUnit_byte (pa := pa) (bs := bs) (u := u) (hsound x (by simp)) hp
    have hafter : (s.writeUnit u pa bs x).mem.byteAfter pa bs p = s.mem.byteAfter pa bs p := by
      rw [Mem.byteAfter, hunit, Mem.byteAfter]
      split <;> simp
    rw [List.foldl_cons, ih _ fun y hy => State.writeUnit_damaged u x (hsound y (by simp [hy])), hafter, hunit]
    by_cases hl : ∃ y ∈ l, y ≤ p ∧ p < y + u
    · have hcons : ∃ y ∈ x :: l, y ≤ p ∧ p < y + u := by
        obtain ⟨y, hy, hin⟩ := hl
        exact ⟨y, List.mem_cons_of_mem x hy, hin⟩
      rw [if_pos hl, if_pos hcons]
    · have hcons : (∃ y ∈ x :: l, y ≤ p ∧ p < y + u) ↔ x ≤ p ∧ p < x + u := by
        constructor
        · rintro ⟨y, hy, hin⟩
          rcases List.mem_cons.mp hy with rfl | hy
          · exact hin
          · exact absurd ⟨y, hy, hin⟩ hl
        · exact fun hin => ⟨x, List.mem_cons_self, hin⟩
      rw [if_neg hl]
      simp only [hcons]

end

/-- The mailboxes lie in ember SRAM, whose check units are of eight bytes (Tables 1-4, 2-7a, 11-5). -/
theorem State.place_mailboxes (s : State) {pa : Nat} (hlo : 0x6030000 ≤ pa) (hhi : pa < 0x6038000) : (s.place pa).unit = 8 := by
  have hplace : s.place pa = .ember := by
    simp only [State.place]
    rw [if_neg (by omega), if_neg (by omega), if_neg (by omega), if_neg (by omega), if_neg (by omega), if_pos (by omega)]
  rw [hplace]
  rfl

section
variable {s : State} {pa : Nat} (hlo : 0x6030000 ≤ pa) (hhi : pa < 0x6038000)
include hlo hhi

/-- The check units under n bytes from an address of a mailbox. -/
theorem State.mem_units {n x : Nat} : x ∈ s.units pa n ↔ x % 8 = 0 ∧ pa / 8 * 8 ≤ x ∧ x < pa + n := by
  simp only [State.units, s.place_mailboxes hlo hhi, List.mem_filter, List.mem_map, List.mem_range, decide_eq_true_eq]
  constructor
  · rintro ⟨⟨i, hi, rfl⟩, hx⟩
    omega
  · rintro ⟨haligned, hfirst, hlast⟩
    exact ⟨⟨x / 8 - pa / 8, by omega, by omega⟩, hlast⟩

/-- The engine writes its mailboxes unit by unit. -/
theorem State.emberWrite_mem (bs : List Byte) :
    (s.emberWrite pa bs).mem = ((s.units pa bs.length).foldl (fun s x => s.writeUnit 8 pa bs x) (s.dropCopies pa bs.length)).mem := by
  simp only [State.emberWrite, State.memWrite, State.place_mailboxes _ hlo hhi]
  rfl

/-- Units that are sound stay sound. -/
theorem State.emberWrite_soundOn {lo hi : Nat} (h : s.mem.soundOn lo hi) (bs : List Byte) : (s.emberWrite pa bs).mem.soundOn lo hi := by
  intro x hx hx'
  rw [State.emberWrite_mem hlo hhi]
  exact State.foldl_writeUnit_damaged 8 _ (s.dropCopies pa bs.length) (h x hx hx')

variable {bs : List Byte} (hbs : 0 < bs.length) (hsound : s.mem.soundOn pa (pa + bs.length))
include hbs hsound

/-- A write that meets no damaged unit writes its bytes and leaves every other byte (R566). -/
theorem State.emberWrite_byte (p : Nat) : (s.emberWrite pa bs).mem.byte p = s.mem.byteAfter pa bs p := by
  have hunits : ∀ x ∈ s.units pa bs.length, Sparse.get false x s.mem.damaged = false := by
    intro x hx
    obtain ⟨haligned, hfirst, hlast⟩ := (State.mem_units hlo hhi).mp hx
    have hunder := hsound (max pa x) (by omega) (by omega)
    rwa [show max pa x / 8 * 8 = x by omega] at hunder
  by_cases hrom : p < 0x10000
  · rw [Mem.byteAfter, if_neg (by omega)]
    exact Mem.byte_rom _ _ hrom
  · rw [State.emberWrite_mem hlo hhi, State.foldl_writeUnit_byte (by omega) _ (s.dropCopies pa bs.length) hunits]
    split
    · rfl
    · rename_i hnone
      rw [Mem.byteAfter, if_neg]
      · rfl
      · exact fun hin => hnone ⟨p / 8 * 8, (State.mem_units hlo hhi).mpr ⟨by omega, by omega, by omega⟩, by omega, by omega⟩

end

/-- The local slots lie in their world's mailbox (Table 11-5). -/
def localSlotAddr (w : World) (slot : BitVec 5) : Nat := mailboxOf w + 64 * slot.toNat

theorem localSlotAddr_bounds (w : World) (slot : BitVec 5) :
    0x6030000 ≤ localSlotAddr w slot ∧ localSlotAddr w slot + 64 ≤ 0x6038000 ∧ localSlotAddr w slot % 64 = 0 := by
  have hslot := slot.isLt
  cases w <;> simp only [localSlotAddr, mailboxOf] <;> omega

/-- A slot that holds no damaged unit is sound. -/
theorem State.soundOn_slot {s : State} {w : World} {slot : BitVec 5} (h : s.isDamaged (localSlotAddr w slot) 64 = false) :
    s.mem.soundOn (localSlotAddr w slot) (localSlotAddr w slot + 64) := by
  obtain ⟨hlo, hhi, haligned⟩ := localSlotAddr_bounds w slot
  intro x hx hx'
  have hunit := s.place_mailboxes hlo (by omega)
  simp only [State.isDamaged, hunit, List.any_eq_false, List.mem_range, Bool.and_eq_true, decide_eq_true_eq, not_and, Bool.not_eq_true] at h
  have hx8 := h (x / 8 - localSlotAddr w slot / 8) (by omega)
  rw [show localSlotAddr w slot / 8 * 8 + (x / 8 - localSlotAddr w slot / 8) * 8 = x / 8 * 8 by omega] at hx8
  exact hx8 (by omega)

/-- Bytes written into a local slot from its byte k. -/
def State.slotPut (s : State) (w : World) (slot : BitVec 5) (k : Nat) (bs : List Byte) : State := s.emberWrite (localSlotAddr w slot + k) bs

/-- The local slot holds the bytes bs from its byte k. -/
def State.slotHolds (s : State) (w : World) (slot : BitVec 5) (k : Nat) (bs : List Byte) : Prop := s.mem.holds (localSlotAddr w slot + k) bs

/-- No check unit of the local slot holds an uncorrectable error. -/
def State.slotSound (s : State) (w : World) (slot : BitVec 5) : Prop := s.mem.soundOn (localSlotAddr w slot) (localSlotAddr w slot + 64)

section
variable {s : State} {w : World} {slot : BitVec 5} {k : Nat} {bs : List Byte}

theorem State.slotPut_sound (hk : k < 64) (hsound : s.slotSound w slot) : (s.slotPut w slot k bs).slotSound w slot := by
  obtain ⟨hlo, hhi, -⟩ := localSlotAddr_bounds w slot
  exact State.emberWrite_soundOn (by omega) (by omega) hsound bs

variable (hsound : s.slotSound w slot) (hbs : 0 < bs.length) (hfits : k + bs.length ≤ 64)
include hsound hbs hfits

theorem State.slotPut_byte (p : Nat) : (s.slotPut w slot k bs).mem.byte p = s.mem.byteAfter (localSlotAddr w slot + k) bs p := by
  obtain ⟨hlo, hhi, -⟩ := localSlotAddr_bounds w slot
  exact State.emberWrite_byte (by omega) (by omega) hbs (fun x hx hx' => hsound x (by omega) (by omega)) p

theorem State.slotPut_holds : (s.slotPut w slot k bs).slotHolds w slot k bs := by
  intro i hi
  rw [State.slotPut_byte hsound hbs hfits, Mem.byteAfter, if_pos (by omega), Nat.add_sub_cancel_left]

theorem State.slotPut_holds_apart {j : Nat} {cs : List Byte} (h : s.slotHolds w slot j cs) (hapart : j + cs.length ≤ k ∨ k + bs.length ≤ j) :
    (s.slotPut w slot k bs).slotHolds w slot j cs := by
  intro i hi
  rw [State.slotPut_byte hsound hbs hfits, Mem.byteAfter, if_neg (by omega), h i hi]

/-- Nothing outside the slot is written. -/
theorem State.slotPut_byte_outside {p : Nat} (hp : p < localSlotAddr w slot ∨ localSlotAddr w slot + 64 ≤ p) :
    (s.slotPut w slot k bs).mem.byte p = s.mem.byte p := by
  rw [State.slotPut_byte hsound hbs hfits, Mem.byteAfter, if_neg (by omega)]

end

/-- The state with the value of an answer in its slot: LENGTH, VOFF 0 and the value inline, where there is one (Table 11-7). -/
def State.slotValue (s : State) (w : World) (slot : BitVec 5) (v : List Byte) : State :=
  if v.isEmpty then s else ((s.slotPut w slot 8 (toBytes 2 v.length)).slotPut w slot 10 (toBytes 2 0)).slotPut w slot 16 v

/-- The state with the value and the STATUS of an answer in its slot. -/
def State.slotAnswered (s : State) (w : World) (slot : BitVec 5) (status : Nat) (v : List Byte) : State :=
  (s.slotValue w slot v).slotPut w slot 5 (toBytes 1 status)

/-- An answer whose value is inline writes its slot and sets its bit of LDONE (Tables 11-7, 11-9). -/
theorem State.localAnswer_inline (s : State) (w : World) (slot : BitVec 5) (status : Nat) {v : List Byte} (hinline : v.length ≤ 48) :
    s.localAnswer w slot.toNat status v = (s.slotAnswered w slot status v).setRegW w 0x028 0x1008
      (setBit ((s.slotAnswered w slot status v).regW w 0x028 0x1008) slot.toNat true) := by
  simp only [State.localAnswer, if_pos hinline]
  rfl

section
variable {s : State} {w : World} {slot : BitVec 5} {v : List Byte}

/-- An answer touches memory, the caches and registers alone; of the registers, none before LDONE is set. -/
theorem State.slotAnswered_onlyIn (status : Nat) : s.onlyIn (s.slotAnswered w slot status v) [.mem, .tiles] := by
  have hput : ∀ (t : State) (k : Nat) (bs : List Byte), t.onlyIn (t.slotPut w slot k bs) [.mem, .tiles] := by
    intro t k bs p hp
    cases p <;> simp [State.agrees, State.slotPut] at hp ⊢
  have hvalue : s.onlyIn (s.slotValue w slot v) [.mem, .tiles] := by
    rw [State.slotValue]
    split
    · exact fun p _ => by cases p <;> rfl
    · exact State.onlyIn_mono ((hput s 8 _).andThen ((hput _ 10 _).andThen (hput _ 16 _))) (by decide)
  exact State.onlyIn_mono (hvalue.andThen (hput _ 5 _)) (by decide)

variable (hinline : v.length ≤ 48) (hsound : s.slotSound w slot)
include hsound

theorem State.slotValue_sound : (s.slotValue w slot v).slotSound w slot := by
  rw [State.slotValue]
  split
  · exact hsound
  · exact State.slotPut_sound (by decide) (State.slotPut_sound (by decide) (State.slotPut_sound (by decide) hsound))

theorem State.slotAnswered_status (status : Nat) : (s.slotAnswered w slot status v).slotHolds w slot 5 (toBytes 1 status) :=
  State.slotPut_holds (State.slotValue_sound hsound) (by simp [toBytes_len]) (by simp [toBytes_len])

include hinline

theorem State.slotValue_byte_outside {p : Nat} (hp : p < localSlotAddr w slot ∨ localSlotAddr w slot + 64 ≤ p) :
    (s.slotValue w slot v).mem.byte p = s.mem.byte p := by
  have hsound1 := State.slotPut_sound (k := 8) (bs := toBytes 2 v.length) (by decide) hsound
  have hsound2 := State.slotPut_sound (k := 10) (bs := toBytes 2 0) (by decide) hsound1
  rw [State.slotValue]
  split
  · rfl
  · rename_i hv
    have hlen : 0 < v.length := by simpa [List.length_pos_iff] using hv
    rw [State.slotPut_byte_outside hsound2 hlen (by omega) hp,
      State.slotPut_byte_outside hsound1 (by simp [toBytes_len]) (by simp [toBytes_len]) hp,
      State.slotPut_byte_outside hsound (by simp [toBytes_len]) (by simp [toBytes_len]) hp]

/-- Where there is a value, its slot holds LENGTH, VOFF 0 and the value. -/
theorem State.slotValue_holds (hv : v ≠ []) : (s.slotValue w slot v).slotHolds w slot 8 (toBytes 2 v.length)
    ∧ (s.slotValue w slot v).slotHolds w slot 10 (toBytes 2 0) ∧ (s.slotValue w slot v).slotHolds w slot 16 v := by
  have hlen : 0 < v.length := List.length_pos_iff.mpr hv
  have hfield : ∀ n, (toBytes 2 n).length = 2 := toBytes_len 2
  have hsound1 := State.slotPut_sound (k := 8) (bs := toBytes 2 v.length) (by decide) hsound
  have hsound2 := State.slotPut_sound (k := 10) (bs := toBytes 2 0) (by decide) hsound1
  have hlength := State.slotPut_holds (k := 8) (bs := toBytes 2 v.length) hsound (by simp [hfield]) (by simp [hfield])
  have hvoff := State.slotPut_holds (k := 10) (bs := toBytes 2 0) hsound1 (by simp [hfield]) (by simp [hfield])
  have hlength1 := State.slotPut_holds_apart (k := 10) (bs := toBytes 2 0) hsound1 (by simp [hfield]) (by simp [hfield]) hlength (by simp [hfield])
  rw [State.slotValue, if_neg (by simpa using hv)]
  exact ⟨State.slotPut_holds_apart hsound2 hlen (by omega) hlength1 (by simp [hfield]),
    State.slotPut_holds_apart hsound2 hlen (by omega) hvoff (by simp [hfield]), State.slotPut_holds hsound2 hlen (by omega)⟩

theorem State.slotAnswered_byte_outside (status : Nat) {p : Nat} (hp : p < localSlotAddr w slot ∨ localSlotAddr w slot + 64 ≤ p) :
    (s.slotAnswered w slot status v).mem.byte p = s.mem.byte p := by
  rw [State.slotAnswered, State.slotPut_byte_outside (State.slotValue_sound hsound) (by simp [toBytes_len]) (by simp [toBytes_len]) hp,
    State.slotValue_byte_outside hinline hsound hp]

/-- The STATUS leaves LENGTH, VOFF and the value. -/
theorem State.slotAnswered_holds (status : Nat) (hv : v ≠ []) : (s.slotAnswered w slot status v).slotHolds w slot 8 (toBytes 2 v.length)
    ∧ (s.slotAnswered w slot status v).slotHolds w slot 10 (toBytes 2 0) ∧ (s.slotAnswered w slot status v).slotHolds w slot 16 v := by
  have hkeep : ∀ {j : Nat} {cs : List Byte}, (s.slotValue w slot v).slotHolds w slot j cs → 6 ≤ j →
      (s.slotAnswered w slot status v).slotHolds w slot j cs := fun h hj =>
    State.slotPut_holds_apart (State.slotValue_sound hsound) (by simp [toBytes_len]) (by simp [toBytes_len]) h (by simp [toBytes_len, hj])
  obtain ⟨hlength, hvoff, hvalue⟩ := State.slotValue_holds hinline hsound hv
  exact ⟨hkeep hlength (by decide), hkeep hvoff (by decide), hkeep hvalue (by decide)⟩

end

end Sys2Proof.Machine

namespace Sys2Proof.Machine

/-! Local requests and their answers. -/

/-- Settles O25: a sound record is submitted at once, each request by what the engine makes of it, its answer by what its slot holds. -/
theorem localRequestsAnswered : Obligations.LocalRequestsAnswered := by
  refine ⟨?requests, ?answers⟩
  case requests =>
    intro s w slot hready r s1 role answer
    have hsrc : r.src = .mailbox w slot.toNat := rfl
    have hdict : s1.dict = s.dict := s.localTaken_dict w slot.toNat
    rw [← hdict]
    refine ⟨?read, ?unknown, ?refused, ?builtin, ?queued, ?describe, ?update, ?register, ?full, ?unregister, ?isle⟩
    case read =>
      intro e hop hentry hcheck hahead hember hfits
      exact State.localRow_answered hready (by simpa using hop) (State.dictReq_read hsrc hentry hcheck hahead hember hop hfits)
    case unknown =>
      exact fun hop hentry => State.localRow_answered hready (by simpa using hop) (State.dictReq_unknown hsrc (.inl hop) hentry)
    case refused =>
      intro e hop hentry hrefused
      have hreq : s1.dictReq r = some (answer s1 (s1.checkReq r e role) []) := State.dictReq_refused hsrc hop hentry hrefused
      rcases hop with hop | hop
      · rw [if_pos hop]
        exact State.localRow_answered hready (by simpa using hop) hreq
      · rw [if_neg (by omega)]
        exact State.localRow_answered hready (by simpa using hop) hreq
    case builtin =>
      intro e hop hentry hcheck hahead hember howner hexpert hcmd hlow hplain
      exact State.localRow_answered hready (by simpa using hop)
        (State.dictReq_writeValue hsrc hentry hcheck hahead hember hop howner hexpert hcmd hlow hplain)
    case queued =>
      intro e hop hentry hcheck hahead hember howner hroom
      exact State.localRow_answered hready (by simpa using hop) (State.dictReq_writeQueued hsrc hentry hcheck hahead hember hop howner hroom)
    case describe =>
      exact fun e hop hentry hfree => State.localRow_answered hready (by simpa using hop) (State.dictReq_describe hsrc hop hentry hfree)
    case update =>
      intro e hop hentry hmay hember htype hrange hcmd
      exact State.localRow_answered hready (by simpa using hop) (State.dictReq_update hsrc hop hentry hmay hember htype hrange hcmd)
    case register =>
      intro hop hlength hroom hok
      have hreq := State.dictReq_register hsrc (s := s1) hop
      rw [State.register_takes hlength hroom hok] at hreq
      exact State.localRow_answered hready (by simpa using hop) hreq
    case full =>
      intro hop hlength hfull
      have hreq := State.dictReq_register hsrc (s := s1) hop
      rw [State.register_full w hlength hfull] at hreq
      exact State.localRow_answered hready (by simpa using hop) hreq
    case unregister =>
      exact fun e hop hfound howner => State.localRow_answered hready (by simpa using hop) (State.dictReq_unregister hsrc hop hfound howner)
    case isle =>
      intro hop hkey hcheck hahead
      have hreq := State.dictReq_isleRemove hsrc (s := s1) hop hkey hcheck hahead
      rw [show s1.now = s.now from s.localTaken_now w slot.toNat] at hreq
      exact State.localRow_answered hready (by simpa using ⟨hop, hkey⟩) hreq
  case answers =>
    intro s w slot status v a t hsound hinline
    have hslot : s.slotSound w slot := State.soundOn_slot hsound
    have ht : t = (s.slotAnswered w slot status.toNat v).setRegW w 0x028 0x1008 _ := s.localAnswer_inline w slot status.toNat hinline
    have honly := State.slotAnswered_onlyIn (s := s) (w := w) (slot := slot) (v := v) status.toNat
    have hregs : (s.slotAnswered w slot status.toNat v).regs = s.regs := honly .regs (by decide)
    have hmem : t.mem = (s.slotAnswered w slot status.toNat v).mem := by simp only [ht, State.setRegW_frame]
    refine ⟨?status, ?value, ?length, ?outside, ?ldone, ?regs, ?parts⟩
    case status =>
      rw [hmem]
      refine (State.slotAnswered_status hslot status.toNat 0 (by simp [toBytes])).trans ?_
      simp [toBytes]
    case value =>
      intro i hi
      obtain ⟨-, -, hvalue⟩ := State.slotAnswered_holds hinline hslot status.toNat (List.ne_nil_of_length_pos (by omega : 0 < v.length))
      rw [hmem]
      exact hvalue i hi
    case length =>
      intro hv
      obtain ⟨hlength, hvoff, -⟩ := State.slotAnswered_holds hinline hslot status.toNat hv
      rw [hmem]
      exact ⟨Mem.holds.val hlength (by omega), Mem.holds.val hvoff (by decide)⟩
    case outside =>
      intro p hp
      rw [hmem, State.slotAnswered_byte_outside hinline hslot status.toNat hp]
    case ldone => rw [ht, State.regW_setRegW_self, bit_setBit_self _ _ _ slot.isLt]
    case regs =>
      rw [ht]
      exact State.regsBut_setRegW (State.regsBut_of_eq _ hregs) _ (by decide) (by decide) (List.mem_singleton.mpr rfl)
    case parts =>
      rw [ht]
      refine State.onlyIn_trans honly (m := [.regs]) ?_ (by decide) (by decide)
      intro p hp
      cases p <;> simp [State.agrees] at hp ⊢

end Sys2Proof.Machine

namespace Sys2Proof.Machine

/-! The dictionary engine's own events (R342, R347, R348, R354, R356, R373). An owner timeout's row with tile 0 and cause code 0 is log 54; that a lane
policy takes effect when its owner answers is log 26. -/

/-- A write of slot 0x028 that its gate admits does what the dictionary engine does with it. -/
theorem regWrite_dict {s t : State} {q : Req} {off : Nat} {v : Word} (hadmits : s.admits q 0x028 off) (hlo : 0x1000 ≤ off) (haligned : off % 4 = 0)
    (hwrite : s.dictWrite q.world off v = t) :
    (Host.Outcome.next (s.regWrite q 0x028 off v) : Host.Outcome State Fault Refusal) = .next t.done :=
  State.regWrite_next hadmits (by decide) haligned (by rw [s.slotWrite_dict q off v hlo, hwrite])

/-- FWD_DONE names a forward slot as one of the slots 32 to 63 of the mailbox (Table 11-9). -/
theorem exec_fwdDone {s t : State} {q : Req} {v : Word} (hadmits : s.admits q 0x028 0x1010) (hslot : 32 ≤ fld v 5 0)
    (hdone : s.fwdDone q.world (fld v 5 0 - 32) = t) : exec (.fwdDone q v) s = .next t.done :=
  regWrite_dict hadmits (by decide) (by decide) ((if_pos hslot).trans hdone)

/-- A forward slot freed. -/
def State.fwdFreed (s : State) (w : World) (j : Nat) : State :=
  s.modDict (fun d => { d with fwds := d.fwds.filter (fun g => !(g.world == w && g.slot == j)) })

/-- The value that the owner's record in a forward slot brings: none with an error, else inline or in the value area (Tables 11-7, 11-8). -/
def State.fwdValue (s : State) (w : World) (j : Nat) : List Byte :=
  let a := mailboxOf w + 0x800 + 64 * j
  let voff := s.mem.val (a + 10) 2
  if s.mem.val (a + 5) 1 ≠ 0 then [] else if voff = 0 then s.mem.read (a + 16) (min (s.mem.val (a + 8) 2) 48)
  else s.mem.read (mailboxOf w + voff) (min (s.mem.val (a + 8) 2) 8192)

section
variable {s : State} {w : World} {j : Nat} {f : Fwd} (hfound : s.dict.fwds.find? (fun f => f.world == w && f.slot == j) = some f)
include hfound

section
variable (hsound : s.isDamaged (mailboxOf w + 0x800 + 64 * j) 64 = false)
include hsound

/-- The owner's answer to a forwarded request other than a write is sent on (R356). -/
theorem State.fwdDone_read (hpending : s.mem.val (mailboxOf w + 0x800 + 64 * j + 5) 1 ≠ 0xFF) (hop : f.req.op ≠ 2) :
    s.fwdDone w j
      = ((s.fwdFreed w j).answer f.req (s.mem.val (mailboxOf w + 0x800 + 64 * j + 5) 1) (s.fwdValue w j)).resubmit := by
  simp [State.fwdDone, hfound, hsound, hpending, hop, State.fwdFreed, State.fwdValue]

/-- The owner's acceptance of a forwarded write (R356, R424, R512). -/
theorem State.fwdDone_write {e : DictDesc} (haccepted : s.mem.val (mailboxOf w + 0x800 + 64 * j + 5) 1 = 0) (hop : f.req.op = 2)
    (hentry : s.dict.entry f.req.key = some e) :
    s.fwdDone w j = ((((s.fwdFreed w j).noteRws e).lanePolicy f.req.key f.req.value).answer f.req 0 []).resubmit := by
  have hentry : (s.fwdFreed w j).dict.entry f.req.key = some e := hentry
  rw [State.fwdFreed] at hentry
  simp only [State.fwdDone, hfound, hsound, haccepted, hop, hentry]
  rfl

end

/-- A forwarded request whose owner is late is answered TIMEOUT and recorded (R356, R359). -/
theorem State.ownerTimeout_late {t0 : Nat} (hstart : f.start = some t0) (hlate : t0 + s.dict.num 0x016004 * 1000 ≤ s.now) :
    s.ownerTimeout w j = (((s.fwdFreed w j).errRow 4 0 w 0
      (BitVec.ofNat 32 (f.req.key / 256 + 0x10000 * (f.req.key % 256)))).answer f.req 0x0A []).resubmit := by
  simp only [State.ownerTimeout, hfound, hstart, if_neg (Nat.not_lt.mpr hlate)]
  rfl

end

/-- The oldest record of a write queue is retired (R354). -/
theorem State.wqAck_oldest {s : State} {w : World} {k : Nat} {rest : List Nat} (hqueue : vget s.dict.wq w.idx [] = k :: rest) :
    s.wqAck w = s.modDict (fun d => { d with wq := vset d.wq w.idx rest, wqHead := vset d.wqHead w.idx ((vget d.wqHead w.idx 0 + 1) % 64) }) := by
  simp only [State.wqAck, State.modDict, hqueue]

/-- Expiries of the engine take effect while its clock runs (R347, R348). -/
theorem State.engineRow_running {s : State} (t : State) (hclock : s.dict.clk ≠ .stopped) : s.engineRow t = t := by
  simp [State.engineRow, State.engineOn, hclock]

theorem vget_map {α β : Type} {n : Nat} (v : Vector α n) (f : α → β) {i : Nat} (hi : i < n) (d : α) (d' : β) :
    vget (v.map f) i d' = f (vget v i d) := by
  simp [vget, Vector.getD, hi]

theorem State.unlocksExpire_onlyIn (s : State) : s.onlyIn s.unlocksExpire [.dict] := by
  intro p hp
  cases p <;> simp [State.agrees, State.unlocksExpire, State.modDict] at hp ⊢

/-- The ember sequencer starts the stopped clock where a deadline has passed (R348). -/
theorem State.deadlineScan_starts {s : State} (recovered : Bool) (hclock : s.dict.clk = .stopped) (hpassed : s.deadlinePassed = true) :
    s.deadlineScan recovered = s.modDict (fun d => { d with clk := if recovered = true then .recovered else .rc }) := by
  simp [State.deadlineScan, hclock, hpassed]

/-- Frame energy starts the clock that is stopped, or that runs from the RC oscillator (R347). -/
theorem State.engineStart_recovers {s : State} (hclock : s.dict.clk = .stopped ∨ s.dict.clk = .rc) :
    s.engineStart = s.modDict (fun d => { d with clk := .recovered }) := by
  simp [State.engineStart, hclock]

/-- A device reset waits for the step in progress, at most 10 ms (R373). -/
theorem State.dictReset_due {s : State} {t0 : Nat} (hpending : s.dict.devReset = some t0) (hdue : s.dict.grant = none ∨ t0 + 10000 ≤ s.now) :
    s.dictReset = s.deviceReset (some 4) false := by
  simp [State.dictReset, hpending, hdue]

/-- Settles O26: each event by what the engine makes of it. -/
theorem dictionaryEventsTaken : Obligations.DictionaryEventsTaken := by
  intro s q v w slot free
  refine ⟨?forwarded, ?written, ?timeout, ?queue, ?unlock, ?scan, ?start, ?reset⟩
  case forwarded =>
    exact fun f hadmits hslot hfound hsound hpending hop => exec_fwdDone hadmits hslot (State.fwdDone_read hfound hsound hpending hop)
  case written =>
    exact fun f e hadmits hslot hfound hsound hop hentry haccepted =>
      exec_fwdDone hadmits hslot (State.fwdDone_write hfound hsound haccepted hop hentry)
  case timeout =>
    exact fun f t0 hclock hfound hstart hlate =>
      next_of_eq ((State.engineRow_running _ hclock).trans (State.ownerTimeout_late hfound hstart hlate))
  case queue => exact fun k rest hadmits hqueue => regWrite_dict hadmits (by decide) (by decide) (State.wqAck_oldest hqueue)
  case unlock =>
    intro hclock
    refine ⟨s.unlocksExpire, next_of_eq (State.engineRow_running _ hclock), s.unlocksExpire_onlyIn, fun i => ?_, rfl⟩
    exact vget_map s.dict.unlock (unlockExpire s.now) i.isLt none none
  case scan => exact fun recovered hclock hpassed => next_of_eq (State.deadlineScan_starts recovered hclock hpassed)
  case start => exact fun hclock => next_of_eq (State.engineStart_recovers hclock)
  case reset => exact fun t0 hpending hdue => next_of_eq (State.dictReset_due hpending hdue)

end Sys2Proof.Machine

namespace Sys2Proof.Machine

/-! Long commands (R364 to R370, R374): the notices that a change of a command sends, the control entries, and the step engine. -/

/-- Only sessions and the frames sent change from s to t. -/
def State.SessionsOnly (s t : State) : Prop := ∃ l o, t = { s with dict := { s.dict with sess := l }, out := o }

theorem State.SessionsOnly.refl (s : State) : s.SessionsOnly s := ⟨s.dict.sess, s.out, rfl⟩

theorem State.SessionsOnly.trans {s t r : State} (h : s.SessionsOnly t) (h' : t.SessionsOnly r) : s.SessionsOnly r := by
  obtain ⟨l, o, rfl⟩ := h
  obtain ⟨l', o', rfl⟩ := h'
  exact ⟨l', o', rfl⟩

/-- A change that is made under a condition. -/
theorem State.SessionsOnly.thenIf {s t r : State} {c : Prop} [Decidable c] (h : s.SessionsOnly t) (h' : t.SessionsOnly r) :
    s.SessionsOnly (if c then r else t) := by
  split
  · exact h.trans h'
  · exact h

theorem State.SessionsOnly.modSess (s : State) (n : Nat) (f : Session → Session) : s.SessionsOnly (s.modSess n f) := ⟨_, s.out, rfl⟩

theorem State.SessionsOnly.send (s : State) (m : OutMsg) : s.SessionsOnly (s.send m) := ⟨s.dict.sess, _, rfl⟩

theorem State.SessionsOnly.ferrySend (s : State) (n type : Nat) (payload : List Byte) : s.SessionsOnly (s.ferrySend n type payload) := by
  simp only [State.ferrySend]
  split
  · exact .refl s
  · split
    · exact ⟨_, s.out, rfl⟩
    · exact .trans (.send s _) (.modSess _ n _)

theorem State.SessionsOnly.ferryEvent (s : State) (n subid flags key : Nat) (v : List Byte) :
    s.SessionsOnly (s.ferryEvent n subid flags key v) := by
  simp only [State.ferryEvent]
  split
  · exact .refl s
  · exact .trans (.ferrySend s n _ _) (.modSess _ n _)

/-- The notices of a command's change (R400). -/
theorem State.SessionsOnly.cmdNotices (s : State) (i : Nat) (old new : Cmd) : s.SessionsOnly (s.cmdNotices i old new) := by
  have hfold : ∀ (l : List Session) (f : State → Session → State), (∀ (t : State) (y : Session), t.SessionsOnly (f t y)) →
      ∀ t : State, t.SessionsOnly (l.foldl f t) := by
    intro l f hf
    induction l with
    | nil => exact .refl
    | cons y l ih => exact fun t => .trans (hf t y) (ih _)
  refine hfold _ _ (fun t y => ?_) s
  dsimp only
  split
  · exact .refl t
  · refine .thenIf (.thenIf ?state (.trans (.ferryEvent ..) (.modSess ..))) (.modSess ..)
    split
    · exact .refl t
    · exact .ferryEvent ..

/-- A command's new value is all that a change of it makes of the engines but for its sessions. -/
theorem State.putCmd_dict (s : State) (i : Nat) (c : Cmd) : ∃ l, (s.putCmd i c).dict = { s.dict.setCmd i c with sess := l } := by
  obtain ⟨l, o, hput⟩ := State.SessionsOnly.cmdNotices (s.modDict (·.setCmd i c)) i (s.dict.cmd i) c
  exact ⟨l, by rw [State.putCmd, hput]; rfl⟩

theorem Dict.cmd_setCmd (d : Dict) {i : Nat} (hi : i < 7) (c : Cmd) : (d.setCmd i c).cmd i = c := by
  rw [Dict.cmd, Dict.setCmd, vget_vset _ _ _ _ _ hi, if_pos rfl]

/-! The control entries (R363 to R367). -/

/-- A command by the index of its entry. -/
theorem cmdOf_bounds {index i : Nat} (h : cmdOf index = some i) : 0x9010 ≤ index ∧ index ≤ 0x9020 := by
  obtain ⟨hi, hindex, -⟩ := List.findIdx?_eq_some_iff_getElem.mp h
  have hmem : index ∈ cmdIndices := by
    rw [← beq_iff_eq.mp hindex]
    exact List.getElem_mem hi
  simp only [cmdIndices, List.mem_cons, List.not_mem_nil, or_false] at hmem
  omega

/-- The control entry of a command (Table 11-16). -/
def controlEntry (index : Nat) : DictDesc := mkEnt (index * 256 + 1) 2 2 0 3 false 1 1 3 0

theorem Dict.entry_control (d : Dict) {key i : Nat} (hsub : key % 256 = 1) (hcmd : cmdOf (key / 256) = some i) :
    d.entry key = some (controlEntry (key / 256)) := by
  simp only [Dict.entry, Dict.builtin, hcmd, hsub]
  rfl

/-- A write of a control entry does what the control does (R364 to R367). -/
theorem State.builtinWrite_control (s : State) (r : DReq) (role : Nat) {index i : Nat} (hcmd : cmdOf index = some i) :
    s.builtinWrite r (controlEntry index) role = s.cmdControl i (ofBytes r.value) role := by
  have hindex : (controlEntry index).index = index := by simp only [controlEntry, mkEnt]; omega
  have hsub : (controlEntry index).sub = 1 := by simp only [controlEntry, mkEnt]; omega
  simp only [State.builtinWrite, hindex, hcmd, hsub, if_true]

theorem controlEntry_key (index : Nat) : (controlEntry index).key = index * 256 + 1 := by
  simp only [controlEntry, mkEnt, DictDesc.key]
  omega

/-- A write of a control entry opens no permit, renews no unlock and is no RWS write. -/
theorem State.accepted_control (s : State) (r : DReq) {index i : Nat} (hcmd : cmdOf index = some i) :
    (s.accepted r (controlEntry index)).noteRws (controlEntry index) = s := by
  obtain ⟨hlo, hhi⟩ := cmdOf_bounds hcmd
  have hkey := controlEntry_key index
  rw [State.accepted_plain _ _ rfl, State.permitWrite_other _ _ (by omega) (.inr (by omega))]
  rfl

/-- Nothing follows its answer. -/
theorem State.afterWrite_control (s : State) (old v : List Byte) {index i : Nat} (hcmd : cmdOf index = some i) :
    s.afterWrite (controlEntry index) old v = s := by
  obtain ⟨hlo, hhi⟩ := cmdOf_bounds hcmd
  have hkey := controlEntry_key index
  exact State.afterWrite_other _ _ _ (by omega) (by omega)

/-- A write of a control entry that passes and that its command takes. -/
theorem State.dictReq_control {s t : State} {r : DReq} {w : World} {n i : Nat} (hsrc : r.src = .mailbox w n) (hop : r.op = 2)
    (hsub : r.key % 256 = 1) (hcmd : cmdOf (r.key / 256) = some i) {e : DictDesc} (hentry : s.dict.entry r.key = some e)
    (hcheck : s.checkReq r e (localRole w) = 0) (hahead : s.dict.noWriteAhead r.key)
    (hcontrol : s.cmdControl i (ofBytes r.value) (localRole w) = (t, 0)) : s.dictReq r = some (t.localAnswer w n 0 []) := by
  obtain rfl : controlEntry (r.key / 256) = e := by rwa [Dict.entry_control _ hsub hcmd, Option.some.injEq] at hentry
  rw [State.dictReq_writeBuiltin hsrc hentry hcheck hahead rfl hop rfl ((State.builtinWrite_control s r _ hcmd).trans hcontrol),
    State.accepted_control _ _ hcmd, State.afterWrite_control _ _ _ hcmd]

/-- A sound record that writes the control v to a command's entry, which the command takes. -/
theorem State.localRow_control {s t : State} {w : World} {slot : BitVec 5} {v i : Nat} {e : DictDesc} (hready : s.localReady w slot.toNat)
    (hop : (s.localRecord w slot.toNat).op = 2) (hsub : (s.localRecord w slot.toNat).key % 256 = 1)
    (hcmd : cmdOf ((s.localRecord w slot.toNat).key / 256) = some i)
    (hentry : (s.localTaken w slot.toNat).dict.entry (s.localRecord w slot.toNat).key = some e)
    (hcheck : (s.localTaken w slot.toNat).checkReq (s.localRecord w slot.toNat) e (localRole w) = 0)
    (hahead : (s.localTaken w slot.toNat).dict.noWriteAhead (s.localRecord w slot.toNat).key) (hbyte : s.localByte w slot.toNat = v)
    (htakes : (s.localTaken w slot.toNat).cmdControl i (ofBytes (s.localRecord w slot.toNat).value) (localRole w) = (t, 0)) :
    (Host.Outcome.next (s.localRow w slot (s.localControl w slot v)) : Host.Outcome State Fault Refusal) = .next (t.localAnswer w slot.toNat 0 []) := by
  refine State.localRow_answered hready ?_ (State.dictReq_control rfl hop hsub hcmd hentry hcheck hahead htakes)
  simp [State.localControl, hop, hsub, hcmd, hbyte]

/-- A command other than DEVICE_RESET and CHAR_SWEEP that does not run starts where the queue has room (R365). -/
theorem State.cmdStart_queues {s : State} {i : Nat} (role : Nat) (hreset : i ≠ 6) (hsweep : i ≠ 4) (hidle : (s.dict.cmd i).st ≠ 1)
    (hroom : s.dict.queue.length < 8) : s.cmdStart i role = ((s.modDict (fun d => { d with queue := d.queue ++ [i] })).putCmd i
      { s.dict.cmd i with st := 1, k := 0, n := 0, reason := 0, result := [] }, 0) := by
  rw [State.cmdStart, if_neg hreset, if_neg (fun h => hsweep h.1), if_neg (fun h => hsweep h.1), if_neg hidle, if_neg (by omega)]

/-- An abort takes a waiting command from the queue (R367). -/
theorem State.cmdAbort_waiting {s : State} {i : Nat} (hruns : (s.dict.cmd i).st = 1) (hwaits : s.dict.queue.head? ≠ some i) :
    s.cmdAbort i = s.cmdEnd i 3 0x8001 := by
  simp [State.cmdAbort, hruns, hwaits]

/-- An abort of the command whose step is in progress waits for the end of the step (R367). -/
theorem State.cmdAbort_granted {s : State} {i : Nat} {g : Grant} (hruns : (s.dict.cmd i).st = 1) (hfront : s.dict.queue.head? = some i)
    (hfollow : s.dict.follow = false) (hgrant : s.dict.grant = some g) :
    s.cmdAbort i = s.modDict (fun d => { d with grant := some { g with abort := true } }) := by
  simp [State.cmdAbort, hruns, hfront, hfollow, hgrant]

/-- An acknowledged command is IDLE again (R366). -/
theorem State.cmdAck_over {s : State} {i : Nat} (hover : (s.dict.cmd i).st = 2 ∨ (s.dict.cmd i).st = 3) :
    s.cmdAck i = s.putCmd i { s.dict.cmd i with st := 0 } := if_pos hover

/-! The step engine (R368 to R370, R374). -/

/-- A write of slot 0x02C that its gate admits does what the step engine does with it. -/
theorem regWrite_step {s t : State} {q : Req} {off : Nat} {v : Word} (hadmits : s.admits q 0x02C off) (hlo : 0x1000 ≤ off) (haligned : off % 4 = 0)
    (hwrite : s.stepWrite q.world off v = t) :
    (Host.Outcome.next (s.regWrite q 0x02C off v) : Host.Outcome State Fault Refusal) = .next t.done :=
  State.regWrite_next hadmits (by decide) haligned (by rw [s.slotWrite_step q off v hlo, hwrite])

/-- A step of the command at the front of the queue is granted (R369, R371). -/
theorem State.stepGrant_grants {s : State} {i : Nat} {rest : List Nat} (hqueue : s.dict.queue = i :: rest) (hgrant : s.dict.grant = none)
    (hfollow : s.dict.follow = false) (hpause : s.dict.lastDone + 2 ≤ s.now)
    (hanswered : s.dict.fwds.any (fun f => f.world == s.dict.cmdWorld i && decide (f.num < s.dict.barrier)) = false) :
    s.stepGrant = (s.modDict (fun d => { d.count 0x015002 with
      grant := some { first := !d.started, abort := false, since := s.now }, started := true })).notifyWorld 0x02C (s.dict.cmdWorld i) := by
  simp [State.stepGrant, hqueue, hgrant, hfollow, hanswered, Nat.not_lt.mpr hpause]

/-- STEPN in the first step tells the number of steps (R369). -/
theorem State.stepN_first {s : State} {w : World} {i : Nat} {g : Grant} (v : Word) (hgranted : s.dict.granted w = some (i, g))
    (hfirst : g.first = true) : s.stepN w v = s.putCmd i { s.dict.cmd i with n := v.toNat } := by
  simp only [State.stepN, hgranted, hfirst, if_true]

/-- The engine after the end of a step that counted its length (R369, R370). -/
def State.stepEnded (s : State) (w : World) (since : Nat) : State :=
  (s.stepCount w (s.now - since)).modDict (fun d => { d with grant := none, lastDone := s.now, barrier := s.seq })

/-- Command i with one step more done. -/
def State.stepCounted (s : State) (i : Nat) : State := s.putCmd i { s.dict.cmd i with k := (s.dict.cmd i).k + 1 }

/-- The end of a step of a command other than CHAR_SWEEP: failed, aborted, the last one, or one of many (R367, R369). -/
theorem State.stepDone_granted {s : State} {w : World} {i : Nat} {g : Grant} (v : Word) (hgranted : s.dict.granted w = some (i, g)) (hsweep : i ≠ 4) :
    let ended := s.stepEnded w g.since
    let c := ended.dict.cmd i
    s.stepDone w v = if bit v 0 = true then ended.cmdEnd i 3 (fld v 31 16) else if g.abort = true then (ended.stepCounted i).cmdEnd i 3 0x8001
      else if c.n = 0 ∨ c.k + 1 = c.n then (ended.stepCounted i).cmdEnd i 2 0 else ended.stepCounted i := by
  simp only [State.stepDone, hgranted, if_neg hsweep]
  rfl

/-- A step not ended 10 ms after its grant fails its command (R370). -/
theorem State.stepLimit_late {s : State} {i : Nat} {g : Grant} (hfront : s.dict.queue.head? = some i) (hgrant : s.dict.grant = some g)
    (hlate : g.since + 10000 ≤ s.now) : s.stepLimit = s.cmdEnd i 3 0x8002 := by
  simp only [State.stepLimit, hfront, hgrant, if_pos hlate]

/-- CHAR_SWEEP shows the sweep engine's K and N and ends with it (R374). -/
theorem State.sweepFollow_follows {s : State} (hfollow : s.dict.follow = true) :
    let shown := s.putCmd 4 { s.dict.cmd 4 with k := (s.reg 0x021 0x120C).toNat, n := (s.reg 0x021 0x1210).toNat }
    s.sweepFollow = if s.sweepState = 2 then shown.cmdEnd 4 2 0
      else if s.sweepState = 3 then shown.cmdEnd 4 3 (fld (s.reg 0x021 0x1208) 7 2) else shown := by
  simp only [State.sweepFollow, hfollow, if_true]
  split
  · next hstate => rw [if_pos hstate]
  · next hstate => rw [if_neg (by omega), if_pos hstate]
  · next hdone hfailed => rw [if_neg hdone, if_neg hfailed]

/-- Settles O27: each control by what its command's entry takes, each event of the step engine by what it makes of the running command. -/
theorem longCommandsRun : Obligations.LongCommandsRun := by
  intro s q v w slot i e r s1 role answer
  refine ⟨?controls, ?queued, ?waiting, ?granted, ?acknowledged, ?grant, ?stepn, ?stepdone, ?limit, ?sweep⟩
  case controls =>
    intro hready hop hsub hcmd hlast hentry hcheck hahead
    have hdict : s1.dict = s.dict := s.localTaken_dict w slot.toNat
    rw [← hdict] at hentry hahead
    have hcontrol : ∀ (v : Nat) (t : State), s.localByte w slot.toNat = v → s1.cmdControl i (ofBytes r.value) role = (t, 0) →
        (Host.Outcome.next (s.localRow w slot (s.localControl w slot v)) : Host.Outcome State Fault Refusal) = .next (answer t 0) :=
      fun v t => State.localRow_control hready hop hsub hcmd hentry hcheck hahead
    refine ⟨?start, ?abort, ?ack⟩
    case start => exact fun t hbyte hvalue hstart => hcontrol 1 t hbyte (by rw [hvalue]; exact hstart)
    case abort => exact fun hbyte hvalue => hcontrol 2 _ hbyte (by rw [hvalue]; rfl)
    case ack => exact fun hbyte hvalue => hcontrol 3 _ hbyte (by rw [hvalue]; rfl)
  case queued =>
    intro hreset hsweep hlast hidle hroom
    refine ⟨_, State.cmdStart_queues role hreset hsweep hidle hroom, ?_⟩
    obtain ⟨l, hput⟩ := (s.modDict (fun d => { d with queue := d.queue ++ [i] })).putCmd_dict i
      { s.dict.cmd i with st := 1, k := 0, n := 0, reason := 0, result := [] }
    rw [hput]
    exact ⟨rfl, Dict.cmd_setCmd _ hlast _⟩
  case waiting => exact State.cmdAbort_waiting
  case granted => exact fun g => State.cmdAbort_granted
  case acknowledged => exact State.cmdAck_over
  case grant =>
    exact fun rest hqueue hgrant hfollow hpause hanswered => next_of_eq (State.stepGrant_grants hqueue hgrant hfollow hpause hanswered)
  case stepn =>
    exact fun g hadmits hgranted hfirst => regWrite_step hadmits (by decide) (by decide) (State.stepN_first v hgranted hfirst)
  case stepdone =>
    exact fun g hadmits hgranted hsweep => regWrite_step hadmits (by decide) (by decide) (State.stepDone_granted v hgranted hsweep)
  case limit =>
    exact fun g hclock hfront hgrant hlate => next_of_eq ((State.engineRow_running _ hclock).trans (State.stepLimit_late hfront hgrant hlate))
  case sweep => exact fun hfollow => next_of_eq (State.sweepFollow_follows hfollow)

end Sys2Proof.Machine

namespace Sys2Proof.Machine

/-! Ferry frames as they arrive (R347, R375, R377, R380, R381): what the dictionary shows of a state whose engine clock starts, and the admission of
a frame branch by branch. -/

/-- The entries of the dictionary are the built-in ones and those of the catalogue. -/
theorem Dict.entry_congr {d d' : Dict} (hcat : d'.cat = d.cat) (key : Nat) : d'.entry key = d.entry key := by
  cases d
  cases d'
  cases hcat
  rfl

theorem Dict.val_congr {d d' : Dict} (hvals : d'.vals = d.vals) (e : DictDesc) : d'.val e = d.val e := by
  rw [Dict.val, Dict.val, hvals]

theorem Dict.num_congr {d d' : Dict} (hcat : d'.cat = d.cat) (hvals : d'.vals = d.vals) (key : Nat) : d'.num key = d.num key := by
  simp only [Dict.num, Dict.entry_congr hcat, Dict.val_congr hvals]

theorem Dict.node_congr {d d' : Dict} (hcat : d'.cat = d.cat) (hvals : d'.vals = d.vals) : d'.node = d.node := by
  rw [Dict.node, Dict.node, Dict.num_congr hcat hvals]

/-- A frame that arrives changes no more than the engine's clock before it is examined (R347). -/
theorem State.engineWake_clk (s : State) (c : Carrier) : ∃ k, s.engineWake c = s.modDict (fun d => { d with clk := k }) := by
  by_cases hstopped : (s.dict.clk == .stopped) = true
  · exact ⟨_, if_pos hstopped⟩
  · exact ⟨s.dict.clk, if_neg hstopped⟩

@[simp] theorem State.engineWake_now (s : State) (c : Carrier) : (s.engineWake c).now = s.now := by
  obtain ⟨k, hwake⟩ := s.engineWake_clk c
  rw [hwake, State.modDict_now]

@[simp] theorem State.engineWake_unprot (s : State) (c : Carrier) : (s.engineWake c).dict.unprot = s.dict.unprot := by
  obtain ⟨k, hwake⟩ := s.engineWake_clk c
  rw [hwake, State.modDict_dict]

@[simp] theorem State.engineWake_node (s : State) (c : Carrier) : (s.engineWake c).dict.node = s.dict.node := by
  obtain ⟨k, hwake⟩ := s.engineWake_clk c
  rw [hwake, State.modDict_dict]
  exact Dict.node_congr rfl rfl

/-- Whether a frame names this node, or is a HELLO to every node (R380). -/
def State.ferryMine (s : State) (f : FerryFrame) : Prop :=
  frameVal f.bytes 2 2 = s.dict.node ∨ (frameByte f.bytes 1 = 1 ∧ frameVal f.bytes 2 2 = 0)

/-- When the unprotected frames of the last second were taken (R381). -/
def State.unprotRecent (s : State) : List Nat := s.dict.unprot.filter (fun t => decide (s.now < t + 1000000))

section
variable {s : State} {f : FerryFrame}

theorem State.ferryAdmit_notAddressed (haddr : s.ferryAddressed f = false) : s.ferryAdmit f = (s, false) := by
  simp [State.ferryAdmit, haddr]

theorem State.ferryAdmit_malformed (haddr : s.ferryAddressed f = true) (hform : ferryMalformed f = true) :
    s.ferryAdmit f = ((s.engineWake f.carrier).modDict (·.count 0x024004), false) := by
  simp [State.ferryAdmit, haddr, hform]

section
variable (haddr : s.ferryAddressed f = true) (hform : ferryMalformed f = false)
include haddr hform

theorem State.ferryAdmit_otherNode (hother : ¬ s.ferryMine f) :
    s.ferryAdmit f = ((s.engineWake f.carrier).modDict (·.count 0x024003), false) := by
  rw [State.ferryMine, not_or] at hother
  simp [State.ferryAdmit, haddr, hform, hother]

variable (hmine : s.ferryMine f)
include hmine

/-- A frame for this node is taken where it is protected; else it counts among those of its second. -/
theorem State.ferryAdmit_mine : s.ferryAdmit f =
    if ferryProtected f = true then (s.engineWake f.carrier, true)
    else if 100 ≤ s.unprotRecent.length then
      ((s.engineWake f.carrier).modDict (fun d => { d.count 0x024005 with unprot := s.unprotRecent }), false)
    else ((s.engineWake f.carrier).modDict (fun d => { d with unprot := s.now :: s.unprotRecent }), true) := by
  have hnode : ¬ (frameVal f.bytes 2 2 ≠ s.dict.node ∧ ¬(frameByte f.bytes 1 = 1 ∧ frameVal f.bytes 2 2 = 0)) :=
    fun ⟨hothers, hnotHello⟩ => hmine.elim hothers hnotHello
  simp only [State.ferryAdmit, haddr, hform, State.engineWake_node, if_neg hnode, State.engineWake_now, State.engineWake_unprot]
  rfl

end
end

/-- Settles O28: the first check that a frame fails decides its counter. -/
theorem framesAdmitted : Obligations.FramesAdmitted := by
  intro s f dst s1 mine recent
  refine ⟨State.ferryAdmit_notAddressed, State.ferryAdmit_malformed, State.ferryAdmit_otherNode, ?sealed, ?taken, ?flooded⟩
  case sealed => exact fun haddr hform hmine hprot => (State.ferryAdmit_mine haddr hform hmine).trans (if_pos hprot)
  case taken =>
    exact fun haddr hform hmine hprot hroom =>
      (State.ferryAdmit_mine haddr hform hmine).trans ((if_neg (Bool.not_eq_true _ ▸ hprot)).trans (if_neg (Nat.not_le.mpr hroom)))
  case flooded =>
    exact fun haddr hform hmine hprot hfull =>
      (State.ferryAdmit_mine haddr hform hmine).trans ((if_neg (Bool.not_eq_true _ ▸ hprot)).trans (if_pos hfull))

end Sys2Proof.Machine

namespace Sys2Proof.Machine

/-! The Ferry handshake (R381, R384 to R390, R394, R402): what each of its frames, the owner's HS_DONE and the expiry make of the state. -/

/-! HELLO (R394). -/

section
variable {s s1 : State} {f : FerryFrame}

/-- The answer that a HELLO waits for. -/
def helloAnswer (f : FerryFrame) (due : Nat) : HelloWait :=
  { carrier := f.carrier, peer := f.peer, node := frameVal f.bytes 4 2, due := due }

/-- The random delay of an answer to HELLO, an open value (log 68). -/
def State.helloDue (s : State) : Nat := s.now + (Config.entropy s.free).toNat % 50001

theorem State.ferryHello_waits (htype : frameByte f.bytes 1 = 1) (hadmit : s.ferryAdmit f = (s1, true)) (hlen : frameVal f.bytes 12 2 = 4)
    (hzero : frameVal f.bytes 17 3 = 0) (hdiscovery : s1.dict.num 0x020005 = 1)
    (hblock : frameByte f.bytes 16 = 0 ∨ frameByte f.bytes 16 = s1.dict.num 0x020001) :
    s.ferryHello f = { s1.modDict (fun d => { d with hello := d.hello ++ [helloAnswer f s1.helloDue] }) with free := s1.free + 1 } := by
  simp only [State.ferryHello, htype, hadmit, hlen, hzero]
  rw [if_neg (by simp), if_neg (by simp), if_neg (by simp), if_pos ⟨hdiscovery, hblock⟩]
  rfl

end

theorem Dict.noAnchors_congr {d d' : Dict} (hcat : d'.cat = d.cat) (hvals : d'.vals = d.vals) : d'.noAnchors = d.noAnchors := by
  simp only [Dict.noAnchors, Dict.entry_congr hcat, Dict.val_congr hvals]

theorem Dict.address_congr {d d' : Dict} (hcat : d'.cat = d.cat) (hvals : d'.vals = d.vals) : d'.address = d.address := by
  simp only [Dict.address, Dict.num_congr hcat hvals]

/-- The state with other answers to HELLO waiting. -/
def State.setHello (s : State) (l : List HelloWait) : State := s.modDict (fun d => { d with hello := l })

/-- What the dictionary shows does not depend on the answers that wait. -/
theorem State.computed_setHello (s : State) (l : List HelloWait) (unlocked : Bool) (key : Nat) :
    (s.setHello l).computed unlocked key = s.computed unlocked key := by
  have hnum : ∀ k, (s.setHello l).dict.num k = s.dict.num k := Dict.num_congr rfl rfl
  have hanchors : (s.setHello l).dict.noAnchors = s.dict.noAnchors := Dict.noAnchors_congr rfl rfl
  have haddress : (s.setHello l).dict.address = s.dict.address := Dict.address_congr rfl rfl
  unfold State.computed
  simp only [hnum, hanchors, haddress]
  rfl

theorem State.helloAck_setHello (s : State) (l : List HelloWait) : (s.setHello l).helloAck = s.helloAck := by
  have hentry : ∀ key, (s.setHello l).dict.entry key = s.dict.entry key := Dict.entry_congr rfl
  have hvalue : ∀ e, (s.setHello l).dictVal false e = s.dictVal false e := fun e => by
    rw [State.dictVal, State.dictVal, State.computed_setHello, show (s.setHello l).dict.val e = s.dict.val e from Dict.val_congr rfl e]
  simp only [State.helloAck, hentry, hvalue]

/-- An answer to HELLO whose delay has passed is sent (R394). -/
theorem State.helloExpiry_due {s : State} {h : HelloWait} (hwaits : s.dict.hello = [h]) (hdue : h.due ≤ s.now) :
    s.helloExpiry = (s.setHello []).send
      (.ferry h.carrier h.peer (ferryHeader 0x02 h.node s.dict.node 0 0 s.helloAck.length ++ s.helloAck)) := by
  have hleft : s.modDict (fun d => { d with hello := d.hello.filter (fun h => decide (s.now < h.due)) }) = s.setHello [] := by
    simp [State.setHello, State.modDict, hwaits, Nat.not_lt.mpr hdue]
  have hnode : (s.setHello []).dict.node = s.dict.node := Dict.node_congr rfl rfl
  rw [State.helloExpiry, hleft, hwaits]
  simp only [List.filter_cons, hdue, decide_true, if_true, List.filter_nil, List.foldl_cons, List.foldl_nil, State.ferryPlain, hnode,
    State.helloAck_setHello]

/-! INIT (R384, R385). -/

/-- A notification raised changes the interrupt state alone. -/
theorem State.raiseNotify_eq (s : State) (i : Nat) : ∃ x, s.raiseNotify i = { s with irq := x } := by
  by_cases hlatched : (irqSoft i || s.irqSense i == 0) = true
  · exact ⟨_, if_pos hlatched⟩
  · obtain ⟨x, hraise⟩ := s.raise_eq i
    exact ⟨x, (if_neg hlatched).trans hraise⟩

theorem State.notifyWorld_eq (s : State) (slot : Nat) (w : World) : ∃ x, s.notifyWorld slot w = { s with irq := x } := by
  have hraised : ∀ (on : Bool) (i : Nat), ∃ x, (if on = true then s.raiseNotify i else s) = { s with irq := x } := by
    intro on i
    cases on
    · exact ⟨s.irq, rfl⟩
    · exact s.raiseNotify_eq i
  exact hraised _ _

/-- The handshake that an INIT opens (R385). -/
def State.hsOpened (s : State) (f : FerryFrame) (w : World) (pay : List Byte) : Hs :=
  { world := w, carrier := f.carrier, peer := f.peer, node := frameVal f.bytes 4 2, session := s.newSession, init := pay, words := [], reply := none
    role := frameByte pay 0, comm := s.dict.noAnchors, deadline := 0 }

theorem State.hsPlace_eq (s : State) (f : FerryFrame) (w : World) (j : Nat) (pay : List Byte) : ∃ x, s.hsPlace f w j pay =
    { s.modDict (fun d => { d with hs := vset d.hs j (some (s.hsOpened f w pay)) }) with free := s.free + 1, irq := x } :=
  State.notifyWorld_eq _ _ _

section
variable {s s1 : State} {f : FerryFrame}

/-- An INIT that no check refuses is placed in the first free slot; commissioning is over USB with a role up to 3 (R384, R390, R392). -/
theorem State.ferryInit_places {k : Nat} {pay : List Byte} {w : World} (htype : frameByte f.bytes 1 = 0x10) (hadmit : s.ferryAdmit f = (s1, true))
    (hpay : (f.bytes.drop 16).take (frameVal f.bytes 12 2) = pay) (hform : initForm pay = true)
    (hnew : (List.range 4).find? (fun j => (vget s1.dict.hs j none).any (fun h =>
      (h.init.drop 4).take 16 == (pay.drop 4).take 16 && h.node == frameVal f.bytes 4 2)) = none)
    (hall : s1.dict.sessCount none < 32) (hone : s1.dict.sessCount (some (frameVal f.bytes 4 2)) < 4)
    (hcommission : s1.dict.noAnchors = true → (∃ p, f.carrier = .usb p) ∧ frameByte pay 0 ≤ 3)
    (hserves : (if frameByte pay 0 = 5 then World.trade else World.opn) = w) (hruns : s1.worldState w = 2)
    (hfree : (List.range 4).find? (fun j => (vget s1.dict.hs j none).isNone) = some k) : s.ferryInit f = s1.hsPlace f w k pay := by
  simp only [State.ferryInit, htype, hadmit, hpay, hform, hnew, hserves, hfree]
  rw [if_neg (by simp), if_neg (by simp), if_neg (by simp), if_neg (by omega), if_neg ?overUsb, if_neg ?role, if_neg (not_not_intro hruns)]
  case overUsb =>
    rintro ⟨hanchors, hnotUsb⟩
    obtain ⟨⟨p, hcarrier⟩, -⟩ := hcommission hanchors
    rw [hcarrier] at hnotUsb
    cases hnotUsb
  case role =>
    rintro ⟨hanchors, hhigh⟩
    obtain ⟨-, hrole⟩ := hcommission hanchors
    omega

end

/-! HS_DONE (R385, R389). -/

/-- The REPLY that the owner wrote: words 360 to 719 of its slot, as long as word 720 says (Table 12-6). -/
def Hs.replyWritten (h : Hs) : List Byte :=
  (((List.range 360).map (fun i => toBytes 4 (Sparse.get 0#32 (360 + i) h.words).toNat)).flatten).take (min (Sparse.get 0#32 720 h.words).toNat 1440)

section
variable {s : State} {w : World} {v : Word} {h : Hs} (hslot : vget s.dict.hs (fld v 1 0) none = some h) (hworld : h.world = w) (hopen : h.reply = none)
include hslot hworld hopen

/-- A handshake that its owner refuses is counted and answered with the owner's status. -/
theorem State.hsDone_refuses (hrefuse : bit v 8 = true) : s.hsDone w v =
    (s.modDict (fun d => { d.count 0x024006 with hs := vset d.hs (fld v 1 0) none })).ferryError h.carrier h.peer h.node (fld v 23 16) 0x10 0 := by
  simp [State.hsDone, hslot, hworld, hopen, hrefuse]

/-- One that its owner accepts is answered with the REPLY, and held open for 2 s. -/
theorem State.hsDone_replies (haccept : bit v 8 = false) : s.hsDone w v =
    (s.modDict (fun d => { d with hs := vset d.hs (fld v 1 0) (some
      { h with reply := some h.replyWritten, role := fld v 31 24, deadline := s.now + 2000000 }) })).ferryPlain
        h.carrier h.peer h.node h.session 0x11 h.replyWritten := by
  simp only [State.hsDone, hslot, hworld, hopen, haccept, List.map_map, bne_self_eq_false, Option.isSome_none, Bool.or_self, Bool.false_eq_true, if_false]
  rfl

end

/-! CONFIRM and the end of a handshake (R387, R389). -/

/-- The session that a CONFIRM opens (R387, R388). -/
def Hs.confirmed (h : Hs) (f : FerryFrame) (now : Nat) : Session :=
  { num := frameVal f.bytes 6 2, role := h.role, carrier := f.carrier, peer := f.peer, node := h.node, keys := h.keys, out := 1, hi := frameVal f.bytes 8 4
    window := 1, unlock := none, comm := h.comm, last := now, frames := 1, answered := [], pendTags := [], xfers := [], subs := [], evseq := 1, notes := [] }

section
variable {s s1 : State} {f : FerryFrame}

/-- A CONFIRM that opens with the handshake's keys and carries the hash of both its payloads opens the session. -/
theorem State.ferryConfirm_opens {k : Nat} {h : Hs} {reply plain : List Byte} (htype : frameByte f.bytes 1 = 0x12)
    (hfound : (List.range 4).find? (fun j => (vget s.dict.hs j none).any (fun h => h.session == frameVal f.bytes 6 2 && h.reply.isSome)) = some k)
    (hadmit : s.ferryAdmit f = (s1, true)) (hprot : ferryProtected f = true) (hslot : vget s1.dict.hs k none = some h) (hreply : h.reply = some reply)
    (hkeys : ferryOpen h.keys f.bytes = some plain) (hhash : plain = sha256 (h.init ++ reply)) (hseq : frameVal f.bytes 8 4 ≠ 0) :
    s.ferryConfirm f = (s1.modDict (fun d => { d with hs := vset d.hs k none, sess := d.sess ++ [h.confirmed f s1.now] })).ferrySend
      (frameVal f.bytes 6 2) 0x13 (toBytes 1 h.role ++ toBytes 2 (s1.dict.num 0x020004)) := by
  simp only [State.ferryConfirm, htype, hfound, hadmit, hprot, hslot, hreply, hkeys, if_neg hseq, Option.getD_some, hhash, ne_eq,
    not_true_eq_false, if_false, Bool.not_true, Bool.false_eq_true]
  rfl

/-- A frame of an undefined type, or one that a protected type should have sealed, is answered with ERROR 2 (R381). -/
theorem State.ferryBadType_refuses (htype : ferryPlainTypes.contains (frameByte f.bytes 1) = false) (hprot : ferryProtected f = false)
    (hadmit : s.ferryAdmit f = (s1, true)) :
    s.ferryBadType f = s1.ferryError f.carrier f.peer (frameVal f.bytes 4 2) 2 (frameByte f.bytes 1) (plainTag f) := by
  simp only [State.ferryBadType, htype, hprot, hadmit]
  rfl

/-- A protected frame of no session and no handshake is answered with ERROR 14 (R402). -/
theorem State.ferryNoSession_refuses (hprot : ferryProtected f = true) (hnone : s.dict.session (frameVal f.bytes 6 2) = none)
    (hshakes : frameByte f.bytes 1 = 0x12 → ∀ j, j < 4 →
      (vget s.dict.hs j none).any (fun h => h.session == frameVal f.bytes 6 2 && h.reply.isSome) = false) (hadmit : s.ferryAdmit f = (s1, true)) :
    s.ferryNoSession f = s1.ferryError f.carrier f.peer (frameVal f.bytes 4 2) 0x0E (frameByte f.bytes 1) 0 := by
  have hs : (frameByte f.bytes 1 == 0x12
      && (List.range 4).any (fun j => (vget s.dict.hs j none).any (fun h => h.session == frameVal f.bytes 6 2 && h.reply.isSome))) = false := by
    rw [Bool.and_eq_false_imp]
    intro htype
    rw [List.any_eq_false]
    intro j hj
    rw [hshakes (beq_iff_eq.mp htype) j (List.mem_range.mp hj)]
    exact Bool.false_ne_true
  simp only [State.ferryNoSession, hs, hprot, hnone, hadmit]
  rfl

end

/-- A handshake that its deadline ends (R389). -/
theorem State.hsExpiry_late {s : State} {j : Nat} {h : Hs} (hclock : s.dict.clk ≠ .stopped) (hslot : vget s.dict.hs j none = some h)
    (hreply : h.reply.isSome = true) (hlate : h.deadline ≤ s.now) : s.hsExpiry j = s.modDict (fun d => { d with hs := vset d.hs j none }) := by
  simp [State.hsExpiry, State.engineOn, hclock, hslot, hreply, hlate]

/-- Settles O30: each frame, write and expiry by what it makes of the handshakes and of the answers to HELLO. -/
theorem handshakeRuns : Obligations.HandshakeRuns := by
  intro s s1 f q v j ty node num pay role w usb
  refine ⟨?hello, ?helloAck, ?init, ?refused, ?replied, ?confirm, ?expiry, ?badType, ?noSession⟩
  case hello =>
    intro htype hadmit hlen hzero hdiscovery hblock
    refine ⟨_, s1.helloDue, next_of_eq (State.ferryHello_waits htype hadmit hlen hzero hdiscovery hblock), Nat.le_add_right .., ?_, ?_, rfl⟩
    · have hdelay := Nat.mod_lt (Config.entropy s1.free).toNat (show 0 < 50001 by decide)
      rw [State.helloDue]
      omega
    · intro p hp
      cases p <;> simp [State.agrees] at hp ⊢
  case helloAck =>
    intro h hwaits hdue
    refine ⟨_, next_of_eq (State.helloExpiry_due hwaits hdue), rfl, ?_, rfl⟩
    intro p hp
    cases p <;> simp [State.agrees, State.setHello] at hp ⊢
  case init =>
    intro k htype hadmit hform hnew hall hone hanchors hworld hfree
    have hcommission : s1.dict.noAnchors = true → (∃ p, f.carrier = .usb p) ∧ role ≤ 3 := by
      intro hnone
      obtain ⟨husb, hrole⟩ := hanchors hnone
      refine ⟨?_, hrole⟩
      cases hcarrier : f.carrier with
      | usb p => exact ⟨p, rfl⟩
      | lane p => simp [usb, hcarrier] at husb
      | backbone p => simp [usb, hcarrier] at husb
    have hk : k < 4 := List.mem_range.mp (List.mem_of_find?_eq_some hfree)
    obtain ⟨x, hplace⟩ := s1.hsPlace_eq f w k pay
    refine ⟨_, s1.hsOpened f w pay,
      next_of_eq ((State.ferryInit_places htype hadmit rfl hform hnew hall hone hcommission rfl hworld hfree).trans hplace),
      ?_, rfl, rfl, rfl, rfl, rfl, rfl, rfl, by rw [State.hsOpened], ?_⟩
    · exact (vget_vset _ _ _ _ _ hk).trans (if_pos rfl)
    · intro p hp
      cases p <;> simp [State.agrees] at hp ⊢
  case refused =>
    exact fun h hadmits hslot hworld hopen hrefuse => regWrite_dict hadmits (by decide) (by decide) (State.hsDone_refuses hslot hworld hopen hrefuse)
  case replied =>
    exact fun h hadmits hslot hworld hopen haccept => regWrite_dict hadmits (by decide) (by decide) (State.hsDone_replies hslot hworld hopen haccept)
  case confirm =>
    intro k h reply plain htype hfound hadmit hprot hslot hreply hkeys hhash hseq
    exact next_of_eq (State.ferryConfirm_opens htype hfound hadmit hprot hslot hreply hkeys hhash hseq)
  case expiry => exact fun h hclock hslot hreply hlate => next_of_eq (State.hsExpiry_late hclock hslot hreply hlate)
  case badType => exact fun htype hprot hadmit => next_of_eq (State.ferryBadType_refuses htype hprot hadmit)
  case noSession => exact fun hprot hnone hshakes hadmit => next_of_eq (State.ferryNoSession_refuses hprot hnone hshakes hadmit)

end Sys2Proof.Machine

namespace Sys2Proof.Machine

/-! Requests inside a session (R390, R395 to R401): what each handler does with a request that it takes. -/

section
variable {s s1 : State} {f : FerryFrame} {n tag : Nat} {pay : List Byte}

theorem State.ferryRead_submits (hreq : s.ferryRequest f 0x20 = (s1, some (n, tag, pay))) (hlength : pay.length = 6) (hzero : frameByte pay 5 = 0) :
    s.ferryRead f = s1.ferrySubmit n tag .read 1 (reqKey pay) [] := by
  simp [State.ferryRead, hreq, hlength, hzero]

theorem State.ferryWrite_submits (hreq : s.ferryRequest f 0x22 = (s1, some (n, tag, pay))) (hzero : frameByte pay 5 = 0)
    (hvalue : frameVal pay 6 2 ≤ 1024) (hlength : pay.length = 8 + frameVal pay 6 2) :
    s.ferryWrite f = s1.ferrySubmit n tag .write 2 (reqKey pay) (pay.drop 8) := by
  simp only [State.ferryWrite, hreq]
  rw [if_neg (by omega)]

/-- The first segment of a read asks the dictionary for the value (R396). -/
theorem State.ferrySegRead_opens (hreq : s.ferryRequest f 0x24 = (s1, some (n, tag, pay))) (hlength : pay.length = 8) (hxfer : frameByte pay 5 ≠ 0)
    (hfirst : frameByte pay 6 = 0) (hzero : frameByte pay 7 = 0) (hroom : s1.dict.xferRoom n (frameByte pay 5) = true) :
    s.ferrySegRead f = s1.ferrySubmit n tag (.segRead (frameByte pay 5)) 1 (reqKey pay) [] := by
  simp [State.ferrySegRead, hreq, hlength, hxfer, hfirst, hzero, hroom]

/-- A later segment that is not the last one comes from the snapshot, which its transfer keeps (R396). -/
theorem State.ferrySegRead_continues {e : Xfer} (hreq : s.ferryRequest f 0x24 = (s1, some (n, tag, pay))) (hlength : pay.length = 8)
    (hxfer : frameByte pay 5 ≠ 0) (hlater : 0 < frameByte pay 6) (hlast : frameByte pay 6 ≤ 7) (hzero : frameByte pay 7 = 0)
    (hopen : s1.dict.xfer n (frameByte pay 5) = some e) (hread : e.write = false) (hkey : e.key = reqKey pay)
    (hmore : 1024 * (frameByte pay 6 + 1) < e.total) :
    s.ferrySegRead f = (s1.ferryAnswer n tag 0x25 (rspHead tag 0 0 ++ toBytes 2 e.total ++ toBytes 1 (frameByte pay 6) ++ [0]
      ++ toBytes 2 (segment e.data (frameByte pay 6)).length ++ [0, 0] ++ segment e.data (frameByte pay 6))).modXfer n (frameByte pay 5)
        (fun e => { e with last := s1.now }) := by
  have hheld : (e.write || e.key != reqKey pay || decide (e.total ≤ 1024 * frameByte pay 6)) = false := by
    simp only [hread, hkey, bne_self_eq_false, Bool.or_self, Bool.false_or, decide_eq_false_iff_not]
    omega
  simp only [State.ferrySegRead, hreq, hopen, hheld]
  rw [if_neg (by omega), if_neg (by omega), if_neg Bool.false_ne_true, if_neg (by omega)]

/-- A segment of an open write that does not complete its value (R397). -/
theorem State.ferrySegWrite_continues {e : Xfer} (hreq : s.ferryRequest f 0x26 = (s1, some (n, tag, pay))) (hxfer : frameByte pay 5 ≠ 0)
    (hlast : frameByte pay 6 ≤ 7) (hzero : frameByte pay 7 = 0) (htotal : frameVal pay 8 2 ≤ 8192) (hlen : frameVal pay 10 2 ≤ 1024)
    (hlength : pay.length = 12 + frameVal pay 10 2) (hopen : s1.dict.xfer n (frameByte pay 5) = some e) (hwrite : e.write = true)
    (hnext : frameByte pay 6 = e.next) (hsame : frameVal pay 8 2 = e.total) (hkey : reqKey pay = e.key)
    (hmore : e.data.length + frameVal pay 10 2 < e.total) :
    s.ferrySegWrite f = (s1.modXfer n (frameByte pay 5)
      (fun x => { x with data := e.data ++ pay.drop 12, next := x.next + 1, last := s1.now })).ferryAnswer n tag 0x27 (rspHead tag 0 0) := by
  have hgathered : (e.data ++ pay.drop 12).length = e.data.length + frameVal pay 10 2 := by
    rw [List.length_append, List.length_drop]
    omega
  have htake : s1.segTake n (frameByte pay 5) tag e (pay.drop 12) = (s1.modXfer n (frameByte pay 5)
      (fun x => { x with data := e.data ++ pay.drop 12, next := x.next + 1, last := s1.now })).ferryAnswer n tag 0x27 (rspHead tag 0 0) := by
    simp only [State.segTake, hgathered]
    rw [if_neg (by omega), if_neg (by omega)]
  simp only [State.ferrySegWrite, hreq, hopen, Option.filter, hwrite, if_true]
  rw [if_neg (by omega), if_neg (by omega), htake]

theorem State.ferryCommand_submits (hreq : s.ferryRequest f 0x28 = (s1, some (n, tag, pay))) (hnotify : frameByte pay 5 ≤ 1)
    (harg : frameByte pay 6 ≤ 32) (hzero : frameByte pay 7 = 0) (hlength : pay.length = 8 + frameByte pay 6)
    (hcmd : (cmdOf (frameVal pay 2 2)).isSome = true) :
    s.ferryCommand f = s1.ferrySubmit n tag (.command (frameByte pay 5 == 1)) 0x15 (reqKey pay) (pay.drop 8) := by
  simp only [State.ferryCommand, hreq]
  rw [if_neg (by omega), if_neg (by simp [Option.isSome_iff_ne_none.mp hcmd])]

/-- The subscription that a SUBSCRIBE asks for (R398, R399). -/
def subscription (id key : Nat) (pay : List Byte) (now : Nat) : Subn :=
  { id := id, key := key, periodic := frameByte pay 5 == 1, period := frameVal pay 6 2, minint := frameVal pay 8 2
    last := if frameByte pay 5 = 1 then some now else none, waiting := false, gap := false }

theorem State.ferrySubscribe_subscribes {y : Session} {e : DictDesc} (hreq : s.ferryRequest f 0x30 = (s1, some (n, tag, pay)))
    (hlength : pay.length = 10) (hmode : frameByte pay 5 ≤ 1)
    (hperiod : frameByte pay 5 = 1 → 100 ≤ frameVal pay 6 2 ∧ frameVal pay 6 2 ≤ 60000) (hminint : frameVal pay 8 2 ≤ 60000)
    (hsession : s1.dict.session n = some y) (hentry : s1.dict.entry (reqKey pay) = some e) (hember : e.ember = true)
    (hreads : roleReads y.role e.rrole = true) (hroom : y.subs.length < 16) (hall : (s1.dict.sess.map (fun z => z.subs.length)).sum < 64) :
    s.ferrySubscribe f = (s1.modSess n (fun z => { z with subs := z.subs ++ [subscription y.freeSub e.key pay s1.now] })).ferryAnswer n tag 0x31
      (rspHead tag 0 0 ++ toBytes 1 y.freeSub) := by
  simp only [State.ferrySubscribe, hreq, hsession, hentry, hember, hreads]
  rw [if_neg (by omega), if_neg (by decide), if_neg (by decide), if_neg (by omega)]
  rfl

theorem State.ferryUnsubscribe_unsubscribes {y : Session} (hreq : s.ferryRequest f 0x32 = (s1, some (n, tag, pay))) (hlength : pay.length = 4)
    (hzero : frameByte pay 3 = 0) (hsession : s1.dict.session n = some y) (hheld : y.subs.any (fun b => b.id == frameByte pay 2) = true) :
    s.ferryUnsubscribe f = (s1.modSess n (fun y => { y with subs := y.subs.filter (fun b => b.id != frameByte pay 2) })).ferryAnswer n tag 0x33
      (rspHead tag 0 0) := by
  simp only [State.ferryUnsubscribe, hreq, hsession, Option.any_some, hheld, hlength, hzero]
  rw [if_neg (by simp)]

theorem State.ferryKeepalive_answers (hreq : s.ferryRequest f 0x40 = (s1, some (n, tag, pay))) (hlength : pay.length = 2) :
    s.ferryKeepalive f = s1.ferryAnswer n tag 0x41 (rspHead tag 0 0) := by
  simp [State.ferryKeepalive, hreq, hlength]

theorem State.ferryClose_ends (hframe : s.ferrySession f 0x42 = (s1, some (n, pay))) : s.ferryClose f = s1.sessionEnd n := by
  rw [State.ferryClose, hframe]

end

/-- Settles O31: each request by what its handler does with one that has the form of Table 12-7. -/
theorem sessionRequestsTaken : Obligations.SessionRequestsTaken := by
  intro s s1 f n tag pay key
  refine ⟨?read, ?write, ?segReadFirst, ?segReadLater, ?segWrite, ?command, ?subscribe, ?unsubscribe, ?keepalive, ?close⟩
  case read => exact fun hreq hlength hzero => next_of_eq (State.ferryRead_submits hreq hlength hzero)
  case write => exact fun hreq hzero hvalue hlength => next_of_eq (State.ferryWrite_submits hreq hzero hvalue hlength)
  case segReadFirst =>
    exact fun hreq hlength hxfer hfirst hzero hroom => next_of_eq (State.ferrySegRead_opens hreq hlength hxfer hfirst hzero hroom)
  case segReadLater =>
    intro e hreq hlength hxfer hlater hlast hzero hopen hread hkey hmore
    exact next_of_eq (State.ferrySegRead_continues hreq hlength hxfer hlater hlast hzero hopen hread hkey hmore)
  case segWrite =>
    intro e hreq hxfer hlast hzero htotal hlen hlength hopen hwrite hnext hsame hkey hmore
    exact next_of_eq (State.ferrySegWrite_continues hreq hxfer hlast hzero htotal hlen hlength hopen hwrite hnext hsame hkey hmore)
  case command =>
    exact fun hreq hnotify harg hzero hlength hcmd => next_of_eq (State.ferryCommand_submits hreq hnotify harg hzero hlength hcmd)
  case subscribe =>
    intro y e hreq hlength hmode hperiod hminint hsession hentry hember hreads hroom hall
    exact next_of_eq (State.ferrySubscribe_subscribes hreq hlength hmode hperiod hminint hsession hentry hember hreads hroom hall)
  case unsubscribe =>
    exact fun y hreq hlength hzero hsession hheld => next_of_eq (State.ferryUnsubscribe_unsubscribes hreq hlength hzero hsession hheld)
  case keepalive => exact fun hreq hlength => next_of_eq (State.ferryKeepalive_answers hreq hlength)
  case close => exact fun hframe => next_of_eq (State.ferryClose_ends hframe)

end Sys2Proof.Machine

namespace Sys2Proof.Machine

/-! What time and the dictionary end in a session (R379, R390, R396, R397, R399). -/

section
variable {s : State} (hclock : s.dict.clk ≠ .stopped)
include hclock

/-- A transfer without a segment for 2 s is discarded (R396, R397). -/
theorem State.xferExpiry_late {write : Bool} {n x : Nat} {e : Xfer} (hopen : s.dict.xfer n x = some e) (hkind : e.write = write)
    (hlate : e.last + 2000000 ≤ s.now) : s.xferExpiry write n x = s.endXfer n x := by
  simp [State.xferExpiry, State.engineOn, hclock, hopen, hkind, hlate]

section
variable {n id : Nat} {y : Session} {b : Subn} {e : DictDesc} {l : Nat} (hsession : s.dict.session n = some y)
  (hsub : y.subs.find? (fun b => b.id == id) = some b) (hentry : s.dict.entry b.key = some e) (hlast : b.last = some l)
include hsession hsub hentry hlast

/-- The changes merged under MININT are told when it ends (R399). -/
theorem State.minintExpiry_due (hwaits : b.waiting = true) (hdue : l + b.minint * 1000 ≤ s.now) :
    s.minintExpiry n id = (s.ferryEvent n id 0 b.key ((s.dictVal false e).take 48)).modSess n (fun y =>
      { y with subs := y.subs.map (fun c => if c.id = id then { c with last := some s.now, waiting := false } else c) }) := by
  simp [State.minintExpiry, State.engineOn, hclock, hsession, hsub, hentry, hlast, hwaits, hdue]

/-- A period that ends while the device is awake sends its event, which tells of a pause before it (R399). -/
theorem State.periodExpiry_due (hperiodic : b.periodic = true) (hdue : l + b.period * 1000 ≤ s.now) (hbanked : s.dev.st ≠ .banked)
    (hdormant : s.dev.st ≠ .dormant) :
    s.periodExpiry n id = (s.ferryEvent n id (if b.gap = true then 1 else 0) b.key ((s.dictVal false e).take 48)).modSess n (fun y =>
      { y with subs := y.subs.map (fun c => if c.id = id then { c with last := some s.now, gap := false } else c) }) := by
  have hawake : (s.dev.st == .banked || s.dev.st == .dormant) = false := by simp [hbanked, hdormant]
  simp [State.periodExpiry, State.engineOn, hclock, hsession, hsub, hentry, hlast, hperiodic, hdue, hawake, b2n]

end

/-- A session without a valid frame for the idle timeout ends (R390). -/
theorem State.sessionExpiry_idle {n : Nat} {y : Session} (hsession : s.dict.session n = some y)
    (hidle : y.last + s.dict.num 0x020004 * 1000000 ≤ s.now) : s.sessionExpiry n = s.sessionEnd n := by
  simp [State.sessionExpiry, State.engineOn, hclock, hsession, hidle]

end

/-- A session that has ended is found no more. -/
theorem State.sessionEnd_session (s : State) (n : Nat) : (s.sessionEnd n).dict.session n = none := by
  refine List.find?_eq_none.mpr fun y hy => ?_
  obtain ⟨-, hother⟩ := List.mem_filter.mp hy
  simpa using hother

theorem State.sessionEnd_onlyIn (s : State) (n : Nat) : s.onlyIn (s.sessionEnd n) [.dict] := by
  intro p hp
  cases p <;> simp [State.agrees, State.sessionEnd] at hp ⊢

/-! The entries that end sessions when they are written: the session to close, and the island block, on which the node ID rests. -/

/-- The entry 0x0230:03, through which a session is closed (Table 12-13). -/
def sessionCloseEntry : DictDesc := mkEnt 0x023003 3 2 0 3 false 2 0 65535 0

/-- The entry 0x0200:01, the island block (Table 12-11). -/
def islandBlockEntry : DictDesc := mkEnt 0x020001 2 5 1 3 false 1 0 127 0

/-- A built-in entry that is neither a command's nor an isle's header is its row of the tables. -/
theorem Dict.entry_builtin (d : Dict) {key : Nat} {e : DictDesc} (hcmd : cmdOf (key / 256) = none) (hisle : isleOf (key / 256) = none)
    (hrow : (builtinA ++ builtinB).find? (fun e => e.key == key) = some e) : d.entry key = some e := by
  simp only [Dict.entry, Dict.builtin, hcmd, hisle, hrow]

theorem Dict.entry_sessionClose (d : Dict) : d.entry 0x023003 = some sessionCloseEntry :=
  d.entry_builtin (by decide) (by decide) (by simp [builtinA, builtinB, DictDesc.key, mkEnt, roEnt, roBytes, sessionCloseEntry])

theorem Dict.entry_islandBlock (d : Dict) : d.entry 0x020001 = some islandBlockEntry :=
  d.entry_builtin (by decide) (by decide) (by simp [builtinA, builtinB, DictDesc.key, mkEnt, roEnt, roBytes, islandBlockEntry])

theorem sessionCloseEntry_key : sessionCloseEntry.key = 0x023003 := rfl

theorem islandBlockEntry_key : islandBlockEntry.key = 0x020001 := rfl

/-- A write of 0x0230:03 stores nothing. -/
theorem State.builtinWrite_sessionClose (s : State) (r : DReq) (role : Nat) : s.builtinWrite r sessionCloseEntry role = (s, 0) := by
  have hcmd : cmdOf sessionCloseEntry.index = none := by decide
  simp only [State.builtinWrite, hcmd, sessionCloseEntry_key]
  rfl

/-- After its answer the session it names ends (R390). -/
theorem State.afterWrite_sessionClose (s : State) (old v : List Byte) : s.afterWrite sessionCloseEntry old v = s.sessionEnd (ofBytes v) := by
  rw [State.afterWrite, sessionCloseEntry_key, if_neg (by simp), if_pos rfl]

/-- After the answer to a write that changes the island block every session ends (R379). -/
theorem State.afterWrite_islandBlock (s : State) (old v : List Byte) :
    s.afterWrite islandBlockEntry old v = if old = v then s else s.dict.sess.foldl (fun t y => t.sessionEnd y.num) s := by
  rw [State.afterWrite, islandBlockEntry_key]
  by_cases hsame : old = v <;> simp [hsame]

section
variable {s : State} {r : DReq} {w : World} {n : Nat} (hsrc : r.src = .mailbox w n) (hop : r.op = 2) (hahead : s.dict.noWriteAhead r.key)
include hsrc hop hahead

/-- A write of 0x0230:03 that passes. -/
theorem State.dictReq_sessionClose (hkey : r.key = 0x023003) (hcheck : s.checkReq r sessionCloseEntry (localRole w) = 0) :
    s.dictReq r = some ((s.localAnswer w n 0 []).sessionEnd (ofBytes r.value)) := by
  have hentry : s.dict.entry r.key = some sessionCloseEntry := by rw [hkey, Dict.entry_sessionClose]
  rw [State.dictReq_writeBuiltin hsrc hentry hcheck hahead rfl hop rfl (State.builtinWrite_sessionClose s r _), State.accepted_plain _ _ rfl,
    State.permitWrite_other _ _ (by decide) (.inl (by decide)), State.afterWrite_sessionClose]
  rfl

/-- The engine after the value of 0x0200:01 was stored and its write answered. -/
def State.islandBlockSet (s : State) (w : World) (n : Nat) (v : List Byte) : State :=
  (((s.modDict (·.setVal 0x020001 v)).publish 0x020001 v).noteRws islandBlockEntry).localAnswer w n 0 []

/-- A write of 0x0200:01 that passes. -/
theorem State.dictReq_islandBlock (hkey : r.key = 0x020001) (hcheck : s.checkReq r islandBlockEntry (localRole w) = 0) :
    let u := s.islandBlockSet w n (islandBlockEntry.written (s.dict.val islandBlockEntry) r.value)
    s.dictReq r = some (if s.dict.val islandBlockEntry = r.value then u else u.dict.sess.foldl (fun t y => t.sessionEnd y.num) u) := by
  have hentry : s.dict.entry r.key = some islandBlockEntry := by rw [hkey, Dict.entry_islandBlock]
  rw [State.dictReq_writeBuiltin hsrc hentry hcheck hahead rfl hop rfl (State.builtinWrite_value s (by decide) (by decide)),
    State.accepted_plain _ _ rfl, State.permitWrite_other _ _ (by decide) (.inl (by decide)), State.afterWrite_islandBlock]
  rfl

end

/-- A record that is taken and answered at once. -/
theorem State.localRequest_answered {s t : State} {w : World} {n : Nat} (hready : s.localReady w n)
    (hreq : (s.localTaken w n).dictReq (s.localRecord w n) = some t) : s.localRequest w n = t := by
  have hidle : (s.localTaken w n).dict.waiting = [] := by
    obtain ⟨-, -, hwaiting⟩ := hready
    rw [State.localTaken_dict, hwaiting]
  rw [State.localRequest_of_ready hready, State.submit_answered hidle hreq]

/-- Settles O32: each expiry by what its deadline ends, each write by what follows its answer. -/
theorem sessionTimersRun : Obligations.SessionTimersRun := by
  intro s n x w slot hclock
  have hdict : (s.localTaken w slot.toNat).dict = s.dict := s.localTaken_dict w slot.toNat
  refine ⟨?snapshot, ?segWrite, ?minint, ?period, ?idle, ?close, ?block⟩
  case snapshot => exact fun e hopen hread hlate => next_of_eq (State.xferExpiry_late hclock hopen hread hlate)
  case segWrite => exact fun e hopen hwrite hlate => next_of_eq (State.xferExpiry_late hclock hopen hwrite hlate)
  case minint =>
    exact fun y b e l hsession hsub hentry hwaits hlast hdue =>
      next_of_eq (State.minintExpiry_due hclock hsession hsub hentry hlast hwaits hdue)
  case period =>
    exact fun y b e l hsession hsub hentry hperiodic hlast hdue hbanked hdormant =>
      next_of_eq (State.periodExpiry_due hclock hsession hsub hentry hlast hperiodic hdue hbanked hdormant)
  case idle =>
    exact fun y hsession hidle =>
      ⟨_, next_of_eq (State.sessionExpiry_idle hclock hsession hidle), s.sessionEnd_onlyIn _, s.sessionEnd_session _, rfl⟩
  case close =>
    intro e hready hop hkey hentry hcheck hahead
    obtain rfl : sessionCloseEntry = e := by rwa [Dict.entry_sessionClose, Option.some.injEq] at hentry
    rw [← hkey, ← hdict] at hahead
    exact next_of_eq ((if_pos ⟨hop, hkey⟩).trans (State.localRequest_answered hready (State.dictReq_sessionClose rfl hop hahead hkey hcheck)))
  case block =>
    intro r e hready hop hkey hcheck hahead
    rw [← hdict] at hahead
    rw [← hdict]
    exact next_of_eq ((if_pos ⟨hop, hkey⟩).trans (State.localRequest_answered hready (State.dictReq_islandBlock rfl hop hahead hkey hcheck)))

end Sys2Proof.Machine

namespace Sys2Proof.Machine

/-! What the writes of the link blocks (chapter 13) share: a field and a bit as arithmetic, a write that a block refuses, a state up to its interrupts. -/

theorem fld_eq_div_mod {n : Nat} (w : BitVec n) (hi lo : Nat) : fld w hi lo = w.toNat / 2 ^ lo % 2 ^ (hi - lo + 1) := by
  rw [fld, Nat.shiftRight_eq_div_pow]

theorem bit_eq_decide {n : Nat} (w : BitVec n) (b : Nat) : bit w b = decide (w.toNat / 2 ^ b % 2 = 1) := by
  rw [bit, ← BitVec.testBit_toNat, Nat.testBit_eq_decide_div_mod_eq]

/-- A write of a slot on the logic side that its gate admits and its block answers with an error changes nothing but the answer. -/
theorem State.regWrite_blockRefuses {s : State} {q : Req} {slot off : Nat} {v : Word} {c : Code} (hadmits : s.admits q slot off)
    (hlogic : behindCauseway slot = false) (haligned : off % 4 = 0) (hblock : s.slotWrite q slot off v = (s, .err c)) :
    (Host.Outcome.next (s.regWrite q slot off v) : Host.Outcome State Fault Refusal) = .next { s with resp := some (.err c) } := by
  refine next_of_eq ((State.regWrite_admits s q slot off v hadmits haligned).trans ?_)
  rw [s.cwSeen_logic slot hlogic, hblock]

/-- A state is itself with its own interrupt state. -/
theorem State.eq_withIrq (s : State) : ∃ x, s = { s with irq := x } := ⟨s.irq, rfl⟩

end Sys2Proof.Machine

namespace Sys2Proof.Machine

/-! The IEEE 1588 time block (R429). -/

/-- A write of slot 0x07B that its gate admits and the time block answers without an error. -/
theorem regWrite_time {s t : State} {q : Req} {off : Nat} {v : Word} (hadmits : s.admits q 0x07B off) (hlo : 0x1000 ≤ off)
    (haligned : off % 4 = 0) (hblock : s.tbWrite off v = (t, .ok 0)) :
    (Host.Outcome.next (s.regWrite q 0x07B off v) : Host.Outcome State Fault Refusal) = .next t.done :=
  State.regWrite_next hadmits (by decide) haligned ((s.slotWrite_time q off v hlo).trans hblock)

/-- The latest four offsets once v is written. -/
def State.offsetsWith (s : State) (v : Word) : List (Int × Nat) := ((v.toInt, s.now) :: s.tb.ofs).take 4

/-- The state with an offset written, before the lock is judged. -/
def State.offsetTaken (s : State) (v : Word) : State := s.modTb (fun t => { t with ofs := s.offsetsWith v })

/-- The state whose offsets were judged good: the lock, and RTCVALID that follows it. -/
def State.lockTaken (s : State) : State :=
  let s1 := s.modTb (fun t => { t with locked := true, holdover := none })
  { s1 with rtc := { s1.rtc with valid := s1.rtcValid } }

section
variable (s : State) (v : Word)

/-- Offsets just written are judged by their number and their size alone: the latest is fresh. -/
theorem State.offsetTaken_good_iff : (s.offsetTaken v).tb.good s.now = true ↔
    4 ≤ (s.offsetsWith v).length ∧ ∀ o ∈ s.offsetsWith v, -1000 ≤ o.1 ∧ o.1 ≤ 1000 := by
  have hlatest : (s.offsetsWith v).head? = some (v.toInt, s.now) := rfl
  have hfour : (s.offsetsWith v).take 4 = s.offsetsWith v := by simp [State.offsetsWith, List.take_take]
  have hfresh : decide (s.now < s.now + 2000000) = true := decide_eq_true (by omega)
  rw [TimeBlk.good, State.offsetTaken, State.modTb_tb, hlatest, hfour, Option.any_some, hfresh, Bool.and_true, Bool.and_eq_true, decide_eq_true_iff]
  simp

theorem State.tbOfs_locks (hgood : (s.offsetTaken v).tb.good s.now = true) : s.tbOfs v = (s.offsetTaken v).lockTaken := if_pos hgood

theorem State.tbOfs_unlocks (hbad : ¬ (s.offsetTaken v).tb.good s.now = true) : s.tbOfs v = (s.offsetTaken v).lockFall := if_neg hbad

theorem State.offsetTaken_onlyIn : s.onlyIn (s.offsetTaken v) [.tb] := by
  intro p hp
  cases p <;> simp [State.agrees, State.offsetTaken] at hp ⊢

theorem State.lockTaken_onlyIn : s.onlyIn s.lockTaken [.tb, .rtc] := by
  intro p hp
  cases p <;> simp [State.agrees, State.lockTaken] at hp ⊢

/-- LOCKED falls and HOLDOVER begins where the block was locked. -/
theorem State.lockFall_of_locked (hlocked : s.tb.locked = true) :
    s.lockFall = s.modTb (fun t => { t with locked := false, holdover := some s.now }) := if_pos hlocked

theorem State.lockFall_locked : s.lockFall.tb.locked = false := by
  by_cases hlocked : s.tb.locked = true
  · rw [s.lockFall_of_locked hlocked, State.modTb_tb]
  · rw [State.lockFall, if_neg hlocked]
    exact (Bool.not_eq_true _).mp hlocked

theorem State.lockFall_onlyIn : s.onlyIn s.lockFall [.tb] := by
  intro p hp
  rw [State.lockFall]
  split <;> cases p <;> simp [State.agrees] at hp ⊢

/-- A latest offset that is 2 s old is not good. -/
theorem State.good_of_stale {o : Int × Nat} (hlatest : s.tb.ofs.head? = some o) (hstale : o.2 + 2000000 ≤ s.now) :
    s.tb.good s.now = false := by
  rw [TimeBlk.good, hlatest, Option.any_some, decide_eq_false (Nat.not_lt.mpr hstale), Bool.and_false]

theorem State.lockLoss_of_stale {o : Int × Nat} (hlatest : s.tb.ofs.head? = some o) (hstale : o.2 + 2000000 ≤ s.now)
    (hlocked : s.tb.locked = true) : s.lockLoss = s.modTb (fun t => { t with locked := false, holdover := some s.now }) := by
  rw [State.lockLoss, s.good_of_stale hlatest hstale, if_neg Bool.false_ne_true, s.lockFall_of_locked hlocked]

/-- A jump to a time of 64 bits. -/
theorem State.tbJump_ptp {n : Nat} (hn : n < 2 ^ 64) : (s.tbJump n).ptp = n := Nat.mod_eq_of_lt hn

theorem State.tbJump_locked (n : Nat) : (s.tbJump n).tb.locked = false := s.lockFall_locked

theorem State.tbJump_onlyIn (n : Nat) : s.onlyIn (s.tbJump n) [.tb, .ptp] := by
  refine State.onlyIn_trans s.lockFall_onlyIn (m := [.tb, .ptp]) ?_ (by decide) (List.Subset.refl _)
  intro p hp
  cases p <;> simp [State.agrees, State.tbJump] at hp ⊢

/-- A trim within ±500 ppm is taken. -/
theorem State.tbAdj_takes (hlo : -500000 ≤ v.toInt) (hhi : v.toInt ≤ 500000) : s.tbAdj v = (s.setReg 0x07B 0x100C v, .ok 0) := by
  simp [State.tbAdj, hlo, hhi]

theorem State.tbAdj_refuses (hout : v.toInt < -500000 ∨ 500000 < v.toInt) : s.tbAdj v = (s, .err busErr) := by
  simp [State.tbAdj, hout]

end

/-- A write of slot 0x07B that makes the time jump: the lock falls, and the offsets go. -/
theorem regWrite_timeJump {s : State} {q : Req} {off n : Nat} {v : Word} (hadmits : s.admits q 0x07B off) (hlo : 0x1000 ≤ off)
    (haligned : off % 4 = 0) (hblock : s.tbWrite off v = (s.tbJump n, .ok 0)) (hn : n < 2 ^ 64) :
    ∃ t, (Host.Outcome.next (s.regWrite q 0x07B off v) : Host.Outcome State Fault Refusal) = .next t ∧ t.ptp = n ∧ t.tb.locked = false
      ∧ t.tb.ofs = [] ∧ s.onlyIn t [.tb, .ptp, .resp] :=
  ⟨_, regWrite_time hadmits hlo haligned hblock, s.tbJump_ptp hn, s.tbJump_locked n, rfl,
    State.onlyIn_done (s.tbJump_onlyIn n) (by decide) (by decide)⟩

/-! Time stamps. -/

/-- The offset of a port's stamp of one direction (Table 13-10b). -/
def stampOff (p : BitVec 1) (tx : Bool) : Nat := 0x1100 + 32 * p.toNat + (if tx = true then 0x10 else 0)

theorem stampOff_lt (p : BitVec 1) (tx : Bool) : stampOff p tx < 0x1140 := by
  have hp : p.toNat < 2 := p.isLt
  rw [stampOff]
  split <;> omega

/-- The word of a stamp that says it is valid, its message type and its sequence number. -/
def stampWord (mtype : BitVec 4) (sid : BitVec 16) : Word := BitVec.ofNat 32 (2 ^ 31 + mtype.toNat % 16 * 2 ^ 16 + sid.toNat % 2 ^ 16)

theorem stampWord_toNat (mtype : BitVec 4) (sid : BitVec 16) : (stampWord mtype sid).toNat = 2 ^ 31 + mtype.toNat * 2 ^ 16 + sid.toNat := by
  have hmtype : mtype.toNat < 16 := mtype.isLt
  have hsid : sid.toNat < 65536 := sid.isLt
  simp only [stampWord, BitVec.toNat_ofNat]
  omega

theorem stampWord_fields (mtype : BitVec 4) (sid : BitVec 16) : bit (stampWord mtype sid) 31 = true
    ∧ fld (stampWord mtype sid) 19 16 = mtype.toNat ∧ fld (stampWord mtype sid) 15 0 = sid.toNat := by
  have hmtype : mtype.toNat < 16 := mtype.isLt
  have hsid : sid.toNat < 65536 := sid.isLt
  simp only [bit_eq_decide, fld_eq_div_mod, stampWord_toNat, decide_eq_true_eq]
  omega

/-- The registers of a stamp with the time and the message written. -/
def State.stamped (s : State) (o : Nat) (w : Word) : State :=
  ((s.setReg 0x07B o (BitVec.ofNat 32 s.ptp)).setReg 0x07B (o + 4) (BitVec.ofNat 32 (s.ptp / 2 ^ 32))).setReg 0x07B (o + 8) w

section
variable (s : State)

theorem State.ptpStamp_waits {p : BitVec 1} {tx : Bool} (hvalid : bit (s.reg 0x07B (stampOff p tx + 8)) 31 = true) (mtype sid : Nat) :
    s.ptpStamp p.toNat tx mtype sid = s := if_pos hvalid

theorem State.ptpStamp_stamps {p : BitVec 1} {tx : Bool} (hfree : bit (s.reg 0x07B (stampOff p tx + 8)) 31 = false) (mtype : BitVec 4)
    (sid : BitVec 16) : s.ptpStamp p.toNat tx mtype.toNat sid.toNat = (s.stamped (stampOff p tx) (stampWord mtype sid)).raise 259 :=
  if_neg (Bool.not_eq_true _ ▸ hfree)

theorem State.stamped_regs {o : Nat} (ho : o < 0x1140) (w : Word) : (s.stamped o w).reg 0x07B o = BitVec.ofNat 32 s.ptp
    ∧ (s.stamped o w).reg 0x07B (o + 4) = BitVec.ofNat 32 (s.ptp / 2 ^ 32) ∧ (s.stamped o w).reg 0x07B (o + 8) = w := by
  have h0 : o < 0x10000 := by omega
  have h4 : o + 4 < 0x10000 := by omega
  have h8 : o + 8 < 0x10000 := by omega
  simp [State.stamped, State.reg_setReg, h0, h4, h8]

theorem State.stamped_regsBut {o : Nat} (ho : o < 0x1140) (w : Word) :
    s.regsBut (s.stamped o w) [(0x07B, o), (0x07B, o + 4), (0x07B, o + 8)] :=
  State.regsBut_setReg (State.regsBut_setReg (State.regsBut_setReg (State.regsBut_of_eq _ rfl) _ (by decide) (by omega) (by simp)) _ (by decide)
    (by omega) (by simp)) _ (by decide) (by omega) (by simp)

end

/-- Settles O37: each write by what the block makes of it, the loss of the lock by the age of the latest offset, a stamp by its three words. -/
theorem timeBlockRuns : Obligations.TimeBlockRuns := by
  intro s q v ofs good
  refine ⟨?locks, ?unlocks, ?trims, ?trimRefused, ?steps, ?sets, ?loss, ?stamps⟩
  case locks =>
    intro hadmits hgood
    have hjudged := (s.offsetTaken_good_iff v).mpr hgood
    refine ⟨_, regWrite_time hadmits (by decide) (by decide) (congrArg (·, BusRes.ok 0) (s.tbOfs_locks v hjudged)), rfl, rfl, rfl, ?_⟩
    exact State.onlyIn_done (State.onlyIn_trans (s.offsetTaken_onlyIn v) (State.lockTaken_onlyIn _) (by decide) (List.Subset.refl _))
      (by decide) (by decide)
  case unlocks =>
    intro hadmits hbad hlocked
    have hjudged := mt (s.offsetTaken_good_iff v).mp hbad
    have hfall := (s.offsetTaken v).lockFall_of_locked hlocked
    refine ⟨_, regWrite_time hadmits (by decide) (by decide) (congrArg (·, BusRes.ok 0) (s.tbOfs_unlocks v hjudged)), ?_⟩
    refine ⟨State.lockFall_locked _, by rw [hfall]; rfl, by rw [hfall]; rfl, ?_⟩
    exact State.onlyIn_done (State.onlyIn_trans (s.offsetTaken_onlyIn v) (State.lockFall_onlyIn _) (List.Subset.refl _) (List.Subset.refl _))
      (by decide) (by decide)
  case trims => exact fun hadmits hlo hhi => regWrite_time hadmits (by decide) (by decide) (s.tbAdj_takes v hlo hhi)
  case trimRefused =>
    intro hadmits hout
    exact State.regWrite_blockRefuses hadmits (by decide) (by decide)
      ((s.slotWrite_time q 0x100C v (by decide)).trans (s.tbAdj_refuses v hout))
  case steps =>
    intro hadmits
    have hlo : 0 ≤ ((s.ptp : Int) + v.toInt) % 2 ^ 64 := Int.emod_nonneg _ (by decide)
    have hhi : ((s.ptp : Int) + v.toInt) % 2 ^ 64 < 2 ^ 64 := Int.emod_lt_of_pos _ (by decide)
    obtain ⟨t, hexec, htime, hjumped⟩ := regWrite_timeJump (v := v) hadmits (by decide) (by decide) rfl (by omega)
    exact ⟨t, hexec, htime ▸ Int.toNat_of_nonneg hlo, hjumped⟩
  case sets =>
    intro hadmits
    have hhigh : (s.reg 0x07B 0x101C).toNat < 2 ^ 32 := BitVec.isLt _
    have hlow : (s.reg 0x07B 0x1018).toNat < 2 ^ 32 := BitVec.isLt _
    exact regWrite_timeJump hadmits (by decide) (by decide) rfl (by omega)
  case loss =>
    intro o hlatest hstale hlocked
    refine ⟨_, next_of_eq (s.lockLoss_of_stale hlatest hstale hlocked), ?_, rfl⟩
    intro p hp
    cases p <;> simp [State.agrees] at hp ⊢
  case stamps =>
    intro p tx mtype sid
    refine ⟨fun hvalid => next_of_eq (s.ptpStamp_waits hvalid _ _), fun hfree => ?_⟩
    have hoff := stampOff_lt p tx
    obtain ⟨hlow, hhigh, hword⟩ := s.stamped_regs hoff (stampWord mtype sid)
    obtain ⟨hvalid, hmtype, hsid⟩ := stampWord_fields mtype sid
    refine ⟨_, next_of_eq (s.ptpStamp_stamps hfree mtype sid), (State.raise_reg ..).trans hlow, (State.raise_reg ..).trans hhigh, ?_⟩
    have hread := ((s.stamped (stampOff p tx) (stampWord mtype sid)).raise_reg 259 0x07B (stampOff p tx + 8)).trans hword
    exact ⟨(congrArg (bit · 31) hread).trans hvalid, (congrArg (fld · 19 16) hread).trans hmtype, (congrArg (fld · 15 0) hread).trans hsid,
      State.regsBut_congr (s.stamped_regsBut hoff _) (State.raise_regs _ _)⟩

end Sys2Proof.Machine

namespace Sys2Proof.Machine

/-! New event bits and the USB ports (R432 to R434). RESUME outside the host role is log 25, the bits the rows of UPORT write are log 18, the control pipe
and the target register are log 73. -/

/-- New event bits touch their register and the interrupts alone. -/
theorem State.newEvent_eq (s : State) (slot off irq : Nat) (bits : Word) :
    ∃ x, s.newEvent slot off irq bits = { s.setReg slot off (s.reg slot off ||| bits) with irq := x } := by
  rw [State.newEvent]
  split
  · exact State.eq_withIrq _
  · exact State.raise_eq _ _

theorem State.newEvent_usb (s : State) (slot off irq : Nat) (bits : Word) : (s.newEvent slot off irq bits).usb = s.usb := by
  obtain ⟨x, hx⟩ := s.newEvent_eq slot off irq bits
  rw [hx, State.setReg_usb]

theorem State.newEvent_upsets (s : State) (slot off irq : Nat) (bits : Word) : (s.newEvent slot off irq bits).upsets = s.upsets := by
  obtain ⟨x, hx⟩ := s.newEvent_eq slot off irq bits
  rw [hx, State.setReg_upsets]

theorem State.newEvent_reg (s : State) (slot off irq : Nat) (bits : Word) (a o : Nat) :
    (s.newEvent slot off irq bits).reg a o = (s.setReg slot off (s.reg slot off ||| bits)).reg a o := by
  obtain ⟨x, hx⟩ := s.newEvent_eq slot off irq bits
  rw [hx]
  exact State.regW_congr rfl

section
variable (s : State) (u : BitVec 1)

/-- The port that was changed reads as changed. -/
theorem State.usbPort_modUsb (f : Usb → Usb) : (s.modUsb u.toNat f).usbPort u.toNat = f (s.usbPort u.toNat) :=
  (vget_vset _ _ _ _ _ u.isLt).trans (if_pos rfl)

theorem State.usbPort_congr {s t : State} (h : t.usb = s.usb) (n : Nat) : t.usbPort n = s.usbPort n := by
  rw [State.usbPort, State.usbPort, h]

theorem State.usbEvent_usbPort (bits : Word) (n : Nat) : (s.usbEvent u.toNat bits).usbPort n = s.usbPort n :=
  State.usbPort_congr (State.newEvent_usb ..) n

/-- A bit that a port's event sets reads as set. -/
theorem State.usbEvent_bit {bits : Word} {b : Nat} (hb : bit bits b = true) :
    bit ((s.usbEvent u.toNat bits).reg (0x07C + u.toNat) 0x080C) b = true := by
  rw [State.usbEvent, State.newEvent_reg, State.reg_setReg_self, bit, BitVec.getLsbD_or, ← bit, ← bit, hb, Bool.or_true]

/-- A port's event leaves its other registers alone. -/
theorem State.usbEvent_reg {o : Nat} (ho : o < 0x10000) (hne : o ≠ 0x080C) (bits : Word) :
    (s.usbEvent u.toNat bits).reg (0x07C + u.toNat) o = s.reg (0x07C + u.toNat) o := by
  have hu : 0x07C + u.toNat < 0x1000 := by have := u.isLt; omega
  rw [State.usbEvent, State.newEvent_reg, State.reg_setReg _ _ hu hu (by decide) ho, if_neg (fun h => hne h.2)]

/-! Writes of a port's registers. -/

/-- A write of a USB port's slot that its gate admits and the port answers without an error. -/
theorem regWrite_usb {s t : State} {q : Req} {u : BitVec 1} {off : Nat} {v : Word} (hadmits : s.admits q (0x07C + u.toNat) off)
    (haligned : off % 4 = 0) (hblock : s.usbWrite q u.toNat off v = (t, .ok 0)) :
    (Host.Outcome.next (s.regWrite q (0x07C + u.toNat) off v) : Host.Outcome State Fault Refusal) = .next t.done := by
  have hu : u.toNat < 2 := u.isLt
  refine State.regWrite_next hadmits ?_ haligned ((s.slotWrite_usb q u.toNat off v hu).trans hblock)
  simp [behindCauseway, within]
  omega

/-- A port at which nothing is attached takes the role that UCTL names (R432). -/
theorem State.usbRole_idle (hidle : (s.usbPort u.toNat).attached = false) :
    s.usbRole u.toNat = s.modUsb u.toNat (fun x => { x with role := fld (s.reg (0x07C + u.toNat) 0x0800) 1 0, addr := 0 }) :=
  if_neg (by rw [hidle]; exact Bool.false_ne_true)

theorem State.usbRole_attached (hattached : (s.usbPort u.toNat).attached = true) : s.usbRole u.toNat = s := if_pos hattached

/-- The word that starts a bus reset: RESET, no RESUME, SUSPEND as it was. -/
theorem uportReset_bits (w : Word) : bit (w &&& 2 ||| 1) 0 = true ∧ bit (w &&& 2 ||| 1) 2 = false ∧ (w &&& 2 ||| 1) &&& 2 = w &&& 2 := by
  refine ⟨by simp [bit], by simp [bit], ?_⟩
  rw [BitVec.and_comm, BitVec.and_or_distrib_left, BitVec.and_comm 2 (w &&& 2), BitVec.and_assoc]
  simp

section
variable {s u} (hhost : (s.usbPort u.toNat).host = true)
include hhost

/-- A write of UPORT in the host role that asks for no reset (Table 13-10d). -/
theorem State.uportWrite_plain {v : Word} (hreset : bit v 0 = false) :
    s.uportWrite u.toNat v = s.setReg (0x07C + u.toNat) 0x0808 (if bit v 2 = true then 0 else v &&& 2) := by
  simp [State.uportWrite, hhost, hreset]

/-- The write of UPORT that starts a bus reset leaves SUSPEND as it is. -/
theorem State.uportWrite_reset : s.uportWrite u.toNat (s.reg (0x07C + u.toNat) 0x0808 &&& 2 ||| 1) =
    (s.setReg (0x07C + u.toNat) 0x0808 (s.reg (0x07C + u.toNat) 0x0808 &&& 2)).modUsb u.toNat
      (fun x => { x with resetEnd := some (s.now + 50000) }) := by
  obtain ⟨hreset, hresume, hsuspend⟩ := uportReset_bits (s.reg (0x07C + u.toNat) 0x0808)
  simp only [State.uportWrite, hhost, hreset, hresume, hsuspend, Bool.not_true, Bool.false_eq_true, if_false, if_true]

end

theorem State.uportWrite_device (hdevice : (s.usbPort u.toNat).host = false) (v : Word) : s.uportWrite u.toNat v = s := by
  simp [State.uportWrite, hdevice]

/-! What happens at a port's lines. -/

/-- The state with a partner attached at a port. -/
def State.usbJoined (s : State) (u : BitVec 1) (speed : Nat) : State :=
  let s1 := s.modUsb u.toNat (fun x => { x with attached := true, speed := speed, addr := 0 })
  if (s.usbPort u.toNat).host = true then s1.setReg (0x07C + u.toNat) 0x1020 0 else s1

theorem State.usbAttach_idle (speed : Nat) (hidle : s.usbState u.toNat = 1) :
    s.usbAttach u.toNat speed = (s.usbJoined u speed).usbEvent u.toNat 1 := by
  have hrole : ((s.modUsb u.toNat (fun x => { x with attached := true, speed := speed, addr := 0 })).usbPort u.toNat).host
      = (s.usbPort u.toNat).host := by
    rw [s.usbPort_modUsb]
    rfl
  rw [State.usbAttach, if_neg (not_not_intro hidle)]
  simp only [hrole, State.usbJoined]

theorem State.usbJoined_usbPort (speed : Nat) :
    (s.usbJoined u speed).usbPort u.toNat = { s.usbPort u.toNat with attached := true, speed := speed, addr := 0 } := by
  rw [← s.usbPort_modUsb u (fun x => { x with attached := true, speed := speed, addr := 0 }), State.usbJoined]
  split
  · exact State.usbPort_congr (State.setReg_usb ..) _
  · rfl

/-- In the host role queue 0 becomes the default control pipe of address 0. -/
theorem State.usbJoined_target (speed : Nat) (hhost : (s.usbPort u.toNat).host = true) :
    (s.usbJoined u speed).reg (0x07C + u.toNat) 0x1020 = 0 := by
  rw [State.usbJoined, if_pos hhost, State.reg_setReg_self]

/-- The state with a port's partner gone: the role that UCTL names is in use, and SUSPEND clear. -/
def State.usbLeft (s : State) (u : BitVec 1) : State :=
  ((s.modUsb u.toNat (fun x => { x with attached := false, speed := 0, addr := 0 })).usbRole u.toNat).modReg (0x07C + u.toNat) 0x0808
    (fun v => setBit v 1 false)

theorem State.usbDetach_attached (hattached : (s.usbPort u.toNat).attached = true) :
    s.usbDetach u.toNat = (s.usbLeft u).usbEvent u.toNat 2 := by
  simp only [State.usbDetach, hattached, Bool.not_true, Bool.false_eq_true, if_false, State.usbLeft]

theorem State.usbLeft_usbPort : (s.usbLeft u).usbPort u.toNat =
    { s.usbPort u.toNat with attached := false, speed := 0, addr := 0, role := fld (s.reg (0x07C + u.toNat) 0x0800) 1 0 } := by
  have hidle : ((s.modUsb u.toNat (fun x => { x with attached := false, speed := 0, addr := 0 })).usbPort u.toNat).attached = false := by
    rw [s.usbPort_modUsb]
  rw [State.usbLeft, State.usbPort_congr (State.modReg_usb ..), State.usbRole_idle _ _ hidle, State.usbPort_modUsb, State.usbPort_modUsb,
    State.modUsb_reg]

/-- A port's overcurrent: nothing is attached, the port waits for its record (R432). -/
theorem State.usbOver_working (hworks : s.usbState u.toNat < 3) : s.usbOver u.toNat =
    ((s.modUsb u.toNat (fun x => { x with attached := false, speed := 0, addr := 0, hold := some 0 })).usbEvent u.toNat 4).report
      { cls := 3, num := u.toNat, kind := none, pa := 0, hard := false } :=
  if_neg (by omega)

end

/-! A transfer from the bus (R433, R434). -/

/-- The setup packet at the start of a control pipe's buffer sent to the bus. -/
def State.setupSent (s : State) (u : BitVec 1) (epn buf : Nat) : State :=
  (s.masterRead buf 8).1.send (.usb u (BitVec.ofNat 4 epn) (s.masterRead buf 8).2.1)

section
variable {s s1 : State} {u : BitVec 1} {e : Nat} {ep : BitVec 8} {bytes : List Byte} {d : QDesc}

/-- The bytes of a transfer that fits its buffer go there, after the setup packet where there is one, and the descriptor completes. -/
theorem State.usbTransfer_fits (htakes : s.usbTakes u.toNat e true = true) (hfetch : s.qFetch (usbQ u.toNat e) none = (s1, some d))
    (hown : d.own = true) (hsome : 0 < s.usbSetup u.toNat e + bytes.length) (hfits : s.usbSetup u.toNat e + bytes.length ≤ d.buflen)
    (hcheck : s1.qCheck (usbQ u.toNat e) d.buf (s.usbSetup u.toNat e + bytes.length) = none) :
    s.usbTransfer u.toNat e true ep bytes =
      ((if s.usbSetup u.toNat e = 0 then s1 else s1.setupSent u (s.usbEp u.toNat e ep) d.buf).masterWriteMem (d.buf + s.usbSetup u.toNat e)
        bytes).qComplete (usbQ u.toNat e) 0 (s.usbSetup u.toNat e + bytes.length) (s.usbEp u.toNat e ep) s1.time32 := by
  have hlen : max 1 (s.usbSetup u.toNat e + bytes.length) = s.usbSetup u.toNat e + bytes.length := by omega
  have hrest : s.usbSetup u.toNat e + bytes.length - s.usbSetup u.toNat e = bytes.length := by omega
  simp only [State.usbTransfer, htakes, hfetch, hown, Nat.min_eq_right hfits, hlen, hcheck, hrest, List.take_length, if_neg (Nat.not_lt.mpr hfits),
    Bool.not_true, Bool.false_eq_true, if_false, if_true, BitVec.ofNat_toNat, BitVec.setWidth_eq, State.setupSent]

theorem State.usbTransfer_idle (hidle : s.usbTakes u.toNat e true = false) : s.usbTransfer u.toNat e true ep bytes = s := by
  rw [State.usbTransfer, hidle]
  rfl

section
variable (hattached : (s.usbPort u.toNat).attached = true) (hruns : s.qRuns (usbQ u.toNat e) = true)
  (hreset : (s.usbPort u.toNat).resetEnd = none)
include hattached hruns hreset

/-- As device the first four queues take part. -/
theorem State.usbTakes_device (hdevice : (s.usbPort u.toNat).host = false) (he : e < 4) : s.usbTakes u.toNat e true = true := by
  simp [State.usbTakes, hattached, hruns, hreset, hdevice, he]

/-- As host a pipe of the direction takes part. -/
theorem State.usbTakes_pipe (hhost : (s.usbPort u.toNat).host = true) (hin : bit (s.utarget u.toNat e) 14 = true)
    (htype : fld (s.utarget u.toNat e) 13 12 ≠ 3) : s.usbTakes u.toNat e true = true := by
  simp [State.usbTakes, hattached, hruns, hreset, hhost, hin, htype]

/-- As host a control pipe takes part in either direction. -/
theorem State.usbTakes_control (hhost : (s.usbPort u.toNat).host = true) (htype : fld (s.utarget u.toNat e) 13 12 = 0) :
    s.usbTakes u.toNat e true = true := by
  simp [State.usbTakes, hattached, hruns, hreset, hhost, htype]

end

theorem State.usbSetup_device (hdevice : (s.usbPort u.toNat).host = false) : s.usbSetup u.toNat e = 0 := by
  simp [State.usbSetup, hdevice]

theorem State.usbSetup_pipe (htype : fld (s.utarget u.toNat e) 13 12 ≠ 0) : s.usbSetup u.toNat e = 0 := by
  simp [State.usbSetup, htype]

theorem State.usbSetup_control (hhost : (s.usbPort u.toNat).host = true) (htype : fld (s.utarget u.toNat e) 13 12 = 0) :
    s.usbSetup u.toNat e = 8 := by
  simp [State.usbSetup, hhost, htype]

theorem State.usbEp_device (hdevice : (s.usbPort u.toNat).host = false) : s.usbEp u.toNat e ep = ep.toNat := by
  simp [State.usbEp, hdevice]

theorem State.usbEp_host (hhost : (s.usbPort u.toNat).host = true) :
    s.usbEp u.toNat e ep = fld (s.utarget u.toNat e) 11 8 + 128 * b2n (bit (s.utarget u.toNat e) 14) := if_pos hhost

end

/-- Settles O38: each write and each event by what the port makes of it, a transfer by the pipe that takes part in it. -/
theorem usbPortsRun : Obligations.UsbPortsRun := by
  intro s q u v slot x
  refine ⟨?role, ?roleHeld, ?reset, ?suspend, ?resume, ?resumeDevice, ?attach, ?detach, ?overcurrent, ?vbus, ?transfer, ?noPartner⟩
  case role =>
    intro hadmits hidle
    have hrole := State.usbRole_idle (s.setReg slot 0x0800 (v &&& 3)) u hidle
    rw [State.reg_setReg_self, fld_and_three] at hrole
    exact regWrite_usb hadmits (by decide) (congrArg (·, BusRes.ok 0) hrole)
  case roleHeld =>
    exact fun hadmits hattached => regWrite_usb hadmits (by decide) (congrArg (·, BusRes.ok 0) (State.usbRole_attached _ u hattached))
  case reset => exact fun hadmits hhost => regWrite_usb hadmits (by decide) (congrArg (·, BusRes.ok 0) (State.uportWrite_reset hhost))
  case suspend =>
    intro on hadmits hhost
    cases on
    · exact regWrite_usb hadmits (by decide) (congrArg (·, BusRes.ok 0) (State.uportWrite_plain (v := 0) hhost rfl))
    · exact regWrite_usb hadmits (by decide) (congrArg (·, BusRes.ok 0) (State.uportWrite_plain (v := 2) hhost rfl))
  case resume => exact fun hadmits hhost => regWrite_usb hadmits (by decide) (congrArg (·, BusRes.ok 0) (State.uportWrite_plain hhost rfl))
  case resumeDevice => exact fun hadmits hdevice => regWrite_usb hadmits (by decide) (congrArg (·, BusRes.ok 0) (s.uportWrite_device u hdevice 4))
  case attach =>
    intro sp hidle
    have hport := (State.usbEvent_usbPort (s.usbJoined u sp.toNat) u 1 u.toNat).trans (s.usbJoined_usbPort u sp.toNat)
    refine ⟨_, next_of_eq (s.usbAttach_idle u sp.toNat hidle), by rw [hport], by rw [hport], State.usbEvent_bit _ u (by decide), fun hhost => ?_⟩
    rw [State.usbEvent_reg _ u (by decide) (by decide), s.usbJoined_target u _ hhost]
  case detach =>
    intro hattached
    have hport := (State.usbEvent_usbPort (s.usbLeft u) u 2 u.toNat).trans (s.usbLeft_usbPort u)
    exact ⟨_, next_of_eq (s.usbDetach_attached u hattached), by rw [hport], by rw [hport], State.usbEvent_bit _ u (by decide)⟩
  case overcurrent =>
    intro hworks
    refine ⟨_, next_of_eq (s.usbOver_working u hworks), ?_, State.usbEvent_bit _ u (by decide), ?_⟩
    · exact congrArg Usb.hold ((State.usbEvent_usbPort _ u 4 u.toNat).trans (s.usbPort_modUsb u _))
    · exact congrArg (· ++ [_]) (State.newEvent_upsets ..)
  case vbus => exact fun on => rfl
  case transfer =>
    intro e ep bytes s1 d tgt n hattached hruns hreset hfetch hown
    refine ⟨?device, ?pipe, ?control⟩
    case device =>
      intro hdevice he hsome hfits hcheck
      have hsetup := State.usbSetup_device (e := e.toNat) hdevice
      have hmoved := State.usbTransfer_fits (ep := ep) (bytes := bytes) (State.usbTakes_device hattached hruns hreset hdevice he) hfetch hown (by omega)
        (by omega) (by rwa [hsetup, Nat.zero_add])
      rw [hsetup, if_pos rfl, Nat.zero_add, Nat.add_zero, State.usbEp_device hdevice] at hmoved
      exact next_of_eq hmoved
    case pipe =>
      intro hhost htype hin hsome hfits hcheck
      have hdata : fld tgt 13 12 ≠ 0 := by omega
      have hpipe := State.usbTakes_pipe hattached hruns hreset hhost hin (show fld tgt 13 12 ≠ 3 by omega)
      have hsetup := State.usbSetup_pipe (s := s) (u := u) hdata
      have hmoved := State.usbTransfer_fits (ep := ep) (bytes := bytes) hpipe hfetch hown (by omega) (by omega)
        (by rwa [hsetup, Nat.zero_add])
      rw [hsetup, if_pos rfl, Nat.zero_add, Nat.add_zero, State.usbEp_host hhost] at hmoved
      exact next_of_eq hmoved
    case control =>
      intro hhost htype hfits hcheck
      have hsetup := State.usbSetup_control hhost htype
      have hmoved := State.usbTransfer_fits (ep := ep) (bytes := bytes) (State.usbTakes_control hattached hruns hreset hhost htype) hfetch hown (by omega)
        (by omega) (by rwa [hsetup])
      rw [hsetup, if_neg (by decide), State.usbEp_host hhost] at hmoved
      exact next_of_eq hmoved
  case noPartner =>
    intro e ep bytes hnone
    refine next_of_eq (State.usbTransfer_idle ?_)
    rw [State.usbTakes, hnone]
    rfl

end Sys2Proof.Machine

namespace Sys2Proof.Machine

/-! The registers of a lane port (R406, R414 to R416, R420, R425). That PEN written 0 takes an UP link DOWN and leaves other states, and that ASHCLR acts on
ASHED alone, is log 25. -/

/-! A lane and its link. -/

section
variable (s : State) (p : BitVec 4)

theorem laneSlot_lt (p : BitVec 4) : 0x060 + p.toNat < 0x1000 := by
  have := p.isLt
  omega

/-- The lane that was changed reads as changed. -/
theorem State.lane_modLane (f : Lane → Lane) : (s.modLane p.toNat f).lane p.toNat = f (s.lane p.toNat) :=
  (vget_vset _ _ _ _ _ p.isLt).trans (if_pos rfl)

theorem State.lane_congr {s t : State} (h : t.lanes = s.lanes) (n : Nat) : t.lane n = s.lane n := by rw [State.lane, State.lane, h]

/-- Two changes that make the same of a lane are one. -/
theorem State.modLane_congr {s : State} {n : Nat} {f g : Lane → Lane} (h : f (s.lane n) = g (s.lane n)) : s.modLane n f = s.modLane n g := by
  rw [State.modLane, State.modLane, h]

theorem State.lstate_congr {s t : State} (h : t.regs = s.regs) (n : Nat) : t.lstate n = s.lstate n :=
  congrArg (fld · 31 30) (State.regW_congr h)

theorem State.raiseLatch_eq (i : Nat) : ∃ x, s.raiseLatch i = { s with irq := x } := by
  rw [State.raiseLatch]
  split
  · exact ⟨_, rfl⟩
  · exact s.raise_eq i

/-- A change of LSTATE writes its field and touches the interrupts. -/
theorem State.setLstate_eq {n st : Nat} (hchanges : s.lstate n ≠ st) :
    ∃ x, s.setLstate n st = { s.modReg (0x060 + n) 0x1004 (fun v => setFld v 31 30 st) with irq := x } := by
  rw [State.setLstate, if_neg hchanges]
  exact State.raiseLatch_eq _ _

/-- A write of a lane's slot that its gate admits and the lane answers without an error. -/
theorem regWrite_lane {s t : State} {q : Req} {p : BitVec 4} {off : Nat} {v : Word} (hadmits : s.admits q (0x060 + p.toNat) off)
    (hlo : 0x1000 ≤ off) (haligned : off % 4 = 0) (hblock : s.laneWrite q p.toNat off v = (t, .ok 0)) :
    (Host.Outcome.next (s.regWrite q (0x060 + p.toNat) off v) : Host.Outcome State Fault Refusal) = .next t.done := by
  have hp : p.toNat < 16 := p.isLt
  refine State.regWrite_next hadmits ?_ haligned ((s.slotWrite_lane q p.toNat off v hp hlo).trans hblock)
  simp [behindCauseway, within]
  omega

/-! LPCTL (R406, Table 13-3). -/

/-- The values that LPCTL takes: no reserved mode, TOTMR and NCNT within their bounds. -/
def lpctlLegal (v : Word) : Prop := fld v 30 29 ≠ 3 ∧ 20 ≤ fld v 23 16 ∧ 2 ≤ fld v 11 8 ∧ fld v 11 8 ≤ 8

/-- What PEN = 1 fixes: MODE, SLAVE and NCNT. -/
def lpctlKept (old v : Word) : Prop := fld v 30 28 = fld old 30 28 ∧ fld v 11 8 = fld old 11 8

theorem lpctl_illegal_iff {v : Word} :
    (fld v 30 29 == 3 || decide (fld v 23 16 < 20) || decide (fld v 11 8 < 2) || decide (8 < fld v 11 8)) = false ↔ lpctlLegal v := by
  simp only [lpctlLegal, Bool.or_eq_false_iff, beq_eq_false_iff_ne, decide_eq_false_iff_not, Nat.not_lt, and_assoc]

theorem lpctl_changes_iff {old v : Word} : (fld v 30 28 != fld old 30 28 || fld v 11 8 != fld old 11 8) = false ↔ lpctlKept old v := by
  simp only [lpctlKept, Bool.or_eq_false_iff, bne_eq_false_iff_eq]

section
variable {s} {n : Nat} {v : Word}

/-- A port that is off takes the values, and the burst is in force. -/
theorem State.lpctlWrite_enables (hoff : bit (s.lpctl n) 31 = false) (hlegal : lpctlLegal v) (hon : bit v 31 = true) :
    s.lpctlWrite n v = ((s.setReg (0x060 + n) 0x1000 (v &&& 0xF0FF0F07)).modLane n (fun l => { l with burst := fld v 2 0 }), .ok 0) := by
  simp only [State.lpctlWrite, hoff, lpctl_illegal_iff.mpr hlegal, hon, Bool.false_and, Bool.not_true, Bool.false_eq_true, if_false]

theorem State.lpctlWrite_refuses (hon : bit (s.lpctl n) 31 = true) (hbad : ¬ lpctlKept (s.lpctl n) v ∨ ¬ lpctlLegal v) :
    s.lpctlWrite n v = (s, .err busErr) := by
  by_cases hkept : lpctlKept (s.lpctl n) v
  · have hillegal := (Bool.not_eq_false _).mp (mt lpctl_illegal_iff.mp (hbad.resolve_left (not_not_intro hkept)))
    simp only [State.lpctlWrite, hon, lpctl_changes_iff.mpr hkept, hillegal, Bool.and_false, Bool.false_eq_true, if_false, if_true]
  · have hchanges := (Bool.not_eq_false _).mp (mt lpctl_changes_iff.mp hkept)
    simp only [State.lpctlWrite, hon, hchanges, Bool.and_self, if_true]

/-- The state with LPCTL written and the port no longer armed to send. -/
def State.lpctlOff (s : State) (n : Nat) (v : Word) : State :=
  (s.setReg (0x060 + n) 0x1000 (v &&& 0xF0FF0F07)).modLane n (fun l => { l with armed := false })

/-- PEN written 0 takes an UP link DOWN (log 25). -/
theorem State.lpctlWrite_disables (hon : bit (s.lpctl n) 31 = true) (hlegal : lpctlLegal v) (hkept : lpctlKept (s.lpctl n) v)
    (hoff : bit v 31 = false) (hup : (s.lpctlOff n v).lstate n = 1) : s.lpctlWrite n v = ((s.lpctlOff n v).setLstate n 0, .ok 0) := by
  have hstill : ((s.setReg (0x060 + n) 0x1000 (v &&& 0xF0FF0F07)).lstate n == 1) = true := by
    rw [State.lpctlOff, State.lstate_congr (State.modLane_regs ..)] at hup
    rw [hup]
    rfl
  simp only [State.lpctlWrite, hon, lpctl_illegal_iff.mpr hlegal, lpctl_changes_iff.mpr hkept, hoff, hstill, State.lpctlOff, Bool.and_false,
    Bool.not_false, Bool.and_self, Bool.false_eq_true, if_false, if_true]

end

theorem State.lpctlOff_status (v : Word) : (s.lpctlOff p.toNat v).reg (0x060 + p.toNat) 0x1004 = s.reg (0x060 + p.toNat) 0x1004 := by
  rw [State.lpctlOff, State.modLane_reg, State.reg_setReg _ _ (laneSlot_lt p) (laneSlot_lt p) (by decide) (by decide), if_neg (fun h => absurd h.2 (by decide))]

/-- The registers after a change of LSTATE. -/
theorem State.setLstate_regs {n st : Nat} (hchanges : s.lstate n ≠ st) :
    (s.setLstate n st).regs = (s.modReg (0x060 + n) 0x1004 (fun v => setFld v 31 30 st)).regs := by
  obtain ⟨x, hset⟩ := s.setLstate_eq hchanges
  rw [hset]

theorem State.setLstate_status {n st : Nat} (hchanges : s.lstate n ≠ st) :
    (s.setLstate n st).reg (0x060 + n) 0x1004 = setFld (s.reg (0x060 + n) 0x1004) 31 30 st :=
  (State.regW_congr (s.setLstate_regs hchanges)).trans (s.reg_modReg_self _ _ _)

theorem State.setLstate_lstate {n st : Nat} (hst : st < 4) (hchanges : s.lstate n ≠ st) : (s.setLstate n st).lstate n = st := by
  rw [State.lstate, s.setLstate_status hchanges, fld_setFld_self _ _ _ _ (by decide) (by decide)]
  exact Nat.mod_eq_of_lt hst

theorem State.setLstate_regsBut {st : Nat} (hchanges : s.lstate p.toNat ≠ st) :
    s.regsBut (s.setLstate p.toNat st) [(0x060 + p.toNat, 0x1004)] :=
  State.regsBut_congr (State.regsBut_setReg (State.regsBut_of_eq _ rfl) _ (laneSlot_lt p) (by decide) (by simp)) (s.setLstate_regs hchanges)

theorem State.setLstate_lanes (n st : Nat) : (s.setLstate n st).lanes = s.lanes := by
  by_cases hsame : s.lstate n = st
  · rw [State.setLstate, if_pos hsame]
  · obtain ⟨x, hset⟩ := s.setLstate_eq hsame
    rw [hset, State.modReg_lanes]

theorem State.setLstate_upsets (n st : Nat) : (s.setLstate n st).upsets = s.upsets := by
  by_cases hsame : s.lstate n = st
  · rw [State.setLstate, if_pos hsame]
  · obtain ⟨x, hset⟩ := s.setLstate_eq hsame
    rw [hset, State.modReg_upsets]

/-! Enrolment rows (R414, R415). -/

/-- Words 0 and 1 of rows 1 to 7 (Table 13-2). -/
theorem enrOff_word0 : ∀ k : BitVec 3, k ≠ 0 → enrOff (0x1020 + 8 * k.toNat) = some (k.toNat, 0) := by decide
theorem enrOff_word1 : ∀ k : BitVec 3, k ≠ 0 → enrOff (0x1024 + 8 * k.toNat) = some (k.toNat, 1) := by decide

/-- An offset of an enrolment word is one of its row's. -/
theorem State.laneWrite_row {n off k j : Nat} (q : Req) (v : Word) (hrow : enrOff off = some (k, j)) :
    s.laneWrite q n off v = s.enrWrite q n k j v := by
  have hlpctl : off ≠ 0x1000 := by
    rintro rfl
    cases hrow
  have hashclr : off ≠ 0x1014 := by
    rintro rfl
    cases hrow
  rw [State.laneWrite, if_neg hlpctl, if_neg hashclr, hrow]

/-- What control word c of a queue asks of those who use the queue: a queue of the Trade world takes its supervisors alone (R416). -/
def queueTakes (c : Word) (q : Req) : Prop := bit c 29 = true → q.world = .trade ∧ q.sup = true

theorem queueTakes.passes {c : Word} {q : Req} (hmay : queueTakes c q) : (bit c 29 && !(q.world == .trade && q.sup)) = false := by
  by_cases htrade : bit c 29 = true
  · obtain ⟨hworld, hsup⟩ := hmay htrade
    simp [hworld, hsup]
  · simp [htrade]

section
variable {s} {n k : Nat} {q : Req} (hmay : queueTakes (s.q (laneQ n k false) 0) q)
include hmay

/-- Word 0 is held. -/
theorem State.enrWrite_word0 (v : Word) :
    s.enrWrite q n k 0 v = (s.modLane n (fun l => { l with held := Sparse.put k v l.held }), .ok 0) := by
  simp only [State.enrWrite, hmay.passes, Bool.false_eq_true, if_false, if_true]

/-- Word 1 puts both in force. -/
theorem State.enrWrite_word1 {v : Word} (hstate : fld v 31 30 = 0 ∨ fld v 31 30 = 2) : s.enrWrite q n k 1 v =
    (((s.setReg (0x060 + n) (0x1020 + 8 * k) ((Sparse.find? k (s.lane n).held).getD (s.enr n k 0))).setReg (0x060 + n)
      (0x1024 + 8 * k) (v &&& 0xC000FFFF)).modLane n (fun l => { l with held := Sparse.erase k l.held }), .ok 0) := by
  have hsound : (fld v 31 30 == 1 || fld v 31 30 == 3) = false := by
    rcases hstate with h | h <;> rw [h] <;> rfl
  simp only [State.enrWrite, hmay.passes, hsound, Bool.false_eq_true, if_false, Nat.one_ne_zero]

end

/-! ASHCLR (R425). -/

theorem State.tell_reg (m : LedgerMsg) (a o : Nat) : (s.tell m).reg a o = s.reg a o := State.regW_congr rfl

theorem State.tell_upsets (m : LedgerMsg) : (s.tell m).upsets = s.upsets ++ [m] := rfl

theorem State.tell_lane (m : LedgerMsg) (n : Nat) : (s.tell m).lane n = s.lane n := State.lane_congr rfl n

theorem State.done_lane (n : Nat) : s.done.lane n = s.lane n := State.lane_congr rfl n

/-- An ASHED link's lane and counts cleared, before the link is DOWN. -/
def State.ashSwept (s : State) (n : Nat) : State :=
  (s.modReg (0x060 + n) 0x1004 (fun v => setFld (setFld v 23 16 0) 9 8 0)).modLane n (fun l =>
    { l with ups := [], fails := 0, due := none, test := none })

theorem State.laneAshClr_clears {n : Nat} (hpermit : s.permitted (16 + n) = true) (hashed : s.lstate n = 3) :
    s.laneAshClr n = ((s.ashSwept n).setLstate n 0).tell (.clear (16 + n)) := by
  simp [State.laneAshClr, hpermit, hashed, State.laneClear, State.ashSwept]

theorem State.laneAshClr_unpermitted {n : Nat} (hpermit : s.permitted (16 + n) = false) : s.laneAshClr n = s := by
  simp [State.laneAshClr, hpermit]

theorem State.ashSwept_status : (s.ashSwept p.toNat).reg (0x060 + p.toNat) 0x1004
    = setFld (setFld (s.reg (0x060 + p.toNat) 0x1004) 23 16 0) 9 8 0 := by
  rw [State.ashSwept, State.modLane_reg, State.reg_modReg_self]

theorem State.ashSwept_lstate : (s.ashSwept p.toNat).lstate p.toNat = s.lstate p.toNat := by
  rw [State.lstate, s.ashSwept_status p, fld_setFld_ne _ _ _ _ _ _ (by decide) (by decide) (by decide),
    fld_setFld_ne _ _ _ _ _ _ (by decide) (by decide) (by decide), State.lstate]

end

/-! Queues of the lane DMA (R416, R420). -/

/-- A write of the lane DMA's slot that its gate admits and the block answers without an error. -/
theorem regWrite_laneDma {s t : State} {q : Req} {off : Nat} {v : Word} (hadmits : s.admits q 0x070 off) (hlo : 0x1000 ≤ off)
    (haligned : off % 4 = 0) (hblock : s.laneDmaWrite q off v = (t, .ok 0)) :
    (Host.Outcome.next (s.regWrite q 0x070 off v) : Host.Outcome State Fault Refusal) = .next t.done :=
  State.regWrite_next hadmits (by decide) haligned ((s.slotWrite_laneDma q off v hlo).trans hblock)

/-- The control word that a write of v leaves in a queue whose control word is c (Table 13-7). -/
def queueControl (q : Req) (c v : Word) : Word :=
  BitVec.ofNat 32 (b2n (bit v 31) * 2 ^ 31 + b2n (bit v 28) * 2 ^ 28 + b2n q.world.bit * 2 ^ 29
    + (if bit v 31 = true then 0 else fld c 30 30 * 2 ^ 30 + fld c 23 16 * 2 ^ 16)) ||| ((v.setWidth 16 &&& q.cmr).setWidth 32)

/-- A control word is what its high half says, and the colours that the writer may give. -/
theorem bit_or_colours (a : Word) (c : BitVec 16) {b : Nat} (hb : 16 ≤ b) : bit (a ||| c.setWidth 32) b = bit a b := by
  rw [bit, bit, BitVec.getLsbD_or, BitVec.getLsbD_setWidth, BitVec.getLsbD_of_ge c b hb, Bool.and_false, Bool.or_false]

theorem fld_or_colours (a : Word) (c : BitVec 16) {hi lo : Nat} (hlo : 16 ≤ lo) : fld (a ||| c.setWidth 32) hi lo = fld a hi lo := by
  refine Nat.eq_of_testBit_eq fun i => ?_
  rw [testBit_fld, testBit_fld]
  exact congrArg _ (bit_or_colours a c (by omega))

theorem b2n_false : b2n false = 0 := rfl

theorem b2n_true : b2n true = 1 := rfl

theorem b2n_le_one (b : Bool) : b2n b ≤ 1 := by cases b <;> decide

theorem bit_of_b2n {n : Nat} {w : BitVec n} {b : Nat} {x : Bool} (h : w.toNat / 2 ^ b % 2 = b2n x) : bit w b = x := by
  rw [bit_eq_decide, h]
  cases x <;> rfl

section
variable (q : Req) (c v : Word)

theorem queueControl_high : ∃ a : Word, queueControl q c v = a ||| (v.setWidth 16 &&& q.cmr).setWidth 32
    ∧ a.toNat = b2n (bit v 31) * 2 ^ 31 + b2n (bit v 28) * 2 ^ 28 + b2n q.world.bit * 2 ^ 29
      + (if bit v 31 = true then 0 else fld c 30 30 * 2 ^ 30 + fld c 23 16 * 2 ^ 16) := by
  have hstopped : fld c 30 30 < 2 := fld_lt c 30 30
  have hcause : fld c 23 16 < 256 := fld_lt c 23 16
  have hirq := b2n_le_one (bit v 28)
  have hworld := b2n_le_one q.world.bit
  refine ⟨_, rfl, BitVec.toNat_ofNat _ _ |>.trans (Nat.mod_eq_of_lt ?_)⟩
  cases bit v 31
  · simp only [b2n_false, Bool.false_eq_true, if_false]
    omega
  · simp only [b2n_true, if_true]
    omega

/-- EN, the writer's world, IRQ and the colours of a written control word. -/
theorem queueControl_bits : bit (queueControl q c v) 31 = bit v 31 ∧ bit (queueControl q c v) 29 = q.world.bit
    ∧ bit (queueControl q c v) 28 = bit v 28 ∧ (queueControl q c v).setWidth 16 = v.setWidth 16 &&& q.cmr := by
  obtain ⟨a, hword, ha⟩ := queueControl_high q c v
  have hstopped : fld c 30 30 < 2 := fld_lt c 30 30
  have hcause : fld c 23 16 < 256 := fld_lt c 23 16
  have hen := b2n_le_one (bit v 31)
  have hirq := b2n_le_one (bit v 28)
  have hworld := b2n_le_one q.world.bit
  have hlow : a.setWidth 16 = 0#16 := by
    refine BitVec.eq_of_toNat_eq ?_
    rw [BitVec.toNat_setWidth, BitVec.toNat_zero, ha]
    split <;> omega
  rw [hword, bit_or_colours _ _ (by decide), bit_or_colours _ _ (by decide), bit_or_colours _ _ (by decide)]
  refine ⟨bit_of_b2n ?_, bit_of_b2n ?_, bit_of_b2n ?_, ?_⟩
  · rw [ha]; split <;> omega
  · rw [ha]; split <;> omega
  · rw [ha]; split <;> omega
  · rw [BitVec.setWidth_or, hlow, BitVec.zero_or, BitVec.setWidth_setWidth_of_le _ (by decide), BitVec.setWidth_eq]

/-- STOPPED and CAUSE stay but where EN is set. -/
theorem queueControl_stopped : (bit v 31 = true → bit (queueControl q c v) 30 = false)
    ∧ (bit v 31 = false → bit (queueControl q c v) 30 = bit c 30 ∧ fld (queueControl q c v) 23 16 = fld c 23 16) := by
  obtain ⟨a, hword, ha⟩ := queueControl_high q c v
  have hstopped : fld c 30 30 < 2 := fld_lt c 30 30
  have hcause : fld c 23 16 < 256 := fld_lt c 23 16
  have hirq := b2n_le_one (bit v 28)
  have hworld := b2n_le_one q.world.bit
  rw [hword, bit_or_colours _ _ (by decide), fld_or_colours _ _ (by decide)]
  refine ⟨fun hen => ?_, fun hoff => ?_⟩
  · rw [bit_eq_decide, ha, if_pos hen, hen, b2n_true, decide_eq_false_iff_not]
    omega
  · rw [bit_eq_decide, bit_eq_decide, fld_eq_div_mod, ha, hoff, b2n_false, if_neg Bool.false_ne_true]
    have hbit : fld c 30 30 = c.toNat / 2 ^ 30 % 2 := fld_eq_div_mod c 30 30
    refine ⟨decide_eq_decide.mpr ?_, ?_⟩ <;> omega

end

/-- A write of a queue's control word (R416). -/
theorem State.qWrite_control {s : State} {q : Req} {r : QRef} (v : Word) (hmay : queueTakes (s.q r 0) q) :
    s.qWrite q r 0 v = (s.setQ r 0 (queueControl q (s.q r 0) v), .ok 0) := by
  simp only [State.qWrite, hmay.passes, Bool.false_eq_true, if_false]
  rfl

section
variable {s : State} {q : Req} {n : BitVec 8} (hmay : queueTakes (s.reg 0x070 (0x1000 + 64 * n.toNat)) q) (v : Word)
include hmay

theorem State.laneDmaWrite_control : s.laneDmaWrite q (0x1000 + 64 * n.toNat) v =
    (s.setReg 0x070 (0x1000 + 64 * n.toNat) (queueControl q (s.reg 0x070 (0x1000 + 64 * n.toNat)) v), .ok 0) := by
  have hn : n.toNat < 256 := n.isLt
  have hqueue : (0x1000 + 64 * n.toNat - 0x1000) / 64 = n.toNat := by omega
  have hword : (0x1000 + 64 * n.toNat) % 64 = 0 := by omega
  rw [State.laneDmaWrite, if_pos (by omega)]
  simp only [hqueue, hword]
  exact State.qWrite_control v hmay

theorem State.laneDmaWrite_kick : s.laneDmaWrite q (0x101C + 64 * n.toNat) v = (if 128 ≤ n.toNat then s.laneExamine ((n.toNat - 128) / 8) else s, .ok 0) := by
  have hn : n.toNat < 256 := n.isLt
  have hqueue : (0x101C + 64 * n.toNat - 0x1000) / 64 = n.toNat := by omega
  have hword : (0x101C + 64 * n.toNat) % 64 = 0x1C := by omega
  rw [State.laneDmaWrite, if_pos (by omega)]
  simp only [hqueue, hword, if_true]
  exact if_neg (ne_true_of_eq_false hmay.passes)

end

/-- Settles O33: each write by what its register makes of it. -/
theorem laneRegistersWritten : Obligations.LaneRegistersWritten := by
  intro s q p k v slot old legal
  have hslot : behindCauseway slot = false := by
    have hp : p.toNat < 16 := p.isLt
    simp [slot, behindCauseway, within]
    omega
  refine ⟨?enables, ?refuses, ?disables, ?word0, ?word1, ?clears, ?unpermitted, ?control, ?kick⟩
  case enables =>
    exact fun hadmits hoff hlegal hon => regWrite_lane hadmits (by decide) (by decide) (State.lpctlWrite_enables hoff hlegal hon)
  case refuses =>
    intro hadmits hon hbad
    have hbad' : ¬ lpctlKept (s.lpctl p.toNat) v ∨ ¬ lpctlLegal v := by
      rcases hbad with hmode | hcount | hillegal
      · exact .inl fun hkept => hmode hkept.1
      · exact .inl fun hkept => hcount hkept.2
      · exact .inr hillegal
    exact State.regWrite_blockRefuses hadmits hslot (by decide)
      ((s.slotWrite_lane q p.toNat 0x1000 v p.isLt (by decide)).trans (State.lpctlWrite_refuses hon hbad'))
  case disables =>
    intro hadmits hon hlegal hmode hcount hoff hup
    have hstatus := s.lpctlOff_status p v
    have hup' : (s.lpctlOff p.toNat v).lstate p.toNat = 1 := (congrArg (fld · 31 30) hstatus).trans hup
    have hchanges : (s.lpctlOff p.toNat v).lstate p.toNat ≠ 0 := by omega
    have hothers := (s.lpctlOff p.toNat v).setLstate_regsBut p hchanges .trade slot 0x1000 (laneSlot_lt p) (by decide) (by simp)
    refine ⟨_, regWrite_lane hadmits (by decide) (by decide) (State.lpctlWrite_disables hon hlegal ⟨hmode, hcount⟩ hoff hup'), ?_⟩
    rw [State.done_reg, State.done_reg]
    refine ⟨State.setLstate_lstate _ (by decide) hchanges, hothers.trans ?_, rfl⟩
    rw [State.lpctlOff, State.modLane_regW]
    exact State.reg_setReg_self ..
  case word0 =>
    intro hadmits hk hmay
    have hexec := regWrite_lane hadmits (by omega) (by omega)
      ((s.laneWrite_row q v (enrOff_word0 k hk)).trans (State.enrWrite_word0 hmay v))
    exact hexec
  case word1 =>
    intro hadmits hk hmay hstate
    have hoff : 0x1020 + 8 * k.toNat + 4 = 0x1024 + 8 * k.toNat := by omega
    have hexec := regWrite_lane hadmits (by omega) (by omega)
      ((s.laneWrite_row q v (enrOff_word1 k hk)).trans (State.enrWrite_word1 hmay hstate))
    rw [← hoff] at hexec ⊢
    exact hexec
  case clears =>
    intro hadmits hpermit hashed
    have hchanges : (s.ashSwept p.toNat).lstate p.toNat ≠ 0 := by
      rw [s.ashSwept_lstate p, show s.lstate p.toNat = 3 from hashed]
      decide
    have hread := ((s.ashSwept p.toNat).setLstate_status hchanges).trans (congrArg (setFld · 31 30 0) (s.ashSwept_status p))
    refine ⟨_, regWrite_lane hadmits (by decide) (by decide) (congrArg (·, BusRes.ok 0) (s.laneAshClr_clears hpermit hashed)), ?_⟩
    rw [State.done_reg, State.tell_reg, hread, State.done_lane, State.tell_lane, State.lane_congr (State.setLstate_lanes ..), State.ashSwept,
      State.lane_modLane, State.done_upsets, State.tell_upsets, State.setLstate_upsets, State.modLane_upsets, State.modReg_upsets]
    refine ⟨?_, ?_, ?_, rfl, rfl⟩
    · exact fld_setFld_self _ _ _ _ (by decide) (by decide)
    · rw [fld_setFld_ne _ _ _ _ _ _ (by decide) (by decide) (by decide), fld_setFld_ne _ _ _ _ _ _ (by decide) (by decide) (by decide)]
      exact fld_setFld_self _ _ _ _ (by decide) (by decide)
    · rw [fld_setFld_ne _ _ _ _ _ _ (by decide) (by decide) (by decide)]
      exact fld_setFld_self _ _ _ _ (by decide) (by decide)
  case unpermitted =>
    exact fun hadmits hpermit => regWrite_lane hadmits (by decide) (by decide) (congrArg (·, BusRes.ok 0) (s.laneAshClr_unpermitted hpermit))
  case control =>
    intro n hadmits hmay o
    have hn : n.toNat < 256 := n.isLt
    obtain ⟨hen, hworld, hirq, hcolours⟩ := queueControl_bits q o v
    obtain ⟨hstarts, hstays⟩ := queueControl_stopped q o v
    have hread := s.reg_setReg_self 0x070 (0x1000 + 64 * n.toNat) (queueControl q o v)
    refine ⟨_, regWrite_laneDma hadmits (by omega) (by omega) (State.laneDmaWrite_control hmay v), ?_, ?_, ?_⟩
    · exact State.regsBut_done (State.regsBut_setReg (State.regsBut_of_eq _ rfl) _ (by decide) (by omega) (by simp))
    · refine State.onlyIn_done (l := [.regs]) ?_ (by decide) (by decide)
      intro part hpart
      cases part <;> simp [State.agrees] at hpart ⊢
    · rw [State.done_reg, hread]
      exact ⟨hen, hworld, hirq, hcolours, hstarts, hstays⟩
  case kick =>
    intro n hadmits hmay
    have hoff : 0x1000 + 64 * n.toNat + 0x1C = 0x101C + 64 * n.toNat := by omega
    have hexec := regWrite_laneDma (v := 1) hadmits (by omega) (by omega) (State.laneDmaWrite_kick hmay 1)
    rw [← hoff] at hexec
    exact hexec

end Sys2Proof.Machine

namespace Sys2Proof.Machine

/-! Registers of the lane DMA's queues beside those that other operations write. A frame's queue is any number here, so registers are told apart by their
keys (`regKey`) and not by slot and offset. -/

/-- A register with another key reads as before. -/
theorem State.reg_setReg_of_key (s : State) {a o a' o' : Nat} (v : Word) (h : regKey .trade a' o' ≠ regKey .trade a o) :
    (s.setReg a o v).reg a' o' = s.reg a' o' := Sparse.get_write_ne _ _ _ _ h

theorem State.reg_modReg_of_key (s : State) {a o a' o' : Nat} (f : Word → Word) (h : regKey .trade a' o' ≠ regKey .trade a o) :
    (s.modReg a o f).reg a' o' = s.reg a' o' := s.reg_setReg_of_key _ h

theorem regKey_trade (a o : Nat) : regKey .trade a o = a * 0x10000 + o := by simp [regKey, World.idx]

/-- The keys of slot 0x070 and beyond: no memory controller's register has one. -/
def pastControllers (a o : Nat) : Prop := 0x070 * 0x10000 ≤ regKey .trade a o

/-- A report to the ledger leaves the registers alone. -/
theorem State.report_reg (s : State) (u : Upset) (a o : Nat) : (s.report u).reg a o = s.reg a o := State.regW_congr rfl

section
variable {s : State} {a o : Nat} (hpast : pastControllers a o)
include hpast

theorem State.setReg_past {slot off : Nat} (hslot : slot ≤ 0x06F) (hoff : off < 0x10000) (v : Word) :
    (s.setReg slot off v).reg a o = s.reg a o := by
  refine s.reg_setReg_of_key v ?_
  rw [pastControllers] at hpast
  rw [regKey_trade] at hpast ⊢
  rw [regKey_trade]
  omega

theorem State.modReg_past {slot off : Nat} (hslot : slot ≤ 0x06F) (hoff : off < 0x10000) (f : Word → Word) :
    (s.modReg slot off f).reg a o = s.reg a o := State.setReg_past hpast hslot hoff _

theorem State.event_past {slot off : Nat} (hslot : slot ≤ 0x06F) (hoff : off < 0x10000) (irq : Nat) (bits : Word) :
    (s.event slot off irq bits).reg a o = s.reg a o := by
  rw [State.event, State.setLine_reg, State.modReg_past hpast hslot hoff]

theorem State.recordMemError_past (pa : Nat) (ue : Bool) : (s.recordMemError pa ue).reg a o = s.reg a o := by
  have hbank : 0x1100 + 4 * sramBank pa < 0x10000 := by
    rw [sramBank]
    omega
  rw [State.recordMemError]
  split
  · cases ue <;> simp [State.event_past hpast, State.modReg_past hpast, State.setReg_past hpast, hbank]
  · cases ue <;> simp [State.event_past hpast, State.modReg_past hpast, State.setReg_past hpast]
  · cases ue <;> simp [State.event_past hpast, State.setReg_past hpast]
  · rfl

theorem State.memError_past (pa : Nat) (ue : Bool) : (s.memError pa ue).reg a o = s.reg a o := by
  rw [State.memError]
  split
  · exact (State.report_reg ..).trans (State.recordMemError_past hpast pa ue)
  · exact (State.report_reg ..).trans (State.recordMemError_past hpast pa ue)
  · cases ue
    · exact State.recordMemError_past hpast pa false
    · exact (State.report_reg ..).trans (State.recordMemError_past hpast pa true)
  · exact State.recordMemError_past hpast pa ue

theorem State.masterRead_past (pa n : Nat) : (s.masterRead pa n).1.reg a o = s.reg a o := by
  rw [State.masterRead]
  split
  · exact (State.regW_congr (State.withFree_regs _ _)).trans (State.memError_past hpast pa true)
  · rfl

/-- A descriptor read touches no register past the memory controllers'. -/
theorem State.qFetch_past {q : QRef} {irq : Option Nat} {s1 : State} {d : QDesc} (hfetch : s.qFetch q irq = (s1, some d)) :
    s1.reg a o = s.reg a o := by
  rw [State.qFetch] at hfetch
  split at hfetch
  · cases hfetch
  · obtain ⟨rfl, -⟩ := Prod.mk.inj hfetch
    split
    · exact (State.raise_reg ..).trans (State.masterRead_past hpast _ _)
    · exact State.masterRead_past hpast _ _

end

/-! Descriptors completed (R417) and frames delivered to a queue (R418, R419). -/

section
variable (s : State) (q : QRef) (stat len tag time : Nat)

/-- A completed descriptor moves HEAD, and no other register. -/
theorem State.qComplete_reg {a o : Nat} (hkey : regKey .trade a o ≠ regKey .trade q.slot (q.off + 12)) :
    (s.qComplete q stat len tag time).reg a o = s.reg a o := by
  rw [State.qComplete, State.qAdvance, State.setQ, State.reg_setReg_of_key _ _ hkey, State.masterWriteMem_reg, State.masterWriteMem_reg]

theorem State.qComplete_lanes : (s.qComplete q stat len tag time).lanes = s.lanes := by
  rw [State.qComplete, State.qAdvance, State.setQ, State.setReg_lanes, State.masterWriteMem_lanes, State.masterWriteMem_lanes]

theorem State.qComplete_out : (s.qComplete q stat len tag time).out = s.out := by
  rw [State.qComplete, State.qAdvance, State.setQ, State.setReg_out, State.masterWriteMem_out, State.masterWriteMem_out]

/-- A queue that does not run counts the frame as dropped. -/
theorem State.qDeliver_stopped (irq : Option Nat) (frame : List Byte) (hstopped : s.qRuns q = false) :
    s.qDeliver q irq stat tag time frame = (s.qDrop q, false) := by
  simp only [State.qDeliver, hstopped, Bool.not_false, if_true]

/-- A frame that fits the buffer of an owned descriptor is written there. -/
theorem State.qDeliver_fits {s : State} {q : QRef} {irq : Option Nat} {frame : List Byte} {s1 : State} {d : QDesc} (hruns : s.qRuns q = true)
    (hfetch : s.qFetch q irq = (s1, some d)) (hown : d.own = true) (hfits : frame.length ≤ d.buflen)
    (hcheck : s1.qCheck q d.buf frame.length = none) : s.qDeliver q irq stat tag time frame =
      ((s1.masterWriteMem d.buf frame).qComplete q stat frame.length tag time, true) := by
  simp only [State.qDeliver, hruns, hfetch, hown, List.take_of_length_le hfits, hcheck, if_neg (Nat.not_lt.mpr hfits), Bool.not_true,
    Bool.false_eq_true, if_false]

end

/-! A queue's interrupt (Table 13-7). -/

section
variable (s : State) (p : BitVec 4) (k : Nat) (tx : Bool)

theorem State.qDoneIrq_quiet (hquiet : bit (s.q (laneQ p.toNat k tx) 0) 28 = false) : s.qDoneIrq p.toNat k tx = s := by
  rw [State.qDoneIrq, hquiet]
  rfl

theorem State.qDoneIrq_lanes : (s.qDoneIrq p.toNat k tx).lanes = s.lanes := by
  rw [State.qDoneIrq]
  split
  · rw [State.raise_lanes, State.modReg_lanes]
  · rfl

theorem State.qDoneIrq_out : (s.qDoneIrq p.toNat k tx).out = s.out := by
  rw [State.qDoneIrq]
  split
  · rw [State.raise_out, State.modReg_out]
  · rfl

/-- The interrupt of a queue marks RXPEND or TXDONE alone. -/
theorem State.qDoneIrq_reg {o : Nat} (ho : o < 0x10000) (hpending : o ≠ 0x1008 ∧ o ≠ 0x100C) :
    (s.qDoneIrq p.toNat k tx).reg (0x060 + p.toNat) o = s.reg (0x060 + p.toNat) o := by
  obtain ⟨hrx, htx⟩ := hpending
  rw [State.qDoneIrq]
  split
  · rw [State.raise_reg, State.reg_modReg _ _ (laneSlot_lt p) (laneSlot_lt p) (by split <;> decide) ho]
    refine if_neg fun h => ?_
    cases tx
    · exact hrx h.2
    · exact htx h.2
  · rfl

end

end Sys2Proof.Machine

namespace Sys2Proof.Machine

/-! Frames on a lane (R408, R410, R412, R413, R417 to R421, R561). -/

/-! Reception (R408, R412, R413, R418). -/

/-- A lane that has given up its opportunity to send, as at the start of a frame received. -/
def State.disarmed (s : State) (n : Nat) : State := s.modLane n (fun l => { l with armed := false })

theorem State.disarmed_lane (s : State) (p : BitVec 4) : (s.disarmed p.toNat).lane p.toNat = { s.lane p.toNat with armed := false } :=
  s.lane_modLane p _

theorem State.disarmed_enrState (s : State) (n k : Nat) : (s.disarmed n).enrState n k = s.enrState n k := by
  rw [State.enrState, State.enrState, State.enr, State.enr, State.disarmed, State.modLane_reg]

theorem State.disarmed_enrAddr (s : State) (n k : Nat) : (s.disarmed n).enrAddr n k = s.enrAddr n k := by
  simp only [State.enrAddr, State.enr, State.disarmed, State.modLane_reg]

/-- An enrolment row's STATE stands in its second word (Table 13-6). -/
theorem State.enrState_eq (s : State) (n k : Nat) : s.enrState n k = fld (s.reg (0x060 + n) (0x1024 + 8 * k)) 31 30 := by
  have hword : 0x1020 + 8 * k + 4 * 1 = 0x1024 + 8 * k := by omega
  rw [State.enrState, State.enr, hword]

/-- The opportunity tag of a frame: the PLCA node, or 1 on 100BASE-T1 (R412). -/
def State.rxTag (s : State) (n k : Nat) : Nat := if s.laneMode n = 2 then 1 else k

/-- The state with a received frame at the end of a lane's FIFO (R418). -/
def State.frameQueued (s : State) (n : Nat) (x : LaneRx) : State := s.modLane n (fun l => { l with fifo := l.fifo ++ [x] })

theorem State.laneReceive_down {s : State} {n : Nat} (hdown : ¬ (s.pen n = true ∧ s.lstate n = 1)) (k : Nat) (fcs : Bool) (frame : List Byte) :
    s.laneReceive n k fcs frame = s := by
  have hclosed : (s.pen n && s.lstate n == 1) = false := by simpa using hdown
  simp only [State.laneReceive, hclosed, Bool.not_false, if_true]

section
variable {s : State} {p : BitVec 4} (hpen : s.pen p.toNat = true) (hup : s.lstate p.toNat = 1) (k : Nat) {frame : List Byte}
include hpen hup

theorem State.laneReceive_long (hlong : 1518 < frame.length) :
    s.laneReceive p.toNat k true frame = (s.disarmed p.toNat).modReg (0x060 + p.toNat) 0x106C (· + 1) := by
  simp [State.laneReceive, hpen, hup, hlong, State.disarmed]

/-- An FCS error short of the sixteenth within a second is counted, and its time kept. -/
theorem State.laneReceive_badFcs
    (hfew : ((s.lane p.toNat).fcs.filter (fun t => decide (s.now < t + 1000000))).length < 15) : s.laneReceive p.toNat k false frame =
      ((s.disarmed p.toNat).modReg (0x060 + p.toNat) 0x1068 (· + 1)).modLane p.toNat
        (fun l => { l with fcs := s.now :: l.fcs.filter (fun t => decide (s.now < t + 1000000)) }) := by
  have hsame : ((s.disarmed p.toNat).lane p.toNat).fcs = (s.lane p.toNat).fcs := by rw [State.disarmed_lane]
  have hstays : ¬ 16 ≤ (s.now :: ((s.disarmed p.toNat).lane p.toNat).fcs.filter (fun t => decide (s.now < t + 1000000))).length := by
    rw [hsame, List.length_cons]
    omega
  rw [State.disarmed] at hstays ⊢
  simp only [State.laneReceive, hpen, hup, if_neg hstays, beq_self_eq_true, Bool.and_self, Bool.not_true, Bool.not_false, Bool.false_eq_true,
    if_false, if_true]
  refine State.modLane_congr ?_
  rw [State.lane_congr (State.modReg_lanes ..)]

/-- A frame for this port that the FIFO has room for is queued as its source is classified. -/
theorem State.laneReceive_queues (hshort : frame.length ≤ 1518)
    (hours : frame.take 6 = macAddr (3 + p.toNat) ∨ groupAddr frame = true)
    (hroom : ((s.lane p.toNat).fifo.map (fun x => x.frame.length)).sum + frame.length ≤ 4096) {t : State} {queue stat : Nat}
    (hclass : (s.disarmed p.toNat).classify p.toNat (s.rxTag p.toNat k) frame = (t, queue, stat)) :
    s.laneReceive p.toNat k true frame = t.frameQueued p.toNat
      { queue := queue, stat := stat, tag := s.rxTag p.toNat k, time := s.ptp % 2 ^ 32, frame := frame } := by
  have hsame : ((s.disarmed p.toNat).lane p.toNat).fifo = (s.lane p.toNat).fifo := by rw [State.disarmed_lane]
  have htaken : (frame.take 6 != macAddr (3 + p.toNat) && !groupAddr frame) = false := by
    rcases hours with hunicast | hgroup
    · rw [hunicast, bne_self_eq_false, Bool.false_and]
    · rw [hgroup, Bool.not_true, Bool.and_false]
  rw [← hsame, ← Nat.not_lt] at hroom
  rw [State.disarmed] at hclass hroom
  rw [State.rxTag] at hclass ⊢
  simp only [State.laneReceive, hpen, hup, hclass, htaken, if_neg hroom, if_neg (Nat.not_lt.mpr hshort), beq_self_eq_true, Bool.and_self,
    Bool.not_true, Bool.false_eq_true, if_false, State.frameQueued, State.time32]

end

section
variable {s : State} {n k : Nat} {frame : List Byte} (hk : k ≠ 0) (henrolled : s.enrState n k = 2)
include hk henrolled

/-- A frame of the enrolled node goes to the node's queue (R413). -/
theorem State.classify_expected (hsrc : (frame.drop 6).take 6 = s.enrAddr n k) : s.classify n k frame = (s, k, 0) := by
  simp only [State.classify, if_neg hk, henrolled, hsrc, beq_self_eq_true, if_true]

/-- A frame of another source goes to queue 0, and is counted in MISMATCH (R413). -/
theorem State.classify_foreign (hsrc : (frame.drop 6).take 6 ≠ s.enrAddr n k) :
    s.classify n k frame = (s.modReg (0x060 + n) 0x1074 (· + 1), 0, 6) := by
  simp only [State.classify, if_neg hk, henrolled, beq_eq_false_iff_ne.mpr hsrc, Bool.false_eq_true, if_false]

end

/-! Delivery (R417 to R419). -/

/-- The state in which the oldest frame of a lane's FIFO was taken. -/
def State.frameTaken (s : State) (n : Nat) (rest : List LaneRx) : State := s.modLane n (fun l => { l with fifo := rest })

section
variable {s : State} {p : BitVec 4} {x : LaneRx} {rest : List LaneRx} (hfifo : (s.lane p.toNat).fifo = x :: rest)
include hfifo

/-- A frame whose queue does not run is dropped and counted there. -/
theorem State.laneDeliver_drops (hstopped : s.qRuns (laneQ p.toNat x.queue false) = false) :
    s.laneDeliver p.toNat = (s.frameTaken p.toNat rest).qDrop (laneQ p.toNat x.queue false) := by
  have hstill : (s.frameTaken p.toNat rest).qRuns (laneQ p.toNat x.queue false) = false := hstopped
  have hdropped := fun irq => State.qDeliver_stopped _ _ x.stat x.tag x.time irq x.frame hstill
  rw [State.frameTaken] at hdropped ⊢
  simp only [State.laneDeliver, hfifo, hdropped, Bool.false_eq_true, if_false]

/-- A frame that fits the buffer of its queue's owned descriptor is delivered and counted. -/
theorem State.laneDeliver_delivers {s1 : State} {d : QDesc} (hruns : s.qRuns (laneQ p.toNat x.queue false) = true)
    (hfetch : (s.frameTaken p.toNat rest).qFetch (laneQ p.toNat x.queue false) (some (132 + 8 * p.toNat)) = (s1, some d)) (hown : d.own = true)
    (hfits : x.frame.length ≤ d.buflen) (hcheck : s1.qCheck (laneQ p.toNat x.queue false) d.buf x.frame.length = none) :
    s.laneDeliver p.toNat = (((s1.masterWriteMem d.buf x.frame).qComplete (laneQ p.toNat x.queue false) x.stat x.frame.length x.tag x.time).modReg
        (0x060 + p.toNat) 0x1060 (· + 1)).qDoneIrq p.toNat x.queue false := by
  have hstill : (s.frameTaken p.toNat rest).qRuns (laneQ p.toNat x.queue false) = true := hruns
  have hirq : 132 + 8 * p.toNat = 128 + 8 * p.toNat + 4 := by omega
  rw [hirq] at hfetch
  have hdelivered := State.qDeliver_fits x.stat x.tag x.time hstill hfetch hown hfits hcheck
  rw [State.frameTaken] at hdelivered
  simp only [State.laneDeliver, hfifo, hdelivered, if_true]

end

/-- The registers of a lane's queues lie past the memory controllers'. -/
theorem laneQ_past (p k : Nat) (tx : Bool) (o : Nat) : pastControllers 0x070 ((laneQ p k tx).off + o) := by
  rw [pastControllers, regKey_trade]
  exact Nat.le_add_right _ _

theorem laneQ_slot (p k : Nat) (tx : Bool) : (laneQ p k tx).slot = 0x070 := rfl

/-- A delivered frame leaves its queue's control word as it was. -/
theorem State.delivered_control {s s1 : State} {p k : Nat} {tx : Bool} {irq : Option Nat} {d : QDesc}
    (hfetch : s.qFetch (laneQ p k tx) irq = (s1, some d)) (stat len tag time slot off : Nat) (hslot : slot ≤ 0x06F) (hoff : off < 0x10000)
    (bytes : List Byte) (f : Word → Word) :
    (((s1.masterWriteMem d.buf bytes).qComplete (laneQ p k tx) stat len tag time).modReg slot off f).q (laneQ p k tx) 0 = s.q (laneQ p k tx) 0 := by
  have hpast := laneQ_past p k tx 0
  have hkey : regKey .trade 0x070 ((laneQ p k tx).off + 0) ≠ regKey .trade (laneQ p k tx).slot ((laneQ p k tx).off + 12) := by
    rw [laneQ_slot, regKey_trade, regKey_trade]
    omega
  rw [State.q, State.q, laneQ_slot, Nat.mul_zero, State.modReg_past hpast hslot hoff, State.qComplete_reg _ (laneQ p k tx) stat len tag time hkey,
    State.masterWriteMem_reg, State.qFetch_past hpast hfetch]

/-! Transmission (R420, R421). -/

/-- The state in which a lane's buffered frame has gone out, before its descriptor completes. -/
def State.frameSent (s : State) (p : BitVec 4) (x : LaneTx) : State :=
  ((s.send (.lane p (laneFrame p.toNat x.frame))).modReg (0x060 + p.toNat) 0x1064 (· + 1)).modLane p.toNat
    (fun l => { l with tx := none, armed := false, lastQ := x.queue, lastEnd := s.now })

/-- A sent frame stands on the lane, frees its buffer and is counted in TXFRAMES. -/
theorem State.frameSent_outcome (s : State) (p : BitVec 4) (x : LaneTx) :
    (s.frameSent p x).out = s.out ++ [OutMsg.lane p (laneFrame p.toNat x.frame)] ∧ ((s.frameSent p x).lane p.toNat).tx = none
      ∧ ((s.frameSent p x).lane p.toNat).lastQ = x.queue
      ∧ (s.frameSent p x).reg (0x060 + p.toNat) 0x1064 = s.reg (0x060 + p.toNat) 0x1064 + 1 := by
  rw [State.frameSent, State.lane_modLane]
  refine ⟨?out, rfl, rfl, ?count⟩
  case out => rw [State.modLane_out, State.modReg_out, State.send_out]
  case count => rw [State.modLane_reg, State.reg_modReg_self, State.send_reg]

theorem State.laneTransmit_sends {s : State} {p : BitVec 4} {x : LaneTx} (htx : (s.lane p.toNat).tx = some x) (hup : s.lstate p.toNat = 1)
    (hturn : s.laneMode p.toNat = 1 → (s.lane p.toNat).armed = true) : s.laneTransmit p.toNat =
      ((s.frameSent p x).qComplete (laneQ p.toNat x.queue true) 0 0 0 s.time32).qDoneIrq p.toNat x.queue true := by
  have hmay : ¬ (s.lstate p.toNat ≠ 1 ∨ s.laneMode p.toNat = 1 ∧ (s.lane p.toNat).armed = false) := by
    rintro (hdown | ⟨hplca, hwaits⟩)
    · exact hdown hup
    · exact absurd (hturn hplca) (ne_true_of_eq_false hwaits)
  simp only [State.laneTransmit, htx, if_neg hmay, BitVec.ofNat_toNat, BitVec.setWidth_eq, State.frameSent]

theorem State.laneTransmit_idle {s : State} {n : Nat} (hnone : (s.lane n).tx = none) : s.laneTransmit n = s := by
  rw [State.laneTransmit, hnone]

theorem State.laneExamine_smouldering {s : State} {n : Nat} (hstate : s.lstate n = 2) : s.laneExamine n = s := if_pos (.inr hstate)

theorem State.laneExamine_up {s : State} {n : Nat} (hstate : s.lstate n = 1) : s.laneExamine n =
    (List.range 8).foldl (fun s i => s.txExamine n (((s.lane n).lastQ + 1 + i) % 8)) s :=
  if_neg (by omega)

/-! PLCA and link-up (R410, R561). -/

theorem State.plcaCycle_up {s : State} {n : Nat} (hpen : s.pen n = true) (hup : s.lstate n = 1) (hplca : s.laneMode n = 1) :
    s.plcaCycle n = s.modLane n (fun l =>
      { l with burst := fld (s.lpctl n) 2 0, armed := l.tx.isSome, burstLeft := fld (s.lpctl n) 2 0 }) := by
  simp [State.plcaCycle, hpen, hup, hplca]

theorem State.laneLinkUp_down {s : State} {n : Nat} (hpen : s.pen n = true) (hmode : s.laneMode n = 2) (hdown : s.lstate n = 0) :
    s.laneLinkUp n = s.setLstate n 1 := by
  simp [State.laneLinkUp, hpen, hmode, hdown]

/-- Settles O34: each event by what reception, delivery, transmission and link-up make of the lane. -/
theorem laneFramesMove : Obligations.LaneFramesMove := by
  intro s p k frame slot l up s0 tag room good
  refine ⟨?down, ?long, ?badFcs, ?expected, ?foreign, ?drops, ?delivers, ?sends, ?nothing, ?smouldering, ?examines, ?host, ?plca, ?linkUp⟩
  case down => exact fun hdown => next_of_eq (State.laneReceive_down hdown k.toNat true frame)
  case long => exact fun ⟨hpen, hup⟩ hlong => next_of_eq (State.laneReceive_long hpen hup k.toNat hlong)
  case badFcs => exact fun ⟨hpen, hup⟩ hfew => next_of_eq (State.laneReceive_badFcs hpen hup k.toNat hfew)
  case expected =>
    intro ⟨hpen, hup⟩ ⟨hshort, hours⟩ hroom htag henrolled hsrc
    rw [← State.enrState_eq, ← State.disarmed_enrState] at henrolled
    rw [← State.disarmed_enrAddr] at hsrc
    exact next_of_eq (State.laneReceive_queues hpen hup k.toNat hshort hours hroom (State.classify_expected htag henrolled hsrc))
  case foreign =>
    intro ⟨hpen, hup⟩ ⟨hshort, hours⟩ hroom htag henrolled hsrc
    rw [← State.enrState_eq, ← State.disarmed_enrState] at henrolled
    rw [← State.disarmed_enrAddr] at hsrc
    exact next_of_eq (State.laneReceive_queues hpen hup k.toNat hshort hours hroom (State.classify_foreign htag henrolled hsrc))
  case drops =>
    intro x rest hfifo hstopped
    refine ⟨_, next_of_eq (State.laneDeliver_drops hfifo hstopped), ?_, ?_, ?_⟩
    · rw [State.qDrop, State.setQ, State.lane_congr (State.setReg_lanes ..), State.frameTaken, State.lane_modLane]
    · rw [State.q, State.qDrop, State.setQ, State.reg_setReg_self, State.q, State.frameTaken, State.modLane_reg, State.q]
    · exact (State.qDrop_frame _ _).2
  case delivers =>
    intro x rest s1 d hfifo q hruns hfetch hown hfits hcheck hquiet
    refine next_of_eq ((State.laneDeliver_delivers hfifo hruns hfetch hown hfits hcheck).trans (State.qDoneIrq_quiet _ p _ _ ?_))
    rw [State.delivered_control hfetch _ _ _ _ _ _ (by omega) (by decide)]
    exact hquiet
  case sends =>
    intro x htx hup hturn
    refine ⟨_, next_of_eq (State.laneTransmit_sends htx hup hturn), ?_⟩
    have hkey : regKey .trade (0x060 + p.toNat) 0x1064 ≠
        regKey .trade (laneQ p.toNat x.queue true).slot ((laneQ p.toNat x.queue true).off + 12) := by
      rw [laneQ_slot, regKey_trade, regKey_trade]
      omega
    rw [State.qDoneIrq_out, State.qComplete_out, State.lane_congr (State.qDoneIrq_lanes ..), State.lane_congr (State.qComplete_lanes ..),
      State.qDoneIrq_reg _ _ _ _ (by decide) (by decide), State.qComplete_reg _ _ _ _ _ _ hkey]
    exact s.frameSent_outcome p x
  case nothing => exact fun hnone => next_of_eq (State.laneTransmit_idle hnone)
  case smouldering => exact fun hstate => next_of_eq (State.laneExamine_smouldering hstate)
  case examines => exact fun hstate => next_of_eq (State.laneExamine_up hstate)
  case host => rfl
  case plca => exact fun ⟨hpen, hup⟩ hplca => next_of_eq (State.plcaCycle_up hpen hup hplca)
  case linkUp =>
    intro hpen hmode hdown
    have hchanges : s.lstate p.toNat ≠ 1 := by omega
    refine ⟨_, next_of_eq (State.laneLinkUp_down hpen hmode hdown), s.setLstate_regsBut p hchanges, s.setLstate_status hchanges, ?_⟩
    obtain ⟨x, hset⟩ := s.setLstate_eq hchanges
    rw [hset]
    intro part hpart
    cases part <;> simp [State.agrees] at hpart ⊢

end Sys2Proof.Machine

namespace Sys2Proof.Machine

/-! The state right after a bus power-on reset (R454, R491, R515, R536, Table 16-8). -/

/-- Settles O4: every register reads its reset value, since the register file lists none; the other parts are those of `State.reset`. -/
theorem powerOnState : Obligations.PowerOnState := by
  unfold Obligations.PowerOnState
  refine ⟨by decide, rfl, rfl, rfl, rfl, rfl, ?_, ?_, by decide, by decide, rfl, by decide, rfl, rfl, by decide, by decide, by decide,
    by decide, by decide, by decide, fun a => rfl, ?_⟩
  · intro t
    have ht : t.toNat < 16 := t.isLt
    simp [State.tile, State.reset, vget, Vector.getD, ht]
  · decide
  · intro a ha
    exact if_neg (Nat.not_lt.mpr ha)

/-! The target of the power domain controller (R497, Table 16-6). -/

/-- A cap that a BLOCK condition sets binds where the condition holds. -/
theorem le_cap_iff (b : Bool) {n : Nat} (hn : n ≤ 4) (c : Nat) : n ≤ (if b = true then c else 4) ↔ (b = true → n ≤ c) := by
  cases b <;> simp [hn]

/-- The target is the smallest of both permits and the caps (R497). -/
theorem State.le_target_iff (s : State) (n : Nat) : n ≤ s.target ↔
    n ≤ 4 ∧ n ≤ fld (s.regW .trade 0x02B 0x1004) 2 0 ∧ n ≤ fld (s.regW .opn 0x02B 0x1004) 2 0
      ∧ (s.block 0 = true → n ≤ 1) ∧ (s.block 1 = true → n ≤ 1) ∧ (s.block 2 = true → n ≤ 2) ∧ (s.block 3 = true → n ≤ 2)
      ∧ (s.block 4 = true → n ≤ 3) := by
  simp only [State.target, List.foldl_cons, List.foldl_nil, Nat.le_min, and_assoc]
  refine and_congr_right fun hn => ?_
  simp only [le_cap_iff _ hn]

theorem State.target_le (s : State) : s.target ≤ 4 := ((s.le_target_iff s.target).mp (Nat.le_refl _)).1

/-- TARGET of PSTATE is the target as it is now. -/
theorem State.pstateNow_target (s : State) : fld s.pstateNow 2 0 = s.target := by
  have hle := s.target_le
  rw [State.pstateNow, fld_setFld_ne _ _ _ _ _ _ (by decide) (by decide) (by decide), fld_setFld_self _ _ _ _ (by decide) (by decide)]
  omega

/-- Settles O50: both clauses from the minimum that `State.target` takes. -/
theorem targetChosen : Obligations.TargetChosen := by
  intro s q n
  exact ⟨s.le_target_iff n, s.pstateNow_target⟩

end Sys2Proof.Machine

namespace Sys2Proof.Machine

/-! The RTC, its alarm and the Open wake time (R486, R489 to R491). -/

/-- A write of slot 0x029 that its gate admits and the RTC answers without an error. -/
theorem regWrite_rtc {s t : State} {q : Req} {off : Nat} {v : Word} (hadmits : s.admits q 0x029 off) (hlo : 0x1000 ≤ off)
    (haligned : off % 4 = 0) (hblock : s.rtcWrite off v = (t, .ok 0)) :
    (Host.Outcome.next (s.regWrite q 0x029 off v) : Host.Outcome State Fault Refusal) = .next t.done :=
  State.regWrite_next hadmits (by decide) haligned ((s.slotWrite_rtc q off v hlo).trans hblock)

/-- A change of the RTC touches the RTC alone. -/
theorem State.modRtc_onlyIn (s : State) (f : Rtc → Rtc) : s.onlyIn (s.modRtc f) [.rtc] := by
  intro p hp
  cases p <;> simp [State.agrees] at hp ⊢

/-- The time of whole nanoseconds that was set. -/
theorem State.rtcNs_of_time {s : State} {n : Nat} (h : s.rtc.time = n * 2 ^ 32) : s.rtcNs = n % 2 ^ 64 := by
  rw [State.rtcNs, h, Nat.mul_div_cancel _ (Nat.two_pow_pos 32)]

/-- TRIM is the nearest whole number of ppb: half a unit is added before the division rounds down (R490). -/
theorem trim_nearest (num : Int) {n : Nat} (hn : 0 < n) :
    2 * ((2 * num + n) / (2 * n)) * n ≤ 2 * num + n ∧ 2 * num + n < 2 * ((2 * num + n) / (2 * n) + 1) * n := by
  have hpos : (0 : Int) < 2 * n := by omega
  constructor
  · calc 2 * ((2 * num + n) / (2 * n)) * n = (2 * num + n) / (2 * n) * (2 * n) := by ring
      _ ≤ 2 * num + n := Int.ediv_mul_le _ (by omega)
  · calc 2 * num + n < ((2 * num + n) / (2 * n) + 1) * (2 * n) := Int.lt_ediv_add_one_mul_self _ hpos
      _ = 2 * ((2 * num + n) / (2 * n) + 1) * n := by ring

/-- The RTC after a second of a time block that reports lock, of which it counted n ticks in 16 s (R490). -/
def State.rtcFollowed (s : State) (n : Nat) : State :=
  s.modRtc (fun r => { r with
    time := s.ptp * 2 ^ 32, trim := (2 * ((524288 - n : Int) * 1000000000) + n) / (2 * n), valid := true, hold := some s.now })

theorem State.rtcFollow_locked {s : State} {n : Nat} (hlock : s.rtcLocked = true) (hn : 0 < n) : s.rtcFollow n = s.rtcFollowed n := by
  have h0 : n ≠ 0 := Nat.pos_iff_ne_zero.mp hn
  simp [State.rtcFollow, State.rtcFollowed, hlock, h0]

theorem State.rtcFollow_unlocked {s : State} (n : Nat) (hlock : s.rtcLocked = false) : s.rtcFollow n = s := by
  simp [State.rtcFollow, hlock]

theorem State.rtcWrite_set (s : State) (v : Word) : s.rtcWrite 0x1018 v = s.rtcSet := if_pos rfl

/-- The time that RTCSET brings, in ns (Table 16-2). -/
def State.rtcSetTime (s : State) : Nat := (s.reg 0x029 0x1010).toNat + (s.reg 0x029 0x1014).toNat * 2 ^ 32

theorem State.rtcSetTime_lt (s : State) : s.rtcSetTime < 2 ^ 64 := by
  have hlo := (s.reg 0x029 0x1010).isLt
  have hhi := (s.reg 0x029 0x1014).isLt
  rw [State.rtcSetTime]
  omega

/-- The RTC set to a time by software (R491). -/
def State.rtcSetTo (s : State) (time : Nat) : State :=
  s.modRtc (fun r => { r with time := time, valid := true, wasSet := true, hold := none })

theorem State.rtcSet_unlocked {s : State} (hlock : s.rtcLocked = false) : s.rtcSet = (s.rtcSetTo (s.rtcSetTime * 2 ^ 32), .ok 0) := by
  simp [State.rtcSet, State.rtcSetTo, State.rtcSetTime, hlock]

theorem State.rtcSetTo_trim (s : State) (time : Nat) : (s.rtcSetTo time).done.rtc.trim = s.rtc.trim := rfl

theorem State.rtcSetTo_rtcNs (s : State) : (s.rtcSetTo (s.rtcSetTime * 2 ^ 32)).done.rtcNs
    = (s.reg 0x029 0x1010).toNat + (s.reg 0x029 0x1014).toNat * 2 ^ 32 := by
  rw [State.rtcNs_congr (State.done_rtc _), State.rtcNs_of_time (n := s.rtcSetTime) rfl, Nat.mod_eq_of_lt s.rtcSetTime_lt, State.rtcSetTime]

theorem State.rtcSet_locked {s : State} (hlock : s.rtcLocked = true) : s.rtcSet = (s, .err busErr) := by simp [State.rtcSet, hlock]

/-- Settles O48: the ticks and the clock by their definitions, TRIM by `trim_nearest`, the alarms by whether the time has come. -/
theorem emberClockRuns : Obligations.EmberClockRuns := by
  intro s q v n alarm wake setTime
  refine ⟨rfl, rfl, rfl, ?follow, ?loose, ?set, ?setLocked, ?alarm, ?noAlarm, ?wake, ?noWake⟩
  case follow =>
    intro hlock hn
    obtain ⟨hle, hlt⟩ := trim_nearest ((524288 - n.toNat : Int) * 1000000000) hn
    refine ⟨_, congrArg Host.Outcome.next (State.rtcFollow_locked hlock hn), State.rtcNs_of_time rfl, ?_, ?_, ?_, s.modRtc_onlyIn _⟩
    · simp [State.rtcValid, State.rtcFollowed]
    · simpa [State.rtcFollowed, mul_assoc] using hle
    · simpa [State.rtcFollowed, mul_assoc] using hlt
  case loose => exact fun hlock => congrArg Host.Outcome.next (State.rtcFollow_unlocked n.toNat hlock)
  case set =>
    intro hadmits hlock
    exact ⟨_, regWrite_rtc hadmits (by decide) rfl ((s.rtcWrite_set v).trans (State.rtcSet_unlocked hlock)), s.rtcSetTo_rtcNs,
      by simp [State.rtcValid, State.rtcSetTo], s.rtcSetTo_trim _, rfl, State.onlyIn_done (s.modRtc_onlyIn _) (by decide) (by decide)⟩
  case setLocked =>
    exact fun hadmits hlock => State.regWrite_blockRefuses hadmits (by decide) rfl
      ((s.slotWrite_rtc q 0x1018 v (by decide)).trans ((s.rtcWrite_set v).trans (State.rtcSet_locked hlock)))
  case alarm =>
    intro hen hdue
    refine congrArg Host.Outcome.next ?_
    rw [State.rtcAlarm, hen, Bool.true_and]
    exact if_pos (decide_eq_true hdue)
  case noAlarm =>
    intro hearly
    refine congrArg Host.Outcome.next (if_neg fun hdue => ?_)
    obtain ⟨hen, hle⟩ := Bool.and_eq_true_iff.mp hdue
    exact Nat.not_le.mpr (hearly hen) (of_decide_eq_true hle)
  case wake =>
    intro hen hdue
    refine congrArg Host.Outcome.next ?_
    rw [State.openWake, hen, Bool.true_and]
    exact if_pos (decide_eq_true hdue)
  case noWake =>
    intro hearly
    refine congrArg Host.Outcome.next (if_neg fun hdue => ?_)
    obtain ⟨hen, hle⟩ := Bool.and_eq_true_iff.mp hdue
    exact Nat.not_le.mpr (hearly hen) (of_decide_eq_true hle)

end Sys2Proof.Machine

namespace Sys2Proof.Machine

/-! Which store bank is valid and which is in use (R508, Tables 16-9, 16-12). -/

/-- A field of bytes read from memory is the value that memory holds there. -/
theorem frameVal_read (m : Mem) {a n i k : Nat} (h : i + k ≤ n) : frameVal (m.read a n) i k = m.val (a + i) k := by
  rw [frameVal, Mem.val]
  congr 1
  apply List.ext_getElem
  · simp [Mem.read]; omega
  · intro j _ _
    simp [Mem.read, Nat.add_assoc]

/-- A value of n bytes is below its bound. -/
theorem ofBytes_lt (l : List Byte) : ofBytes l < 256 ^ l.length := by
  induction l with
  | nil => simp [ofBytes]
  | cons b r ih =>
    have hb := b.isLt
    rw [ofBytes, List.length_cons, Nat.pow_succ]
    omega

theorem Mem.val_lt (m : Mem) (a n : Nat) : m.val a n < 256 ^ n := by
  have h := ofBytes_lt (m.read a n)
  rwa [show (m.read a n).length = n by simp [Mem.read]] at h

/-- A bank is valid with SEQ where its header and its payload stand as R508 asks. -/
theorem State.storeSeq_eq_some_iff (s : State) (k seq : Nat) : s.storeSeq k = some seq ↔
    s.isDamaged (storeBase k) 32 = false ∧ s.mem.val (storeBase k) 4 = 0x53505A4B ∧ s.mem.val (storeBase k + 4) 2 = 1
      ∧ s.mem.val (storeBase k + 12) 4 ≤ 262112 ∧ s.isDamaged (storeBase k + 32) (s.mem.val (storeBase k + 12) 4) = false
      ∧ s.mem.val (storeBase k + 16) 4 = (crc32c (s.mem.read (storeBase k + 32) (s.mem.val (storeBase k + 12) 4))).toNat
      ∧ seq = s.mem.val (storeBase k + 8) 4 := by
  rw [State.storeSeq]
  simp only [frameVal_read s.mem (show 12 + 4 ≤ 32 by decide), frameVal_read s.mem (show 0 + 4 ≤ 32 by decide),
    frameVal_read s.mem (show 4 + 2 ≤ 32 by decide), frameVal_read s.mem (show 16 + 4 ≤ 32 by decide),
    frameVal_read s.mem (show 8 + 4 ≤ 32 by decide), Nat.add_zero, storeMax]
  split
  · rename_i h
    simp only [Bool.or_eq_true, bne_iff_ne, decide_eq_true_eq] at h
    refine ⟨nofun, fun ⟨hsound, hmagic, hform, hlen, _⟩ => ?_⟩
    simp only [hsound, hmagic, hform, Bool.false_eq_true, ne_self_iff_false, or_self, false_or] at h
    exact absurd h (Nat.not_lt.mpr hlen)
  · rename_i h
    simp only [Bool.or_eq_true, bne_iff_ne, decide_eq_true_eq, not_or, not_not, Bool.not_eq_true, Nat.not_lt] at h
    obtain ⟨⟨⟨hsound, hmagic⟩, hform⟩, hlen⟩ := h
    split
    · rename_i h
      refine ⟨nofun, fun ⟨_, _, _, _, hpay, hcrc, _⟩ => ?_⟩
      simp [hpay, hcrc] at h
    · rename_i h
      simp only [Bool.or_eq_true, bne_iff_ne, not_or, not_not, Bool.not_eq_true] at h
      obtain ⟨hpay, hcrc⟩ := h
      exact ⟨fun e => ⟨hsound, hmagic, hform, hlen, hpay, hcrc, (Option.some.inj e).symm⟩, fun ⟨_, _, _, _, _, _, e⟩ => congrArg some e.symm⟩

/-- The SEQ of a valid bank has 32 bits. -/
theorem State.storeSeq_lt {s : State} {k seq : Nat} (h : s.storeSeq k = some seq) : seq < 2 ^ 32 := by
  obtain ⟨_, _, _, _, _, _, rfl⟩ := (s.storeSeq_eq_some_iff k seq).mp h
  exact s.mem.val_lt _ 4

/-- The serial comparison of two numbers of 32 bits (R508). -/
theorem serialLater_iff {x y : Nat} (hy : y < 2 ^ 32) :
    serialLater x y = true ↔ 1 ≤ (x + 2 ^ 32 - y) % 2 ^ 32 ∧ (x + 2 ^ 32 - y) % 2 ^ 32 ≤ 2 ^ 31 - 1 := by
  rw [serialLater, within, Bool.and_eq_true, decide_eq_true_eq, decide_eq_true_eq, Nat.mod_eq_of_lt hy]

/-- With both banks valid the later SEQ decides, and a tie or an undecided comparison gives bank 0. -/
theorem State.storeInUse_both {s : State} {x y : Nat} (hx : s.storeSeq 0 = some x) (hy : s.storeSeq 1 = some y) :
    s.storeInUse = some (if serialLater y x = true then (1, y) else (0, x)) := by rw [State.storeInUse, hx, hy]

theorem State.storeInUse_first {s : State} {x : Nat} (hx : s.storeSeq 0 = some x) (hy : s.storeSeq 1 = none) :
    s.storeInUse = some (0, x) := by rw [State.storeInUse, hx, hy]

theorem State.storeInUse_second {s : State} {y : Nat} (hx : s.storeSeq 0 = none) (hy : s.storeSeq 1 = some y) :
    s.storeInUse = some (1, y) := by rw [State.storeInUse, hx, hy]

theorem State.storeInUse_none {s : State} (hx : s.storeSeq 0 = none) (hy : s.storeSeq 1 = none) : s.storeInUse = none := by
  rw [State.storeInUse, hx, hy]

/-- With no valid bank the load applies nothing and notes the defaults (Table 16-12). -/
theorem State.storeLoad_none {s : State} (h : s.storeInUse = none) (refused : List Nat) :
    s.storeLoad refused = (s.storeNote 1 [0xFF]).storeNote 5 [2] := by rw [State.storeLoad, h]

/-- Settles O53: validity field by field, the choice by which banks are valid. -/
theorem storeBankChosen : Obligations.StoreBankChosen := by
  intro s k seq refused a len later
  refine ⟨s.storeSeq_eq_some_iff k seq, fun x y hx hy => ⟨fun hlater => ?_, fun hnot => ?_⟩, fun x hx hy => State.storeInUse_first hx hy,
    fun y hx hy => State.storeInUse_second hx hy, fun hx hy => ?_⟩
  · rw [State.storeInUse_both hx hy, if_pos ((serialLater_iff (State.storeSeq_lt hx)).mpr hlater)]
  · rw [State.storeInUse_both hx hy, if_neg (fun e => hnot ((serialLater_iff (State.storeSeq_lt hx)).mp e))]
  · exact ⟨State.storeInUse_none hx hy, congrArg Host.Outcome.next (State.storeLoad_none (State.storeInUse_none hx hy) refused)⟩

end Sys2Proof.Machine

namespace Sys2Proof.Machine

/-! What memory holds after a write of any place: check unit by check unit (R566), where no unit that the write covers in part is damaged. -/

/-- What every step of a loop leaves alone, the loop leaves alone. -/
theorem State.foldl_keeps {α β : Type} (g : State → β) {f : State → α → State} (h : ∀ s a, g (f s a) = g s) (l : List α) (s : State) :
    g (l.foldl f s) = g s := by
  induction l generalizing s with
  | nil => rfl
  | cons a l ih => rw [List.foldl_cons, ih, h]

/-- Memory is held in check units of 8 or 64 bytes (Table 2-7a). -/
theorem Place.unit_cases (p : Place) : p.unit = 8 ∨ p.unit = 64 := by
  cases p <;> simp [Place.unit]

/-- The check units under n bytes from an address. -/
theorem State.mem_units_iff (s : State) {pa n x : Nat} :
    x ∈ s.units pa n ↔ x % (s.place pa).unit = 0 ∧ pa / (s.place pa).unit * (s.place pa).unit ≤ x ∧ x < pa + n := by
  simp only [State.units, List.mem_filter, List.mem_map, List.mem_range, decide_eq_true_eq]
  have hunits : ∀ u, u = 8 ∨ u = 64 → ((∃ i, i < (n + u - 1) / u + 1 ∧ pa / u * u + i * u = x) ∧ x < pa + n
      ↔ x % u = 0 ∧ pa / u * u ≤ x ∧ x < pa + n) := by
    rintro u (rfl | rfl)
    · exact ⟨fun ⟨⟨i, _, hi⟩, _⟩ => by omega, fun _ => ⟨⟨x / 8 - pa / 8, by omega, by omega⟩, by omega⟩⟩
    · exact ⟨fun ⟨⟨i, _, hi⟩, _⟩ => by omega, fun _ => ⟨⟨x / 64 - pa / 64, by omega, by omega⟩, by omega⟩⟩
  exact hunits _ (s.place pa).unit_cases

section
variable {s : State} {pa : Nat} {bs : List Byte}

/-- A write of n bytes from pa may touch the unit x: it is sound, or wholly covered. -/
def Mem.unitTakes (m : Mem) (u pa n x : Nat) : Prop := Sparse.get false x m.damaged = true → pa ≤ x ∧ x + u ≤ pa + n

theorem State.unitTakes_of_mergeFails (hmerge : s.mergeFails pa bs.length = false) :
    ∀ x ∈ s.units pa bs.length, s.mem.unitTakes (s.place pa).unit pa bs.length x := by
  intro x hx hbad
  simp only [State.mergeFails, List.any_eq_false] at hmerge
  simpa [hbad] using hmerge x hx

theorem State.unitTakes_writeUnit {u x y : Nat} (h : s.mem.unitTakes u pa bs.length y) :
    (s.writeUnit u pa bs x).mem.unitTakes u pa bs.length y := by
  intro hbad
  refine h ?_
  by_contra hsound
  rw [State.writeUnit_damaged u x (Bool.not_eq_true _ ▸ hsound)] at hbad
  cases hbad

/-- The memory after a write of one check unit that takes it: its part of the bytes put, its tags cleared. -/
theorem State.writeUnit_mem {u x : Nat} (h : s.mem.unitTakes u pa bs.length x) :
    ∃ d, (s.writeUnit u pa bs x).mem = { (s.mem.putBytes (max pa x)
        ((bs.drop (max pa x - pa)).take (min (pa + bs.length) (x + u) - max pa x))).clearTags (max pa x)
          (min (pa + bs.length) (x + u) - max pa x) with damaged := d } := by
  simp only [State.writeUnit]
  split
  · exact ⟨_, rfl⟩
  · rename_i hpart
    split
    · rename_i hbad
      have hcovered := h hbad
      omega
    · exact ⟨_, rfl⟩

/-- A write of one check unit changes the bytes that lie in it. -/
theorem State.writeUnit_byte_of_takes {u x p : Nat} (h : s.mem.unitTakes u pa bs.length x) (hp : 0x10000 ≤ p) :
    (s.writeUnit u pa bs x).mem.byte p = if x ≤ p ∧ p < x + u then s.mem.byteAfter pa bs p else s.mem.byte p := by
  obtain ⟨d, hmem⟩ := State.writeUnit_mem h
  have hbytes : (s.writeUnit u pa bs x).mem.byte p = (s.mem.putBytes (max pa x)
      ((bs.drop (max pa x - pa)).take (min (pa + bs.length) (x + u) - max pa x))).byte p := by
    rw [hmem]
    rfl
  rw [hbytes, Mem.byte_putBytes _ _ _ _ hp, List.length_take, List.length_drop, Mem.byteAfter]
  by_cases hin : (x ≤ p ∧ p < x + u) ∧ pa ≤ p ∧ p < pa + bs.length
  · obtain ⟨hunit, hwritten⟩ := hin
    rw [if_pos (by omega), if_pos hunit, if_pos hwritten, List.getElem?_take, if_pos (by omega), List.getElem?_drop,
      show max pa x - pa + (p - max pa x) = p - pa by omega, List.getD_eq_getElem?_getD]
  · rw [if_neg (by omega)]
    split
    · rw [if_neg (by omega)]
    · rfl

/-- The writes of the check units of a list, one after another. -/
theorem State.foldl_writeUnit_byte_of_takes {u p : Nat} (hp : 0x10000 ≤ p) (l : List Nat) (s : State)
    (htakes : ∀ x ∈ l, s.mem.unitTakes u pa bs.length x) :
    (l.foldl (fun s x => s.writeUnit u pa bs x) s).mem.byte p
      = if ∃ x ∈ l, x ≤ p ∧ p < x + u then s.mem.byteAfter pa bs p else s.mem.byte p := by
  induction l generalizing s with
  | nil => simp
  | cons x l ih =>
    have hunit := State.writeUnit_byte_of_takes (htakes x (by simp)) hp
    have hafter : (s.writeUnit u pa bs x).mem.byteAfter pa bs p = s.mem.byteAfter pa bs p := by
      rw [Mem.byteAfter, hunit, Mem.byteAfter]
      split <;> simp
    rw [List.foldl_cons, ih _ fun y hy => State.unitTakes_writeUnit (htakes y (by simp [hy])), hafter, hunit]
    by_cases hl : ∃ y ∈ l, y ≤ p ∧ p < y + u
    · obtain ⟨y, hy, hin⟩ := hl
      rw [if_pos ⟨y, hy, hin⟩, if_pos ⟨y, List.mem_cons_of_mem x hy, hin⟩]
    · rw [if_neg hl]
      by_cases hx : x ≤ p ∧ p < x + u
      · rw [if_pos hx, if_pos ⟨x, List.mem_cons_self, hx⟩]
      · rw [if_neg hx, if_neg]
        rintro ⟨y, hy, hin⟩
        rcases List.mem_cons.mp hy with rfl | hy
        · exact hx hin
        · exact hl ⟨y, hy, hin⟩

/-- The units of the place of a write stay while it is written. -/
theorem State.memWrite_foldl (s : State) (pa : Nat) (bs : List Byte) : (s.memWrite pa bs).mem
    = ((s.units pa bs.length).foldl (fun t x => t.writeUnit (s.place pa).unit pa bs x) s).mem := by
  have hplace : ∀ (t : State) (u x : Nat), (t.writeUnit u pa bs x).place pa = t.place pa := by
    intro t u x
    obtain ⟨m, hm⟩ := t.writeUnit_eq u pa bs x
    rw [hm]
    rfl
  have hloop : ∀ (l : List Nat) (t : State), t.place pa = s.place pa →
      l.foldl (fun t x => t.writeUnit (t.place pa).unit pa bs x) t = l.foldl (fun t x => t.writeUnit (s.place pa).unit pa bs x) t := by
    intro l
    induction l with
    | nil => exact fun t _ => by rw [List.foldl_nil, List.foldl_nil]
    | cons x l ih =>
      intro t ht
      rw [List.foldl_cons, List.foldl_cons, ht]
      exact ih _ ((hplace t _ x).trans ht)
  rw [State.memWrite, hloop _ s rfl]

/-- A write that no damaged unit refuses writes its bytes and leaves every other byte (R566). -/
theorem State.memWrite_byte (hmerge : s.mergeFails pa bs.length = false) (p : Nat) :
    (s.memWrite pa bs).mem.byte p = if 0x10000 ≤ p then s.mem.byteAfter pa bs p else s.mem.byte p := by
  split
  · rename_i hp
    rw [s.memWrite_foldl, State.foldl_writeUnit_byte_of_takes hp _ s (State.unitTakes_of_mergeFails hmerge)]
    split
    · rfl
    · rename_i hnone
      rw [Mem.byteAfter, if_neg]
      intro hin
      refine hnone ⟨p / (s.place pa).unit * (s.place pa).unit, s.mem_units_iff.mpr ?_, ?_⟩
      all_goals rcases (s.place pa).unit_cases with hu | hu <;> rw [hu] <;> omega
  · rename_i hrom
    exact Mem.byte_rom _ _ (Nat.not_le.mp hrom)

/-- The same, of a system master's write, whose dropped copies are none of memory's. -/
theorem State.masterWriteMem_byte (hmerge : s.mergeFails pa bs.length = false) (p : Nat) :
    (s.masterWriteMem pa bs).mem.byte p = if 0x10000 ≤ p then s.mem.byteAfter pa bs p else s.mem.byte p :=
  State.memWrite_byte (s := s.dropCopies pa bs.length) hmerge p

/-- Memory beyond the ROM holds what a master wrote there. -/
theorem State.masterWriteMem_holds (hmerge : s.mergeFails pa bs.length = false) (hpa : 0x10000 ≤ pa) :
    (s.masterWriteMem pa bs).mem.holds pa bs := by
  intro i hi
  rw [State.masterWriteMem_byte hmerge, if_pos (by omega), Mem.byteAfter, if_pos (by omega), Nat.add_sub_cancel_left]

/-- Outside its bytes a master's write leaves memory. -/
theorem State.masterWriteMem_byte_outside (hmerge : s.mergeFails pa bs.length = false) {p : Nat} (hp : p < pa ∨ pa + bs.length ≤ p) :
    (s.masterWriteMem pa bs).mem.byte p = s.mem.byte p := by
  have hafter : s.mem.byteAfter pa bs p = s.mem.byte p := if_neg (by omega)
  rw [State.masterWriteMem_byte hmerge, hafter, ite_self]

/-! The tags of the bytes written (R55). -/

theorem Mem.putBytes_tags (m : Mem) (pa : Nat) (l : List Byte) : (m.putBytes pa l).tags = m.tags := by
  induction l generalizing m pa with
  | nil => rfl
  | cons b l ih => exact ih (m.setByte pa b) (pa + 1)

/-- Cleared tags read as clear, the others as before. -/
theorem Mem.tagAt_clearTags (m : Mem) (pa n p : Nat) :
    (m.clearTags pa n).tagAt p = (m.tagAt p && !(decide (pa / 8 * 8 ≤ p / 8 * 8) && decide (p / 8 * 8 < pa + n))) := by
  rw [Mem.tagAt, Mem.tagAt, Mem.clearTags]
  refine (Sparse.get_filter_key false (fun k => !(decide (pa / 8 * 8 ≤ k) && decide (k < pa + n))) _ _).trans ?_
  cases !(decide (pa / 8 * 8 ≤ p / 8 * 8) && decide (p / 8 * 8 < pa + n)) <;> simp

/-- The tag of a byte after a write of one check unit: clear where the byte was written, and never set anew. -/
theorem State.writeUnit_tagAt {u x p : Nat} (h : s.mem.unitTakes u pa bs.length x)
    (hp : s.mem.tagAt p = false ∨ (x ≤ p ∧ p < x + u ∧ pa ≤ p ∧ p < pa + bs.length)) : (s.writeUnit u pa bs x).mem.tagAt p = false := by
  obtain ⟨d, hmem⟩ := State.writeUnit_mem h
  have htag : (s.writeUnit u pa bs x).mem.tagAt p = ((s.mem.putBytes (max pa x)
      ((bs.drop (max pa x - pa)).take (min (pa + bs.length) (x + u) - max pa x))).clearTags (max pa x)
        (min (pa + bs.length) (x + u) - max pa x)).tagAt p := by
    rw [hmem]
    rfl
  rw [htag, Mem.tagAt_clearTags, Mem.tagAt, Mem.putBytes_tags]
  rcases hp with hclear | hin
  · rw [Mem.tagAt] at hclear
    rw [hclear, Bool.false_and]
  · rw [decide_eq_true (by omega), decide_eq_true (by omega)]
    simp

theorem State.foldl_writeUnit_tagAt {u p : Nat} (hwritten : pa ≤ p ∧ p < pa + bs.length) (l : List Nat) (s : State)
    (htakes : ∀ x ∈ l, s.mem.unitTakes u pa bs.length x) (hp : s.mem.tagAt p = false ∨ ∃ x ∈ l, x ≤ p ∧ p < x + u) :
    (l.foldl (fun s x => s.writeUnit u pa bs x) s).mem.tagAt p = false := by
  induction l generalizing s with
  | nil => simpa using hp
  | cons x l ih =>
    rw [List.foldl_cons]
    refine ih _ (fun y hy => State.unitTakes_writeUnit (htakes y (by simp [hy]))) ?_
    rcases hp with hclear | ⟨y, hy, hin⟩
    · exact .inl (State.writeUnit_tagAt (htakes x (by simp)) (.inl hclear))
    · rcases List.mem_cons.mp hy with rfl | hy
      · exact .inl (State.writeUnit_tagAt (htakes y (by simp)) (.inr ⟨hin.1, hin.2, hwritten⟩))
      · exact .inr ⟨y, hy, hin⟩

/-- The bytes written carry no tag. -/
theorem State.masterWriteMem_tagAt (hmerge : s.mergeFails pa bs.length = false) {p : Nat} (hp : pa ≤ p ∧ p < pa + bs.length) :
    (s.masterWriteMem pa bs).mem.tagAt p = false := by
  have hplace : (s.dropCopies pa bs.length).place pa = s.place pa := rfl
  rw [State.masterWriteMem, State.memWrite_foldl]
  refine State.foldl_writeUnit_tagAt hp _ _ (State.unitTakes_of_mergeFails (s := s.dropCopies pa bs.length) hmerge)
    (.inr ⟨p / (s.place pa).unit * (s.place pa).unit, (State.mem_units_iff _).mpr ?_, ?_⟩)
  all_goals rw [hplace]; rcases (s.place pa).unit_cases with hu | hu <;> rw [hu] <;> omega

/-- A range without an error refuses no write inside it. -/
theorem State.mergeFails_of_sound {a n k : Nat} (hsound : s.isDamaged a n = false) (hlo : a ≤ pa) (hhi : pa + k ≤ a + n)
    (hunit : (s.place pa).unit = (s.place a).unit) : s.mergeFails pa k = false := by
  rw [State.mergeFails, List.any_eq_false]
  intro x hx
  obtain ⟨haligned, hfirst, hlast⟩ := s.mem_units_iff.mp hx
  rw [hunit] at haligned hfirst
  simp only [State.isDamaged, List.any_eq_false, List.mem_range, Bool.and_eq_true, decide_eq_true_eq, not_and, Bool.not_eq_true] at hsound
  have hx' := hsound ((x - a / (s.place a).unit * (s.place a).unit) / (s.place a).unit)
  rcases (s.place a).unit_cases with hu | hu
  all_goals
    rw [hu] at haligned hfirst hx'
    have hget := hx' (by omega)
  · rw [show a / 8 * 8 + (x - a / 8 * 8) / 8 * 8 = x by omega] at hget
    simp [hget (by omega)]
  · rw [show a / 64 * 64 + (x - a / 64 * 64) / 64 * 64 = x by omega] at hget
    simp [hget (by omega)]

end

end Sys2Proof.Machine

namespace Sys2Proof.Machine

/-! The seal engine's key commands and jobs (R436 to R442, Tables 14-2 and 14-3). That another command than WRAP_OUT ends the showing of the wrapped record,
and what a KSLOT above 31 gives, are the model's choices (log 28). -/

/-- A write of slot 0x030 that its gate admits and the seal engine answers without an error. -/
theorem regWrite_seal {s t : State} {q : Req} {off : Nat} {v : Word} (hadmits : s.admits q 0x030 off) (hlo : 0x1000 ≤ off)
    (haligned : off % 4 = 0) (hblock : s.sealWrite off v = (t, .ok 0)) :
    (Host.Outcome.next (s.regWrite q 0x030 off v) : Host.Outcome State Fault Refusal) = .next t.done :=
  State.regWrite_next hadmits (by decide) haligned ((s.slotWrite_seal q off v hlo).trans hblock)

/-- A write of slot 0x030 that its gate admits and the seal engine refuses. -/
theorem regWrite_sealRefuses {s : State} {q : Req} {off : Nat} {v : Word} (hadmits : s.admits q 0x030 off) (hlo : 0x1000 ≤ off)
    (haligned : off % 4 = 0) (hblock : s.sealWrite off v = (s, .err busErr)) :
    (Host.Outcome.next (s.regWrite q 0x030 off v) : Host.Outcome State Fault Refusal) = .next { s with resp := some (.err busErr) } :=
  State.regWrite_blockRefuses hadmits (by decide) haligned ((s.slotWrite_seal q off v hlo).trans hblock)

/-! The key commands (Table 14-2). -/

/-- The state in which a key command other than WRAP_OUT works: the wrapped record is shown no longer. -/
def State.keyHidden (s : State) : State := s.modSeal (fun e => { e with shown := false })

/-- What a key command leaves and answers: its state, or none where it is refused. -/
def State.keyDone (s : State) (o : Option State) : State × BusRes :=
  match o with
  | some t => (t, .ok 0)
  | none => (s, .err busErr)

/-- A write of KCMD, command by command (Table 14-2). -/
theorem State.sealWrite_kcmd (s : State) (v : Word) : s.sealWrite 0x1104 v = s.kcmd v := rfl

theorem State.kcmd_loadClear (s : State) : s.kcmd 1 = s.keyDone s.keyHidden.loadClear := by
  simp only [State.kcmd, State.keyHidden, show fld (1 : Word) 2 0 = 1 from rfl]
  generalize State.loadClear _ = o
  cases o <;> rfl
theorem State.kcmd_loadWrapped (s : State) : s.kcmd 2 = s.keyDone s.keyHidden.loadWrapped := by
  simp only [State.kcmd, State.keyHidden, show fld (2 : Word) 2 0 = 2 from rfl]
  generalize State.loadWrapped _ = o
  cases o <;> rfl
theorem State.kcmd_wrapOut (s : State) : s.kcmd 3 = s.keyDone s.wrapOut := by
  simp only [State.kcmd, show fld (3 : Word) 2 0 = 3 from rfl]
  generalize State.wrapOut _ = o
  cases o <;> rfl
theorem State.kcmd_erase (s : State) : s.kcmd 4 = (s.keyHidden.keyErase, .ok 0) := by
  simp only [State.kcmd, State.keyHidden, show fld (4 : Word) 2 0 = 4 from rfl]
theorem State.kcmd_extend (s : State) : s.kcmd 5 = s.keyDone s.keyHidden.keyExtend := by
  simp only [State.kcmd, State.keyHidden, show fld (5 : Word) 2 0 = 5 from rfl]
  generalize State.keyExtend _ = o
  cases o <;> rfl

/-- A key slot read after one was written. -/
theorem State.keySlot_setKeySlot (s : State) (k j : Nat) (x : KeySlot) : (s.setKeySlot k x).keySlot j = if j = k then x else s.keySlot j :=
  Sparse.get_write _ _ _ _ _

theorem State.keySlot_congr {s t : State} (h : t.sealEng.slots = s.sealEng.slots) (k : Nat) : t.keySlot k = s.keySlot k := by
  rw [State.keySlot, State.keySlot, h]

/-- KDATA written word by word: each of the first ten reads as it was written. -/
theorem State.reg_foldl_kdata (f : Nat → Word) {m i : Nat} (hm : m ≤ 10) (hi : i < 10) (s : State) :
    ((List.range m).foldl (fun t j => t.setReg 0x030 (0x1120 + 4 * j) (f j)) s).reg 0x030 (0x1120 + 4 * i)
      = if i < m then f i else s.reg 0x030 (0x1120 + 4 * i) := by
  induction m with
  | zero => simp
  | succ m ih =>
    rw [List.range_succ, List.foldl_append, List.foldl_cons, List.foldl_nil,
      State.reg_setReg _ _ (by decide) (by decide) (by omega) (by omega), ih (by omega)]
    by_cases him : i = m
    · subst him
      simp
    · rw [if_neg (by omega)]
      by_cases hlt : i < m
      · rw [if_pos hlt, if_pos (by omega)]
      · rw [if_neg hlt, if_neg (by omega)]

theorem State.kdata_setKdata (s : State) (ws : List Word) (shown : Bool) {i : Nat} (hi : i < 10) :
    (s.setKdata ws shown).kdata i = ws.getD i 0 := by
  rw [State.kdata, State.sreg, State.setKdata, State.modSeal_reg]
  exact (s.reg_foldl_kdata (fun j => ws.getD j 0) (Nat.le_refl 10) hi).trans (if_pos hi)

/-- KDATA touches the registers and whether it is shown. -/
theorem State.setKdata_sealEng (s : State) (ws : List Word) (shown : Bool) : (s.setKdata ws shown).sealEng = { s.sealEng with shown := shown } := by
  rw [State.setKdata, State.modSeal_sealEng, State.foldl_keeps State.sealEng (fun _ _ => State.setReg_sealEng _ _ _ _)]

section
variable (s : State)

/-- What LOAD_CLEAR puts into the selected slot (Table 14-2). -/
def State.clearKey : KeySlot :=
  { key := ((List.range 4).map (fun i => toBytes 4 (s.kdata i).toNat)).flatten, pairid := fld (s.kdata 4) 15 0, seq := (s.kdata 5).toNat
    limit := (s.kdata 5).toNat + 65536, valid := true, armed := false }

theorem State.loadClear_loads (hid : fld (s.kdata 4) 15 0 ≠ 0) (hheld : s.pairHeld s.ksel (fld (s.kdata 4) 15 0) = false)
    (hseq : (s.kdata 5).toNat ≤ 0xFFFEFFFF) : s.keyHidden.loadClear = some ((s.keyHidden.setKeySlot s.ksel s.clearKey).setKdata [] false) :=
  if_neg (by rintro (h | h | h)
             · exact hid h
             · exact absurd (hheld.symm.trans h) (by decide)
             · exact Nat.not_lt.mpr hseq h)

theorem State.loadClear_noPair (hid : fld (s.kdata 4) 15 0 = 0) : s.keyHidden.loadClear = none := if_pos (.inl hid)

/-- What LOAD_WRAPPED does with the ten words of KDATA (R437). -/
theorem State.keyDone_loadWrapped : s.keyDone s.keyHidden.loadWrapped
    = match keyUnwrap wrapKey ((List.range 10).map (fun i => toBytes 4 (s.kdata i).toNat)).flatten with
      | some p => if s.pairHeld s.ksel (frameVal p 16 2) = true ∨ 0xFFFEFFFF < frameVal p 20 4 then (s, .err busErr)
        else ((s.keyHidden.setKeySlot s.ksel { key := p.take 16, pairid := frameVal p 16 2, seq := frameVal p 20 4
                                               limit := frameVal p 20 4 + 65536, valid := true, armed := false }).setKdata [] false, .ok 0)
      | none => (s, .err busErr) := by
  have hkdata : ∀ i, s.keyHidden.kdata i = s.kdata i := fun _ => rfl
  have hksel : s.keyHidden.ksel = s.ksel := rfl
  have hheld : ∀ k id, s.keyHidden.pairHeld k id = s.pairHeld k id := fun _ _ => rfl
  simp only [State.loadWrapped, hkdata]
  generalize keyUnwrap wrapKey _ = o
  cases o with
  | none => rfl
  | some p =>
    simp only [Option.bind_some, State.loadRecord, hksel, hheld]
    split <;> rfl

theorem State.wrapOut_valid (hvalid : (s.keySlot s.ksel).valid = true) : s.wrapOut
    = some ((s.setKeySlot s.ksel { s.keySlot s.ksel with armed := true }).setKdata
        ((List.range 10).map (fun i => BitVec.ofNat 32 (frameVal (s.keySlot s.ksel).wrapped (4 * i) 4))) true) := by
  simp [State.wrapOut, hvalid]

theorem State.wrapOut_invalid (hvalid : (s.keySlot s.ksel).valid = false) : s.wrapOut = none := by
  simp [State.wrapOut, hvalid]

theorem State.keyExtend_valid (hvalid : (s.keySlot s.ksel).valid = true) (hlimit : (s.keySlot s.ksel).limit ≤ 0xFFFEFFFF) : s.keyHidden.keyExtend
    = some (s.keyHidden.setKeySlot s.ksel { s.keySlot s.ksel with limit := (s.keySlot s.ksel).limit + 65536, armed := false }) := by
  have hslot : s.keyHidden.keySlot s.keyHidden.ksel = s.keySlot s.ksel := rfl
  simp only [State.keyExtend, hslot]
  rw [if_neg (by simp [hvalid, hlimit])]
  rfl

end

/-! A job (R440, R441). -/

/-- The engine without the job at the head of its queue. -/
def State.jobTaken (s : State) (rest : List Nat) : State := s.modSeal (fun e => { e with jobs := rest })

/-- The work on a job whose 48 bytes at a were read without an error (R440). -/
def State.sealJob (s : State) (a : Nat) (b : List Byte) : State :=
  let k := frameByte b 0x24
  let x := s.keySlot k
  let dest := frameVal b 0x20 4 * 16
  let flags := frameByte b 0x25
  if !x.valid || !x.armed then s.jobEnd a flags 1 0
  else if x.seq = x.limit then s.jobEnd a flags 2 0
  else if !jobValid b then s.jobEnd a flags 3 0
  else if !s.sealMay dest 40 true then (s.raise 45).jobEnd a flags 4 0
  else
    let w := s.masterStore dest (s.sealFrame x b)
    if w.2 then (w.1.raise 45).jobEnd a flags 4 0
    else (w.1.setKeySlot k { x with seq := x.seq + 1 }).jobEnd a flags 0 x.seq

theorem State.sealRun_job {s : State} {a : Nat} {rest : List Nat} (hjobs : s.sealEng.jobs = a :: rest)
    (hmay : (s.jobTaken rest).sealMay a 48 false = true) (hsound : s.isDamaged a 48 = false) :
    s.sealRun = (s.jobTaken rest).sealJob a (s.mem.read a 48) := by
  have hread : (s.jobTaken rest).masterRead a 48 = (s.jobTaken rest, s.mem.read a 48, false) := by
    rw [State.masterRead]
    exact if_neg (Bool.eq_false_iff.mp hsound)
  unfold State.sealRun
  rw [hjobs]
  dsimp only
  rw [← State.jobTaken, hmay, hread]
  rfl

section
variable {s : State} {a : Nat} {b : List Byte}

theorem State.sealJob_noKey (h : (s.keySlot (frameByte b 0x24)).valid = false ∨ (s.keySlot (frameByte b 0x24)).armed = false) :
    s.sealJob a b = s.jobEnd a (frameByte b 0x25) 1 0 := if_pos (by rcases h with h | h <;> simp [h])

variable (hvalid : (s.keySlot (frameByte b 0x24)).valid = true) (harmed : (s.keySlot (frameByte b 0x24)).armed = true)
include hvalid harmed

theorem State.sealJob_spent (hseq : (s.keySlot (frameByte b 0x24)).seq = (s.keySlot (frameByte b 0x24)).limit) :
    s.sealJob a b = s.jobEnd a (frameByte b 0x25) 2 0 := by
  simp [State.sealJob, hvalid, harmed, hseq]

variable (hseq : (s.keySlot (frameByte b 0x24)).seq ≠ (s.keySlot (frameByte b 0x24)).limit)
include hseq

theorem State.sealJob_malformed (hjob : jobValid b = false) : s.sealJob a b = s.jobEnd a (frameByte b 0x25) 3 0 := by
  simp [State.sealJob, hvalid, harmed, hseq, hjob]

theorem State.sealJob_seals (hjob : jobValid b = true) (hmay : s.sealMay (frameVal b 0x20 4 * 16) 40 true = true)
    (hstored : (s.masterStore (frameVal b 0x20 4 * 16) (s.sealFrame (s.keySlot (frameByte b 0x24)) b)).2 = false) :
    s.sealJob a b = (((s.masterStore (frameVal b 0x20 4 * 16) (s.sealFrame (s.keySlot (frameByte b 0x24)) b)).1.setKeySlot (frameByte b 0x24)
      { s.keySlot (frameByte b 0x24) with seq := (s.keySlot (frameByte b 0x24)).seq + 1 }).jobEnd a (frameByte b 0x25) 0
        (s.keySlot (frameByte b 0x24)).seq) := by
  simp [State.sealJob, hvalid, harmed, hseq, hjob, hmay, hstored]

end

end Sys2Proof.Machine

namespace Sys2Proof.Machine

/-! The end of a seal job (R440 step 6): its counts, and what it writes back to its descriptor. -/

/-- Shared SRAM lies where Table 1-4 puts it. -/
theorem State.place_sram_iff (s : State) (pa : Nat) : s.place pa = .sram ↔ 0x1000000 ≤ pa ∧ pa < 0x1800000 := by
  unfold State.place
  split_ifs <;> simp <;> omega

/-- A write into shared SRAM is a write of memory. -/
theorem State.masterStore_sram {s : State} {pa : Nat} (hplace : s.place pa = .sram) (bs : List Byte) :
    s.masterStore pa bs = (s.masterWriteMem pa bs, false) := by
  rw [State.masterStore, hplace]

/-- The colour that a master's access to shared SRAM meets is that of memory. -/
theorem State.masterColour_sram {s : State} {pa : Nat} (hplace : s.place pa = .sram) :
    s.masterColour pa = some (s.mem.colourOf (pa / 256 * 256)) := by
  simp only [State.masterColour, State.granule, hplace]
  rfl

/-- What the seal DMA may access in shared SRAM rests on its regions and on the colours of memory. -/
theorem State.sealMay_congr {s t : State} {pa n : Nat} {write : Bool} (hplace : s.place pa = .sram)
    (hregs : ∀ o, o < 0x10000 → t.reg 0x004 o = s.reg 0x004 o) (hmem : t.mem = s.mem) : t.sealMay pa n write = s.sealMay pa n write := by
  have hplace' : t.place pa = .sram := (t.place_sram_iff pa).mpr ((s.place_sram_iff pa).mp hplace)
  have hregion : ∀ k ∈ List.range 8, t.mregion 2 k = s.mregion 2 k := by
    intro k hk
    have hk8 := List.mem_range.mp hk
    simp only [State.mregion, show 2 + 2 = 0x004 from rfl, hregs _ (show 0x1000 + 16 * k < 0x10000 by omega),
      hregs _ (show 0x1004 + 16 * k < 0x10000 by omega), hregs _ (show 0x1008 + 16 * k < 0x10000 by omega)]
  have hallows : t.masterAllows 2 pa n write = s.masterAllows 2 pa n write := by
    rw [Bool.eq_iff_iff, State.masterAllows, State.masterAllows, List.any_eq_true, List.any_eq_true]
    refine exists_congr fun k => and_congr_right fun hk => ?_
    rw [hregion k hk, State.masterColour_sram hplace, State.masterColour_sram hplace', hmem]
  rw [State.sealMay, State.sealMay, hallows, hplace, hplace']

section
variable (s : State)

/-- The counts of a job touch the registers of slot 0x030 alone. -/
theorem State.jobCount_reg (st : Nat) {a o : Nat} (ha : a < 0x1000) (ho : o < 0x10000) (hne : a ≠ 0x030) :
    (s.jobCount st).reg a o = s.reg a o := by
  unfold State.jobCount
  split <;> simp (disch := first | assumption | decide) [State.reg_modReg, hne]

@[simp] theorem State.jobCount_mem (st : Nat) : (s.jobCount st).mem = s.mem := by
  unfold State.jobCount
  split <;> simp
@[simp] theorem State.jobCount_sealEng (st : Nat) : (s.jobCount st).sealEng = s.sealEng := by
  unfold State.jobCount
  split <;> simp

/-- A job is counted by its status (R440 step 6). -/
theorem State.jobCount_counts (st : Nat) : (s.jobCount st).reg 0x030 (if st = 0 then 0x1008 else 0x100C)
    = s.reg 0x030 (if st = 0 then 0x1008 else 0x100C) + 1 := by
  unfold State.jobCount
  split <;> simp (disch := decide) [State.reg_modReg]

/-- A refusal stands in LASTERR. -/
theorem State.jobCount_lasterr {st : Nat} (h : st ≠ 0) (hst : st < 256) : fld ((s.jobCount st).reg 0x030 0x1000) 7 0 = st := by
  rw [State.jobCount, if_neg h, State.reg_modReg_self, fld_setFld_self _ _ _ _ (by decide) (by decide)]
  exact Nat.mod_eq_of_lt hst

end

/-- Whether a range of shared SRAM holds an error rests on memory. -/
theorem State.isDamaged_sram {s t : State} {pa : Nat} (hmem : t.mem = s.mem) (hplace : s.place pa = .sram) (n : Nat) :
    t.isDamaged pa n = s.isDamaged pa n := by
  have hplace' : t.place pa = .sram := (t.place_sram_iff pa).mpr ((s.place_sram_iff pa).mp hplace)
  simp only [State.isDamaged, hmem, hplace, hplace']

/-- A write of memory damages no unit. -/
theorem State.masterWriteMem_mergeFails {s : State} {pa : Nat} {bs : List Byte} {p n : Nat} (h : s.mergeFails p n = false) :
    (s.masterWriteMem pa bs).mergeFails p n = false := by
  have hplace : (s.masterWriteMem pa bs).place p = s.place p := by
    obtain ⟨m, hm⟩ := (s.dropCopies pa bs.length).memWrite_eq pa bs
    rw [State.masterWriteMem, hm]
    rfl
  rw [State.mergeFails, List.any_eq_false] at h ⊢
  intro x hx
  rw [State.mem_units_iff, hplace] at hx
  have hx' := h x (s.mem_units_iff.mpr hx)
  rw [hplace]
  by_cases hd : Sparse.get false x s.mem.damaged = true
  · rw [hd] at hx'
    intro hbad
    exact hx' (by simpa using (Bool.and_eq_true_iff.mp hbad).2)
  · have hsound : Sparse.get false x (s.masterWriteMem pa bs).mem.damaged = false := by
      rw [State.masterWriteMem, State.memWrite_foldl]
      exact State.foldl_writeUnit_damaged _ _ (s.dropCopies pa bs.length) (Bool.not_eq_true _ ▸ hd)
    simp [hsound]

/-- What a job writes back to its descriptor: JSTAT and SEQOUT (R440 step 6). -/
def State.jobWritten (s : State) (a st seq : Nat) : State :=
  (s.masterWriteMem (a + 0x26) (toBytes 1 st)).masterWriteMem (a + 0x28) (toBytes 4 seq)

section
variable {s : State} {a : Nat} (hmay : s.sealMay (a + 0x26) 6 true = true) (hstat : s.place (a + 0x26) = .sram) (hseq : s.place (a + 0x28) = .sram)

include hmay hstat hseq in
/-- The end of a job whose descriptor the engine may write: its counts, its write-back, and IRQ47 where FLAGS ask for it. -/
theorem State.jobEnd_written (flags st seq : Nat) : s.jobEnd a flags st seq
    = if flags % 2 = 1 then ((s.jobCount st).jobWritten a st seq).raise 47 else (s.jobCount st).jobWritten a st seq := by
  have hmay' : (s.jobCount st).sealMay (a + 0x26) 6 true = true := by
    rw [State.sealMay_congr hstat (fun o ho => s.jobCount_reg st (by decide) ho (by decide)) (s.jobCount_mem st), hmay]
  have hstat' := (State.place_sram_iff (s.jobCount st) _).mpr ((s.place_sram_iff _).mp hstat)
  have hseq' : ∀ t : State, t.place (a + 0x28) = .sram := fun t => (t.place_sram_iff _).mpr ((s.place_sram_iff _).mp hseq)
  simp only [State.jobEnd, hmay', if_true, State.masterStore_sram hstat', State.masterStore_sram (hseq' _), State.jobWritten]

end

section
variable {s : State} {a st seq : Nat}

@[simp] theorem State.jobWritten_reg (p o : Nat) : (s.jobWritten a st seq).reg p o = s.reg p o := by simp [State.jobWritten]
@[simp] theorem State.jobWritten_sealEng : (s.jobWritten a st seq).sealEng = s.sealEng := by simp [State.jobWritten]

variable (hstat : s.place (a + 0x26) = .sram) (hsound : s.isDamaged (a + 0x20) 16 = false) (haligned : a % 16 = 0)
include hstat hsound haligned

theorem State.descriptor_takes : s.mergeFails (a + 0x26) 1 = false ∧ s.mergeFails (a + 0x28) 4 = false := by
  have hin := (s.place_sram_iff _).mp hstat
  have hsram : ∀ k, k < 16 → s.place (a + 0x20 + k) = .sram := fun k hk => (s.place_sram_iff _).mpr (by omega)
  constructor
  · exact State.mergeFails_of_sound hsound (by omega) (by omega) (by rw [hstat, hsram 0 (by decide)])
  · exact State.mergeFails_of_sound hsound (by omega) (by omega) (by rw [hsram 8 (by decide), hsram 0 (by decide)])

/-- JSTAT and SEQOUT stand in the descriptor, and no other byte changes. -/
theorem State.jobWritten_mem (hst : st < 256) (hq : seq < 2 ^ 32) : (s.jobWritten a st seq).mem.val (a + 0x26) 1 = st
    ∧ (s.jobWritten a st seq).mem.val (a + 0x28) 4 = seq
    ∧ ∀ p, p ≠ a + 0x26 → (p < a + 0x28 ∨ a + 0x2C ≤ p) → (s.jobWritten a st seq).mem.byte p = s.mem.byte p := by
  have hin := (s.place_sram_iff _).mp hstat
  obtain ⟨htakes, htakes'⟩ := State.descriptor_takes hstat hsound haligned
  have hfirst : s.mergeFails (a + 0x26) (toBytes 1 st).length = false := by rwa [toBytes_len]
  have hsecond : (s.masterWriteMem (a + 0x26) (toBytes 1 st)).mergeFails (a + 0x28) (toBytes 4 seq).length = false := by
    rw [toBytes_len]
    exact State.masterWriteMem_mergeFails htakes'
  have hlater : ∀ p, (p < a + 0x28 ∨ a + 0x2C ≤ p) →
      (s.jobWritten a st seq).mem.byte p = (s.masterWriteMem (a + 0x26) (toBytes 1 st)).mem.byte p :=
    fun p hp => State.masterWriteMem_byte_outside hsecond (by rw [toBytes_len]; omega)
  refine ⟨Mem.holds.val (fun i hi => ?_) hst, (State.masterWriteMem_holds hsecond (by omega)).val hq, fun p hne hp => ?_⟩
  · rw [toBytes_len] at hi
    rw [hlater _ (by omega)]
    exact State.masterWriteMem_holds hfirst (by omega) i (by rwa [toBytes_len])
  · rw [hlater p hp]
    exact State.masterWriteMem_byte_outside hfirst (by rw [toBytes_len]; omega)

end

/-- WRAP_OUT arms the slot and shows its wrapped record in KDATA (R438). -/
theorem State.wrapOut_shows (s : State) (hvalid : (s.keySlot s.ksel).valid = true) : ∃ t, s.wrapOut = some t
    ∧ t.keySlot s.ksel = { s.keySlot s.ksel with armed := true } ∧ t.sealEng.shown = true
    ∧ ∀ i, i < 10 → t.kdata i = BitVec.ofNat 32 (frameVal (s.keySlot s.ksel).wrapped (4 * i) 4) := by
  refine ⟨_, s.wrapOut_valid hvalid, ?_, ?_, fun i hi => ?_⟩
  · generalize (List.range 10).map _ = ws
    rw [State.keySlot, State.setKdata_sealEng]
    exact (s.keySlot_setKeySlot _ _ _).trans (if_pos rfl)
  · rw [State.setKdata_sealEng]
  · rw [State.kdata_setKdata _ _ _ hi]
    simp [hi]

/-- Settles O39: command by command of KCMD, then the job by what its descriptor and its slot hold, then its end. -/
theorem sealEngineCommanded : Obligations.SealEngineCommanded := by
  refine ⟨fun s q v => ?commands, fun s a flags seq st hst hq hmay hstat hplace hsound haligned => ?ends⟩
  case commands =>
    intro k x hidden refused
    refine ⟨fun hadmits => ⟨?clear, ?noPair, ?wrapped, ?out, ?noKey, ?erase, ?extend⟩, ?submit, ?full, ?idle, ?job⟩
    case clear =>
      rintro id seq rfl rfl hid hheld hseq
      exact regWrite_seal hadmits (by decide) rfl
        ((s.sealWrite_kcmd 1).trans (s.kcmd_loadClear.trans (congrArg s.keyDone (s.loadClear_loads hid hheld hseq))))
    case noPair =>
      intro hid
      exact ⟨_, regWrite_sealRefuses hadmits (by decide) rfl
        ((s.sealWrite_kcmd 1).trans (s.kcmd_loadClear.trans (congrArg s.keyDone (s.loadClear_noPair hid)))), rfl, rfl⟩
    case wrapped =>
      have hcmd := (s.sealWrite_kcmd 2).trans (s.kcmd_loadWrapped.trans s.keyDone_loadWrapped)
      show exec (.loadWrapped q) s = .next (match keyUnwrap wrapKey (((List.range 10).map (fun i => toBytes 4 (s.kdata i).toNat)).flatten) with
        | some p => _
        | none => _)
      generalize keyUnwrap wrapKey _ = o at hcmd ⊢
      cases o with
      | none => exact regWrite_sealRefuses hadmits (by decide) rfl hcmd
      | some p =>
        by_cases hfit : s.pairHeld s.ksel (frameVal p 16 2) = true ∨ 0xFFFEFFFF < frameVal p 20 4
        · exact (regWrite_sealRefuses hadmits (by decide) rfl (hcmd.trans (if_pos hfit))).trans (congrArg Host.Outcome.next (if_pos hfit).symm)
        · exact (regWrite_seal hadmits (by decide) rfl (hcmd.trans (if_neg hfit))).trans (congrArg Host.Outcome.next (if_neg hfit).symm)
    case out =>
      intro hvalid
      obtain ⟨t, hout, hslot, hshown, hkdata⟩ := s.wrapOut_shows hvalid
      exact ⟨t.done, regWrite_seal hadmits (by decide) rfl ((s.sealWrite_kcmd 3).trans (s.kcmd_wrapOut.trans (congrArg s.keyDone hout))),
        hslot, hshown, rfl, hkdata⟩
    case noKey =>
      intro hvalid
      exact ⟨_, regWrite_sealRefuses hadmits (by decide) rfl
        ((s.sealWrite_kcmd 3).trans (s.kcmd_wrapOut.trans (congrArg s.keyDone (s.wrapOut_invalid hvalid)))), rfl, rfl⟩
    case erase => exact regWrite_seal hadmits (by decide) rfl ((s.sealWrite_kcmd 4).trans s.kcmd_erase)
    case extend =>
      intro hvalid hlimit
      exact regWrite_seal hadmits (by decide) rfl
        ((s.sealWrite_kcmd 5).trans (s.kcmd_extend.trans (congrArg s.keyDone (s.keyExtend_valid hvalid hlimit))))
    case submit =>
      intro hadmits hroom
      exact regWrite_seal hadmits (by decide) rfl (if_neg (Nat.not_le.mpr hroom))
    case full =>
      intro hadmits hfull
      exact regWrite_sealRefuses hadmits (by decide) rfl (if_pos hfull)
    case idle =>
      intro hjobs
      refine congrArg Host.Outcome.next ?_
      rw [State.sealRun, hjobs]
    case job =>
      intro a r hjobs s0 b y dest hmay hsound
      have hrun : exec .sealJobRun s = .next ((s.jobTaken r).sealJob a (s.mem.read a 48)) :=
        congrArg Host.Outcome.next (State.sealRun_job hjobs hmay hsound)
      refine ⟨fun h => ?_, fun hvalid harmed hseq => ?_, fun hvalid harmed hseq hjob => ?_, fun hvalid harmed hseq hjob hdest hstored => ?_⟩
      · exact hrun.trans (congrArg Host.Outcome.next (State.sealJob_noKey h))
      · exact hrun.trans (congrArg Host.Outcome.next (State.sealJob_spent hvalid harmed hseq))
      · exact hrun.trans (congrArg Host.Outcome.next (State.sealJob_malformed hvalid harmed hseq hjob))
      · exact hrun.trans (congrArg Host.Outcome.next (State.sealJob_seals hvalid harmed hseq hjob hdest hstored))
  case ends =>
    intro t
    have hsram : ∀ p, s.place p = .sram → (s.jobCount st).place p = .sram := fun p hp => (State.place_sram_iff _ p).mpr ((s.place_sram_iff p).mp hp)
    have hsound' : (s.jobCount st).isDamaged (a + 0x20) 16 = false :=
      (State.isDamaged_sram (s.jobCount_mem st) ((s.place_sram_iff _).mpr (by have := (s.place_sram_iff _).mp hstat; omega)) 16).trans hsound
    obtain ⟨hjstat, hseqOut, houtside⟩ := State.jobWritten_mem (hsram _ hstat) hsound' haligned hst hq
    have hframe : t.reg 0x030 = ((s.jobCount st).reg 0x030) ∧ t.mem = ((s.jobCount st).jobWritten a st seq).mem ∧ t.sealEng = s.sealEng := by
      rw [show t = _ from State.jobEnd_written hmay hstat hplace flags st seq]
      split <;> refine ⟨?_, ?_, ?_⟩ <;> first | (funext o; simp) | simp
    obtain ⟨hreg, hmem, hseal⟩ := hframe
    rw [hreg, hmem]
    exact ⟨s.jobCount_counts st, fun h => s.jobCount_lasterr h hst, hjstat, hseqOut, fun p hne hp => (houtside p hne hp).trans (by rw [s.jobCount_mem]), hseal⟩

end Sys2Proof.Machine

namespace Sys2Proof.Machine

/-! The journal (R448 to R450, R453, R454). A JOURNAL_EXPORT in one step and an acknowledgement that moves JEXPSEQ whatever becomes of its record are the model's
choices (log 30). -/

section
variable {s : State}

/-- A write of JEXPSEQ that takes: any before JLOCK, afterwards one that moves forward and not past JNEXT (R449). -/
theorem State.jexpWrite_takes {v : Word} (h : bit (s.reg 0x030 0x1204) 0 = true → s.reg 0x030 0x120C < v ∧ v ≤ s.reg 0x030 0x1208) :
    s.jexpWrite v = (s.setReg 0x030 0x120C v, .ok 0) := by
  refine if_neg fun hbad => ?_
  obtain ⟨hlocked, hback⟩ := Bool.and_eq_true_iff.mp hbad
  obtain ⟨hlo, hhi⟩ := h hlocked
  have hlo' : s.jexpseq < v := hlo
  have hhi' : v ≤ s.jnext := hhi
  simp [hlo', hhi'] at hback

theorem State.jexpWrite_refused {v : Word} (hlocked : bit (s.reg 0x030 0x1204) 0 = true)
    (h : v ≤ s.reg 0x030 0x120C ∨ s.reg 0x030 0x1208 < v) : s.jexpWrite v = (s, .err busErr) := by
  refine if_pos (Bool.and_eq_true_iff.mpr ⟨hlocked, ?_⟩)
  have hback : v ≤ s.jexpseq ∨ s.jnext < v := h
  rw [Bool.not_eq_true', Bool.and_eq_false_iff, decide_eq_false_iff_not, decide_eq_false_iff_not, BitVec.not_lt, BitVec.not_le]
  exact hback

/-- The bank that programs the journal's lines. -/
def State.journalBank (s : State) : Nat := (s.journalBase - 0x8000000) / 0x100000 % 4

theorem State.journalCheck_waits (h : s.sealEng.gather.length < 64) : s.journalCheck = s :=
  if_pos (by simp [bne_iff_ne, Nat.ne_of_lt h])

/-- A bank that programs a line for the engine, and JNEXT after it. -/
def State.linePrograms (s : State) (bank : Nat) (p : Prog) (next : Word) : State :=
  let t := s.setReg 0x030 0x1208 next
  ({ t with mem := { t.mem with progs := vset t.mem.progs bank (some p) } }).modSeal (fun e => { e with busy := true })

/-- The line that is programmed where it is the next record. -/
def State.journalProgrammed (s : State) : State :=
  ((s.modSeal (fun e => { e with gather := [] })).memWrite (s.journalLine s.jnext.toNat) (s.sealEng.gather.map (·.2))).linePrograms s.journalBank
    { line := s.journalLine s.jnext.toNat, mask := BitVec.allOnes 64, who := .seal, old := s.mem.read (s.journalLine s.jnext.toNat) 64 } (s.jnext + 1)

theorem State.linePrograms_jnext (s : State) (bank : Nat) (p : Prog) (next : Word) : (s.linePrograms bank p next).reg 0x030 0x1208 = next :=
  (State.regW_congr (s := s.setReg 0x030 0x1208 next) (w := .trade) rfl).trans (s.reg_setReg_self _ _ _)
theorem State.linePrograms_prog (s : State) {bank : Nat} (hbank : bank < 4) (p : Prog) (next : Word) :
    vget (s.linePrograms bank p next).mem.progs bank none = some p := (vget_vset _ _ _ _ _ hbank).trans (if_pos rfl)
theorem State.linePrograms_bytes (s : State) (bank : Nat) (p : Prog) (next : Word) : (s.linePrograms bank p next).mem.bytes = s.mem.bytes := rfl
theorem State.linePrograms_sealEng (s : State) (bank : Nat) (p : Prog) (next : Word) :
    (s.linePrograms bank p next).sealEng = { s.sealEng with busy := true } := rfl

variable (hlocked : bit (s.reg 0x030 0x1204) 0 = true) (hfull : s.sealEng.gather.length = 64) (hbank : vget s.mem.progs s.journalBank none = none)
include hlocked hfull hbank

/-- The check of a full buffer while the bank is free (R450). -/
theorem State.journalCheck_full : s.journalCheck
    = if ofBytes ((s.sealEng.gather.map (·.2)).take 4) = s.jnext.toNat ∧ (s.jnext - s.jexpseq).toNat < 16384 then s.journalProgrammed
      else (s.modSeal (fun e => { e with gather := [] })).journalRefuse (s.journalLine s.jnext.toNat) := by
  have hlocked' : s.jlocked = true := hlocked
  rw [State.journalBank] at hbank
  unfold State.journalCheck
  rw [if_neg (by simp [hlocked', hfull, hbank])]
  rfl

end

section
variable (s : State)

/-- A JOURNAL_EXPORT that fails ends its command with its reason (R453). -/
theorem State.exportStep_fails {k : Grant} {r : Nat} (hgranted : s.dict.granted .trade = some (3, k)) (hbad : s.exportOf (s.dict.cmd 3).arg = .error r) :
    s.exportStep = s.stepDone .trade (BitVec.ofNat 32 (1 + r * 2 ^ 16)) := by
  unfold State.exportStep
  simp only [hgranted, hbad]

/-- A JOURNAL_EXPORT whose one step ends DONE gives its result and is kept (R453). -/
def State.exportKept (s : State) (e : Export) (res : List Byte) : State :=
  { (s.modDict (fun d => d.setCmd 3 { d.cmd 3 with result := res })).modSeal (fun x => { x with exported := some e }) with free := s.free + 1 }

theorem State.exportStep_done {k : Grant} {e : Export} {res : List Byte} (hgranted : s.dict.granted .trade = some (3, k))
    (hmade : s.exportOf (s.dict.cmd 3).arg = .ok (e, res)) (hdone : (((s.stepN .trade 1).stepDone .trade 0).dict.cmd 3).st = 2) :
    s.exportStep = ((s.stepN .trade 1).stepDone .trade 0).exportKept e res := by
  unfold State.exportStep
  simp only [hgranted, hmade]
  exact if_pos hdone

theorem State.exportKept_onlyIn (e : Export) (res : List Byte) : s.onlyIn (s.exportKept e res) [.dict, .sealEng, .free] := by
  intro p hp
  cases p <;> simp [State.exportKept, State.agrees] at hp ⊢

/-- An acknowledgement through record v of the JOURNAL_EXPORT that is kept (R454). -/
theorem State.exportAck_taken {e : Export} {v : Word} (hkept : s.sealEng.exported = some e) (hlo : e.first ≤ v.toNat) (hhi : v.toNat < e.first + e.count)
    (hforward : s.jexpseq ≤ v) : s.exportAck v
      = ((s.journalAppend 11 0 0xFF (toBytes 4 v.toNat ++ toBytes 4 (v.toNat + 1))).jexpWrite (v + 1)).1.tradeAnswer 0x801201 0 := by
  simp [State.exportAck, hkept, hlo, hhi, hforward]

end

/-- Settles O40: the two registers of the guard, then the line buffer's check, then the JOURNAL_EXPORT and its acknowledgement. -/
theorem journalKept : Obligations.JournalKept := by
  intro s q v jnext jexp locked bank bs line emptied
  refine ⟨fun hadmits => ?_, fun hadmits h => ?_, fun hadmits hlocked h => ?_, fun h => ?_, fun hlocked hfull hbank hbad => ?_,
    fun hlocked hfull hbank hseq hroom => ?_, fun k r hgranted hbad => ?_, fun k e res hgranted hmade => ?_,
    fun e hkept hlo hhi hforward => ?_, fun hnone => ?_⟩
  · exact regWrite_seal hadmits (by decide) rfl rfl
  · exact regWrite_seal hadmits (by decide) rfl (State.jexpWrite_takes h)
  · exact regWrite_sealRefuses hadmits (by decide) rfl (State.jexpWrite_refused hlocked h)
  · exact congrArg Host.Outcome.next (State.journalCheck_waits h)
  · refine congrArg Host.Outcome.next ((State.journalCheck_full hlocked hfull hbank).trans (if_neg fun ⟨hseq, hroom⟩ => ?_))
    exact hbad.elim (fun h => h hseq) (fun h => absurd hroom (Nat.not_lt.mpr h))
  · refine ⟨s.journalProgrammed, congrArg Host.Outcome.next ((State.journalCheck_full hlocked hfull hbank).trans (if_pos ⟨hseq, hroom⟩)),
      State.linePrograms_jnext _ _ _ _, ?_, ?_, State.linePrograms_prog _ (Nat.mod_lt _ (by decide)) _ _, State.linePrograms_bytes _ _ _ _⟩
    · rw [State.journalProgrammed, State.linePrograms_sealEng, State.memWrite_sealEng, State.modSeal_sealEng]
    · rw [State.journalProgrammed, State.linePrograms_sealEng]
  · exact congrArg Host.Outcome.next (s.exportStep_fails hgranted hbad)
  · intro s1 hdone
    refine ⟨s1.exportKept e res, congrArg Host.Outcome.next (s.exportStep_done hgranted hmade hdone), rfl, ?_, s1.exportKept_onlyIn e res⟩
    exact congrArg Cmd.result (s1.dict.cmd_setCmd (by decide) _)
  · exact congrArg Host.Outcome.next (s.exportAck_taken hkept hlo hhi hforward)
  · refine congrArg Host.Outcome.next ?_
    simp [State.exportAck, hnone]

end Sys2Proof.Machine

namespace Sys2Proof.Machine

/-! Pairing (R446, R447). That the whole exchange is one row, and that the new PAIRID is open, are the model's choices (log 29). -/

/-- Bytes are those of their value. -/
theorem toBytes_ofBytes (l : List Byte) : toBytes l.length (ofBytes l) = l := by
  induction l with
  | nil => rfl
  | cons b l ih =>
    have hb : b.toNat < 256 := b.isLt
    rw [List.length_cons, toBytes, ofBytes, show (b.toNat + 256 * ofBytes l) / 256 = ofBytes l by omega, ih,
      BitVec.eq_of_toNat_eq (x := BitVec.ofNat 8 (b.toNat + 256 * ofBytes l)) (y := b) (by rw [BitVec.toNat_ofNat]; omega)]

/-- A key cut into the four words that KDATA takes, put together again. -/
theorem key_of_words {key : List Byte} (hlen : key.length = 16) :
    ((List.range 4).map (fun i => toBytes 4 (BitVec.ofNat 32 (frameVal key (4 * i) 4)).toNat)).flatten = key := by
  have hword : ∀ i, i < 4 → toBytes 4 (BitVec.ofNat 32 (frameVal key (4 * i) 4)).toNat = (key.drop (4 * i)).take 4 := by
    intro i hi
    have hfour : ((key.drop (4 * i)).take 4).length = 4 := by simp; omega
    have hlt := ofBytes_lt ((key.drop (4 * i)).take 4)
    rw [hfour] at hlt
    rw [BitVec.toNat_ofNat, frameVal, show (2 : Nat) ^ 32 = 256 ^ 4 by decide, Nat.mod_eq_of_lt hlt]
    have hbytes := toBytes_ofBytes ((key.drop (4 * i)).take 4)
    rwa [hfour] at hbytes
  have htail : (key.drop 12).take 4 = key.drop 12 := List.take_of_length_le (by simp; omega)
  rw [show List.range 4 = [0, 1, 2, 3] from rfl]
  simp only [List.map_cons, List.map_nil, List.flatten_cons, List.flatten_nil, hword 0 (by decide), hword 1 (by decide), hword 2 (by decide),
    hword 3 (by decide), List.append_nil, Nat.mul_zero, Nat.mul_one, Nat.reduceMul, List.drop_zero, htail]
  calc key.take 4 ++ ((key.drop 4).take 4 ++ ((key.drop 8).take 4 ++ key.drop 12))
      = key.take 4 ++ ((key.drop 4).take 4 ++ ((key.drop 8).take 4 ++ (key.drop 8).drop 4)) := by rw [List.drop_drop]
    _ = key.take 4 ++ ((key.drop 4).take 4 ++ (key.drop 4).drop 4) := by rw [List.take_append_drop, List.drop_drop]
    _ = key := by rw [List.take_append_drop, List.take_append_drop]

section
variable (s : State)

/-- KSEL written with a slot's number selects the slot. -/
theorem State.ksel_setReg {k : Nat} (hk : k < 32) : (s.setReg 0x030 0x1100 (BitVec.ofNat 32 k)).ksel = k := by
  rw [State.ksel, State.sreg, State.reg_setReg_self, fld_eq_div_mod, BitVec.toNat_ofNat]
  omega

/-- An erased slot holds no key. -/
theorem State.eraseSlot_slot {k : Nat} (hk : k < 32) : (s.eraseSlot k).keySlot k = KeySlot.reset := by
  rw [State.eraseSlot, State.keyErase, s.ksel_setReg hk, State.keySlot_setKeySlot, if_pos rfl]

/-- A pairing that fails erases its slot and leaves its code (R447). -/
theorem State.pairFail_fails (k code : Nat) : (s.pairFail k code).sealEng.pairing = none ∧ (s.pairFail k code).sealEng.pairResult = code
    ∧ (k < 32 → ((s.pairFail k code).keySlot k).valid = false) := by
  refine ⟨rfl, rfl, fun hk => ?_⟩
  have hslot : (s.pairFail k code).keySlot k = (s.eraseSlot k).keySlot k := State.keySlot_congr rfl k
  rw [hslot, s.eraseSlot_slot hk]
  rfl

/-! A pairing's answers. -/

/-- A lane and a node that a display may have (R446). -/
theorem State.pair_range {target : Nat} (anchors : List (List Byte)) (accept done : Option (List Byte))
    (h : 15 < target / 256 ∨ target % 256 = 0 ∨ 7 < target % 256) : s.pair target anchors accept done = s.tradeAnswer 0x800201 6 := if_pos h

variable {target : Nat} (hlane : target / 256 ≤ 15) (hnode : 1 ≤ target % 256) (hlast : target % 256 ≤ 7)
include hlane hnode hlast

theorem State.pair_busy (anchors : List (List Byte)) (accept done : Option (List Byte)) (h : s.sealEng.pairing.isSome = true) :
    s.pair target anchors accept done = s.tradeAnswer 0x800201 8 := by
  unfold State.pair
  rw [if_neg (by omega), if_pos h]

/-- A pairing that waits for the display's ACCEPT. -/
theorem State.pair_waits {k : Nat} (anchors : List (List Byte)) (done : Option (List Byte)) (hnone : s.sealEng.pairing = none)
    (hslot : (List.range 32).find? (fun k => !((s.tradeAnswer 0x800201 0).keySlot k).valid) = some k) :
    s.pair target anchors none done = { (s.tradeAnswer 0x800201 0).modSeal (fun e => { e with
        pairing := some { lane := target / 256, node := target % 256, slot := k, pairid := (s.tradeAnswer 0x800201 0).newPairid
                          since := (s.tradeAnswer 0x800201 0).now }, pairResult := 7 }) with free := (s.tradeAnswer 0x800201 0).free + 5 } := by
  unfold State.pair
  rw [if_neg (by omega), if_neg (by simp [hnone])]
  simp only [hslot]

end

/-! CHECK: the key loaded and wrapped. -/

section
variable (s : State) {id : Nat} {key : List Byte}

/-- The words that LOAD_CLEAR finds in KDATA at CHECK. -/
def checkWords (key : List Byte) (id : Nat) : List Word := (List.range 4).map (fun i => BitVec.ofNat 32 (frameVal key (4 * i) 4)) ++ [BitVec.ofNat 32 id, 1]

theorem State.clearKey_checkWords (hlen : key.length = 16) (hid : id < 65536) :
    (s.setKdata (checkWords key id) false).clearKey = { key := key, pairid := id, seq := 1, limit := 65537, valid := true, armed := false } := by
  have hword : ∀ i, i < 10 → (s.setKdata (checkWords key id) false).kdata i = (checkWords key id).getD i 0 := fun i hi => s.kdata_setKdata _ _ hi
  have hkey : ((List.range 4).map (fun i => toBytes 4 ((s.setKdata (checkWords key id) false).kdata i).toNat)).flatten = key := by
    refine Eq.trans (congrArg List.flatten (List.map_congr_left fun i hi => ?_)) (key_of_words hlen)
    have hi4 := List.mem_range.mp hi
    rw [hword i (by omega)]
    simp [checkWords, List.getElem?_append, hi4]
  rw [State.clearKey, hkey, hword 4 (by decide), hword 5 (by decide)]
  have hpair : fld ((checkWords key id).getD 4 0) 15 0 = id := by
    rw [show (checkWords key id).getD 4 0 = BitVec.ofNat 32 id from rfl, fld_eq_div_mod, BitVec.toNat_ofNat]
    omega
  rw [hpair, show (checkWords key id).getD 5 0 = 1 from rfl, show (1 : Word).toNat = 1 from rfl]

/-- What every step of a loop over a list leaves alone, the loop leaves alone. -/
theorem State.foldl_keeps_of_mem {α β : Type} (g : State → β) {f : State → α → State} (l : List α) (h : ∀ s, ∀ a ∈ l, g (f s a) = g s) (s : State) :
    g (l.foldl f s) = g s := by
  induction l generalizing s with
  | nil => rfl
  | cons a l ih => rw [List.foldl_cons, ih (fun t b hb => h t b (List.mem_cons_of_mem a hb)), h s a List.mem_cons_self]

/-- KDATA written leaves KSEL. -/
theorem State.ksel_setKdata (ws : List Word) (shown : Bool) : (s.setKdata ws shown).ksel = s.ksel := by
  rw [State.ksel, State.ksel, State.sreg, State.sreg, State.setKdata, State.modSeal_reg,
    State.foldl_keeps_of_mem (·.reg 0x030 0x1100) (List.range 10) (fun t j hj => ?_)]
  have hj10 := List.mem_range.mp hj
  rw [State.reg_setReg _ _ (by decide) (by decide) (by omega) (by decide), if_neg (by omega)]

/-- LOAD_CLEAR of a key that no other slot holds (Table 14-2). -/
theorem State.loadClear_some (hid : fld (s.kdata 4) 15 0 ≠ 0) (hheld : s.pairHeld s.ksel (fld (s.kdata 4) 15 0) = false)
    (hseq : (s.kdata 5).toNat ≤ 0xFFFEFFFF) : s.loadClear = some ((s.setKeySlot s.ksel s.clearKey).setKdata [] false) := by
  refine if_neg ?_
  rintro (h | h | h)
  · exact hid h
  · exact absurd (hheld.symm.trans h) (by decide)
  · exact Nat.not_lt.mpr hseq h

/-- A slot loaded, then wrapped out, is armed. -/
theorem State.wrapOut_loaded {x : KeySlot} (hvalid : x.valid = true) {k : Nat} (hk : s.ksel = k) :
    ∃ t, ((s.setKeySlot k x).setKdata [] false).wrapOut = some t ∧ t.keySlot k = { x with armed := true } := by
  have hksel : ((s.setKeySlot k x).setKdata [] false).ksel = k := (State.ksel_setKdata _ _ _).trans hk
  have hslot : ((s.setKeySlot k x).setKdata [] false).keySlot k = x := by
    rw [State.keySlot, State.setKdata_sealEng]
    exact (s.keySlot_setKeySlot k k x).trans (if_pos rfl)
  obtain ⟨t, hout, hshows, -⟩ := State.wrapOut_shows ((s.setKeySlot k x).setKdata [] false) (by rw [hksel, hslot, hvalid])
  rw [hksel, hslot] at hshows
  exact ⟨t, hout, hshows⟩

/-- CHECK where both commands take. -/
theorem State.pairLoad_of {p : Pairing} {u t : State}
    (hload : ((s.setReg 0x030 0x1100 (BitVec.ofNat 32 p.slot)).setKdata (checkWords key p.pairid) false).loadClear = some u) (hout : u.wrapOut = some t) :
    s.pairLoad p key = (t.setKeySlot p.slot { t.keySlot p.slot with seq := (t.keySlot p.slot).seq + 1 }).jobCount 0 := by
  rw [checkWords] at hload
  simp only [State.pairLoad, hload, Option.getD_some, hout]

/-- CHECK loads the key with SEQ 1, wraps it and seals one frame with it (R447). -/
theorem State.pairLoad_slot {p : Pairing} (hlen : key.length = 16) (hid : 0 < p.pairid) (hid' : p.pairid < 65536) (hslot : p.slot < 32)
    (hheld : s.pairHeld p.slot p.pairid = false) : (s.pairLoad p key).keySlot p.slot
      = { key := key, pairid := p.pairid, seq := 2, limit := 65537, valid := true, armed := true } := by
  let s1 := (s.setReg 0x030 0x1100 (BitVec.ofNat 32 p.slot)).setKdata (checkWords key p.pairid) false
  have hksel : s1.ksel = p.slot := (State.ksel_setKdata _ _ _).trans (s.ksel_setReg hslot)
  have hclear : s1.clearKey = _ := State.clearKey_checkWords _ hlen hid'
  have hpairid : fld (s1.kdata 4) 15 0 = p.pairid := congrArg KeySlot.pairid hclear
  have hseq : (s1.kdata 5).toNat = 1 := congrArg KeySlot.seq hclear
  have hheld' : s1.pairHeld p.slot p.pairid = false := by
    rw [State.pairHeld, State.setKdata_sealEng]
    exact hheld
  have hload := s1.loadClear_some (by omega) (by rw [hksel, hpairid, hheld']) (by omega)
  obtain ⟨t, hout, harmed⟩ := s1.wrapOut_loaded (x := s1.clearKey) rfl hksel
  rw [hksel] at hload
  rw [s.pairLoad_of hload hout, State.keySlot_congr (congrArg Seal.slots (State.jobCount_sealEng _ 0)), State.keySlot_setKeySlot, if_pos rfl, harmed, hclear]

end

/-- Settles O41: the answers of a pairing, its end at DONE and at CHECK, its timeout, and unpairing. -/
theorem displaysPaired : Obligations.DisplaysPaired := by
  intro s target anchors accept done lane node
  refine ⟨fun h => ?_, fun hlane hnode hlast hbusy => ?_, fun k hlane hnode hlast hnone => ?_, fun p d hlen hid hseq => ?_,
    fun p key hlen hid hid' hslot hheld => ?_, fun p hpairing hlate => ?_, fun p hpairing hearly => ?_, fun id hnone => ?_, fun id x p hheld hp => ?_⟩
  · exact congrArg Host.Outcome.next (s.pair_range anchors accept done h)
  · exact congrArg Host.Outcome.next (s.pair_busy hlane hnode hlast anchors accept done hbusy)
  · exact fun hslot => congrArg Host.Outcome.next (s.pair_waits hlane hnode hlast anchors done hnone hslot)
  · exact if_pos ⟨hid, hseq, hlen⟩
  · exact ⟨_, s.pairLoad_slot hlen hid hid' hslot hheld, rfl, rfl, rfl, rfl, rfl, rfl⟩
  · obtain ⟨hended, hcode, herased⟩ := s.pairFail_fails p.slot 2
    exact ⟨_, congrArg Host.Outcome.next (by rw [State.pairTimeout, hpairing]; exact if_pos hlate), hended, hcode, herased⟩
  · exact congrArg Host.Outcome.next (by rw [State.pairTimeout, hpairing]; exact if_neg (Nat.not_le.mpr hearly))
  · exact congrArg Host.Outcome.next (by rw [State.unpair, hnone])
  · exact congrArg Host.Outcome.next (by rw [State.unpair, hheld]; simp only [hp]; rfl)

end Sys2Proof.Machine

namespace Sys2Proof.Machine

/-! The bus die's registers and ports: what an operation on one port changes, and what it leaves. -/

/-- Bits ORed into a word are set there. -/
theorem bit_or_of_bits (v bits : Word) {b : Nat} (h : bit bits b = true) : bit (v ||| bits) b = true := by
  rw [bit] at h ⊢
  rw [BitVec.getLsbD_or, h, Bool.or_true]

section
variable (s : State) {p k : Nat} (hp : p < 16) (hk : k < 16)

theorem State.bevent_regs (bits : Word) : (s.bevent bits).regs = (s.modReg 0x081 0x1018 (· ||| bits)).regs := by
  simp [State.bevent, State.event]
theorem State.sevent_regs (bits : Word) : (s.sevent bits).regs = (s.modReg 0x083 0x1024 (· ||| bits)).regs := by
  simp [State.sevent, State.event]
theorem State.bevent_reg (bits : Word) (a o : Nat) : (s.bevent bits).reg a o = (s.modReg 0x081 0x1018 (· ||| bits)).reg a o :=
  State.regW_congr (s.bevent_regs bits)
theorem State.sevent_reg (bits : Word) (a o : Nat) : (s.sevent bits).reg a o = (s.modReg 0x083 0x1024 (· ||| bits)).reg a o :=
  State.regW_congr (s.sevent_regs bits)

/-- New bits of PEVENT touch the interrupts and their register. -/
theorem State.pevent_eq (p : Nat) (bits : Word) :
    ∃ x, s.pevent p bits = { s.setReg (0x090 + p) 0x101C (s.preg p 0x101C ||| bits) with irq := x } := s.newEvent_eq _ _ _ _

@[simp] theorem State.pevent_bus (p : Nat) (bits : Word) : (s.pevent p bits).bus = s.bus := by
  obtain ⟨x, hx⟩ := s.pevent_eq p bits
  rw [hx, State.setReg_bus]
@[simp] theorem State.pevent_now (p : Nat) (bits : Word) : (s.pevent p bits).now = s.now := by
  obtain ⟨x, hx⟩ := s.pevent_eq p bits
  rw [hx, State.setReg_now]
theorem State.pevent_regs (p : Nat) (bits : Word) : (s.pevent p bits).regs = (s.setReg (0x090 + p) 0x101C (s.preg p 0x101C ||| bits)).regs := by
  obtain ⟨x, hx⟩ := s.pevent_eq p bits
  rw [hx]
theorem State.pevent_reg (p : Nat) (bits : Word) (a o : Nat) :
    (s.pevent p bits).reg a o = (s.setReg (0x090 + p) 0x101C (s.preg p 0x101C ||| bits)).reg a o := State.regW_congr (s.pevent_regs p bits)

/-- The bits that PEVENT is given stand there. -/
theorem State.pevent_bit (p : Nat) (bits : Word) {b : Nat} (h : bit bits b = true) : bit ((s.pevent p bits).preg p 0x101C) b = true := by
  rw [State.preg, State.pevent_reg, State.reg_setReg_self]
  exact bit_or_of_bits _ _ h

/-- The registers that a port's state lies in: PSTAT and PEVENT. -/
def portWords (p : Nat) : List (Nat × Nat) := [(0x090 + p, 0x1004), (0x090 + p, 0x101C)]

@[simp] theorem State.setPst_bus (p st : Nat) : (s.setPst p st).bus = s.bus := by
  unfold State.setPst
  split <;> simp
@[simp] theorem State.setPst_now (p st : Nat) : (s.setPst p st).now = s.now := by
  unfold State.setPst
  split <;> simp

include hp in
/-- PSTAT after the state changed: its other fields stay. -/
theorem State.setPst_pstat (st : Nat) : (s.setPst p st).preg p 0x1004 = if s.pst p = st then s.preg p 0x1004 else setFld (s.preg p 0x1004) 31 29 st := by
  unfold State.setPst
  split
  · rfl
  · rw [State.preg, State.pevent_reg, State.reg_setReg _ _ (by omega) (by omega) (by decide) (by decide), if_neg (by omega), State.reg_modReg_self]
    rfl

include hp in
theorem State.setPst_pst {st : Nat} (hst : st < 8) : (s.setPst p st).pst p = st := by
  rw [State.pst, s.setPst_pstat hp]
  split
  · assumption
  · rw [fld_setFld_self _ _ _ _ (by decide) (by decide)]
    omega

include hp in
theorem State.setPst_shr (st : Nat) : (s.setPst p st).shr p = s.shr p := by
  rw [State.shr, s.setPst_pstat hp, State.shr]
  split
  · rfl
  · exact fld_setFld_ne _ _ _ _ _ _ (by decide) (by decide) (by decide)

include hp in
theorem State.pevent_regsBut (bits : Word) : s.regsBut (s.pevent p bits) (portWords p) :=
  State.regsBut_congr (State.regsBut_setReg (State.regsBut_of_eq _ rfl) _ (by omega) (by decide) (by simp [portWords])) (s.pevent_regs p bits)

include hp in
theorem State.setPst_regsBut (st : Nat) : s.regsBut (s.setPst p st) (portWords p) := by
  unfold State.setPst
  split
  · exact State.regsBut_of_eq _ rfl
  · exact State.regsBut_trans (State.regsBut_setReg (State.regsBut_of_eq _ rfl) _ (by omega) (by decide) (by simp [portWords]))
      (State.pevent_regsBut _ hp _) (List.Subset.refl _) (List.Subset.refl _)

/-- A port's controller after another's, or its own, was changed. -/
theorem State.hot_of_bus {t : State} {h : Hot} (hbus : t.bus = { s.bus with hots := vset s.bus.hots p h }) (hp : p < 16) (k : Nat) :
    t.hot k = if k = p then h else s.hot k := by
  rw [State.hot, hbus]
  exact vget_vset _ _ _ _ _ hp

/-! A port shed (R464). -/

include hp in
theorem State.portShed_pstat (reason : Nat) : (s.portShed p reason).pst p = 4 ∧ (s.portShed p reason).shr p = reason % 4 := by
  have hkept : ∀ t : State, (t.pevent p 8).preg p 0x1004 = t.preg p 0x1004 := fun t => by
    rw [State.preg, State.pevent_reg, State.reg_setReg _ _ (by omega) (by omega) (by decide) (by decide), if_neg (by omega), State.preg]
  refine ⟨(congrArg (fld · 31 29) (hkept _)).trans (State.setPst_pst _ hp (by decide)), (congrArg (fld · 28 27) (hkept _)).trans ?_⟩
  refine (State.setPst_shr _ hp 4).trans ?_
  rw [State.shr, State.preg, State.modHot_reg, State.reg_modReg_self]
  exact fld_setFld_self _ _ _ _ (by decide) (by decide)

/-- A port that is shed has no retry under way. -/
theorem State.portShed_bus (reason : Nat) :
    (s.portShed p reason).bus = { s.bus with hots := vset s.bus.hots p { s.hot p with due := none, hot := false, inrush := none } } := by
  rw [State.portShed, State.pevent_bus, State.setPst_bus, State.modHot, State.modBus_bus, State.modReg_bus, State.hot, State.hot, State.modReg_bus]
@[simp] theorem State.portShed_now (reason : Nat) : (s.portShed p reason).now = s.now := by
  rw [State.portShed, State.pevent_now, State.setPst_now, State.modHot_now, State.modReg_now]
theorem State.portShed_event (reason : Nat) : bit ((s.portShed p reason).preg p 0x101C) 3 = true := State.pevent_bit _ _ _ (by decide)

include hp in
theorem State.portShed_regsBut (reason : Nat) : s.regsBut (s.portShed p reason) (portWords p) :=
  State.regsBut_trans (State.regsBut_trans (State.regsBut_congr
      (State.regsBut_setReg (State.regsBut_of_eq _ rfl) _ (by omega) (by decide) (by simp [portWords])) (State.modHot_regs _ _ _))
    (State.setPst_regsBut _ hp 4) (List.Subset.refl _) (List.Subset.refl _)) (State.pevent_regsBut _ hp 8) (List.Subset.refl _) (List.Subset.refl _)

/-! A port that starts INRUSH (R464, R465). -/

include hp in
theorem State.portInrush_pst : (s.portInrush p).pst p = 1 := State.setPst_pst _ hp (by decide)
theorem State.portInrush_bus :
    (s.portInrush p).bus = { s.bus with hots := vset s.bus.hots p { s.hot p with due := none, hot := false, inrush := some s.now } } := by
  rw [State.portInrush, State.setPst_bus]
  rfl
include hp in
theorem State.portInrush_regsBut : s.regsBut (s.portInrush p) (portWords p) :=
  State.regsBut_trans (State.regsBut_of_eq (portWords p) (State.modHot_regs _ _ _)) (State.setPst_regsBut _ hp 1) (List.Subset.refl _) (List.Subset.refl _)

/-! What changes of one port leave of the others and of the rest of the bus die. -/

/-- Only the ports' state words, their controllers and the interrupts differ. -/
def State.portsOnly (s t : State) : Prop :=
  (∀ a o, a < 0x1000 → o < 0x10000 → (∀ p, p < 16 → (a, o) ∉ portWords p) → t.reg a o = s.reg a o)
  ∧ { t.bus with hots := s.bus.hots } = s.bus ∧ t.now = s.now

theorem State.portsOnly_refl : s.portsOnly s := ⟨fun _ _ _ _ _ => rfl, rfl, rfl⟩
theorem State.portsOnly_trans {s t r : State} (h : s.portsOnly t) (h' : t.portsOnly r) : s.portsOnly r := by
  obtain ⟨hregs, hbus, hnow⟩ := h
  obtain ⟨hregs', hbus', hnow'⟩ := h'
  refine ⟨fun a o ha ho hn => (hregs' a o ha ho hn).trans (hregs a o ha ho hn), ?_, hnow'.trans hnow⟩
  rw [← hbus, ← hbus']

include hp in
theorem State.portShed_portsOnly (reason : Nat) : s.portsOnly (s.portShed p reason) :=
  ⟨fun a o ha ho hn => s.portShed_regsBut hp reason .trade a o ha ho (hn p hp), by rw [State.portShed_bus], s.portShed_now reason⟩

/-- What a port's decisions rest on: its STATE, its reason and its class. -/
def State.portView (s : State) (p : Nat) : Nat × Nat × Nat := (s.pst p, s.shr p, s.pclass p)

theorem State.portView_of_regsBut {t : State} (h : s.regsBut t (portWords p)) (hk : k < 16) (hne : k ≠ p) : t.portView k = s.portView k := by
  have hword : ∀ o, o < 0x10000 → t.preg k o = s.preg k o := fun o ho =>
    h .trade _ _ (by omega) ho (by simp [portWords, hne])
  simp only [State.portView, State.pst, State.shr, State.pclass, hword 0x1004 (by decide), hword 0x1000 (by decide)]

theorem State.pclass_of_regsBut {t : State} (h : s.regsBut t (portWords p)) (hk : k < 16) : t.pclass k = s.pclass k := by
  have hword : t.preg k 0x1000 = s.preg k 0x1000 := h .trade _ _ (by omega) (by decide) (by simp [portWords])
  rw [State.pclass, State.pclass, hword]

end

end Sys2Proof.Machine

namespace Sys2Proof.Machine

/-! The ride-through (R476). Restores that wait while the causeway is lost are R13 and the model's choice (log 31). -/

/-- Loops over the ports, each round of which changes its own port alone. -/
theorem State.foldl_ports_view {f : State → Nat → State} {g : Nat × Nat × Nat → Nat × Nat × Nat}
    (hself : ∀ s p, p < 16 → (f s p).portView p = g (s.portView p))
    (hother : ∀ s p k, p < 16 → k < 16 → k ≠ p → (f s p).portView k = s.portView k) {n : Nat} (hn : n ≤ 16) (s : State) {k : Nat} (hk : k < 16) :
    ((List.range n).foldl f s).portView k = if k < n then g (s.portView k) else s.portView k := by
  induction n with
  | zero => simp
  | succ n ih =>
    rw [List.range_succ, List.foldl_append, List.foldl_cons, List.foldl_nil]
    by_cases hkn : k = n
    · subst hkn
      rw [hself _ _ hk, ih (by omega), if_neg (by omega), if_pos (by omega)]
    · rw [hother _ _ _ (by omega) hk hkn, ih (by omega)]
      by_cases hlt : k < n
      · rw [if_pos hlt, if_pos (by omega)]
      · rw [if_neg hlt, if_neg (by omega)]

theorem State.foldl_portsOnly {α : Type} {f : State → α → State} (l : List α) (h : ∀ t : State, ∀ a ∈ l, t.portsOnly (f t a)) (s : State) :
    s.portsOnly (l.foldl f s) := by
  induction l generalizing s with
  | nil => exact s.portsOnly_refl
  | cons a l ih => exact State.portsOnly_trans (h s a List.mem_cons_self) (ih (fun t b hb => h t b (List.mem_cons_of_mem a hb)) _)

/-- What shedding a class does to a port's view. -/
def shedView (c reason : Nat) (v : Nat × Nat × Nat) : Nat × Nat × Nat := if v.2.2 = c ∧ 1 ≤ v.1 ∧ v.1 ≤ 3 then (4, reason % 4, v.2.2) else v

/-- A view taken apart. -/
theorem portView_eq {s : State} {k a b c : Nat} (h : s.portView k = (a, b, c)) : s.pst k = a ∧ s.shr k = b ∧ s.pclass k = c := by
  simpa only [State.portView, Prod.mk.injEq] using h

section
variable (s : State)

theorem State.portShed_view (reason : Nat) {p : Nat} (hp : p < 16) : (s.portShed p reason).portView p = (4, reason % 4, s.pclass p) := by
  obtain ⟨hpst, hshr⟩ := s.portShed_pstat hp reason
  rw [State.portView, hpst, hshr, State.pclass_of_regsBut s (s.portShed_regsBut hp reason) hp]

/-- A class shed: each of its running ports becomes SHED, every other port stays (Table 15-11). -/
theorem State.shedClass_view (c reason : Nat) {k : Nat} (hk : k < 16) : (s.shedClass c reason).portView k = shedView c reason (s.portView k) := by
  refine (State.foldl_ports_view (g := shedView c reason) (fun t p hp => ?_) (fun t p j hp hj hne => ?_) (Nat.le_refl 16) s hk).trans (if_pos hk)
  · by_cases hsheds : t.pclass p = c ∧ 1 ≤ t.pst p ∧ t.pst p ≤ 3
    · rw [if_pos hsheds, t.portShed_view reason hp]
      exact (if_pos hsheds).symm
    · rw [if_neg hsheds]
      exact (if_neg hsheds).symm
  · split
    · exact t.portView_of_regsBut (t.portShed_regsBut hp reason) hj hne
    · rfl

theorem State.shedClass_portsOnly (c reason : Nat) : s.portsOnly (s.shedClass c reason) := by
  refine State.foldl_portsOnly _ (fun t p hp => ?_) s
  split
  · exact t.portShed_portsOnly (List.mem_range.mp hp) reason
  · exact t.portsOnly_refl

/-- Several classes shed: each running port of one of them becomes SHED. -/
theorem State.shedClasses_view (l : List Nat) (reason : Nat) {k : Nat} (hk : k < 16) (hclass : s.pclass k ∈ l ∧ 1 ≤ s.pst k ∧ s.pst k ≤ 3
      ∨ s.pst k = 4 ∧ s.shr k = reason % 4) :
    (l.foldl (fun s c => s.shedClass c reason) s).pst k = 4 ∧ (l.foldl (fun s c => s.shedClass c reason) s).shr k = reason % 4 := by
  induction l generalizing s with
  | nil => simpa using hclass
  | cons c l ih =>
    have hview := s.shedClass_view c reason hk
    refine ih _ ?_
    by_cases hsheds : s.pclass k = c ∧ 1 ≤ s.pst k ∧ s.pst k ≤ 3
    · obtain ⟨hpst, hshr, -⟩ := portView_eq (hview.trans (if_pos hsheds))
      exact .inr ⟨hpst, hshr⟩
    · obtain ⟨hpst, hshr, hpclass⟩ := portView_eq (hview.trans (if_neg hsheds))
      rw [hpst, hshr, hpclass]
      exact hclass.imp_left fun ⟨hmem, hrunning⟩ => ⟨(List.mem_cons.mp hmem).resolve_left fun h => hsheds ⟨h, hrunning⟩, hrunning⟩

theorem State.shedClasses_portsOnly (l : List Nat) (reason : Nat) : s.portsOnly (l.foldl (fun s c => s.shedClass c reason) s) :=
  State.foldl_portsOnly l (fun t c _ => t.shedClass_portsOnly c reason) s

/-! The switch-over. -/

/-- The ride-through that begins at a switch-over: the registers' values of the moment (R476). -/
def State.rideBegun (s : State) : Ride :=
  { start := s.now, vrt := fld (s.reg 0x083 0x1004) 15 0, fwin := fld (s.reg 0x083 0x1004) 31 16 * 1000000, fwarn := s.fwarn
    floor := fld (s.reg 0x083 0x1008) 15 0, delays := (List.range 4).map s.shedDelay
    shed := (List.range 4).filter (fun c => ((List.range 4).map s.shedDelay).getD c 0 == 0), warned := false }

/-- The bus die once the classes without a delay are shed: the converter discharges, BSTATE is RIDE. -/
def State.rideOn (s : State) (r : Ride) (vbus : Nat) : State :=
  let t := (s.modBus (fun b => { b with ride := some r, nextRestore := none, restored := none, fullSince := none })).setSstate 4
  (((((t.setBstate 1).modReg 0x081 0x1000 (fun v => setFld v 15 0 vbus)).modReg 0x081 0x1014 (· + 1)).bevent 2).raise 292).raise 293

/-- A class is shed at the switch-over exactly when it has no delay. -/
theorem State.rideBegun_shed {k : Nat} (hk : k < 4) : s.rideBegun.shed.contains k = true ↔ s.shedDelay k = 0 := by
  simp [State.rideBegun, hk]

theorem State.switchOver_below {x : BitVec 16} (hlow : x.toNat < fld (s.reg 0x083 0x1004) 15 0) (hen : bit (s.reg 0x083 0x1000) 30 = true)
    (hcharged : fld (s.reg 0x083 0x1008) 15 0 + 100 ≤ s.vstore) (hstate : s.bstate = 0 ∨ s.bstate = 3) :
    s.switchOver x = (s.rideBegun.shed.foldl (fun s c => s.shedClass c 1) s).rideOn s.rideBegun x.toNat := by
  refine if_neg ?_
  rcases hstate with h | h <;> simp [hlow, hen, hcharged, h]

theorem State.rideOn_bus (r : Ride) (vbus : Nat) :
    (s.rideOn r vbus).bus = { s.bus with ride := some r, nextRestore := none, restored := none, fullSince := none } := by
  simp [State.rideOn, State.bevent, State.setBstate, State.setSstate]

theorem State.rideOn_state (r : Ride) (vbus : Nat) : (s.rideOn r vbus).bstate = 1 ∧ (s.rideOn r vbus).sstate = 4
    ∧ (s.rideOn r vbus).reg 0x081 0x1014 = s.reg 0x081 0x1014 + 1 ∧ bit ((s.rideOn r vbus).reg 0x081 0x1018) 1 = true := by
  simp only [State.rideOn, State.bstate, State.sstate, State.raise_reg, State.bevent_reg, State.setBstate, State.setSstate]
  refine ⟨?_, ?_, ?_, ?_⟩
  · simp (disch := decide) [State.reg_modReg, fld_setFld_ne, fld_setFld_self]
  · simp (disch := decide) [State.reg_modReg, fld_setFld_self]
  · simp (disch := decide) [State.reg_modReg]
  · rw [State.reg_modReg_self]
    exact bit_or_of_bits _ _ (by decide)

theorem State.rideOn_view (r : Ride) (vbus : Nat) {p : Nat} (hp : p < 16) : (s.rideOn r vbus).portView p = s.portView p := by
  have hword : ∀ o, o < 0x10000 → (s.rideOn r vbus).preg p o = s.preg p o := by
    intro o ho
    simp (disch := omega) only [State.rideOn, State.preg, State.raise_reg, State.bevent_reg, State.setBstate, State.setSstate, State.reg_modReg]
    simp (disch := omega) only [if_neg, State.modBus_reg]
  simp only [State.portView, State.pst, State.shr, State.pclass, hword 0x1004 (by decide), hword 0x1000 (by decide)]

/-! The bus returns. -/

/-- A port that waits for its restore keeps RESTORE from its end. -/
theorem State.restoreCheck_waits {p : Nat} (hp : p < 16) (hshed : s.pst p = 4) (hreason : s.shr p ≠ 0) : s.restoreCheck = s := by
  refine if_neg fun ⟨_, hnone, _⟩ => ?_
  have := List.any_eq_false.mp hnone p (List.mem_range.mpr hp)
  simp [hshed, hreason] at this

/-- The bus die when the bus has returned, before the check whether RESTORE has an end at once. -/
def State.busBack (s : State) (vbus : Nat) : State :=
  let s1 := (s.modBus (fun b => { b with ride := none, nextRestore := some s.now, restored := none })).setBstate 3
  ((if s1.sstate = 4 then s1.setSstate 0 else s1).modReg 0x081 0x1000 (fun v => setFld v 15 0 vbus)).bevent 4

/-- A converter that discharges no longer. -/
theorem State.sstate_stopped : (if s.sstate = 4 then s.setSstate 0 else s).sstate ≠ 4 := by
  split
  · rw [State.sstate, State.setSstate, State.reg_modReg_self, fld_setFld_self _ _ _ _ (by decide) (by decide)]
    decide
  · assumption

theorem State.busReturn_returns {r : Ride} {x : BitVec 16} (hride : s.bus.ride = some r) (hstate : s.bstate = 1 ∨ s.bstate = 2)
    (hback : r.vrt + 200 ≤ x.toNat) : s.busReturn x = (s.busBack x.toNat).restoreCheck := by
  unfold State.busReturn
  rw [hride]
  exact if_neg (by omega)

theorem State.busBack_state (vbus : Nat) : (s.busBack vbus).bstate = 3 ∧ (s.busBack vbus).bus.ride = none
    ∧ (s.busBack vbus).bus.nextRestore = some s.now ∧ (s.busBack vbus).sstate ≠ 4 ∧ bit ((s.busBack vbus).reg 0x081 0x1018) 2 = true := by
  have hbus : (s.busBack vbus).bus = { s.bus with ride := none, nextRestore := some s.now, restored := none } := by
    simp only [State.busBack]
    split <;> simp [State.bevent, State.setBstate, State.setSstate]
  refine ⟨?_, by rw [hbus], by rw [hbus], ?_, ?_⟩
  · simp only [State.busBack, State.bstate, State.bevent_reg]
    split <;> simp (disch := decide) [State.setBstate, State.setSstate, State.reg_modReg, fld_setFld_ne, fld_setFld_self]
  · have hword : ∀ t : State, ((t.modReg 0x081 0x1000 (fun v => setFld v 15 0 vbus)).bevent 4).sstate = t.sstate := fun t => by
      simp (disch := decide) [State.sstate, State.bevent_reg, State.reg_modReg]
    exact fun h => State.sstate_stopped _ ((hword _).symm.trans h)
  · simp only [State.busBack, State.bevent_reg, State.reg_modReg_self]
    exact bit_or_of_bits _ _ (by decide)

theorem State.busBack_view (vbus : Nat) {p : Nat} (hp : p < 16) : (s.busBack vbus).portView p = s.portView p := by
  have hword : ∀ o, o < 0x10000 → (s.busBack vbus).preg p o = s.preg p o := by
    intro o ho
    simp only [State.busBack, State.preg, State.bevent_reg]
    split <;>
    · simp (disch := omega) only [State.setBstate, State.setSstate, State.reg_modReg]
      simp (disch := omega) only [if_neg, State.modBus_reg]
  simp only [State.portView, State.pst, State.shr, State.pclass, hword 0x1004 (by decide), hword 0x1000 (by decide)]

end

/-- Settles O44: each event by the state it leaves; what a shed and a restore of one port leave of the others. -/
theorem rideThroughRuns : Obligations.RideThroughRuns := by
  refine ⟨fun s x c => ⟨?switch, ?stays, ?delay, ?pmax, ?warning, ?expiry, ?floor, ?returns, ?restore, ?lost⟩, fun s p reason hp hreason => ?ports⟩
  case switch =>
    intro hlow hen hcharged hstate
    obtain ⟨hb, hs, hcount, hevent⟩ := (s.rideBegun.shed.foldl (fun s c => s.shedClass c 1) s).rideOn_state s.rideBegun x.toNat
    have hsheds := s.shedClasses_portsOnly s.rideBegun.shed 1
    refine ⟨_, congrArg Host.Outcome.next (s.switchOver_below hlow hen hcharged hstate), hb, hs, ?_, hevent, ⟨s.rideBegun, ?_, rfl, rfl, rfl, rfl, rfl,
      fun k hk => s.rideBegun_shed hk⟩, fun p hp hlo hhi hdelay => ?_⟩
    · rw [hcount, hsheds.1 0x081 0x1014 (by decide) (by decide) (fun p _ => by simp [portWords])]
    · rw [State.rideOn_bus]
    · have hclass : s.pclass p < 4 := fld_lt _ _ _
      have hmem : s.pclass p ∈ s.rideBegun.shed := List.contains_iff_mem.mp ((s.rideBegun_shed hclass).mpr hdelay)
      obtain ⟨hpst, hshr⟩ := s.shedClasses_view s.rideBegun.shed 1 hp (.inl ⟨hmem, hlo, hhi⟩)
      obtain ⟨hpst', hshr', -⟩ := portView_eq (((s.rideBegun.shed.foldl (fun s c => s.shedClass c 1) s).rideOn_view s.rideBegun x.toNat hp).trans rfl)
      exact ⟨hpst'.trans hpst, hshr'.trans hshr⟩
  case stays =>
    intro h
    refine congrArg Host.Outcome.next (if_pos ?_)
    simp [Nat.not_lt.mpr h]
  case delay =>
    intro r d hride hd hne hshed hlate
    refine congrArg Host.Outcome.next ?_
    simp only [State.classShed, hride, hd]
    exact if_neg (by simp only [hne, hshed, Bool.false_eq_true, false_or]; omega)
  case pmax =>
    intro p hstate hpick
    refine congrArg Host.Outcome.next ?_
    rw [State.pmaxShed, if_neg (by omega), hpick]
  case warning =>
    intro r hride hwarned hstate hlate
    refine congrArg Host.Outcome.next ?_
    simp only [State.windowWarning, hride]
    exact if_neg (by simp only [hwarned, hstate, Bool.false_eq_true, false_or]; omega)
  case expiry =>
    intro r hride hstate hlate
    refine congrArg Host.Outcome.next ?_
    simp only [State.windowExpiry, hride]
    exact if_neg (by omega)
  case floor =>
    intro r hride hstate hlow
    refine congrArg Host.Outcome.next ?_
    simp only [State.storageFloor, hride]
    exact if_neg (by omega)
  case returns =>
    intro r hride hstate hback hwaits
    obtain ⟨p, hp, hshed, hreason⟩ := hwaits
    obtain ⟨hpst, hshr, -⟩ := portView_eq (s.busBack_view x.toNat hp)
    refine ⟨s.busBack x.toNat, congrArg Host.Outcome.next ((s.busReturn_returns hride hstate hback).trans ?_), s.busBack_state x.toNat⟩
    exact State.restoreCheck_waits _ hp (hpst.trans hshed) (by rwa [hshr])
  case restore =>
    intro d p hstate hlost hnext hdue hpick
    refine congrArg Host.Outcome.next ?_
    unfold State.restoreStep
    rw [if_neg (by simp [hstate, hlost, hnext, hdue]), hpick]
  case lost =>
    intro hstate hlost
    exact congrArg Host.Outcome.next (if_pos (.inr (.inl hlost)))
  case ports =>
    obtain ⟨hpst, hshr⟩ := s.portShed_pstat hp reason
    have hshed := s.hot_of_bus (s.portShed_bus (p := p) reason) hp
    have hinrush := s.hot_of_bus (s.portInrush_bus (p := p)) hp
    refine ⟨hpst, hshr.trans (Nat.mod_eq_of_lt hreason), ?_, s.portShed_event reason, s.portShed_regsBut hp reason, s.portInrush_pst hp, ?_, ?_,
      s.portInrush_regsBut hp, fun k hk => ⟨(hshed k).trans (if_neg hk), (hinrush k).trans (if_neg hk)⟩⟩
    · rw [hshed, if_pos rfl]
    · rw [hinrush, if_pos rfl]
    · rw [hinrush, if_pos rfl]

end Sys2Proof.Machine

namespace Sys2Proof.Machine

/-! The power budget and the storage bank's charge (R472 to R475, R478). The charge cut by what IBUS exceeds CEIL, OVER as soon as IBUS exceeds it, and storage
values kept out of range are the model's choices (log 31). -/

/-- The state in which an answered frame of the causeway is noted (R13). -/
def State.cwNoted (s : State) : State := s.modBus (fun b => { b with cwLast := s.now })

section
variable {s t : State} {q : Req} {slot off : Nat} {v : Word} (hadmits : s.admits q slot off)
  (hslot : (0x081 ≤ slot ∧ slot ≤ 0x083) ∨ (0x090 ≤ slot ∧ slot ≤ 0x09F)) (haligned : off % 4 = 0) (hlo : 0x1000 ≤ off)
include hadmits hslot haligned hlo

/-- A write of a register behind the causeway that its gate admits: a frame noted, and what its block makes of it. -/
theorem regWrite_power {a : BusRes} (hblock : s.cwNoted.powerWrite slot off v = (t, a)) :
    (Host.Outcome.next (s.regWrite q slot off v) : Host.Outcome State Fault Refusal) = .next { t with resp := some a } := by
  have hseen : s.cwSeen slot = s.cwNoted := if_pos (by simpa [behindCauseway, within] using hslot)
  refine next_of_eq ((State.regWrite_admits s q slot off v hadmits haligned).trans ?_)
  rw [hseen, State.slotWrite_power _ q slot off v (by omega) hlo, hblock]

end

/-! The budget's tick. -/

section
variable (s : State) (m : PowerMeas)

@[simp] theorem State.measurePorts_bus : (s.measurePorts m).bus = s.bus := State.foldl_keeps State.bus (fun _ _ => by simp) _ s
@[simp] theorem State.measurePorts_now : (s.measurePorts m).now = s.now := State.foldl_keeps State.now (fun _ _ => by simp) _ s

/-- The words that a measurement of a port is put into. -/
def measWords (p : Nat) : List (Nat × Nat) := [(0x090 + p, 0x1008), (0x090 + p, 0x100C), (0x090 + p, 0x1010)]

/-- The measurements touch the ports' measurement words alone. -/
theorem State.measurePorts_reg_other {a o : Nat} (ha : a < 0x1000) (ho : o < 0x10000) (hother : ∀ p, p < 16 → (a, o) ∉ measWords p) :
    (s.measurePorts m).reg a o = s.reg a o := by
  refine State.foldl_keeps_of_mem (·.reg a o) (List.range 16) (fun t p hp => ?_) s
  have hp16 := List.mem_range.mp hp
  have hne := hother p hp16
  simp only [measWords, List.mem_cons, Prod.mk.injEq, List.not_mem_nil, or_false, not_or] at hne
  obtain ⟨h8, hc, h10⟩ := hne
  rw [State.reg_setReg _ _ (by omega) ha (by decide) ho, if_neg h10, State.reg_setReg _ _ (by omega) ha (by decide) ho, if_neg hc,
    State.reg_setReg _ _ (by omega) ha (by decide) ho, if_neg h8]

/-- Each port's current stands in its IMEAS. -/
theorem State.measurePorts_imeas {p : Nat} (hp : p < 16) : (s.measurePorts m).preg p 0x1008 = (m.imeas.getD p 0).setWidth 32 := by
  have hloop : ∀ n, n ≤ 16 → ((List.range n).foldl (fun s p =>
      ((s.setReg (0x090 + p) 0x1008 ((m.imeas.getD p 0).setWidth 32)).setReg (0x090 + p) 0x100C ((m.vout.getD p 0).setWidth 32)).setReg (0x090 + p) 0x1010
        (match s.portNtc p with
          | some k => (ntcTemp m k).setWidth 32
          | none => 0x80)) s).preg p 0x1008 = if p < n then (m.imeas.getD p 0).setWidth 32 else s.preg p 0x1008 := by
    intro n hn
    induction n with
    | zero => simp
    | succ n ih =>
      rw [List.range_succ, List.foldl_append, List.foldl_cons, List.foldl_nil, State.preg,
        State.reg_setReg _ _ (by omega) (by omega) (by decide) (by decide), if_neg (by omega),
        State.reg_setReg _ _ (by omega) (by omega) (by decide) (by decide), if_neg (by omega),
        State.reg_setReg _ _ (by omega) (by omega) (by decide) (by decide)]
      by_cases hpn : p = n
      · subst hpn
        rw [if_pos ⟨rfl, rfl⟩, if_pos (by omega)]
      · rw [if_neg (by omega), ← State.preg, ih (by omega)]
        by_cases hlt : p < n
        · rw [if_pos hlt, if_pos (by omega)]
        · rw [if_neg hlt, if_neg (by omega)]
  exact (hloop 16 (Nat.le_refl 16)).trans (if_pos hp)

theorem State.measurePorts_pst {p : Nat} (hp : p < 16) : (s.measurePorts m).pst p = s.pst p := by
  have hword : (s.measurePorts m).preg p 0x1004 = s.preg p 0x1004 :=
    s.measurePorts_reg_other m (by omega) (by decide) (fun k _ => by simp [measWords])
  rw [State.pst, State.pst, hword]

/-- The bus current exceeds CEIL (R472). -/
def State.overCeil (s : State) (m : PowerMeas) : Bool := decide (fld (s.reg 0x081 0x1008) 15 0 * 10 < busCurrent m)

/-- The measurements in the registers of the bus die (R472). -/
def State.measured (s : State) (m : PowerMeas) : State :=
  let s1 := ((s.measurePorts m).setReg 0x081 0x1004 (BitVec.ofNat 32 (min (busCurrent m / 10) 0xFFFF))).setReg 0x081 0x1010 (m.logicp.setWidth 32)
  let s2 := s1.modReg 0x081 0x1000 (fun v => setFld (setBit v 28 (s.overCeil m)) 15 0 m.vbus.toNat)
  ((s2.modReg 0x083 0x1010 (fun v => setFld v 15 0 m.vstore.toNat)).setReg 0x083 0x1014 (m.scurr.setWidth 32)).setReg 0x083 0x1020
    ((s.storeTemp m).setWidth 32)

/-- The tick but for its event: since when IBUS has been above CEIL, or at most 0.9 · CEIL. -/
theorem State.budgetTick_eq : s.budgetTick m = (if s.overCeil m && !s.over then (s.measured m).bevent 0x40 else s.measured m).modBus (fun b =>
    { b with overSince := if s.overCeil m then some (b.overSince.getD s.now) else none
             lowSince := if 10 * busCurrent m ≤ 9 * (fld (s.reg 0x081 0x1008) 15 0 * 10) then some (b.lowSince.getD s.now) else none }) := rfl

theorem State.measured_bus : (s.measured m).bus = s.bus := by simp [State.measured]

theorem State.budgetTick_reg {a o : Nat} (ha : a < 0x1000) (ho : o < 0x10000) (hne : ¬ (a = 0x081 ∧ o = 0x1018)) :
    (s.budgetTick m).reg a o = (s.measured m).reg a o := by
  rw [State.budgetTick_eq, State.modBus_reg]
  split
  · rw [State.bevent_reg, State.reg_modReg _ _ (by decide) ha (by decide) ho, if_neg hne]
  · rfl

theorem State.budgetTick_bus : (s.budgetTick m).bus.overSince
      = (if s.overCeil m then some (s.bus.overSince.getD s.now) else none)
    ∧ (s.budgetTick m).bus.lowSince
      = (if 10 * busCurrent m ≤ 9 * (fld (s.reg 0x081 0x1008) 15 0 * 10) then some (s.bus.lowSince.getD s.now) else none) := by
  have hbus : ∀ t : State, (if s.overCeil m && !s.over then (s.measured m).bevent 0x40 else s.measured m) = t → t.bus = s.bus := by
    rintro t rfl
    split
    · rw [State.bevent, State.event_bus, State.measured_bus]
    · exact s.measured_bus m
  rw [State.budgetTick_eq, State.modBus_bus, hbus _ rfl]
  exact ⟨rfl, rfl⟩

/-- A register of a port's slot that is none of the measurements'. -/
theorem State.measured_port {p o : Nat} (hp : p < 16) (ho : o < 0x10000) : (s.measured m).preg p o = (s.measurePorts m).preg p o := by
  simp (disch := omega) only [State.measured, State.preg, State.reg_setReg, State.reg_modReg]
  simp (disch := omega) only [if_neg]

/-- The values that the measurement leaves in the registers of slots 0x081 and 0x083. -/
theorem State.measured_values : (s.measured m).reg 0x081 0x1004 = BitVec.ofNat 32 (min (busCurrent m / 10) 0xFFFF)
    ∧ (s.measured m).over = s.overCeil m ∧ fld ((s.measured m).reg 0x081 0x1000) 15 0 = m.vbus.toNat ∧ (s.measured m).vstore = m.vstore.toNat := by
  have hv := m.vbus.isLt
  have hs := m.vstore.isLt
  simp only [State.measured, State.over, State.vstore]
  refine ⟨?_, ?_, ?_, ?_⟩
  · simp (disch := decide) [State.reg_setReg, State.reg_modReg]
  · simp (disch := decide) [State.reg_setReg, State.reg_modReg, bit_setFld_ne, bit_setBit_self]
  · simp (disch := decide) only [State.reg_setReg, State.reg_modReg]
    simp (disch := decide) only [if_neg, if_pos, fld_setFld_self]
    exact Nat.mod_eq_of_lt hv
  · simp (disch := decide) only [State.reg_setReg, State.reg_modReg]
    simp (disch := decide) only [if_neg, if_pos, fld_setFld_self]
    exact Nat.mod_eq_of_lt hs

end

end Sys2Proof.Machine

namespace Sys2Proof.Machine

/-! Which port is shed or restored next (R472, R473). -/

section
variable (s : State)

/-- Whether a port may be shed: it runs, and its class is lo or more. -/
def State.sheddable (s : State) (lo p : Nat) : Bool := (s.pst p == 1 || s.pst p == 2) && decide (lo ≤ s.pclass p)

/-- Port q is shed before port p. -/
def State.shedBefore (s : State) (q p : Nat) : Prop := s.pclass p < s.pclass q ∨ (s.pclass p = s.pclass q ∧ p ≤ q)

/-- The last port found among the first n: nothing where none of them may be shed, otherwise one of them before which none comes. -/
def State.shedFound (s : State) (lo n : Nat) : Option Nat → Prop
  | none => ∀ r, r < n → s.sheddable lo r = false
  | some p => p < n ∧ s.sheddable lo p = true ∧ ∀ r, r < n → s.sheddable lo r = true → s.shedBefore p r

theorem State.shedPick_found (lo : Nat) : s.shedFound lo 16 (s.shedPick lo) := by
  have hloop : ∀ n, s.shedFound lo n ((List.range n).foldl (fun a p =>
      if (s.pst p == 1 || s.pst p == 2) && decide (lo ≤ s.pclass p) then
        match a with
        | none => some p
        | some q => if s.pclass q ≤ s.pclass p then some p else some q
      else a) none) := by
    intro n
    induction n with
    | zero => exact fun r hr => absurd hr (Nat.not_lt_zero r)
    | succ n ih =>
      rw [List.range_succ, List.foldl_append, List.foldl_cons, List.foldl_nil]
      generalize List.foldl _ none (List.range n) = a at ih ⊢
      by_cases hn : s.sheddable lo n = true
      · rw [show ((s.pst n == 1 || s.pst n == 2) && decide (lo ≤ s.pclass n)) = true from hn, if_pos rfl]
        cases a with
        | none =>
          refine ⟨by omega, hn, fun r hr hshed => ?_⟩
          rcases Nat.lt_succ_iff_lt_or_eq.mp hr with hlt | rfl
          · exact absurd hshed (by simp [ih r hlt])
          · exact .inr ⟨rfl, Nat.le_refl r⟩
        | some q =>
          obtain ⟨hq, hqshed, hbefore⟩ := ih
          dsimp only
          split
          · rename_i hle
            refine ⟨by omega, hn, fun r hr hshed => ?_⟩
            rcases Nat.lt_succ_iff_lt_or_eq.mp hr with hlt | rfl
            · rcases hbefore r hlt hshed with h | h
              · exact .inl (by omega)
              · simp only [State.shedBefore]
                omega
            · exact .inr ⟨rfl, Nat.le_refl r⟩
          · rename_i hgt
            refine ⟨by omega, hqshed, fun r hr hshed => ?_⟩
            rcases Nat.lt_succ_iff_lt_or_eq.mp hr with hlt | rfl
            · exact hbefore r hlt hshed
            · exact .inl (by omega)
      · rw [show ((s.pst n == 1 || s.pst n == 2) && decide (lo ≤ s.pclass n)) = false from Bool.not_eq_true _ ▸ hn, if_neg (by decide)]
        cases a with
        | none =>
          intro r hr
          rcases Nat.lt_succ_iff_lt_or_eq.mp hr with hlt | rfl
          · exact ih r hlt
          · exact Bool.not_eq_true _ ▸ hn
        | some q =>
          obtain ⟨hq, hqshed, hbefore⟩ := ih
          refine ⟨by omega, hqshed, fun r hr hshed => ?_⟩
          rcases Nat.lt_succ_iff_lt_or_eq.mp hr with hlt | rfl
          · exact hbefore r hlt hshed
          · exact absurd hshed hn
  exact hloop 16

/-- The port that is restored next: SHED for a reason the test accepts, and before every other such port. -/
theorem State.restorePick_some {reason : Nat → Bool} {p : Nat} (h : s.restorePick reason = some p) : p < 16 ∧ s.pst p = 4 ∧ reason (s.shr p) = true
    ∧ ∀ r, r < 16 → s.pst r = 4 → reason (s.shr r) = true → s.pclass p < s.pclass r ∨ (s.pclass p = s.pclass r ∧ p ≤ r) := by
  rw [State.restorePick, List.find?_map, Option.map_map, Option.map_eq_some_iff] at h
  obtain ⟨i, hfind, rfl⟩ := h
  obtain ⟨htest, hi, hfirst⟩ := List.find?_range_eq_some.mp hfind
  simp only [Function.comp, Bool.and_eq_true, beq_iff_eq] at htest hfirst ⊢
  obtain ⟨⟨hshed, hclass⟩, hreason⟩ := htest
  refine ⟨by omega, hshed, hreason, fun r hr hr4 hrr => ?_⟩
  have hlate : ¬ 16 * s.pclass r + r < i := fun hlt => by
    have := hfirst _ hlt
    rw [show (16 * s.pclass r + r) / 16 = s.pclass r by omega, show (16 * s.pclass r + r) % 16 = r by omega] at this
    simp [hr4, hrr] at this
  omega

end

end Sys2Proof.Machine

namespace Sys2Proof.Machine

/-! The budget's restore, the storage bank's charge, the sequencer tables (R473 to R475, R478). -/

section
variable (s : State)

theorem State.setSstate_sstate {st : Nat} (h : st < 8) : (s.setSstate st).sstate = st := by
  rw [State.sstate, State.setSstate, State.reg_modReg_self, fld_setFld_self _ _ _ _ (by decide) (by decide)]
  exact Nat.mod_eq_of_lt h

/-- A moment noted is n old. -/
theorem any_due {o : Option Nat} {d n now : Nat} (ho : o = some d) (hlate : d + n ≤ now) : o.any (fun t => decide (t + n ≤ now)) = true := by
  rw [ho]
  exact decide_eq_true hlate

/-- A port restored stands in INRUSH, which PEVENT bit 4 says. -/
theorem State.portRestore_restores {p : Nat} (hp : p < 16) : (s.portRestore p).pst p = 1 ∧ bit ((s.portRestore p).preg p 0x101C) 4 = true := by
  refine ⟨?_, State.pevent_bit _ _ _ (by decide)⟩
  rw [State.portRestore, State.pst, State.preg, State.pevent_reg, State.reg_setReg _ _ (by omega) (by omega) (by decide) (by decide), if_neg (by omega)]
  exact s.portInrush_pst hp

/-- The restores of R473 from the moment the port to restore is picked. -/
def State.restorePicked (s : State) (pick : Option Nat) : State :=
  let t := match pick with
    | some p => s.portRestore p
    | none => s
  if (t.restorePick (· == 0)).isNone then t.modBus (fun b => { b with charge := none }) else t

theorem State.budgetRestore_eq : s.budgetRestore =
    if s.bstate ≠ 0 ∨ s.bus.cwLost = true ∨ s.bus.lowSince.any (fun t => decide (t + 1000000 ≤ s.now)) = false then s
    else (s.modBus (fun b => { b with lowSince := some s.now })).restorePicked ((s.modBus (fun b => { b with lowSince := some s.now })).restorePick (· == 0)) := rfl

theorem State.restorePicked_some (p : Nat) : s.restorePicked (some p)
    = if ((s.portRestore p).restorePick (· == 0)).isNone then (s.portRestore p).modBus (fun b => { b with charge := none }) else s.portRestore p := rfl

theorem State.restorePick_modBus (f : BusDie → BusDie) (reason : Nat → Bool) : (s.modBus f).restorePick reason = s.restorePick reason := rfl

/-- The budget's restore of the port that is next (R473). -/
theorem State.budgetRestore_restores {d p : Nat} (hstate : s.bstate = 0) (hlost : s.bus.cwLost = false) (hlow : s.bus.lowSince = some d)
    (hlate : d + 1000000 ≤ s.now) (hpick : s.restorePick (· == 0) = some p) :
    s.budgetRestore = (s.modBus (fun b => { b with lowSince := some s.now })).restorePicked (some p) := by
  have hready : ¬ (s.bstate ≠ 0 ∨ s.bus.cwLost = true ∨ s.bus.lowSince.any (fun t => decide (t + 1000000 ≤ s.now)) = false) := by
    rw [any_due hlow hlate]
    simp [hstate, hlost]
  have hfirst : (s.modBus (fun b => { b with lowSince := some s.now })).restorePick (· == 0) = some p := (s.restorePick_modBus _ _).trans hpick
  rw [s.budgetRestore_eq, if_neg hready, hfirst]

theorem State.portRestore_bus (p : Nat) : (s.portRestore p).bus
    = { s.bus with hots := vset s.bus.hots p { s.hot p with due := none, hot := false, inrush := some s.now } } := by
  rw [State.portRestore, State.pevent_bus, State.portInrush_bus]

/-! The evaluation of charging (R474). -/

variable {own : BitVec 8} (hashed : s.bus.convAshed = false) (hdis : s.sstate ≠ 4) (hen : bit (s.reg 0x083 0x1000) 31 = true) (hnormal : s.bstate = 0)
  (hown : ∀ k, k < 8 → bit (s.tab (0x1340 + 4 * k)) 16 = false)

include hown in
/-- With no sensor of the bank's own, the bus die's temperature picks the row. -/
theorem State.noStoreSensor : (List.range 8).any (fun k => bit (s.tab (0x1340 + 4 * k)) 16) = false :=
  List.any_eq_false.mpr fun k hk => by simp [hown k (List.mem_range.mp hk)]

include hashed hdis hen hnormal hown

theorem State.chargeEval_charges {r : Nat} (hrow : s.chargeRow own.toInt = some r) (hlow : s.vstore < s.rowVcv r)
    (hempty : 100 * s.vstore < 98 * s.rowVcv r) :
    s.chargeEval own = ((s.modBus (fun b => { b with row := some r })).modBus (fun b => { b with fullSince := none })).setSstate 1 := by
  unfold State.chargeEval
  rw [if_neg (by simp [hashed, hdis]), if_neg (by simp [hen, hnormal])]
  simp only [s.noStoreSensor hown, Bool.false_eq_true, if_false, hrow]
  rw [if_neg (fun h => Nat.not_le.mpr hempty h.2), if_pos hlow]

theorem State.chargeEval_stops (hrow : s.chargeRow own.toInt = none) : s.chargeEval own
    = if s.sstate = 5 then (s.modBus (fun b => { b with row := none, fullSince := none })).setSstate 5
      else ((s.modBus (fun b => { b with row := none, fullSince := none })).setSstate 5).sevent 2 := by
  unfold State.chargeEval
  rw [if_neg (by simp [hashed, hdis]), if_neg (by simp [hen, hnormal])]
  simp only [s.noStoreSensor hown, Bool.false_eq_true, if_false, hrow]

end

/-! The sequencer tables (R478). -/

/-- A table read after its words were loaded. -/
theorem Sparse.get_foldl_write {V : Type} [DecidableEq V] (d f : Nat → V) (l : List Nat) (m : List (Nat × V)) (o : Nat) :
    Sparse.get (d o) o (l.foldl (fun t o => Sparse.write (d o) o (f o) t) m) = if o ∈ l then f o else Sparse.get (d o) o m := by
  induction l generalizing m with
  | nil => simp
  | cons a l ih =>
    rw [List.foldl_cons, ih]
    by_cases ho : o ∈ l
    · rw [if_pos ho, if_pos (List.mem_cons_of_mem a ho)]
    · rw [if_neg ho]
      by_cases hoa : o = a
      · subst hoa
        rw [Sparse.get_write, if_pos rfl, if_pos List.mem_cons_self]
      · rw [Sparse.get_write_ne _ _ _ _ hoa, if_neg (by simp [hoa, ho])]

section
variable (s : State) (v : Word)

theorem State.cwNoted_reg (a o : Nat) : s.cwNoted.reg a o = s.reg a o := s.modBus_reg _ a o
theorem State.cwNoted_tableOk (n : Nat) : s.cwNoted.tableOk n = s.tableOk n := by
  unfold State.tableOk State.curveOk
  simp only [State.cwNoted_reg]

/-- A table in range taken into use. -/
def State.tableUsed (s : State) (n : Nat) : State :=
  ((s.modBus (fun b => { b with tabs := (tableWords n).foldl (fun t o => Sparse.write (regReset .trade 0x082 o) o (s.reg 0x082 o) t) b.tabs })).setReg 0x082
    0x1000 (BitVec.ofNat 32 n)).raise 290

theorem State.tapply_ok (h : s.tableOk (fld v 3 0) = true) : s.tapply v = (s.tableUsed (fld v 3 0), .ok 0) := if_pos h
theorem State.tapply_bad (h : s.tableOk (fld v 3 0) = false) :
    s.tapply v = ((s.modReg 0x082 0x1000 (fun v => setBit v 31 true)).raise 290, .err busErr) := if_neg (by rw [h]; decide)

theorem State.tableUsed_tab (n o : Nat) : (s.tableUsed n).tab o = if o ∈ tableWords n then s.reg 0x082 o else s.tab o := by
  have hbus : (s.tableUsed n).bus.tabs
      = (tableWords n).foldl (fun t o => Sparse.write (regReset .trade 0x082 o) o (s.reg 0x082 o) t) s.bus.tabs := by
    simp [State.tableUsed]
  rw [State.tab, hbus, Sparse.get_foldl_write (regReset .trade 0x082)]
  rfl

/-- SCTL, RTCTL, SFLOOR and SCAP take what they are given while the converter is not ASHED (R475). -/
theorem State.storageWrite_plain {o : Nat} (h : s.bus.convAshed = false) : s.storageWrite o v = s.plainWrite .trade 0x083 o v := by
  unfold State.storageWrite
  exact if_neg (by simp [h])

end

/-- Settles O43: the tick by what it puts into the registers, sheds and restores by the port they pick, the charge by the row for the temperature. -/
theorem budgetKept : Obligations.BudgetKept := by
  intro s q v seen
  have hslot : (0x081 ≤ 0x081 ∧ 0x081 ≤ 0x083) ∨ (0x090 ≤ 0x081 ∧ 0x081 ≤ 0x09F) := by decide
  refine ⟨?tick, ?shed, ?cut, ?picked, ?restore, ?restored, ?ceil, ?range, ?idle, ?charges, ?stops, ?full, rfl, ?registers, ?apply, ?refuse⟩
  case tick =>
    intro m i ceil
    obtain ⟨hibus, hover, hvbus, hvstore⟩ := s.measured_values m
    obtain ⟨hsince, hlow⟩ := s.budgetTick_bus m
    have hreg : ∀ a o, a < 0x1000 → o < 0x10000 → ¬ (a = 0x081 ∧ o = 0x1018) → (s.budgetTick m).reg a o = (s.measured m).reg a o :=
      fun a o ha ho hne => s.budgetTick_reg m ha ho hne
    refine ⟨s.budgetTick m, rfl, (hreg _ _ (by decide) (by decide) (by decide)).trans hibus, ?_, ?_, ?_, ?_, hlow, fun p hp => ⟨?_, ?_⟩⟩
    · exact (congrArg (bit · 28) (hreg 0x081 0x1000 (by decide) (by decide) (by decide))).trans hover
    · rw [hreg _ _ (by decide) (by decide) (by decide), hvbus]
    · exact (congrArg (fld · 15 0) (hreg 0x083 0x1010 (by decide) (by decide) (by decide))).trans hvstore
    · rw [hsince, State.overCeil]
      simp only [decide_eq_true_eq]
      rfl
    · exact (hreg _ _ (by omega) (by decide) (by omega)).trans ((s.measured_port m hp (by decide)).trans (s.measurePorts_imeas m hp))
    · have hword : (s.budgetTick m).preg p 0x1004 = (s.measurePorts m).preg p 0x1004 :=
        (hreg _ _ (by omega) (by decide) (by omega)).trans (s.measured_port m hp (by decide))
      exact (congrArg (fld · 31 29) hword).trans (s.measurePorts_pst m hp)
  case shed =>
    intro d p hsince hlate hcharging hpick
    refine congrArg Host.Outcome.next ?_
    have hcharging' : (s.modBus (fun b => { b with overSince := some s.now })).charging = false := hcharging
    have hpick' : (s.modBus (fun b => { b with overSince := some s.now })).shedPick 1 = some p := hpick
    unfold State.budgetShed
    rw [if_neg (by simp [hsince, hlate])]
    simp only [hcharging', Bool.false_eq_true, if_false, hpick']
  case cut =>
    intro d hsince hlate hcharging
    have hcharging' : (s.modBus (fun b => { b with overSince := some s.now })).charging = true := hcharging
    refine ⟨_, congrArg Host.Outcome.next ((if_neg (by simp [hsince, hlate])).trans (if_pos hcharging')), ?_, ?_⟩
    · intro p hp
      cases p <;> simp [State.agrees] at hp ⊢
    · simp only [State.modBus_bus]
  case picked =>
    intro p hpick
    have hfound := s.shedPick_found 1
    rw [hpick] at hfound
    obtain ⟨hp, hshed, hfirst⟩ := hfound
    simp only [State.sheddable, Bool.and_eq_true, Bool.or_eq_true, beq_iff_eq, decide_eq_true_eq] at hshed hfirst
    exact ⟨hp, hshed.2, hshed.1, fun r hr hrun hclass => (hfirst r hr ⟨hrun, hclass⟩)⟩
  case restore =>
    intro d p hstate hlost hlow hlate hpick
    obtain ⟨hp, -, -, -⟩ := s.restorePick_some hpick
    obtain ⟨hpst, hevent⟩ := (s.modBus (fun b => { b with lowSince := some s.now })).portRestore_restores hp
    have hsince : ((s.modBus (fun b => { b with lowSince := some s.now })).portRestore p).bus.lowSince = some s.now := by rw [State.portRestore_bus]; rfl
    refine ⟨s.budgetRestore, rfl, ?_⟩
    rw [s.budgetRestore_restores hstate hlost hlow hlate hpick, State.restorePicked_some]
    split
    · exact ⟨hpst, hsince, hevent⟩
    · exact ⟨hpst, hsince, hevent⟩
  case restored =>
    intro p hpick
    obtain ⟨hp, hshed, hreason, hfirst⟩ := s.restorePick_some hpick
    exact ⟨hp, hshed, by simpa using hreason, fun r hr hr4 hr0 => hfirst r hr hr4 (by simpa using hr0)⟩
  case ceil =>
    intro hadmits hlo hhi
    exact regWrite_power hadmits hslot (by decide) (by decide) (if_neg (by omega))
  case range =>
    intro hadmits hout
    exact regWrite_power hadmits hslot (by decide) (by decide) (if_pos hout)
  case idle =>
    intro own h
    exact congrArg Host.Outcome.next (if_pos h)
  case charges =>
    intro own r hashed hdis hen hnormal hown hrow hlow hempty
    refine ⟨_, congrArg Host.Outcome.next (s.chargeEval_charges hashed hdis hen hnormal hown hrow hlow hempty), State.setSstate_sstate _ (by decide), ?_, ?_⟩
    · simp [State.setSstate]
    · simp [State.setSstate]
  case stops =>
    intro own hashed hdis hen hnormal hown hrow
    refine ⟨s.chargeEval own, rfl, ?_⟩
    rw [s.chargeEval_stops hashed hdis hen hnormal hown hrow]
    split
    · rename_i h5
      exact ⟨State.setSstate_sstate _ (by decide), by simp [State.setSstate], fun h => absurd h5 h⟩
    · refine ⟨?_, by simp [State.setSstate, State.sevent], fun _ => ?_⟩
      · rw [State.sstate, State.sevent_reg, State.reg_modReg _ _ (by decide) (by decide) (by decide) (by decide), if_neg (by decide)]
        exact State.setSstate_sstate _ (by decide)
      · rw [State.sevent_reg, State.reg_modReg_self]
        exact bit_or_of_bits _ _ (by decide)
  case full =>
    intro d hstate hsince hlate
    refine congrArg Host.Outcome.next ?_
    unfold State.chargeFull
    exact if_pos ⟨hstate, any_due hsince hlate⟩
  case registers =>
    intro off hadmits hashed
    have hoff := off.isLt
    have hwrite : s.cwNoted.powerWrite 0x083 (0x1000 + off.toNat / 4 * 4) v = (s.cwNoted.storageWrite (0x1000 + off.toNat / 4 * 4) v, .ok 0) := by
      rcases (by omega : off.toNat / 4 = 0 ∨ off.toNat / 4 = 1 ∨ off.toNat / 4 = 2 ∨ off.toNat / 4 = 3) with h | h | h | h <;> rw [h] <;> rfl
    rw [s.cwNoted.storageWrite_plain v hashed] at hwrite
    exact regWrite_power hadmits (by decide) (by omega) (by omega) hwrite
  case apply =>
    intro hadmits hok
    have hok' : s.cwNoted.tableOk (fld v 3 0) = true := (s.cwNoted_tableOk _).trans hok
    refine ⟨_, regWrite_power hadmits (by decide) (by decide) (by decide) (State.tapply_ok _ v hok'), ?_, fun o ho => ?_, fun o ho => ?_, rfl⟩
    · simp [State.tableUsed]
    · exact (State.tableUsed_tab _ _ o).trans (if_pos ho)
    · exact (State.tableUsed_tab _ _ o).trans (if_neg ho)
  case refuse =>
    intro hadmits hbad
    have hbad' : s.cwNoted.tableOk (fld v 3 0) = false := (s.cwNoted_tableOk _).trans hbad
    refine ⟨_, regWrite_power hadmits (by decide) (by decide) (by decide) (State.tapply_bad _ v hbad'), ?_, ?_, rfl⟩
    · rw [State.reg_mk, State.raise_reg, State.reg_modReg_self, bit_setBit_self _ _ _ (by decide)]
    · simp [State.cwNoted]

end Sys2Proof.Machine

namespace Sys2Proof.Machine

/-! Which parts of the machine the shared operations change. -/

theorem State.onlyIn_refl (s : State) (l : List Part) : s.onlyIn s l := by
  intro p _
  cases p <;> rfl

/-- One change after another, within the same parts. -/
theorem State.onlyIn_after {s t r : State} {l : List Part} (h : s.onlyIn t l) (h' : t.onlyIn r l) : s.onlyIn r l :=
  State.onlyIn_trans h h' (List.Subset.refl l) (List.Subset.refl l)

/-- A loop whose rounds stay within some parts stays within them. -/
theorem State.onlyIn_foldl {α : Type} {f : State → α → State} {l : List Part} (h : ∀ s a, State.onlyIn s (f s a) l) (as : List α) (s : State) :
    s.onlyIn (as.foldl f s) l := by
  induction as generalizing s with
  | nil => exact s.onlyIn_refl l
  | cons a as ih => exact State.onlyIn_after (h s a) (ih _)

/-- Either way of a decision. -/
theorem State.onlyIn_ite {s a b : State} {l : List Part} {c : Prop} [Decidable c] (h : s.onlyIn a l) (h' : s.onlyIn b l) :
    s.onlyIn (if c then a else b) l := by
  split
  · exact h
  · exact h'

section
variable (s : State)

theorem State.modReg_onlyIn (slot off : Nat) (f : Word → Word) : s.onlyIn (s.modReg slot off f) [.regs] := by
  intro p hp
  cases p <;> simp [State.agrees] at hp ⊢
theorem State.setReg_onlyIn (slot off : Nat) (v : Word) : s.onlyIn (s.setReg slot off v) [.regs] := s.modReg_onlyIn slot off fun _ => v
theorem State.raise_onlyIn (i : Nat) : s.onlyIn (s.raise i) [.irq] := by
  intro p hp
  cases p <;> simp [State.agrees] at hp ⊢
theorem State.setLine_onlyIn (i : Nat) (b : Bool) : s.onlyIn (s.setLine i b) [.irq] := by
  intro p hp
  cases p <;> simp [State.agrees] at hp ⊢
theorem State.event_onlyIn (slot off irq : Nat) (bits : Word) : s.onlyIn (s.event slot off irq bits) [.regs, .irq] :=
  State.onlyIn_trans (s.modReg_onlyIn slot off _) (State.setLine_onlyIn _ irq true) (by decide) (by decide)
theorem State.newEvent_onlyIn (slot off irq : Nat) (bits : Word) : s.onlyIn (s.newEvent slot off irq bits) [.regs, .irq] := by
  obtain ⟨x, hx⟩ := s.newEvent_eq slot off irq bits
  rw [hx]
  intro p hp
  cases p <;> simp [State.agrees] at hp ⊢
theorem State.modTile_onlyIn (t : TileId) (f : Tile → Tile) : s.onlyIn (s.modTile t f) [.tiles] := by
  intro p hp
  cases p <;> simp [State.agrees] at hp ⊢
theorem State.setTile_onlyIn (t : TileId) (x : Tile) : s.onlyIn (s.setTile t x) [.tiles] := by
  intro p hp
  cases p <;> simp [State.agrees] at hp ⊢
theorem State.modStore_onlyIn (f : CtxStore → CtxStore) : s.onlyIn (s.modStore f) [.store] := by
  intro p hp
  cases p <;> simp [State.agrees] at hp ⊢
theorem State.modBus_onlyIn (f : BusDie → BusDie) : s.onlyIn (s.modBus f) [.bus] := by
  intro p hp
  cases p <;> simp [State.agrees] at hp ⊢
theorem State.modLedger_onlyIn (f : Ledger → Ledger) : s.onlyIn (s.modLedger f) [.ledger] := by
  intro p hp
  cases p <;> simp [State.agrees] at hp ⊢

/-! A tile's contexts taken out of it (R237, R238, R498, R541). -/

theorem State.putSlot_onlyIn (n : CtxId) (c : Ctx) : s.onlyIn (s.putSlot n c) [.store] := s.modStore_onlyIn _
theorem State.writeBanks_onlyIn (t : TileId) : s.onlyIn (s.writeBanks t) [.store] := by
  unfold State.writeBanks
  dsimp only
  refine State.onlyIn_after (State.onlyIn_foldl ?_ (s.tile t).spill s) (State.onlyIn_foldl ?_ (List.range 7) _)
  · exact fun u c => u.putSlot_onlyIn c.num c.ctx
  · exact fun u b => State.onlyIn_ite (u.putSlot_onlyIn _ _) (u.onlyIn_refl _)
theorem State.tileFlush_onlyIn (t : TileId) : s.onlyIn (s.tileFlush t) [.tiles, .store] :=
  State.onlyIn_trans (s.modTile_onlyIn t _) (State.writeBanks_onlyIn _ t) (by decide) (by decide)
theorem State.badBanks_onlyIn (x : Tile) (bad : BitVec 7) : s.onlyIn (s.badBanks x bad) [.store] := by
  unfold State.badBanks
  exact State.onlyIn_foldl (fun u b => State.onlyIn_ite (u.putSlot_onlyIn _ _) (u.onlyIn_refl _)) (List.range 7) s
theorem State.modCtx_onlyIn (n : CtxId) (f : Ctx → Ctx) : s.onlyIn (s.modCtx n f) [.tiles, .store] := by
  unfold State.modCtx
  split
  · exact State.onlyIn_mono (s.modTile_onlyIn _ _) (by decide)
  · exact State.onlyIn_mono (s.modTile_onlyIn _ _) (by decide)
  · exact State.onlyIn_mono (s.modTile_onlyIn _ _) (by decide)
  · exact State.onlyIn_mono (s.modStore_onlyIn _) (by decide)
theorem State.markCtx_onlyIn (b : Nat) (n : CtxId) : s.onlyIn (s.markCtx b n) [.tiles, .store] := s.modCtx_onlyIn n _

/-- A tile that is ashed changes itself, the context store and the interrupts (R237, R238). -/
theorem State.ashTile_onlyIn (t : TileId) (bad : BitVec 7) : s.onlyIn (s.ashTile t bad) [.tiles, .store, .irq] := by
  unfold State.ashTile
  refine State.onlyIn_ite (s.onlyIn_refl _) ?_
  dsimp only
  refine State.onlyIn_after ?_ (State.onlyIn_mono (State.raise_onlyIn _ 37) (by decide))
  refine State.onlyIn_after ?_ (State.onlyIn_mono (State.raise_onlyIn _ 36) (by decide))
  have hcleared : ∀ x : Tile, s.onlyIn (((s.tileFlush t).badBanks ((s.tileFlush t).tile t) bad).setTile t x) [.tiles, .store, .irq] := fun x =>
    State.onlyIn_after (State.onlyIn_after (State.onlyIn_mono (s.tileFlush_onlyIn t) (by decide))
      (State.onlyIn_mono (State.badBanks_onlyIn _ _ bad) (by decide))) (State.onlyIn_mono (State.setTile_onlyIn _ t x) (by decide))
  have hmark : ∀ (u : State) (b : Nat) (n : CtxId), u.onlyIn (u.markCtx b n) [.tiles, .store, .irq] :=
    fun u b n => State.onlyIn_mono (u.markCtx_onlyIn b n) (by decide)
  have hmarked : ∀ u, s.onlyIn u [.tiles, .store, .irq] → ∀ (o : Option CtxId), s.onlyIn (match o with
      | some n => u.markCtx 26 n
      | none => u) [.tiles, .store, .irq] := by
    rintro u hu (_ | n)
    · exact hu
    · exact State.onlyIn_after hu (hmark u 26 n)
  have hshadows : ∀ (x : Tile) (u : State), s.onlyIn u [.tiles, .store, .irq] →
      s.onlyIn ([World.trade, World.opn].foldl (fun s w => if x.shadowHeld w false then s.markCtx 26 (x.uctx w) else s) u) [.tiles, .store, .irq] :=
    fun x u hu => State.onlyIn_after hu (State.onlyIn_foldl (fun v w => State.onlyIn_ite (hmark v 26 _) (v.onlyIn_refl _)) _ u)
  refine State.onlyIn_ite (State.onlyIn_after ?_ (hmark _ 27 _)) ?_ <;> exact hshadows _ _ (hmarked _ (hcleared _) _)

/-! Ports and lanes. -/

theorem State.raiseLatch_onlyIn (i : Nat) : s.onlyIn (s.raiseLatch i) [.irq] := by
  obtain ⟨x, hx⟩ := s.raiseLatch_eq i
  rw [hx]
  intro p hp
  cases p <;> simp [State.agrees] at hp ⊢
theorem State.setPst_onlyIn (p st : Nat) : s.onlyIn (s.setPst p st) [.regs, .irq] :=
  State.onlyIn_ite (s.onlyIn_refl _) (State.onlyIn_trans (s.modReg_onlyIn _ _ _) (State.newEvent_onlyIn _ _ _ _ _) (by decide) (by decide))
theorem State.modHot_onlyIn (p : Nat) (f : Hot → Hot) : s.onlyIn (s.modHot p f) [.bus] := s.modBus_onlyIn _
theorem State.portOff_onlyIn (p : Nat) : s.onlyIn (s.portOff p) [.regs, .irq, .bus] :=
  State.onlyIn_trans (s.modHot_onlyIn p _) (State.setPst_onlyIn _ p 0) (by decide) (by decide)
theorem State.portClear_onlyIn (p : Nat) : s.onlyIn (s.portClear p) [.regs, .irq, .bus] :=
  State.onlyIn_ite (s.onlyIn_refl _) (State.onlyIn_after (State.onlyIn_after (State.onlyIn_after (State.onlyIn_mono (s.modReg_onlyIn _ _ _) (by decide))
    (State.onlyIn_mono (State.modReg_onlyIn _ _ _ _) (by decide))) (State.onlyIn_mono (State.modHot_onlyIn _ p _) (by decide))) (State.portOff_onlyIn _ p))
theorem State.modLane_onlyIn (n : Nat) (f : Lane → Lane) : s.onlyIn (s.modLane n f) [.lanes] := by
  intro p hp
  cases p <;> simp [State.agrees] at hp ⊢
theorem State.setLstate_onlyIn (n st : Nat) : s.onlyIn (s.setLstate n st) [.regs, .irq] :=
  State.onlyIn_ite (s.onlyIn_refl _) (State.onlyIn_trans (s.modReg_onlyIn _ _ _) (State.raiseLatch_onlyIn _ _) (by decide) (by decide))
theorem State.laneClear_onlyIn (n : Nat) : s.onlyIn (s.laneClear n) [.regs, .irq, .lanes] :=
  State.onlyIn_ite (s.onlyIn_refl _) (State.onlyIn_after (State.onlyIn_after (State.onlyIn_mono (s.modReg_onlyIn _ _ _) (by decide))
    (State.onlyIn_mono (State.modLane_onlyIn _ n _) (by decide))) (State.onlyIn_mono (State.setLstate_onlyIn _ n 0) (by decide)))

end

end Sys2Proof.Machine

namespace Sys2Proof.Machine

/-! Upsets counted in the ledger's records, and records cleared (R479, R480, R484). LAST as the time block's time, and a clear that keeps an ASHED record, are
the model's choices (log 33). -/

section
variable (s : State)

theorem ridClass_eq_two {rid : Nat} (h : ridClass rid = 2) : rid = 32 ∨ rid = 33 := by
  unfold ridClass at h
  split_ifs at h <;> omega

/-- A record read after one was written. -/
theorem State.lrec_setLrec (rid i : Nat) (r : LRec) : (s.setLrec rid r).lrec i = if i = rid then r else s.lrec i := Sparse.get_write _ _ _ _ _

theorem State.lrec_congr {s t : State} (h : t.ledger = s.ledger) (i : Nat) : t.lrec i = s.lrec i := by
  rw [State.lrec, State.lrec, h]

/-- What the block concerned does leaves the records and LEVENT. -/
def State.keepsLedger (s t : State) : Prop := t.ledger = s.ledger ∧ t.reg 0x00F 0x1200 = s.reg 0x00F 0x1200

theorem State.keepsLedger_of_onlyIn {s t : State} {l : List Part} (h : s.onlyIn t l) (hl : .ledger ∉ l) (hr : .regs ∉ l) : s.keepsLedger t :=
  ⟨h .ledger hl, State.regW_congr (h .regs hr)⟩

theorem State.ashBlock_keepsLedger (rid : Nat) (bad : BitVec 7) : s.keepsLedger (s.ashBlock rid bad) := by
  unfold State.ashBlock
  split
  · rename_i hclass
    rcases ridClass_eq_two hclass with rfl | rfl <;>
      exact ⟨State.modReg_ledger .., by rw [State.reg_modReg _ _ (by decide) (by decide) (by decide) (by decide), if_neg (by decide)]⟩
  · exact ⟨rfl, rfl⟩
  · exact State.keepsLedger_of_onlyIn (s.ashTile_onlyIn _ bad) (by decide) (by decide)
  · split
    · refine ⟨rfl, ?_⟩
      simp (disch := decide) [State.convAsh, State.setSstate, State.reg_modReg]
    · exact ⟨rfl, rfl⟩
  · exact ⟨rfl, rfl⟩

theorem State.holdBlock_keepsLedger (rid retry : Nat) : s.keepsLedger (s.holdBlock rid retry) := by
  unfold State.holdBlock
  split <;> exact ⟨rfl, rfl⟩

/-- A block told that its record was cleared. -/
theorem State.tellBlock_ledger (rid : Nat) : (s.tellBlock rid).ledger = s.ledger := by
  unfold State.tellBlock
  split
  · exact s.portClear_onlyIn rid .ledger (by decide)
  · exact s.laneClear_onlyIn (rid - 16) .ledger (by decide)
  · rfl
  · rfl
  · split
    · unfold State.convClear
      split <;> rfl
    · rfl
  · rfl

/-! An upset of a record that counts in a window. -/

/-- The upsets of a record in its class's window, this one included. -/
def State.windowTimes (s : State) (rid : Nat) : List Nat :=
  s.now :: (s.lrec rid).times.filter (fun t => decide (s.now < t + s.lwindow (ridClass rid)))

/-- An upset ashes its record, or finds it ashed (R479). -/
def State.upsetAshes (s : State) (rid : Nat) (hard : Bool) : Bool :=
  (s.lrec rid).st == 2 || (s.lthresh rid != 0 && (decide (s.lthresh rid ≤ (s.windowTimes rid).length) || (hard && (ridClass rid == 4 || ridClass rid == 5 || ridClass rid == 8))))

/-- The block concerned waits its back-off after an upset. -/
def State.upsetWaits (s : State) (rid : Nat) (hard : Bool) : Bool :=
  !s.upsetAshes rid hard && s.lthresh rid != 0 && (ridClass rid == 2 || ridClass rid == 3)

/-- A record with an upset counted in it, where its class is none that counts by address. -/
def State.upsetRec (s : State) (rid : Nat) (u : Upset) (kind : Nat) : LRec :=
  { st := if s.upsetAshes rid u.hard then 2 else if s.lthresh rid = 0 then 3 else if s.upsetWaits rid u.hard then 1 else 0
    upsets := min (s.windowTimes rid).length 255, kind := kind
    retry := if s.upsetWaits rid u.hard then min ((s.windowTimes rid).length - 1) 3 else (s.lrec rid).retry
    total := ((s.lrec rid).total + 1) % 2 ^ 32, addr := if 8 ≤ ridClass rid then u.pa / 16 else 0
    first := if (s.lrec rid).total = 0 then s.ptp else (s.lrec rid).first, last := s.ptp, times := s.windowTimes rid }

variable {s} {rid k : Nat} {u : Upset} (hkind : u.kind = some k) (hfive : ridClass rid ≠ 5) (height : ridClass rid ≠ 8) (hwin : 0 < s.lwindow (ridClass rid))
include hkind hfive height hwin

theorem State.countUpset_eq (bad : BitVec 7) : s.countUpset rid u bad
    = if s.upsetAshes rid u.hard && (s.lrec rid).st != 2 then ((s.setLrec rid (s.upsetRec rid u k)).levent 1).ashRecord rid bad
      else if s.upsetWaits rid u.hard then ((s.setLrec rid (s.upsetRec rid u k)).levent 1).holdBlock rid (min ((s.windowTimes rid).length - 1) 3)
      else (s.setLrec rid (s.upsetRec rid u k)).levent 1 := by
  have hne : s.lwindow (ridClass rid) ≠ 0 := Nat.pos_iff_ne_zero.mp hwin
  simp only [State.countUpset, hkind, hfive, height, ne_eq, not_false_eq_true, and_self, decide_true, Bool.true_or, if_true, hne, false_and, if_false,
    decide_false, Bool.false_or, false_or, Option.isNone_some, Bool.false_eq_true, Option.getD_some]
  rfl

/-- What an upset leaves of the ledger: the record it counts in, and LEVENT bit 0. -/
theorem State.countUpset_leaves (bad : BitVec 7) : (∀ i, (s.countUpset rid u bad).lrec i = if i = rid then s.upsetRec rid u k else s.lrec i)
    ∧ bit ((s.countUpset rid u bad).reg 0x00F 0x1200) 0 = true := by
  have hcounted : ∀ i, ((s.setLrec rid (s.upsetRec rid u k)).levent 1).lrec i = if i = rid then s.upsetRec rid u k else s.lrec i := fun i =>
    (State.lrec_congr (State.event_ledger _ _ _ _ _) i).trans (s.lrec_setLrec rid i _)
  have hword : ∀ (t : State) (bits : Word), (t.levent bits).reg 0x00F 0x1200 = t.reg 0x00F 0x1200 ||| bits := fun t bits => by
    rw [State.levent, State.event, State.setLine_reg, State.reg_modReg_self]
  have hevent : bit (((s.setLrec rid (s.upsetRec rid u k)).levent 1).reg 0x00F 0x1200) 0 = true := by
    rw [hword]
    exact bit_or_of_bits _ _ (by decide)
  rw [State.countUpset_eq hkind hfive height hwin]
  split
  · obtain ⟨hledger, hreg⟩ := State.ashBlock_keepsLedger ((s.setLrec rid (s.upsetRec rid u k)).levent 1) rid bad
    refine ⟨fun i => (State.lrec_congr ((State.event_ledger _ _ _ _ _).trans hledger) i).trans (hcounted i), ?_⟩
    rw [State.ashRecord, hword, hreg, bit, BitVec.getLsbD_or, ← bit, hevent, Bool.true_or]
  · split
    · obtain ⟨hledger, hreg⟩ := State.holdBlock_keepsLedger ((s.setLrec rid (s.upsetRec rid u k)).levent 1) rid (min ((s.windowTimes rid).length - 1) 3)
      exact ⟨fun i => (State.lrec_congr hledger i).trans (hcounted i), by rw [hreg, hevent]⟩
    · exact ⟨hcounted, hevent⟩

end

section
variable (s : State) (rid : Nat)

theorem State.clearRec_all : (s.clearRec rid true) = (s.setLrec rid LRec.reset).tellBlock rid := rfl
theorem State.clearRec_ashed (h : (s.lrec rid).st = 2) : s.clearRec rid false
    = s.setLrec rid { s.lrec rid with upsets := 0, retry := 0, total := 0, first := 0, last := 0, times := [] } := by
  simp [State.clearRec, h]
theorem State.clearRec_live (h : (s.lrec rid).st ≠ 2) : s.clearRec rid false = s.setLrec rid LRec.reset := by
  simp [State.clearRec, h]

theorem State.lrec_clearRec_all (i : Nat) : (s.clearRec rid true).lrec i = if i = rid then LRec.reset else s.lrec i :=
  (State.lrec_congr (State.tellBlock_ledger _ rid) i).trans (s.lrec_setLrec rid i _)

/-- No other record changes. -/
theorem State.lrec_clearRec_ne {i : Nat} (ash : Bool) (hi : i ≠ rid) : (s.clearRec rid ash).lrec i = s.lrec i := by
  cases ash with
  | true => exact (s.lrec_clearRec_all rid i).trans (if_neg hi)
  | false =>
    by_cases h : (s.lrec rid).st = 2
    · rw [s.clearRec_ashed rid h, State.lrec_setLrec, if_neg hi]
    · rw [s.clearRec_live rid h, State.lrec_setLrec, if_neg hi]

end

/-! STATUS of a record after an upset (R479). -/

section
variable (s : State) (rid : Nat) (u : Upset) (k : Nat)

theorem State.upsetRec_ashed (hthresh : s.lthresh rid ≠ 0) (hmany : s.lthresh rid ≤ (s.windowTimes rid).length) : (s.upsetRec rid u k).st = 2 :=
  if_pos (by simp [State.upsetAshes, hthresh, hmany])

theorem State.upsetRec_recorded (hlive : (s.lrec rid).st ≠ 2) (hnone : s.lthresh rid = 0) : (s.upsetRec rid u k).st = 3 :=
  (if_neg (by simp [State.upsetAshes, hnone, hlive])).trans (if_pos hnone)

variable {rid u k}

theorem State.upsetRec_live (hfive : ridClass rid ≠ 5) (height : ridClass rid ≠ 8) (hlive : (s.lrec rid).st ≠ 2)
    (hfew : (s.windowTimes rid).length < s.lthresh rid) (hsoft : u.hard = true → ridClass rid ≠ 4) :
    (s.upsetRec rid u k).st = if ridClass rid = 2 ∨ ridClass rid = 3 then 1 else 0 := by
  have hthresh : s.lthresh rid ≠ 0 := by omega
  have hhard : (u.hard && (ridClass rid == 4 || ridClass rid == 5 || ridClass rid == 8)) = false := by
    cases h : u.hard with
    | false => rfl
    | true => simp [hsoft h, hfive, height]
  have hkept : s.upsetAshes rid u.hard = false := by simp [State.upsetAshes, hhard, hlive, hfew]
  have hwaits : s.upsetWaits rid u.hard = decide (ridClass rid = 2 ∨ ridClass rid = 3) := by
    rw [State.upsetWaits, hkept, bne_iff_ne.mpr hthresh, Bool.decide_or]
    rfl
  simp only [State.upsetRec, hkept, hwaits, if_neg hthresh, decide_eq_true_eq, Bool.false_eq_true, if_false]

end

/-- Settles O47: the record that an upset leaves, by what its window holds; the two ways of a clear. -/
theorem recordsCounted : Obligations.RecordsCounted := by
  refine ⟨fun s rid u bad k => ?upset, fun s rid => ?clear⟩
  case upset =>
    intro c r0 win times t hkind hfive height hwin
    obtain ⟨hrec, hevent⟩ := State.countUpset_leaves hkind hfive height hwin bad
    have hself : t.lrec rid = s.upsetRec rid u k := (hrec rid).trans (if_pos rfl)
    rw [hself]
    refine ⟨rfl, rfl, rfl, rfl, hevent, fun i hi => (hrec i).trans (if_neg hi), fun hthresh hmany => ?_, fun hlive hnone => ?_, fun hlive hfew hsoft => ?_⟩
    · exact s.upsetRec_ashed rid u k hthresh hmany
    · exact s.upsetRec_recorded rid u k hlive hnone
    · exact s.upsetRec_live hfive height hlive hfew hsoft

  case clear =>
    intro r
    refine ⟨(s.lrec_clearRec_all rid rid).trans (if_pos rfl), fun h => ?_, fun h => ?_, fun i ash hi => s.lrec_clearRec_ne rid ash hi⟩
    · rw [s.clearRec_ashed rid h, State.lrec_setLrec, if_pos rfl]
    · rw [s.clearRec_live rid h, State.lrec_setLrec, if_pos rfl]

end Sys2Proof.Machine

namespace Sys2Proof.Machine

/-! The retention scrubber's visit of a line (R504). -/

section
variable (s : State)

/-- The scrubber has moved on to the next line. -/
def State.scrubMoved (s : State) : State := s.modPdc (fun p => { p with scrubAt := (s.pdc.scrubAt + 1) % scrubLines })

/-- An error of line n counted, and noted where the log of 16 has room. -/
def State.scrubCounted (s : State) (off n : Nat) (hard : Bool) : State :=
  (s.modReg 0x02B off (· + 1)).modPdc (fun p => { p with log := if p.log.length < 16 then p.log ++ [{ line := n, hard := hard }] else p.log })

/-- A visit of a line out of DORMANT: its correctable error, then its uncorrectable one. -/
theorem State.scrubLine_visits (hawake : s.dev.st ≠ .dormant) (ce : Bool) (ue : Option (BitVec 3)) : s.scrubLine ce ue
    = (let s1 := if ce then s.scrubMoved.scrubCounted 0x1034 s.pdc.scrubAt false else s.scrubMoved
       ue.elim s1 fun d => (((s1.scrubCounted 0x1038 s.pdc.scrubAt true).scrubMark s.pdc.scrubAt d.toNat).modReg 0x02A 0x1014 (· ||| 2)).raise 55) := by
  unfold State.scrubLine
  rw [if_neg (by simpa using hawake)]
  cases ue <;> rfl

/-- The mark of an uncorrectable error leaves what memory and the context store hold. -/
theorem State.scrubMark_keeps (line d : Nat) : (s.scrubMark line d).mem.bytes = s.mem.bytes ∧ (s.scrubMark line d).store.slots = s.store.slots
    ∧ (s.scrubMark line d).regs = s.regs ∧ (s.scrubMark line d).pdc = s.pdc := by
  unfold State.scrubMark
  split_ifs <;> exact ⟨rfl, rfl, rfl, rfl⟩

section
variable (off n : Nat) (hard : Bool)

theorem State.scrubCounted_regs : (s.scrubCounted off n hard).regs = (s.modReg 0x02B off (· + 1)).regs := rfl
theorem State.scrubCounted_at : (s.scrubCounted off n hard).pdc.scrubAt = s.pdc.scrubAt := rfl
theorem State.scrubCounted_log : (s.scrubCounted off n hard).pdc.log.length = max s.pdc.log.length (min 16 (s.pdc.log.length + 1)) := by
  simp only [State.scrubCounted, State.modPdc_pdc, State.modReg_pdc]
  split
  · rw [List.length_append, List.length_singleton]
    omega
  · omega

end

/-- What a correctable error of the line leaves. -/
def State.ceVisited (s : State) (ce : Bool) : State := if ce then s.scrubMoved.scrubCounted 0x1034 s.pdc.scrubAt false else s.scrubMoved

theorem State.ceVisited_leaves (ce : Bool) : (s.ceVisited ce).pdc.scrubAt = (s.pdc.scrubAt + 1) % 159744
    ∧ (s.ceVisited ce).reg 0x02B 0x1034 = s.reg 0x02B 0x1034 + (if ce = true then 1 else 0)
    ∧ (s.ceVisited ce).reg 0x02B 0x1038 = s.reg 0x02B 0x1038
    ∧ (s.ceVisited ce).pdc.log.length = max s.pdc.log.length (min 16 (s.pdc.log.length + (if ce = true then 1 else 0)))
    ∧ s.regsBut (s.ceVisited ce) [(0x02B, 0x1034)] ∧ s.onlyIn (s.ceVisited ce) [.regs, .pdc] := by
  cases ce with
  | false =>
    refine ⟨rfl, (BitVec.add_zero _).symm, rfl, ?_, State.regsBut_of_eq _ rfl, ?_⟩
    · show s.pdc.log.length = _
      simp
    · intro p hp
      cases p <;> simp [State.agrees, State.ceVisited, State.scrubMoved] at hp ⊢
  | true =>
    have hreg : ∀ a o, (s.ceVisited true).reg a o = (s.modReg 0x02B 0x1034 (· + 1)).reg a o := fun _ _ => State.regW_congr rfl
    refine ⟨rfl, ?_, ?_, s.scrubMoved.scrubCounted_log _ _ _, ?_, ?_⟩
    · rw [hreg, State.reg_modReg_self]
      rfl
    · rw [hreg, State.reg_modReg _ _ (by decide) (by decide) (by decide) (by decide), if_neg (by decide)]
    · exact State.regsBut_congr (State.regsBut_setReg (State.regsBut_of_eq (t := s.scrubMoved) _ rfl) _ (by decide) (by decide) (by decide)) rfl
    · intro p hp
      cases p <;> simp [State.agrees, State.ceVisited, State.scrubCounted, State.scrubMoved] at hp ⊢

/-- What an uncorrectable error of line n leaves. -/
def State.ueVisited (s : State) (n d : Nat) : State := (((s.scrubCounted 0x1038 n true).scrubMark n d).modReg 0x02A 0x1014 (· ||| 2)).raise 55

theorem State.ueVisited_leaves (n d : Nat) : (s.ueVisited n d).pdc.scrubAt = s.pdc.scrubAt
    ∧ (s.ueVisited n d).reg 0x02B 0x1034 = s.reg 0x02B 0x1034 ∧ (s.ueVisited n d).reg 0x02B 0x1038 = s.reg 0x02B 0x1038 + 1
    ∧ bit ((s.ueVisited n d).reg 0x02A 0x1014) 1 = true ∧ (s.ueVisited n d).mem.bytes = s.mem.bytes ∧ (s.ueVisited n d).store.slots = s.store.slots
    ∧ (s.ueVisited n d).pdc.log.length = max s.pdc.log.length (min 16 (s.pdc.log.length + 1))
    ∧ s.regsBut (s.ueVisited n d) [(0x02B, 0x1038), (0x02A, 0x1014)] := by
  obtain ⟨hbytes, hslots, hregs, hpdc⟩ := (s.scrubCounted 0x1038 n true).scrubMark_keeps n d
  have hreg : ∀ a o, ((s.scrubCounted 0x1038 n true).scrubMark n d).reg a o = (s.modReg 0x02B 0x1038 (· + 1)).reg a o := fun a o =>
    (State.regW_congr hregs).trans (State.regW_congr (s.scrubCounted_regs _ _ _))
  rw [State.ueVisited]
  simp only [State.raise_pdc, State.raise_reg, State.raise_mem, State.raise_store, State.modReg_pdc, (State.modReg_frame _ _ _ _).2, State.modReg_store,
    hbytes, hslots, hpdc]
  refine ⟨rfl, ?_, ?_, ?_, rfl, rfl, s.scrubCounted_log _ _ _, ?_⟩
  · simp (disch := decide) [State.reg_modReg, hreg]
  · simp (disch := decide) [State.reg_modReg, hreg]
  · rw [State.reg_modReg_self]
    exact bit_or_of_bits _ _ (by decide)
  · refine State.regsBut_congr (State.regsBut_setReg ?_ _ (by decide) (by decide) (by decide)) (State.raise_regs _ _)
    exact State.regsBut_congr (State.regsBut_setReg (State.regsBut_of_eq _ rfl) _ (by decide) (by decide) (by decide))
      (hregs.trans (s.scrubCounted_regs _ _ _))

end

/-- Settles O52: a visit is what the correctable error leaves, and then what the uncorrectable one does. -/
theorem lineScrubbed : Obligations.LineScrubbed := by
  intro s ce ue
  refine ⟨fun hawake => ?_, fun h => congrArg Host.Outcome.next (if_pos (by rw [h]; rfl))⟩
  obtain ⟨hat, hce, hue, hlog, hbut, honly⟩ := s.ceVisited_leaves ce
  refine ⟨s.scrubLine ce ue, rfl, ?_⟩
  rw [s.scrubLine_visits hawake, ← State.ceVisited]
  cases ue with
  | none =>
    refine ⟨hat, hce, hue.trans (BitVec.add_zero _).symm, nofun, fun _ => ⟨honly .irq (by decide), honly .mem (by decide), honly .store (by decide)⟩,
      congrArg Mem.bytes (honly .mem (by decide)), congrArg CtxStore.slots (honly .store (by decide)), hlog, ?_⟩
    exact fun w a o ha ho hn => hbut w a o ha ho fun hin => hn (by simp_all)
  | some d =>
    obtain ⟨hat', hce', hue', hevent, hbytes, hslots, hlog', hbut'⟩ := (s.ceVisited ce).ueVisited_leaves s.pdc.scrubAt d.toNat
    refine ⟨hat'.trans hat, hce'.trans hce, hue'.trans (congrArg (· + 1) hue), fun _ => hevent, nofun,
      hbytes.trans (congrArg Mem.bytes (honly .mem (by decide))), hslots.trans (congrArg CtxStore.slots (honly .store (by decide))), ?_,
      State.regsBut_trans hbut hbut' (by decide) (by decide)⟩
    refine hlog'.trans ?_
    rw [hlog]
    simp only [Option.isSome_some, if_true]
    omega

end Sys2Proof.Machine

namespace Sys2Proof.Machine

/-! Gating tiles, and the target state (R495 to R497, Table 16-4). -/

section
variable (s : State) (t : TileId)

/-- A gated tile's clock restarts: its gating ends, and an idle device runs. -/
theorem State.gateRestart_due (hpow : (s.tile t).sys.powered = true) (hgate : (s.tile t).sys.gated = true ∨ (s.tile t).sys.gateReq = true)
    (hdue : s.restartDue t = true) : s.gateRestart t
      = if s.dev.st = .idle then (s.modTile t (·.modSys (fun y => { y with gated := false, gateReq := false }))).devRun
        else s.modTile t (·.modSys (fun y => { y with gated := false, gateReq := false })) := by
  have hcond : ((s.tile t).sys.powered && ((s.tile t).sys.gated || (s.tile t).sys.gateReq) && s.restartDue t) = true := by
    rcases hgate with h | h <;> simp [hpow, h, hdue]
  unfold State.gateRestart
  rw [if_pos hcond]
  simp only [beq_iff_eq]

theorem State.gateRestart_not_due (hdue : s.restartDue t = false) : s.gateRestart t = s := by
  unfold State.gateRestart
  rw [if_neg (by simp [hdue])]

theorem State.devRun_onlyIn : s.onlyIn s.devRun [.dev, .pdc] := by
  intro p hp
  cases p <;> simp [State.agrees, State.devRun] at hp ⊢

/-! PSTATE holds the target and the BLOCK bits. -/

theorem State.blocks_lt : s.blocks < 32 := by
  have hbit : ∀ b : Bool, b2n b ≤ 1 := by decide
  have h0 := hbit (s.block 0)
  have h1 := hbit (s.block 1)
  have h2 := hbit (s.block 2)
  have h3 := hbit (s.block 3)
  have h4 := hbit (s.block 4)
  have hsum : s.blocks = b2n (s.block 0) * 1 + (b2n (s.block 1) * 2 + (b2n (s.block 2) * 4 + (b2n (s.block 3) * 8 + (b2n (s.block 4) * 16 + 0)))) := rfl
  omega

theorem State.pstateNow_blocks : fld s.pstateNow 7 3 = s.blocks := by
  rw [State.pstateNow, fld_setFld_self _ _ _ _ (by decide) (by decide)]
  exact Nat.mod_eq_of_lt s.blocks_lt

/-- PSTATE is no register that the target rests on. -/
theorem State.target_evalTarget : s.evalTarget.target = s.target := by
  have hreg : ∀ w a o, a < 0x1000 → o < 0x10000 → ¬ (a = 0x02B ∧ o = 0x1000) → s.evalTarget.regW w a o = s.regW w a o := by
    intro w a o ha ho hne
    rw [State.evalTarget, State.regW_setReg _ _ _ (by decide) ha (by decide) ho, if_neg (by tauto)]
  have hchan : ∀ c ∈ List.range 32, s.evalTarget.chanBusy c = s.chanBusy c := by
    intro c hc
    have hc32 := List.mem_range.mp hc
    simp only [State.chanBusy, State.chan, State.reg]
    rw [hreg _ _ _ (by omega) (by decide) (by omega)]
  have hblock0 : s.evalTarget.block 0 = s.block 0 := rfl
  have hblock1 : s.evalTarget.block 1 = s.block 1 := rfl
  have hblock2 : s.evalTarget.block 2 = s.block 2 := by
    have hany : (List.range 32).any s.evalTarget.chanBusy = (List.range 32).any s.chanBusy := by
      rw [Bool.eq_iff_iff, List.any_eq_true, List.any_eq_true]
      exact exists_congr fun c => and_congr_right fun hc => by rw [hchan c hc]
    have hsweep : s.evalTarget.sweeping = s.sweeping := by
      rw [State.sweeping, State.sweeping, State.reg, State.reg, hreg _ _ _ (by decide) (by decide) (by decide)]
    show s.evalTarget.mastersBusy = s.mastersBusy
    rw [State.mastersBusy, State.mastersBusy, hany, hsweep]
    rfl
  have hblock3 : s.evalTarget.block 3 = s.block 3 := rfl
  have hblock4 : s.evalTarget.block 4 = s.block 4 := by
    have hctxs : s.evalTarget.claimedCtxs = s.claimedCtxs := rfl
    have hctl : s.evalTarget.reg 0x02B 0x1020 = s.reg 0x02B 0x1020 := hreg .trade _ _ (by decide) (by decide) (by decide)
    have hroom : s.evalTarget.dormantRoom = s.dormantRoom := by
      rw [State.dormantRoom, State.dormantRoom, show s.evalTarget.reg 0x02B 0x1024 = s.reg 0x02B 0x1024 from hreg .trade _ _ (by decide) (by decide) (by decide)]
    simp only [State.block, hctxs, hctl, hroom]
  simp only [State.target, hblock0, hblock1, hblock2, hblock3, hblock4]
  rw [hreg _ _ _ (by decide) (by decide) (by decide), hreg _ _ _ (by decide) (by decide) (by decide)]

end

end Sys2Proof.Machine

namespace Sys2Proof.Machine

/-! The parts that a system master's write changes (R56, R145, R449). -/

/-- A loop that carries a state and more, whose rounds stay within some parts. -/
theorem State.onlyIn_foldl_fst {α β : Type} {f : State × β → α → State × β} {l : List Part} (h : ∀ x a, State.onlyIn x.1 (f x a).1 l)
    (as : List α) (x : State × β) : x.1.onlyIn (as.foldl f x).1 l := by
  induction as generalizing x with
  | nil => exact x.1.onlyIn_refl l
  | cons a as ih => exact State.onlyIn_after (h x a) (ih _)

/-- The parts that a write by a system master may change. -/
def storeParts : List Part := [.mem, .regs, .irq, .sealEng, .tiles]

section
variable (s : State) (pa : Nat) (bs : List Byte)

theorem State.memWrite_onlyIn : s.onlyIn (s.memWrite pa bs) [.mem] := by
  intro p hp
  cases p <;> simp [State.agrees] at hp ⊢
theorem State.mapTiles_onlyIn (f : Tile → Tile) : s.onlyIn (s.mapTiles f) [.tiles] := by
  intro p hp
  cases p <;> simp [State.agrees] at hp ⊢
theorem State.dropCopies_onlyIn (n : Nat) : s.onlyIn (s.dropCopies pa n) [.tiles] := by
  intro p hp
  cases p <;> simp [State.agrees] at hp ⊢
theorem State.modSeal_onlyIn (f : Seal → Seal) : s.onlyIn (s.modSeal f) [.sealEng] := by
  intro p hp
  cases p <;> simp [State.agrees] at hp ⊢
theorem State.masterWriteMem_onlyIn : s.onlyIn (s.masterWriteMem pa bs) [.mem, .tiles] :=
  State.onlyIn_trans (s.dropCopies_onlyIn pa _) (State.memWrite_onlyIn _ pa bs) (by decide) (by decide)

theorem State.journalRefuse_onlyIn (line : Nat) : s.onlyIn (s.journalRefuse line) [.regs, .tiles, .irq] :=
  State.onlyIn_after (State.onlyIn_after (State.onlyIn_after (State.onlyIn_after (State.onlyIn_mono (s.modReg_onlyIn _ _ _) (by decide))
    (State.onlyIn_mono (State.modReg_onlyIn _ _ _ _) (by decide))) (State.onlyIn_mono (State.mapTiles_onlyIn _ _) (by decide)))
    (State.onlyIn_mono (State.raise_onlyIn _ 47) (by decide))) (State.onlyIn_mono (State.event_onlyIn _ _ _ _ _) (by decide))

theorem State.emramStore_onlyIn : s.onlyIn (s.emramStore pa bs).1 storeParts := by
  unfold State.emramStore
  split
  · exact State.onlyIn_ite (State.onlyIn_mono (s.modSeal_onlyIn _) (by decide)) (State.onlyIn_mono (s.journalRefuse_onlyIn _) (by decide))
  · split
    · exact State.onlyIn_mono (s.event_onlyIn _ _ _ _) (by decide)
    · exact State.onlyIn_mono (s.memWrite_onlyIn pa bs) (by decide)

theorem State.masterStore_onlyIn : s.onlyIn (s.masterStore pa bs).1 storeParts := by
  unfold State.masterStore
  split
  · refine State.onlyIn_after (State.onlyIn_mono (s.dropCopies_onlyIn pa bs.length) (by decide))
      (State.onlyIn_foldl_fst (fun x p => ?_) (linePieces pa bs) (s.dropCopies pa bs.length, false))
    exact State.onlyIn_ite (x.1.emramStore_onlyIn p.1 p.2)
      (State.onlyIn_after (x.1.emramStore_onlyIn p.1 p.2) (State.onlyIn_mono (State.modReg_onlyIn _ _ _ _) (by decide)))
  · exact State.onlyIn_mono (s.masterWriteMem_onlyIn pa bs) (by decide)
  · exact State.onlyIn_mono (s.masterWriteMem_onlyIn pa bs) (by decide)
  · exact State.onlyIn_mono (s.masterWriteMem_onlyIn pa bs) (by decide)
  · exact State.onlyIn_mono (s.event_onlyIn _ _ _ _) (by decide)
  · exact s.onlyIn_refl _

end

end Sys2Proof.Machine

namespace Sys2Proof.Machine

/-! Entering a low-power state (R498, R499). An entry that completes clears WLATCH, as every entry begins with it clear: the model's choice (log 37). -/

/-- The number of a bank's context survives a change that keeps numbers. -/
theorem Tile.num_modBank (x : Tile) (b j : Nat) {f : Bank → Bank} (hf : ∀ k, (f k).num = k.num) :
    (vget (x.modBank b f).banks j Bank.reset).num = (vget x.banks j Bank.reset).num := by
  by_cases hb : b < 7
  · rw [Tile.modBank, vget_vset _ _ _ _ _ hb]
    split
    · rename_i hj
      rw [hj, hf]
    · rfl
  · have hout : vset x.banks b (f (vget x.banks b Bank.reset)) = x.banks := by
      ext i hi
      rw [vset, Vector.getElem_setIfInBounds, if_neg (by omega)]
    rw [Tile.modBank, hout]

/-- The mode that a tile still owes its running context changes no context's number. -/
theorem Tile.runNum_settled (x : Tile) : x.settleMode.dwbinv.runNum = x.runNum := by
  have hmod : ∀ f : Ctx → Ctx, (x.modCtx f).runNum = x.runNum := by
    intro f
    rw [Tile.runNum, Tile.run_modCtx, Tile.runNum]
    cases hrun : x.run with
    | none => rfl
    | some b =>
      simp only [Tile.modCtx, hrun, Option.map_some]
      rw [x.num_modBank b b (f := fun k => { k with ctx := f k.ctx }) (fun _ => rfl)]
  unfold Tile.settleMode
  split
  · exact hmod _
  · rfl

theorem Tile.sys_settled (x : Tile) : x.settleMode.dwbinv.sys = x.sys := by
  unfold Tile.settleMode Tile.modCtx
  split
  · split <;> rfl
  · rfl

/-- A tile with its domain off: nothing runs in it, and its running context is recorded (R498). -/
def Tile.offFrom (x y : Tile) : Prop :=
  y.sys.powered = false ∧ y.run = none ∧ y.spill = [] ∧ y.sys.recorded = (match x.runNum with
    | some n => some n
    | none => x.sys.recorded)

section
variable (s : State)

theorem State.tileFlush_tile (t : TileId) : (s.tileFlush t).tile t = (s.tile t).settleMode.dwbinv :=
  (State.tile_congr (State.writeBanks_onlyIn _ t .tiles (by decide))).trans (s.tile_modTile t _)
theorem State.tileFlush_tile_ne {t u : TileId} (h : u ≠ t) : (s.tileFlush t).tile u = s.tile u :=
  (State.tile_congr (State.writeBanks_onlyIn _ t .tiles (by decide))).trans (s.tile_modTile_ne t u _ h)

theorem State.tileOff_tile (t : TileId) : (s.tile t).offFrom ((s.tileOff t).tile t) := by
  have htile : (s.tileOff t).tile t = _ := State.tile_setTile _ t _
  rw [htile, s.tileFlush_tile, Tile.runNum_settled, Tile.sys_settled]
  refine ⟨rfl, rfl, rfl, ?_⟩
  cases (s.tile t).runNum <;> rfl
theorem State.tileOff_tile_ne {t u : TileId} (h : u ≠ t) : (s.tileOff t).tile u = s.tile u :=
  (State.tile_setTile_ne _ t u _ h).trans (s.tileFlush_tile_ne h)
theorem State.tileOff_onlyIn (t : TileId) : s.onlyIn (s.tileOff t) [.tiles, .store] :=
  State.onlyIn_after (s.tileFlush_onlyIn t) (State.onlyIn_mono (State.setTile_onlyIn _ t _) (by decide))

/-- A loop over distinct tiles, each round of which changes its own tile, leaves in a tile of the list what that tile's round makes of it. -/
theorem State.foldl_tile {f : State → TileId → State} {P : Tile → Tile → Prop} {v : TileId} (hself : ∀ u, P (u.tile v) ((f u v).tile v))
    (hother : ∀ u t v, v ≠ t → (f u t).tile v = u.tile v) (l : List TileId) (hl : l.Nodup) (s : State) :
    (v ∈ l → P (s.tile v) ((l.foldl f s).tile v)) ∧ (v ∉ l → (l.foldl f s).tile v = s.tile v) := by
  induction l generalizing s with
  | nil => exact ⟨fun h => absurd h List.not_mem_nil, fun _ => rfl⟩
  | cons t l ih =>
    obtain ⟨hnot, hnodup⟩ := List.nodup_cons.mp hl
    obtain ⟨hin, hout⟩ := ih hnodup (f s t)
    rw [List.foldl_cons]
    by_cases hv : v = t
    · subst hv
      refine ⟨fun _ => ?_, fun h => absurd List.mem_cons_self h⟩
      rw [hout hnot]
      exact hself s
    · rw [hother s t v hv] at hin hout
      refine ⟨fun h => hin ((List.mem_cons.mp h).resolve_left hv), fun h => hout fun hm => h (List.mem_cons_of_mem t hm)⟩

/-- The tiles in service off, as the first step of an entry leaves them. -/
def State.tilesOff (s : State) : State := allTiles.foldl (fun s t => if (s.tile t).inService && (s.tile t).sys.powered then s.tileOff t else s) s

theorem State.tilesOff_tile (u : TileId) (hserv : (s.tile u).inService = true) (hpow : (s.tile u).sys.powered = true) :
    (s.tile u).offFrom (s.tilesOff.tile u) := by
  have hfold := State.foldl_tile (f := fun s t => if (s.tile t).inService && (s.tile t).sys.powered then s.tileOff t else s)
    (P := fun x y => x.inService = true → x.sys.powered = true → x.offFrom y)
    (v := u) (fun v hs hp => by
      simp only [hs, hp, Bool.and_self, if_true]
      exact v.tileOff_tile u)
    (fun v t w hne => by
      split
      · exact v.tileOff_tile_ne hne
      · rfl)
    allTiles (by decide) s
  exact hfold.1 (mem_allTiles u) hserv hpow

theorem State.tilesOff_onlyIn : s.onlyIn s.tilesOff [.tiles, .store] :=
  State.onlyIn_foldl (fun u t => State.onlyIn_ite (u.tileOff_onlyIn t) (u.onlyIn_refl _)) allTiles s

/-- The first step of an entry: the device goes on to DOZE, or to a deeper state (R498). -/
theorem State.sleepEntry_begins (hentry : s.pdc.entry = none) (hidle : s.dev.st = .idle) (hquiet : s.allQuiet = true) (hwake : s.wakeAny = false)
    (hsince : s.pdc.idleSince.any (fun t => decide (t + 100 ≤ s.now)) = true) (htarget : 2 ≤ s.target) : s.sleepEntry
      = if s.target = 2 then s.tilesOff.modDev (fun d => { d with st := .doze }) else s.tilesOff.modPdc (fun p => { p with entry := some (1, s.target) }) := by
  unfold State.sleepEntry
  rw [hentry]
  simp only [hidle, hquiet, hwake, hsince, htarget, beq_self_eq_true, decide_true, Bool.and_self, Bool.not_false, if_true]
  rfl

end

end Sys2Proof.Machine

namespace Sys2Proof.Machine

section
variable (s : State)

/-! The dormant save (R505). -/

/-- The CMAC key of a dormant save: four free words. -/
def State.saveKey (s : State) : List Byte := ((List.range 4).map (fun i => toBytes 4 (Config.entropy (s.free + i)).toNat)).flatten

theorem State.saveKey_length : s.saveKey.length = 16 := by
  rw [State.saveKey, List.length_flatten, List.map_map]
  simp only [Function.comp_def, toBytes_len]
  rfl

/-- The save, with what becomes of memory left open: key and SEQ are kept, DSAVE says whether every line was written and how many contexts there are. -/
theorem State.dormantSave_saves : ∃ (u : State) (ok : Bool), s.onlyIn u (.free :: storeParts)
    ∧ s.dormantSave = (u.modPdc (fun p => { p with dkey := s.saveKey, dseq := (s.pdc.dseq + 1) % 2 ^ 32 })).setReg 0x02B 0x1028
      (BitVec.ofNat 32 (b2n ok * 2 ^ 31 + s.claimedCtxs.length)) := by
  refine ⟨_, _, State.onlyIn_after (l := .free :: storeParts) ?_ (State.onlyIn_mono (l := storeParts) (State.onlyIn_foldl_fst (fun x p => ?_)
    (linePieces s.dormantBase _) (({ s with free := s.free + 4 } : State), true)) (by decide)), rfl⟩
  · intro p hp
    cases p <;> simp [State.agrees] at hp ⊢
  · dsimp only
    split
    · exact x.1.masterStore_onlyIn p.1 p.2
    · exact State.onlyIn_mono (x.1.raise_onlyIn 44) (by decide)

/-- An entry into DORMANT goes on from its tiles to the save (R498). -/
theorem State.sleepEntry_saves (hentry : s.pdc.entry = some (1, 4)) (hwake : s.wakeAny = false) :
    s.sleepEntry = s.dormantSave.modPdc (fun p => { p with entry := some (2, 4) }) := by
  unfold State.sleepEntry
  rw [hentry]
  simp only [hwake, Bool.false_eq_true, if_false, and_self, if_true]

theorem fld_save (ok : Bool) (n : Nat) : fld (BitVec.ofNat 32 (b2n ok * 2 ^ 31 + n)) 11 0 = n % 4096 := by
  rw [fld_eq_div_mod, BitVec.toNat_ofNat]
  omega

/-! The domains of the lanes off (R493, R494). -/

/-- What PD22's end does to lane p. -/
def State.laneOff (s : State) (p : Nat) : State :=
  let s1 := s.modLane p (fun x => { x with fifo := [], tx := none, armed := false, burstLeft := 0, due := none, test := none })
  if s1.lstate p = 3 then s1 else s1.modReg (0x060 + p) 0x1004 (fun v => setFld v 31 30 0)

/-- A lane that PD22 left off, by the LSTATE it had before. -/
def State.laneIsOff (s : State) (old : Nat) (p : Nat) : Prop :=
  (s.lane p).fifo = [] ∧ (s.lane p).tx = none ∧ (old ≠ 3 → s.lstate p = 0) ∧ (old = 3 → s.lstate p = 3)

theorem State.laneOff_off {p : Nat} (hp : p < 16) : (s.laneOff p).laneIsOff (s.lstate p) p := by
  have hlane : ∀ f : Lane → Lane, (s.modLane p f).lane p = f (s.lane p) := fun f => (vget_vset _ _ _ _ _ hp).trans (if_pos rfl)
  unfold State.laneOff
  dsimp only
  split
  · rename_i h3
    exact ⟨by rw [hlane], by rw [hlane], fun hne => absurd h3 hne, fun _ => h3⟩
  · rename_i hne
    refine ⟨(congrArg Lane.fifo (State.lane_congr (State.modReg_lanes ..) p)).trans (by rw [hlane]),
      (congrArg Lane.tx (State.lane_congr (State.modReg_lanes ..) p)).trans (by rw [hlane]), fun _ => ?_, fun h => absurd h hne⟩
    rw [State.lstate, State.reg_modReg_self, fld_setFld_self _ _ _ _ (by decide) (by decide)]
    rfl

theorem State.laneOff_other {p k : Nat} (hp : p < 16) (hk : k < 16) (hne : k ≠ p) : (s.laneOff p).lane k = s.lane k ∧ (s.laneOff p).lstate k = s.lstate k := by
  have hlane : ∀ f : Lane → Lane, (s.modLane p f).lane k = s.lane k := fun f => (vget_vset _ _ _ _ _ hp).trans (if_neg hne)
  unfold State.laneOff
  dsimp only
  split
  · exact ⟨hlane _, rfl⟩
  · refine ⟨(State.lane_congr (State.modReg_lanes ..) k).trans (hlane _), ?_⟩
    rw [State.lstate, State.reg_modReg _ _ (by omega) (by omega) (by decide) (by decide), if_neg (by omega)]
    rfl

theorem State.laneOff_onlyIn (p : Nat) : s.onlyIn (s.laneOff p) [.lanes, .regs] :=
  State.onlyIn_ite (State.onlyIn_mono (s.modLane_onlyIn p _) (by decide))
    (State.onlyIn_after (State.onlyIn_mono (s.modLane_onlyIn p _) (by decide)) (State.onlyIn_mono (State.modReg_onlyIn _ _ _ _) (by decide)))

/-- Every lane off. -/
theorem State.foldl_laneOff {k : Nat} (hk : k < 16) {n : Nat} (hn : n ≤ 16) :
    (k < n → ((List.range n).foldl State.laneOff s).laneIsOff (s.lstate k) k)
    ∧ (n ≤ k → ((List.range n).foldl State.laneOff s).lane k = s.lane k ∧ ((List.range n).foldl State.laneOff s).lstate k = s.lstate k) := by
  induction n with
  | zero => exact ⟨fun h => absurd h (Nat.not_lt_zero k), fun _ => ⟨rfl, rfl⟩⟩
  | succ n ih =>
    obtain ⟨hdone, hwait⟩ := ih (by omega)
    rw [List.range_succ, List.foldl_append, List.foldl_cons, List.foldl_nil]
    generalize (List.range n).foldl State.laneOff s = u at hdone hwait ⊢
    refine ⟨fun hlt => ?_, fun hle => ?_⟩
    · by_cases hkn : k = n
      · subst hkn
        rw [← (hwait (Nat.le_refl k)).2]
        exact u.laneOff_off hk
      · obtain ⟨hlane, hlstate⟩ := u.laneOff_other (by omega : n < 16) hk hkn
        rw [State.laneIsOff, hlane, hlstate]
        exact hdone (by omega)
    · obtain ⟨hlane, hlstate⟩ := u.laneOff_other (by omega : n < 16) hk (by omega)
      rw [hlane, hlstate]
      exact hwait (by omega)

theorem State.lanesOff_eq : ∃ u : State, (((List.range 16).foldl State.laneOff s).onlyIn u [.usb]) ∧ s.lanesOff = u.lockFall := by
  refine ⟨_, State.onlyIn_foldl (fun u k => State.onlyIn_ite ?_ (u.onlyIn_refl _)) (List.range 2) ((List.range 16).foldl State.laneOff s), rfl⟩
  intro p hp
  cases p <;> simp [State.agrees, State.modUsb] at hp ⊢

theorem State.lanesOff_leaves : s.lanesOff.tb.locked = false ∧ ∀ p, p < 16 → s.lanesOff.laneIsOff (s.lstate p) p := by
  obtain ⟨u, honly, heq⟩ := s.lanesOff_eq
  rw [heq]
  refine ⟨u.lockFall_locked, fun p hp => ?_⟩
  have hlanes : u.lockFall.lanes = ((List.range 16).foldl State.laneOff s).lanes :=
    (u.lockFall_onlyIn .lanes (by decide)).trans (honly .lanes (by decide))
  have hregs : u.lockFall.regs = ((List.range 16).foldl State.laneOff s).regs :=
    (u.lockFall_onlyIn .regs (by decide)).trans (honly .regs (by decide))
  rw [State.laneIsOff, State.lane_congr hlanes, State.lstate_congr hregs]
  exact (s.foldl_laneOff hp (Nat.le_refl 16)).1 hp

/-- The device asleep: no entry under way, WLATCH clear (R498). -/
def State.asleep (u : State) (st : DevSt) : State :=
  ((u.modDev (fun d => { d with st := st })).modPdc (fun p => { p with entry := none, waking := none })).setReg 0x02A 0x1000 0

theorem State.asleep_leaves (u : State) (st : DevSt) : (u.asleep st).dev.st = st ∧ (u.asleep st).pdc.entry = none ∧ (u.asleep st).pdc.waking = none
    ∧ (u.asleep st).reg 0x02A 0x1000 = 0 ∧ (u.asleep st).tb.locked = u.tb.locked := by
  rw [State.asleep, State.setReg_dev, State.setReg_pdc, State.setReg_tb, State.reg_setReg_self]
  exact ⟨rfl, rfl, rfl, rfl, rfl⟩

/-- The end of an entry leaves the lanes as they went off. -/
theorem State.asleep_lane (u : State) (st : DevSt) {x p : Nat} (hp : p < 16) (h : u.laneIsOff x p) : (u.asleep st).laneIsOff x p := by
  have hlane : (u.asleep st).lane p = u.lane p := State.lane_congr rfl p
  have hstate : (u.asleep st).lstate p = u.lstate p := by
    rw [State.asleep, State.lstate, State.reg_setReg _ _ (by decide) (by omega) (by decide) (by decide), if_neg (by omega)]
    rfl
  rw [State.laneIsOff, hlane, hstate]
  exact h

/-- The last step of an entry (R498). -/
theorem State.sleepEntry_ends (hentry : s.pdc.entry = some (1, 3) ∨ s.pdc.entry = some (2, 4)) (hwake : s.wakeAny = false) : s.sleepEntry
    = s.lanesOff.asleep (if s.pdc.entry = some (2, 4) then .dormant else .banked) := by
  unfold State.sleepEntry
  rcases hentry with h | h <;> rw [h] <;> simp [hwake, State.asleep]

end

end Sys2Proof.Machine

namespace Sys2Proof.Machine

section
variable {s t : State} {q : Req} {off : Nat} {v : Word} (hadmits : s.admits q 0x02B off) (haligned : off % 4 = 0) (hlo : 0x1000 ≤ off)
include hadmits haligned hlo

/-- A write of slot 0x02B that its gate admits and the power domain controller answers without an error. -/
theorem regWrite_pdc (hblock : s.pdcWrite q off v = (t, .ok 0)) :
    (Host.Outcome.next (s.regWrite q 0x02B off v) : Host.Outcome State Fault Refusal) = .next t.done :=
  State.regWrite_next hadmits (by decide) haligned ((s.slotWrite_pdc q off v hlo).trans hblock)

theorem regWrite_pdcRefuses {c : Code} (hblock : s.pdcWrite q off v = (s, .err c)) :
    (Host.Outcome.next (s.regWrite q 0x02B off v) : Host.Outcome State Fault Refusal) = .next { s with resp := some (.err c) } :=
  State.regWrite_blockRefuses hadmits (by decide) haligned ((s.slotWrite_pdc q off v hlo).trans hblock)

end

section
variable (s : State)

/-- The tiles in service, in any state that has them as the first step of an entry leaves them. -/
theorem State.tilesOff_off {r : State} (htiles : r.tiles = s.tilesOff.tiles) (u : TileId) (hserv : (s.tile u).inService = true)
    (hpow : (s.tile u).sys.powered = true) : (r.tile u).sys.powered = false ∧ (r.tile u).run = none ∧ (r.tile u).spill = []
      ∧ (r.tile u).sys.recorded = (match (s.tile u).runNum with
        | some n => some n
        | none => (s.tile u).sys.recorded) := by
  rw [State.tile_congr htiles]
  exact s.tilesOff_tile u hserv hpow

/-- What the dormant save leaves: the device's items, its SEQ and key, and the number of contexts in DSAVE. -/
theorem State.dormantSave_leaves : s.dormantSave.dev = s.dev ∧ s.dormantSave.pdc.dseq = (s.pdc.dseq + 1) % 2 ^ 32
    ∧ s.dormantSave.pdc.dkey.length = 16 ∧ fld (s.dormantSave.reg 0x02B 0x1028) 11 0 = s.claimedCtxs.length % 4096 := by
  obtain ⟨u, ok, honly, hsave⟩ := s.dormantSave_saves
  rw [hsave, State.reg_setReg_self, fld_save]
  simp only [State.setReg_dev, State.modPdc_dev, State.setReg_pdc, State.modPdc_pdc]
  exact ⟨honly .dev (by decide), trivial, s.saveKey_length, trivial⟩

/-- A wake event stops an entry (R499). -/
theorem State.entryStop_stops {k g : Nat} (hentry : s.pdc.entry = some (k, g)) (hwake : s.wakeAny = true) : s.entryStop
    = if k = 2 then ((s.modDev (fun d => { d with st := .doze })).modPdc (fun p => { p with entry := none })).modReg 0x02B 0x1028 (fun v => setBit v 31 false)
      else (s.modDev (fun d => { d with st := .doze })).modPdc (fun p => { p with entry := none }) := by
  unfold State.entryStop
  rw [hentry]
  simp only [hwake, Bool.not_true, Bool.false_eq_true, if_false]

theorem State.entryStop_sleeps (hwake : s.wakeAny = false) : s.entryStop = s := by
  unfold State.entryStop
  cases s.pdc.entry <;> simp [hwake]

theorem State.sleepEntry_none (hentry : s.pdc.entry = none) (htarget : s.target ≤ 1) : s.sleepEntry = s := by
  unfold State.sleepEntry
  rw [hentry]
  exact if_neg (by simp [show ¬ 2 ≤ s.target by omega])

theorem State.sleepEntry_waking (hentry : s.pdc.entry.isSome = true) (hwake : s.wakeAny = true) : s.sleepEntry = s := by
  obtain ⟨⟨k, g⟩, h⟩ := Option.isSome_iff_exists.mp hentry
  unfold State.sleepEntry
  rw [h]
  exact if_pos hwake

/-- The target after an accepted WPERMIT is the one that PSTATE shows. -/
theorem State.wpermit_takes (w : World) {v : Word} (hlo : 1 ≤ fld v 2 0) (hhi : fld v 2 0 ≤ 4) :
    s.wpermit w v = ((s.setRegW w 0x02B 0x1004 (BitVec.ofNat 32 (fld v 2 0))).evalTarget, .ok 0) := if_neg (by omega)

theorem State.target_done : s.done.target = s.target := rfl

theorem State.evalTarget_pstate : fld (s.evalTarget.reg 0x02B 0x1000) 2 0 = s.target ∧ fld (s.evalTarget.reg 0x02B 0x1000) 7 3 = s.blocks := by
  rw [State.evalTarget, State.reg_setReg_self]
  exact ⟨s.pstateNow_target, s.pstateNow_blocks⟩

/-- A permit written is the world's, and the target read is the new one. -/
theorem State.evalTarget_permits (w : World) (x : Word) : ((s.setRegW w 0x02B 0x1004 x).evalTarget.done.regW w 0x02B 0x1004 = x)
    ∧ fld ((s.setRegW w 0x02B 0x1004 x).evalTarget.done.reg 0x02B 0x1000) 2 0 = (s.setRegW w 0x02B 0x1004 x).evalTarget.done.target := by
  have hread : (s.setRegW w 0x02B 0x1004 x).evalTarget.done.reg 0x02B 0x1000 = (s.setRegW w 0x02B 0x1004 x).evalTarget.reg 0x02B 0x1000 := State.done_regW _ _ _ _
  refine ⟨?_, ?_⟩
  · rw [State.done_regW, State.evalTarget, State.regW_setReg _ _ _ (by decide) (by decide) (by decide) (by decide), if_neg (fun h => absurd h.2.2 (by decide))]
    exact s.regW_setRegW_self _ _ _ _
  · rw [State.target_done, State.target_evalTarget, hread]
    exact (s.setRegW w 0x02B 0x1004 x).evalTarget_pstate.1

end

/-- Settles O49: gating, the permits and the target, then an entry step by step, and its stop. -/
theorem sleepEntered : Obligations.SleepEntered := by
  intro s q v t ready off
  refine ⟨?gate, ?restart, ?still, ?permit, ?refuse, ?target, ?idle, ?busy, ?doze, ?deeper, ?shallow, ?save, ?sleep, ?waking, ?stop, ?stays⟩
  case gate =>
    intro hadmits htile
    refine regWrite_pdc hadmits (by decide) (by decide) ?_
    show (s.tgate q, BusRes.ok 0) = _
    rw [State.tgate, htile]
  case restart =>
    intro hpow hgate hdue
    have honly : s.onlyIn (s.modTile t (·.modSys (fun y => { y with gated := false, gateReq := false }))) [.tiles, .dev, .pdc] :=
      State.onlyIn_mono (s.modTile_onlyIn t _) (by decide)
    have htile := s.tile_modTile t (·.modSys (fun y => { y with gated := false, gateReq := false }))
    have hother := fun u (hu : u ≠ t) => s.tile_modTile_ne t u (·.modSys (fun y => { y with gated := false, gateReq := false })) hu
    refine ⟨s.gateRestart t, rfl, ?_⟩
    rw [s.gateRestart_due t hpow hgate hdue]
    split
    · exact ⟨congrArg (·.sys.gated) htile, congrArg (·.sys.gateReq) htile, hother, rfl,
        State.onlyIn_after honly (State.onlyIn_mono (State.devRun_onlyIn _) (by decide))⟩
    · exact ⟨congrArg (·.sys.gated) htile, congrArg (·.sys.gateReq) htile, hother, rfl, honly⟩
  case still => exact fun hdue => congrArg Host.Outcome.next (s.gateRestart_not_due t hdue)
  case permit =>
    intro hadmits hlo hhi
    obtain ⟨hpermit, htarget⟩ := s.evalTarget_permits q.world (BitVec.ofNat 32 (fld v 2 0))
    exact ⟨_, regWrite_pdc hadmits (by decide) (by decide) (s.wpermit_takes q.world hlo hhi), hpermit, htarget, rfl⟩
  case refuse =>
    intro hadmits hout
    exact regWrite_pdcRefuses hadmits (by decide) (by decide) (if_pos hout)
  case target =>
    obtain ⟨htarget, hblocks⟩ := s.evalTarget_pstate
    exact ⟨s.evalTarget, rfl, htarget, hblocks, s.setReg_onlyIn _ _ _,
      State.regsBut_setReg (State.regsBut_of_eq _ rfl) _ (by decide) (by decide) (by decide)⟩
  case idle =>
    intro hrun hrst hquiet
    exact congrArg Host.Outcome.next (if_pos (by simp [hrun, hrst, hquiet]))
  case busy =>
    intro hbusy
    exact congrArg Host.Outcome.next (if_neg (by simp [hbusy]))
  case doze =>
    rintro hentry ⟨hidle, hquiet, hwake, t0, hsince, hlate⟩ htarget
    have hbegins := (s.sleepEntry_begins hentry hidle hquiet hwake (any_due hsince hlate) (by omega)).trans (if_pos htarget)
    refine ⟨_, congrArg Host.Outcome.next hbegins, ?_⟩
    rw [State.modDev_pdc, s.tilesOff_onlyIn .pdc (by decide)]
    exact ⟨rfl, hentry, s.tilesOff_off (State.modDev_tiles _ _)⟩
  case deeper =>
    rintro hentry ⟨hidle, hquiet, hwake, t0, hsince, hlate⟩ htarget
    have hbegins := (s.sleepEntry_begins hentry hidle hquiet hwake (any_due hsince hlate) (by omega)).trans (if_neg (by omega))
    refine ⟨_, congrArg Host.Outcome.next hbegins, ?_⟩
    rw [State.modPdc_dev, s.tilesOff_onlyIn .dev (by decide)]
    exact ⟨hidle, rfl, s.tilesOff_off (State.modPdc_tiles _ _)⟩
  case shallow => exact fun hentry htarget => congrArg Host.Outcome.next (s.sleepEntry_none hentry htarget)
  case save =>
    intro hentry hwake
    obtain ⟨hdev, hseq, hkey, hword⟩ := s.dormantSave_leaves
    refine ⟨_, congrArg Host.Outcome.next (s.sleepEntry_saves hentry hwake), ?_⟩
    rw [State.modPdc_dev, State.modPdc_reg, State.modPdc_pdc]
    exact ⟨rfl, congrArg Dev.st hdev, hseq, hkey, hword⟩
  case sleep =>
    intro hentry hwake
    obtain ⟨hunlocked, hlanes⟩ := s.lanesOff_leaves
    obtain ⟨hdev, hdone, hquiet, hlatch, hlocked⟩ := s.lanesOff.asleep_leaves (if s.pdc.entry = some (2, 4) then .dormant else .banked)
    exact ⟨_, congrArg Host.Outcome.next (s.sleepEntry_ends hentry hwake), hdev, hdone, hquiet, hlatch, hlocked.trans hunlocked,
      fun p hp => State.asleep_lane _ _ hp (hlanes p hp)⟩
  case waking => exact fun hentry hwake => congrArg Host.Outcome.next (s.sleepEntry_waking hentry hwake)
  case stop =>
    intro k g hentry hwake
    refine ⟨s.entryStop, rfl, ?_⟩
    rw [s.entryStop_stops hentry hwake]
    split
    · refine ⟨rfl, rfl, fun _ => ?_, rfl, rfl⟩
      rw [State.reg_modReg_self, bit_setBit_self _ _ _ (by decide)]
    · rename_i hk
      exact ⟨rfl, rfl, fun h => absurd h hk, rfl, rfl⟩
  case stays => exact fun hwake => congrArg Host.Outcome.next (s.entryStop_sleeps hwake)

end Sys2Proof.Machine

namespace Sys2Proof.Machine

/-! Halts by the debug port (R540 to R542). -/

section
variable (s : State)

theorem State.modDap_onlyIn (f : Dap → Dap) : s.onlyIn (s.modDap f) [.dap] := by
  intro p hp
  cases p <;> simp [State.agrees, State.modDap] at hp ⊢
theorem State.dapCtl_onlyIn (old : Word) : s.onlyIn (s.dapCtl old) [.dap, .resp] := by
  intro p hp
  cases p <;> simp [State.agrees, State.dapCtl, State.tapInstr, State.tapActive, State.modDap] at hp ⊢
theorem State.newNonce_onlyIn : s.onlyIn s.newNonce [.dap, .free] := by
  intro p hp
  cases p <;> simp [State.agrees, State.newNonce] at hp ⊢

theorem State.tile_modDap (f : Dap → Dap) (t : TileId) : (s.modDap f).tile t = s.tile t := rfl
theorem State.tile_dapCtl (old : Word) (t : TileId) : (s.dapCtl old).tile t = s.tile t := rfl

/-! A tile at its boundary. -/

theorem State.haltNow_onlyIn (t : TileId) : s.onlyIn (s.haltNow t) [.tiles, .store] := by
  unfold State.haltNow
  dsimp only
  split
  · exact State.onlyIn_mono (s.setTile_onlyIn t _) (by decide)
  · exact State.onlyIn_after (State.onlyIn_mono (s.putSlot_onlyIn _ _) (by decide)) (State.onlyIn_mono (State.setTile_onlyIn _ t _) (by decide))
theorem State.settleTile_onlyIn (t : TileId) : s.onlyIn (s.settleTile t) [.tiles, .store] :=
  State.onlyIn_after (State.onlyIn_ite (State.onlyIn_mono (s.modTile_onlyIn t _) (by decide)) (s.onlyIn_refl _))
    (State.onlyIn_ite (State.haltNow_onlyIn _ t) (State.onlyIn_refl _ _))

theorem State.haltNow_tile_ne {t u : TileId} (h : u ≠ t) : (s.haltNow t).tile u = s.tile u := by
  unfold State.haltNow
  dsimp only
  split
  · exact State.tile_setTile_ne _ t u _ h
  · exact State.tile_setTile_ne _ t u _ h

/-- The tile's clock gated, where that was asked for and the boundary is reached. -/
def State.gateNow (s : State) (t : TileId) : State :=
  if (s.tile t).sys.gateReq && (s.tile t).boundary then s.modTile t (·.modSys (fun y => { y with gated := true, gateReq := false })) else s

/-- A tile settles by its gate, and where a halt is due by the halt after it. -/
theorem State.settleTile_cases (t : TileId) : s.settleTile t = s.gateNow t ∨ s.settleTile t = (s.gateNow t).haltNow t := (ite_eq_or_eq _ _ _).symm

theorem State.gateNow_tile_ne {t u : TileId} (h : u ≠ t) : (s.gateNow t).tile u = s.tile u := by
  unfold State.gateNow
  split
  · exact s.tile_modTile_ne t u _ h
  · rfl
theorem State.gateNow_haltReq (t : TileId) : ((s.gateNow t).tile t).sys.haltReq = (s.tile t).sys.haltReq := by
  unfold State.gateNow
  split
  · rw [State.tile_modTile]
    rfl
  · rfl
theorem State.settleTile_tile_ne {t u : TileId} (h : u ≠ t) : (s.settleTile t).tile u = s.tile u := by
  obtain heq | heq := s.settleTile_cases t
  · rw [heq, s.gateNow_tile_ne h]
  · rw [heq, State.haltNow_tile_ne _ h, s.gateNow_tile_ne h]

/-- A halt request outlasts the tile's next boundary, where it takes its effect. -/
theorem State.haltNow_haltReq (t : TileId) (h : (s.tile t).sys.haltReq = true) : ((s.haltNow t).tile t).sys.haltReq = true := by
  have hsys : (s.tile t).settleMode.sys = (s.tile t).sys := (s.tile t).sys_settled
  unfold State.haltNow
  dsimp only
  split
  · rw [State.tile_setTile]
    exact (congrArg TileSys.haltReq hsys).trans h
  · rw [State.tile_setTile]
    exact (congrArg TileSys.haltReq hsys).trans h
theorem State.settleTile_haltReq (t : TileId) (h : (s.tile t).sys.haltReq = true) : ((s.settleTile t).tile t).sys.haltReq = true := by
  have hgate : ((s.gateNow t).tile t).sys.haltReq = true := (s.gateNow_haltReq t).trans h
  obtain heq | heq := s.settleTile_cases t
  · rw [heq, hgate]
  · rw [heq, State.haltNow_haltReq _ t hgate]

/-! One tile asked to halt. -/

/-- The halt of a tile that runs a Trade context is deferred while the unlock does not reach it (R542). -/
def State.haltDeferred (s : State) (t : TileId) : Bool := (s.tile t).run.isSome && (s.tile t).world == .trade && !s.scopeBit 2

theorem State.haltTile_dap (t : TileId) : (s.haltTile t).dap
    = if s.haltDeferred t then { s.dap with deferred := min (s.dap.deferred + 1) 0xFFFF } else s.dap := by
  have hsettle : ∀ u : State, (u.settleTile t).dap = u.dap := fun u => u.settleTile_onlyIn t .dap (by decide)
  unfold State.haltTile
  dsimp only
  rw [hsettle]
  unfold State.haltDeferred
  split <;> simp [State.modDap]

theorem State.haltTile_onlyIn (t : TileId) : s.onlyIn (s.haltTile t) [.dap, .tiles, .store] :=
  State.onlyIn_after (State.onlyIn_after (State.onlyIn_mono (s.modTile_onlyIn t _) (by decide))
    (State.onlyIn_ite (State.onlyIn_mono (State.modDap_onlyIn _ _) (by decide)) (State.onlyIn_refl _ _)))
    (State.onlyIn_mono (State.settleTile_onlyIn _ t) (by decide))

theorem State.haltTile_tile_ne {t u : TileId} (h : u ≠ t) : (s.haltTile t).tile u = s.tile u := by
  unfold State.haltTile
  dsimp only
  rw [State.settleTile_tile_ne _ h]
  split
  · exact (State.tile_modDap _ _ u).trans (s.tile_modTile_ne t u _ h)
  · exact s.tile_modTile_ne t u _ h

theorem State.haltTile_haltReq (t : TileId) : ((s.haltTile t).tile t).sys.haltReq = true := by
  refine State.settleTile_haltReq _ t ?_
  split
  · rw [State.tile_modDap, State.tile_modTile]
    rfl
  · rw [State.tile_modTile]
    rfl

/-! The tiles that a word names asked to halt. -/

/-- The tiles of a list that the word names, asked to halt one after the other. -/
def State.haltTiles (s : State) (v : Word) (l : List TileId) : State := l.foldl (fun s t => if bit v t.toNat then s.haltTile t else s) s

theorem State.haltTiles_onlyIn (v : Word) (l : List TileId) : s.onlyIn (s.haltTiles v l) [.dap, .tiles, .store] :=
  State.onlyIn_foldl (fun u t => State.onlyIn_ite (u.haltTile_onlyIn t) (u.onlyIn_refl _)) l s

theorem State.haltTiles_cons (v : Word) (t : TileId) (l : List TileId) :
    s.haltTiles v (t :: l) = (if bit v t.toNat then s.haltTile t else s).haltTiles v l := rfl

theorem State.haltTiles_tile {v : Word} {u : TileId} :
    (bit v u.toNat = true → ((s.haltTiles v allTiles).tile u).sys.haltReq = true)
    ∧ (bit v u.toNat = false → (s.haltTiles v allTiles).tile u = s.tile u) := by
  have hother : ∀ (x : State) (t w : TileId), w ≠ t → (if bit v t.toNat then x.haltTile t else x).tile w = x.tile w := by
    intro x t w h
    split
    · exact x.haltTile_tile_ne h
    · rfl
  constructor
  · intro hb
    refine (State.foldl_tile (P := fun _ y => y.sys.haltReq = true) (fun x => ?_) hother allTiles (by decide) s).1 (mem_allTiles u)
    rw [if_pos hb]
    exact x.haltTile_haltReq u
  · intro hb
    refine (State.foldl_tile (P := fun x y => y = x) (fun x => ?_) hother allTiles (by decide) s).1 (mem_allTiles u)
    rw [if_neg (by simp [hb])]

/-- A halt touches the debug port in the count of deferred halts alone. -/
theorem State.haltTiles_dap (v : Word) (l : List TileId) : ∃ n, (s.haltTiles v l).dap = { s.dap with deferred := n } := by
  induction l generalizing s with
  | nil => exact ⟨_, rfl⟩
  | cons t l ih =>
    rw [State.haltTiles_cons]
    obtain ⟨n, hn⟩ := ih (if bit v t.toNat then s.haltTile t else s)
    refine ⟨n, hn.trans ?_⟩
    split
    · rw [State.haltTile_dap]
      split <;> rfl
    · rfl

theorem State.haltTiles_ir (v : Word) (l : List TileId) : (s.haltTiles v l).dap.ir = s.dap.ir := by
  obtain ⟨n, hn⟩ := s.haltTiles_dap v l
  rw [hn]
theorem State.haltTiles_haltreq (v : Word) (l : List TileId) : (s.haltTiles v l).dap.haltreq = s.dap.haltreq := by
  obtain ⟨n, hn⟩ := s.haltTiles_dap v l
  rw [hn]

theorem State.scopeBit_haltTile (t : TileId) (k : Nat) : (s.haltTile t).scopeBit k = s.scopeBit k := by
  unfold State.scopeBit State.unlockedDap
  rw [State.haltTile_dap]
  split <;> rfl

/-- With SCOPE bit 2 in force no halt is deferred. -/
theorem State.haltTiles_deferred_scoped (v : Word) (l : List TileId) (hscope : s.scopeBit 2 = true) : (s.haltTiles v l).dap.deferred = s.dap.deferred := by
  induction l generalizing s with
  | nil => rfl
  | cons t l ih =>
    rw [State.haltTiles_cons]
    split
    · rw [ih _ ((s.scopeBit_haltTile t 2).trans hscope), State.haltTile_dap, if_neg (by simp [State.haltDeferred, hscope])]
    · exact ih s hscope

/-- Without it, the halts of the named tiles that run a Trade context are counted, up to 0xFFFF. -/
theorem State.haltTiles_deferred (v : Word) (l : List TileId) (hl : l.Nodup) (hscope : s.scopeBit 2 = false) (hmax : s.dap.deferred ≤ 0xFFFF) :
    (s.haltTiles v l).dap.deferred
      = min (s.dap.deferred + (l.filter (fun t => bit v t.toNat && (s.tile t).run.isSome && (s.tile t).world == .trade)).length) 0xFFFF := by
  induction l generalizing s with
  | nil => exact (min_eq_left hmax).symm
  | cons t l ih =>
    obtain ⟨hnot, hnodup⟩ := List.nodup_cons.mp hl
    rw [State.haltTiles_cons]
    by_cases hb : bit v t.toNat = true
    · have hrest : l.filter (fun u => bit v u.toNat && ((s.haltTile t).tile u).run.isSome && ((s.haltTile t).tile u).world == .trade)
          = l.filter (fun u => bit v u.toNat && (s.tile u).run.isSome && (s.tile u).world == .trade) := by
        refine List.filter_congr fun u hu => ?_
        rw [s.haltTile_tile_ne (t := t) (u := u) (fun h => hnot (h ▸ hu))]
      have hdap := s.haltTile_dap t
      have hdef : s.haltDeferred t = ((s.tile t).run.isSome && (s.tile t).world == .trade) := by simp [State.haltDeferred, hscope]
      rw [if_pos hb, ih (s.haltTile t) hnodup ((s.scopeBit_haltTile t 2).trans hscope) (by rw [hdap]; split <;> simp [hmax]), hrest, hdap, hdef,
        List.filter_cons]
      simp only [hb, Bool.true_and]
      split
      · rw [List.length_cons]
        dsimp only
        omega
      · rfl
    · rw [if_neg hb, ih s hnodup hscope hmax, List.filter_cons]
      simp [hb]

end

end Sys2Proof.Machine

namespace Sys2Proof.Machine

/-! The token and the unlock (R540 to R545, Table 17-10). -/

section
variable (s : State)

/-- What a RESUME makes of a tile's halt (R541). -/
def Tile.unhalted (x y : Tile) : Prop :=
  y.sys.haltReq = false ∧ y.sys.halted = false ∧ (∀ n, x.sys.halted = true → x.sys.recorded = some n → y.flow.freeze = .fill n .goOn)

theorem State.unhalt_onlyIn (t : TileId) : s.onlyIn (s.unhalt t) [.tiles] := by
  unfold State.unhalt
  dsimp only
  split
  · exact State.onlyIn_after (s.modTile_onlyIn t _) (State.modTile_onlyIn _ t _)
  · exact s.modTile_onlyIn t _

theorem State.unhalt_tile_ne {t u : TileId} (h : u ≠ t) : (s.unhalt t).tile u = s.tile u := by
  unfold State.unhalt
  dsimp only
  split
  · rw [State.tile_modTile_ne _ t u _ h, State.tile_modTile_ne _ t u _ h]
  · exact s.tile_modTile_ne t u _ h

theorem State.unhalt_tile (t : TileId) : (s.tile t).unhalted ((s.unhalt t).tile t) := by
  unfold State.unhalt
  dsimp only
  split
  next n hhalted hrec =>
    rw [State.tile_modTile, State.tile_modTile]
    exact ⟨rfl, rfl, fun m _ hm => by rw [Option.some.inj (hrec.symm.trans hm)]; rfl⟩
  next hno =>
    rw [State.tile_modTile]
    exact ⟨rfl, rfl, fun n hhalted hrec => absurd hrec (hno n hhalted)⟩

/-- The tiles of a list that the word names, released one after the other. -/
def State.unhaltTiles (s : State) (v : Word) (l : List TileId) : State := l.foldl (fun s t => if bit v t.toNat then s.unhalt t else s) s

theorem State.unhaltTiles_onlyIn (v : Word) (l : List TileId) : s.onlyIn (s.unhaltTiles v l) [.tiles] :=
  State.onlyIn_foldl (fun u t => State.onlyIn_ite (u.unhalt_onlyIn t) (u.onlyIn_refl _)) l s

theorem State.unhaltTiles_tile {v : Word} {u : TileId} :
    (bit v u.toNat = true → (s.tile u).unhalted ((s.unhaltTiles v allTiles).tile u))
    ∧ (bit v u.toNat = false → (s.unhaltTiles v allTiles).tile u = s.tile u) := by
  have hother : ∀ (x : State) (t w : TileId), w ≠ t → (if bit v t.toNat then x.unhalt t else x).tile w = x.tile w := by
    intro x t w h
    split
    · exact x.unhalt_tile_ne h
    · rfl
  constructor
  · intro hb
    refine (State.foldl_tile (P := Tile.unhalted) (fun x => ?_) hother allTiles (by decide) s).1 (mem_allTiles u)
    rw [if_pos hb]
    exact x.unhalt_tile u
  · intro hb
    refine (State.foldl_tile (P := fun x y => y = x) (fun x => ?_) hother allTiles (by decide) s).1 (mem_allTiles u)
    rw [if_neg (by simp [hb])]

/-! The registers of the debug port. -/

/-- The nonce drawn afresh (R540). -/
def State.renews (s r : State) : Prop :=
  r.dap.nonce = (List.range 4).map (fun i => Config.entropy (s.free + i)) ∧ r.dap.nonceAt = 0 ∧ r.free = s.free + 4

/-- HALTREQ as a write of ones leaves it, before the tiles are asked. -/
def State.haltAsked (s : State) (v : Word) : State :=
  (s.dapCtl (s.dap.haltreq.setWidth 32)).modDap (fun d => { d with haltreq := d.haltreq ||| v.setWidth 16 })
theorem State.haltReqWrite_eq (v : Word) : s.haltReqWrite v = (s.haltAsked v).haltTiles v allTiles := rfl
theorem State.haltAsked_shows (v : Word) : (s.haltAsked v).resp = some (.ok (s.dap.haltreq.setWidth 32)) ∧ (s.haltAsked v).dap.ir = 0x11
    ∧ (s.haltAsked v).dap.haltreq = s.dap.haltreq ||| v.setWidth 16 ∧ (s.haltAsked v).dap.deferred = s.dap.deferred := ⟨rfl, rfl, rfl, rfl⟩

/-- A write of HALTREQ shows what it read before, and asks the named tiles to halt (R540, R541). -/
theorem State.haltReqWrite_leaves (v : Word) : (s.haltReqWrite v).resp = some (.ok (s.dap.haltreq.setWidth 32)) ∧ (s.haltReqWrite v).dap.ir = 0x11
    ∧ (s.haltReqWrite v).dap.haltreq = s.dap.haltreq ||| v.setWidth 16
    ∧ (∀ t : TileId, bit v t.toNat = false → (s.haltReqWrite v).tile t = s.tile t)
    ∧ (∀ t : TileId, bit v t.toNat = true → ((s.haltReqWrite v).tile t).sys.haltReq = true)
    ∧ (s.haltReqWrite v).mem = s.mem ∧ (s.haltReqWrite v).regs = s.regs := by
  rw [s.haltReqWrite_eq v]
  have honly := (s.haltAsked v).haltTiles_onlyIn v allTiles
  obtain ⟨hresp, hir, hreq, -⟩ := s.haltAsked_shows v
  exact ⟨(honly .resp (by decide)).trans hresp, ((s.haltAsked v).haltTiles_ir v allTiles).trans hir, ((s.haltAsked v).haltTiles_haltreq v allTiles).trans hreq,
    fun t => (s.haltAsked v).haltTiles_tile.2, fun t => (s.haltAsked v).haltTiles_tile.1, honly .mem (by decide), honly .regs (by decide)⟩

theorem State.haltReqWrite_scoped (v : Word) (hscope : s.scopeBit 2 = true) : (s.haltReqWrite v).dap.deferred = s.dap.deferred :=
  (s.haltAsked v).haltTiles_deferred_scoped v allTiles hscope
theorem State.haltReqWrite_deferred (v : Word) (hscope : s.scopeBit 2 = false) (hmax : s.dap.deferred ≤ 0xFFFF) : (s.haltReqWrite v).dap.deferred
    = min (s.dap.deferred + (allTiles.filter (fun t => bit v t.toNat && (s.tile t).run.isSome && (s.tile t).world == .trade)).length) 0xFFFF :=
  (s.haltAsked v).haltTiles_deferred v allTiles (by decide) hscope hmax

/-- HALTREQ as a write of RESUME leaves it, before the tiles go on. -/
def State.resumeAsked (s : State) (v : Word) : State := (s.dapCtl 0).modDap (fun d => { d with haltreq := d.haltreq &&& ~~~ v.setWidth 16 })
theorem State.resumeWrite_eq (v : Word) : s.resumeWrite v = (s.resumeAsked v).unhaltTiles v allTiles := rfl
theorem State.resumeAsked_shows (v : Word) : (s.resumeAsked v).resp = some (.ok 0) ∧ (s.resumeAsked v).dap.ir = 0x11
    ∧ (s.resumeAsked v).dap.haltreq = s.dap.haltreq &&& ~~~ v.setWidth 16 := ⟨rfl, rfl, rfl⟩
theorem State.resumeAsked_onlyIn (v : Word) : s.onlyIn (s.resumeAsked v) [.dap, .resp] :=
  State.onlyIn_after (s.dapCtl_onlyIn 0) (State.onlyIn_mono (State.modDap_onlyIn _ _) (by decide))

/-- A write of RESUME releases the named tiles (R541). -/
theorem State.resumeWrite_leaves (v : Word) : (s.resumeWrite v).resp = some (.ok 0) ∧ (s.resumeWrite v).dap.ir = 0x11
    ∧ (s.resumeWrite v).dap.haltreq = s.dap.haltreq &&& ~~~ v.setWidth 16
    ∧ (∀ t : TileId, bit v t.toNat = false → (s.resumeWrite v).tile t = s.tile t)
    ∧ (∀ t : TileId, bit v t.toNat = true → (s.tile t).unhalted ((s.resumeWrite v).tile t))
    ∧ s.onlyIn (s.resumeWrite v) [.dap, .resp, .tiles] := by
  rw [s.resumeWrite_eq v]
  have honly := (s.resumeAsked v).unhaltTiles_onlyIn v allTiles
  have hdap : ((s.resumeAsked v).unhaltTiles v allTiles).dap = (s.resumeAsked v).dap := honly .dap (by decide)
  obtain ⟨hresp, hir, hreq⟩ := s.resumeAsked_shows v
  rw [hdap]
  exact ⟨(honly .resp (by decide)).trans hresp, hir, hreq, fun t => (s.resumeAsked v).unhaltTiles_tile.2, fun t => (s.resumeAsked v).unhaltTiles_tile.1,
    State.onlyIn_after (State.onlyIn_mono (s.resumeAsked_onlyIn v) (by decide)) (State.onlyIn_mono honly (by decide))⟩

theorem State.tokClr_leaves : (s.tokClr.resp = some (.ok 0) ∧ s.tokClr.dap.ir = 0x11) ∧ s.tokClr.dap.token = [] ∧ s.renews s.tokClr
    ∧ s.onlyIn s.tokClr [.dap, .resp, .free] := by
  refine ⟨⟨rfl, rfl⟩, rfl, ⟨rfl, rfl, rfl⟩, ?_⟩
  exact State.onlyIn_after (State.onlyIn_after (State.onlyIn_mono (s.dapCtl_onlyIn 0) (by decide)) (State.onlyIn_mono (State.modDap_onlyIn _ _) (by decide)))
    (State.onlyIn_mono (State.newNonce_onlyIn _) (by decide))

theorem State.nonceRead_leaves : (s.nonceRead.resp = some (.ok (s.dap.nonce.getD s.dap.nonceAt 0)) ∧ s.nonceRead.dap.ir = 0x11)
    ∧ s.nonceRead.dap.nonce = s.dap.nonce ∧ s.nonceRead.dap.nonceAt = (s.dap.nonceAt + 1) % 4 ∧ s.onlyIn s.nonceRead [.dap, .resp] :=
  ⟨⟨rfl, rfl⟩, rfl, rfl, State.onlyIn_after (s.dapCtl_onlyIn _) (State.onlyIn_mono (State.modDap_onlyIn _ _) (by decide))⟩

/-- The token with one more word. -/
def State.tokenGrown (s : State) (v : Word) : State := (s.dapCtl (s.dap.token.getLastD 0)).modDap (fun d => { d with token := d.token ++ [v] })
theorem State.tokenGrown_onlyIn (v : Word) : s.onlyIn (s.tokenGrown v) [.dap, .resp] :=
  State.onlyIn_after (s.dapCtl_onlyIn _) (State.onlyIn_mono (State.modDap_onlyIn _ _) (by decide))

/-- The end of an open unlock: closed, with a fresh nonce and IRQ46 (R545). -/
theorem State.relock_open (h : s.dap.unlockEnd.isSome = true) :
    s.relock = (({ s with dap := { s.dap with unlockEnd := none, scope := 0 } } : State).newNonce.raise 46) := if_neg (by simp [Option.isSome_iff_ne_none.mp h])
theorem State.relock_closed (h : s.dap.unlockEnd = none) : s.relock = s := if_pos (by simp [h])
theorem State.relock_closes (h : s.dap.unlockEnd.isSome = true) :
    s.relock.dap.unlockEnd = none ∧ s.relock.dap.scope = 0 ∧ s.renews s.relock ∧ s.relock.irq = (s.raise 46).irq := by
  rw [s.relock_open h]
  refine ⟨?_, ?_, ⟨?_, ?_, ?_⟩, State.raise_irq_of_sense rfl rfl⟩ <;> simp [State.newNonce]
theorem State.relock_onlyIn : s.onlyIn s.relock [.dap, .free, .irq] := by
  refine State.onlyIn_ite (s.onlyIn_refl _) (State.onlyIn_after (State.onlyIn_mono (State.onlyIn_after ?_ (State.newNonce_onlyIn _)) (by decide))
    (State.onlyIn_mono (State.raise_onlyIn _ 46) (by decide)))
  exact State.onlyIn_mono (s.modDap_onlyIn (fun d => { d with unlockEnd := none, scope := 0 })) (by decide)

/-! The unlock's register (R543, R545). -/

/-- A time, a scope and a token by which an unlock opens. -/
def State.unlockHolds (s : State) (v : Word) : Prop :=
  s.dap.token.length = 32 ∧ (s.dap.token.drop 4).take 4 = s.dap.nonce ∧ fld v 18 16 ≠ 0 ∧ 1 ≤ fld v 15 0 ∧ fld v 15 0 ≤ 28800

theorem State.unlockWrite_opens {v : Word} (h : s.unlockHolds v) : s.unlockWrite (setBit v 31 true)
    = ((s.modDap (fun x => { x with unlockEnd := some (s.now + fld v 15 0 * 1000000), scope := fld v 18 16, token := [] })).newNonce, .ok 0) := by
  obtain ⟨hlen, hnonce, hscope, hmin, hmax⟩ := h
  have hd : fld (setBit v 31 true) 15 0 = fld v 15 0 := fld_setBit_ne v 31 true _ _ (by decide) (by decide)
  have hs : fld (setBit v 31 true) 18 16 = fld v 18 16 := fld_setBit_ne v 31 true _ _ (by decide) (by decide)
  unfold State.unlockWrite
  rw [bit_setBit_self v 31 true (by decide), hd, hs]
  refine (if_neg (by decide)).trans (if_neg ?_)
  rintro (h | h | h | h | h)
  · exact h hlen
  · exact h hnonce
  · exact hscope h
  · omega
  · omega

theorem State.unlockWrite_refuses {v : Word} (h : ¬ s.unlockHolds v) : s.unlockWrite (setBit v 31 true) = (s, .err busErr) := by
  have hd : fld (setBit v 31 true) 15 0 = fld v 15 0 := fld_setBit_ne v 31 true _ _ (by decide) (by decide)
  have hs : fld (setBit v 31 true) 18 16 = fld v 18 16 := fld_setBit_ne v 31 true _ _ (by decide) (by decide)
  unfold State.unlockWrite
  rw [bit_setBit_self v 31 true (by decide), hd, hs]
  refine (if_neg (by decide)).trans (if_pos ?_)
  by_contra hno
  simp only [not_or, not_not, Nat.not_lt] at hno
  obtain ⟨hlen, hnonce, hscope, hmin, hmax⟩ := hno
  exact h ⟨hlen, hnonce, hscope, Nat.one_le_iff_ne_zero.mpr hmin, hmax⟩

theorem State.unlockWrite_relock (v : Word) : s.unlockWrite (setBit v 31 false) = (s.relock, .ok 0) := by
  unfold State.unlockWrite
  rw [bit_setBit_self v 31 false (by decide)]
  exact if_pos rfl

theorem State.slotWrite_unlock (q : Req) (v : Word) : s.slotWrite q 0x038 0x1020 v = s.unlockWrite v :=
  (s.slotWrite_dap q 0x1020 v (by decide)).trans (if_pos rfl)

end

/-- Settles O60, register by register of the debug port: its tiles halt or are released one after the other, and an unlock opens and ends. -/
theorem debugUnlocked : Obligations.DebugUnlocked := by
  unfold Obligations.DebugUnlocked
  intro s q v d scope trades valid shows renewed
  refine ⟨?halt, ?resume, ?dreset, ?token, ?full, ?clear, ?nonce, ?opens, ?refused, ?relock, ?closed, ?expires, ?early⟩
  case halt =>
    obtain ⟨hresp, hir, hreq, hother, hnamed, hmem, hregs⟩ := s.haltReqWrite_leaves v
    exact ⟨s.haltReqWrite v, rfl, ⟨hresp, hir⟩, hreq, hother, hnamed, s.haltReqWrite_deferred v, s.haltReqWrite_scoped v, hmem, hregs⟩
  case resume =>
    obtain ⟨hresp, hir, hreq, hother, hnamed, honly⟩ := s.resumeWrite_leaves v
    exact ⟨s.resumeWrite v, rfl, ⟨hresp, hir⟩, hreq, hother, hnamed, honly⟩
  case dreset =>
    intro hb
    exact ⟨s.dapCtl 0, next_of_eq (if_neg (by simp [hb])), ⟨rfl, rfl⟩, s.dapCtl_onlyIn 0⟩
  case token =>
    intro hroom
    have hrun : s.tokenAppend v = if (s.tokenGrown v).dap.token.length = 32 then (s.tokenGrown v).raise 46 else s.tokenGrown v := if_neg (by omega)
    have hlen : (s.tokenGrown v).dap.token.length = s.dap.token.length + 1 := List.length_append
    have hgrown := s.tokenGrown_onlyIn v
    by_cases hlast : s.dap.token.length = 31
    · rw [if_pos (by omega)] at hrun
      refine ⟨_, next_of_eq hrun, ⟨State.raise_resp _ 46, congrArg Dap.ir (State.raise_dap _ 46)⟩, congrArg Dap.token (State.raise_dap _ 46),
        fun _ => State.raise_irq_of_sense rfl rfl, fun h => absurd hlast h,
        State.onlyIn_after (State.onlyIn_mono hgrown (by decide)) (State.onlyIn_mono (State.raise_onlyIn _ 46) (by decide))⟩
    · rw [if_neg (by omega)] at hrun
      exact ⟨_, next_of_eq hrun, ⟨rfl, rfl⟩, rfl, fun h => absurd h hlast, fun _ => rfl, State.onlyIn_mono hgrown (by decide)⟩
  case full =>
    intro hfull
    exact ⟨s.dapCtl _, next_of_eq (if_pos hfull), rfl, s.dapCtl_onlyIn _⟩
  case clear =>
    exact ⟨s.tokClr, rfl, s.tokClr_leaves⟩
  case nonce =>
    exact ⟨s.nonceRead, rfl, s.nonceRead_leaves⟩
  case opens =>
    intro hok hvalid
    refine ⟨_, State.regWrite_next hok (by decide) rfl ((s.slotWrite_unlock q _).trans (s.unlockWrite_opens hvalid)), rfl, rfl, rfl, ⟨rfl, rfl, rfl⟩, rfl, ?_⟩
    exact State.onlyIn_done (State.onlyIn_after (State.onlyIn_mono (State.modDap_onlyIn _ _) (by decide)) (State.newNonce_onlyIn _)) (by decide) (by decide)
  case refused =>
    intro hok hvalid
    exact State.regWrite_blockRefuses hok (by decide) rfl ((s.slotWrite_unlock q _).trans (s.unlockWrite_refuses hvalid))
  case relock =>
    intro hok hopen
    refine ⟨_, State.regWrite_next hok (by decide) rfl ((s.slotWrite_unlock q _).trans (s.unlockWrite_relock v)), ?_⟩
    have honly : s.onlyIn s.relock.done [.dap, .resp, .free, .irq] := State.onlyIn_done s.relock_onlyIn (by decide) (by decide)
    obtain ⟨hend, hzero, hnonce, hirq⟩ := s.relock_closes hopen
    exact ⟨hend, hzero, hnonce, hirq, honly⟩
  case closed =>
    intro hok hclosed
    exact State.regWrite_next hok (by decide) rfl ((s.slotWrite_unlock q _).trans ((s.unlockWrite_relock v).trans (by rw [s.relock_closed hclosed])))
  case expires =>
    intro t hend hpast
    have hrun : s.uleftExpiry = s.relock := if_pos (by simpa [hend] using hpast)
    obtain ⟨hclosed, hzero, hnonce, hirq⟩ := s.relock_closes (by rw [hend]; rfl)
    exact ⟨s.relock, next_of_eq hrun, hclosed, hzero, hnonce, hirq, s.relock_onlyIn⟩
  case early =>
    intro t hend hfuture
    exact next_of_eq (if_neg (by simpa [hend] using hfuture))

end Sys2Proof.Machine

namespace Sys2Proof.Machine

/-! The TAP and the debug port's accesses (R537 to R539, R542). What TRST_N leaves of IDCODE is log 71; the status and the address after an error are
logs 17 and 21. -/

section
variable (s : State)

/-- The debug port selected for an access (R537). -/
def State.dapChosen (s : State) : State := s.tapInstr 0x10

theorem State.dapChosen_onlyIn : s.onlyIn s.dapChosen [.dap] := State.onlyIn_after (s.modDap_onlyIn _) (State.modDap_onlyIn _ _)

/-- The address moved on by four after an access. -/
def State.dapNext (s : State) : State := s.modDap (fun d => { d with addr := (d.addr + 4) % 2 ^ 36 })

/-- What an access that is let through leaves of the debug port. -/
theorem State.dapDone_leaves (u : State) (data : Option Word) : (u.dapSet 0 data).dapNext.dap.status = 0
    ∧ (u.dapSet 0 data).dapNext.dap.addr = (u.dap.addr + 4) % 2 ^ 36 ∧ (u.dapSet 0 data).dapNext.dap.data = data.getD u.dap.data
    ∧ (u.dapSet 0 data).dapNext.mem = u.mem := ⟨rfl, rfl, rfl, rfl⟩

/-- A refusal leaves the status, IRQ46 and, where it counts, the count (R111, R112). -/
theorem State.dapRefuse_leaves (count : Bool) : (s.dapRefuse count).dap = { s.dap with status := 2 }
    ∧ (s.dapRefuse count).irq = (s.raise 46).irq
    ∧ (s.dapRefuse count).reg 0x005 0x1104 = s.reg 0x005 0x1104 + (if count = true then 1 else 0)
    ∧ s.onlyIn (s.dapRefuse count) [.dap, .irq, .regs] := by
  refine ⟨?_, ?_, ?_, ?_⟩
  · cases count <;> simp [State.dapRefuse, State.modDap]
  · cases count
    · rfl
    · refine State.raise_irq_of_sense ?_ (s.modReg_irq 0x005 0x1104 (· + 1))
      rw [State.irqSense, State.irqSense, State.scfg, State.scfg]
      exact congrArg (fun x => fld x 17 16) ((s.reg_modReg (a := 0x005) (a' := 0x008) (o := 0x1104) (o' := 0x1000 + 4 * 46) (· + 1) (by decide) (by decide) (by decide) (by decide)).trans (if_neg (by decide)))
  · cases count
    · exact (State.raise_reg s 46 _ _).trans (by simp)
    · exact (State.raise_reg _ 46 _ _).trans (s.reg_modReg_self 0x005 0x1104 (· + 1))
  · exact State.onlyIn_after (State.onlyIn_after (State.onlyIn_ite (State.onlyIn_mono (s.modReg_onlyIn _ _ _) (by decide)) (s.onlyIn_refl _))
      (State.onlyIn_mono (State.raise_onlyIn _ 46) (by decide))) (State.onlyIn_mono (State.modDap_onlyIn _ _) (by decide))

/-- The instructions that take the lands do so only while RESET_N is low (R538). -/
theorem State.tapInstr_lands {code : Nat} (h : (code == 0 || code == 4 || code == 5) = true) : s.tapInstr code
    = { s with dap := { s.dap with active := some s.now, ir := code, lands := if s.boot.rst = .held then some code else none } } := by
  simp [State.tapInstr, State.tapActive, State.modDap, h]

/-! An access by what it meets. -/

/-- An access while the mesh is in retention or off. -/
theorem State.dapAccess_down (write : Option Word) (hdown : s.bridgeDown = true) : s.dapAccess write = (s.dapChosen.dapSet 2 none).dapNext :=
  congrArg State.dapNext (if_pos hdown)

/-- An access that its unit refuses. -/
theorem State.dapAccess_refused {write : Option Word} {count : Bool} (hup : s.bridgeDown = false)
    (hcheck : s.dapChosen.dapCheck s.dap.addr write.isSome = some count) : s.dapAccess write = (s.dapChosen.dapRefuse count).dapNext := by
  have hup' : (s.tapInstr 0x10).bridgeDown = false := hup
  have hcheck' : (s.tapInstr 0x10).dapCheck (s.tapInstr 0x10).dap.addr write.isSome = some count := hcheck
  unfold State.dapAccess
  simp only [hup', hcheck', Bool.false_eq_true, if_false]
  rfl

/-- What a refused access leaves. -/
theorem State.dapRefused_leaves (count : Bool) : let r := (s.dapChosen.dapRefuse count).dapNext
    r.dap.status = 2 ∧ r.dap.addr = (s.dap.addr + 4) % 2 ^ 36 ∧ r.dap.data = s.dap.data ∧ r.irq = (s.dapChosen.raise 46).irq
    ∧ r.reg 0x005 0x1104 = s.reg 0x005 0x1104 + (if count = true then 1 else 0) ∧ s.onlyIn r [.dap, .irq, .regs] := by
  obtain ⟨hdap, hirq, hcount, honly⟩ := s.dapChosen.dapRefuse_leaves count
  have hnext : (s.dapChosen.dapRefuse count).dapNext.dap = { s.dapChosen.dap with status := 2, addr := (s.dap.addr + 4) % 2 ^ 36 } := by
    rw [State.dapNext, State.modDap, hdap]
    rfl
  refine ⟨congrArg Dap.status hnext, congrArg Dap.addr hnext, (congrArg Dap.data hnext).trans rfl, hirq, hcount, ?_⟩
  exact State.onlyIn_after (State.onlyIn_after (State.onlyIn_mono s.dapChosen_onlyIn (by decide)) honly) (State.onlyIn_mono (State.modDap_onlyIn _ _) (by decide))

/-- The places that hold memory which a debug access reads and writes as such. -/
def Place.plainMem (p : Place) : Prop := p = .sram ∨ p = .dram ∨ p = .ember

/-- A read of sound memory. -/
theorem State.dapAccess_read (hup : s.bridgeDown = false) (hcheck : s.dapChosen.dapCheck s.dap.addr false = none)
    (hplace : (s.dapChosen.place s.dap.addr).plainMem) (hsound : s.isDamaged s.dap.addr 4 = false) :
    s.dapAccess none = (s.dapChosen.dapSet 0 (some (BitVec.ofNat 32 (s.mem.val s.dap.addr 4)))).dapNext := by
  have hup' : (s.tapInstr 0x10).bridgeDown = false := hup
  have hcheck' : (s.tapInstr 0x10).dapCheck (s.tapInstr 0x10).dap.addr false = none := hcheck
  have hread : (s.tapInstr 0x10).masterRead (s.tapInstr 0x10).dap.addr 4 = (s.tapInstr 0x10, s.mem.read s.dap.addr 4, false) :=
    if_neg (by rw [show (s.tapInstr 0x10).isDamaged (s.tapInstr 0x10).dap.addr 4 = false from hsound]; decide)
  unfold State.dapAccess
  simp only [hup', Option.isSome_none, hcheck', Bool.false_eq_true, if_false]
  rcases hplace with h | h | h
  all_goals
    have h' : (s.tapInstr 0x10).place (s.tapInstr 0x10).dap.addr = _ := h
    simp only [h', hread, Bool.false_eq_true, if_false]
    rfl

/-- A write of memory. -/
theorem State.dapAccess_write (v : Word) (hup : s.bridgeDown = false) (hcheck : s.dapChosen.dapCheck s.dap.addr true = none)
    (hplace : (s.dapChosen.place s.dap.addr).plainMem) :
    s.dapAccess (some v) = ((s.dapChosen.masterWriteMem s.dap.addr (toBytes 4 v.toNat)).dapSet 0 none).dapNext := by
  have hup' : (s.tapInstr 0x10).bridgeDown = false := hup
  have hcheck' : (s.tapInstr 0x10).dapCheck (s.tapInstr 0x10).dap.addr true = none := hcheck
  unfold State.dapAccess
  simp only [hup', Option.isSome_some, hcheck', Bool.false_eq_true, if_false]
  rcases hplace with h | h | h
  all_goals
    have h' : (s.tapInstr 0x10).place (s.tapInstr 0x10).dap.addr = _ := h
    simp only [h', State.masterStore, Bool.false_eq_true, if_false]
    rfl

/-- Beyond the ROM, where no check unit is damaged, memory holds the word written, untagged, and the rest of it stays. -/
theorem State.masterWriteMem_word {pa : Nat} (v : Word) (hplace : (s.place pa).plainMem) (hmerge : s.mergeFails pa 4 = false) :
    (s.masterWriteMem pa (toBytes 4 v.toNat)).mem.val pa 4 = v.toNat ∧ (s.masterWriteMem pa (toBytes 4 v.toNat)).mem.tagAt pa = false
    ∧ ∀ b, 0x10000 ≤ b → b < pa ∨ pa + 4 ≤ b → (s.masterWriteMem pa (toBytes 4 v.toNat)).mem.byte b = s.mem.byte b := by
  have hrom : 0x10000 ≤ pa := by
    by_contra hlow
    have hp : s.place pa = .rom := if_pos (by omega)
    rw [hp] at hplace
    simp [Place.plainMem] at hplace
  have hlen : (toBytes 4 v.toNat).length = 4 := toBytes_len 4 _
  have hmerge' : s.mergeFails pa (toBytes 4 v.toNat).length = false := by rwa [hlen]
  refine ⟨(State.masterWriteMem_holds hmerge' hrom).val v.isLt, State.masterWriteMem_tagAt hmerge' (by rw [hlen]; omega), fun b _ hb => ?_⟩
  exact State.masterWriteMem_byte_outside hmerge' (by rwa [hlen])

/-- What a read of a context slot's word shows without the unlock's scope. -/
theorem State.dapSlotRead_hidden {pa : Nat} (hworld : (s.store.slot (slotAddr pa).1).world = .trade) (hscope : s.scopeBit 0 = false)
    (hword : (slotAddr pa).2 ≠ 90) : s.dapSlotRead pa = (s, 0) := by
  have hhidden : ((s.store.slot (slotAddr pa).1).world == .trade && (slotAddr pa).2 != 90 && !s.scopeBit 0) = true := by
    rw [hworld, hscope]
    simpa using hword
  exact if_pos hhidden

/-- A word of a Trade context but its IDENT reads as zero without the unlock's scope (R542). -/
theorem State.dapAccess_slot (hup : s.bridgeDown = false) (hcheck : s.dapChosen.dapCheck s.dap.addr false = none)
    (hplace : s.dapChosen.place s.dap.addr = .ctxStore) (hworld : (s.store.slot (slotAddr s.dap.addr).1).world = .trade) (hscope : s.scopeBit 0 = false)
    (hword : (slotAddr s.dap.addr).2 ≠ 90) : s.dapAccess none = (s.dapChosen.dapSet 0 (some 0)).dapNext := by
  have hup' : (s.tapInstr 0x10).bridgeDown = false := hup
  have hcheck' : (s.tapInstr 0x10).dapCheck (s.tapInstr 0x10).dap.addr false = none := hcheck
  have hplace' : (s.tapInstr 0x10).place (s.tapInstr 0x10).dap.addr = .ctxStore := hplace
  have hslot : (s.tapInstr 0x10).dapSlotRead (s.tapInstr 0x10).dap.addr = (s.tapInstr 0x10, 0) := State.dapSlotRead_hidden _ hworld hscope hword
  unfold State.dapAccess
  simp only [hup', Option.isSome_none, hcheck', hplace', hslot, Bool.false_eq_true, if_false]
  rfl

/-- A write of a Trade context's word needs the unlock's scope (R542). -/
theorem State.dapCheck_slot {pa : Nat} (hworld : (s.store.slot (slotAddr pa).1).world = .trade) (hscope : s.scopeBit 1 = false)
    (hplace : s.place pa = .ctxStore) : s.dapCheck pa true ≠ none := by
  unfold State.dapCheck
  simp only [hplace, hworld, hscope]
  split
  · simp
  · split <;> simp

end

/-- Settles O59, access by access. -/
theorem tapOperates : Obligations.TapOperates := by
  unfold Obligations.TapOperates
  intro s v a tap held s0 pa rises
  refine ⟨next_of_eq (s.tapInstr_lands rfl), rfl, rfl, next_of_eq (s.tapInstr_lands rfl), next_of_eq (s.tapInstr_lands rfl), rfl, rfl,
    ?aligned, ?unaligned, ?down, ?readRefused, ?writeRefused, ?read, ?write, ?slot, ?scope⟩
  case aligned =>
    intro h
    exact next_of_eq (if_pos h)
  case unaligned =>
    intro h
    exact next_of_eq (if_neg h)
  case down =>
    intro h
    exact ⟨next_of_eq (s.dapAccess_down none h), next_of_eq (s.dapAccess_down (some v) h)⟩
  case readRefused =>
    intro count hup hcheck
    obtain ⟨hstatus, haddr, hdata, hirq, hcount, honly⟩ := s.dapRefused_leaves count
    exact ⟨_, next_of_eq (s.dapAccess_refused hup hcheck), hstatus, haddr, hdata, hirq, hcount, honly .mem (by decide), honly .store (by decide),
      honly .tiles (by decide)⟩
  case writeRefused =>
    intro count hup hcheck
    obtain ⟨hstatus, haddr, -, hirq, hcount, honly⟩ := s.dapRefused_leaves count
    exact ⟨_, next_of_eq (s.dapAccess_refused hup hcheck), hstatus, haddr, hirq, hcount, honly .mem (by decide), honly .store (by decide),
      honly .tiles (by decide)⟩
  case read =>
    intro hup hcheck hplace hsound
    obtain ⟨hstatus, haddr, hdata, -⟩ := s.dapChosen.dapDone_leaves (some (BitVec.ofNat 32 (s.mem.val s.dap.addr 4)))
    exact ⟨_, next_of_eq (s.dapAccess_read hup hcheck hplace hsound), hstatus, haddr, hdata⟩
  case write =>
    intro hup hcheck hplace _ hmerge
    obtain ⟨hval, htag, hrest⟩ := s.dapChosen.masterWriteMem_word v hplace hmerge
    have hdap : (s.dapChosen.masterWriteMem s.dap.addr (toBytes 4 v.toNat)).dap = s.dapChosen.dap :=
      s.dapChosen.masterWriteMem_onlyIn s.dap.addr (toBytes 4 v.toNat) .dap (by decide)
    obtain ⟨hstatus, haddr, -, hmem⟩ := (s.dapChosen.masterWriteMem s.dap.addr (toBytes 4 v.toNat)).dapDone_leaves none
    have hnext : (s.dapChosen.masterWriteMem s.dap.addr (toBytes 4 v.toNat)).dap.addr = s.dap.addr := (congrArg Dap.addr hdap :)
    rw [hnext] at haddr
    rw [← hmem] at hval htag hrest
    exact ⟨_, next_of_eq (s.dapAccess_write v hup hcheck hplace), hstatus, haddr, hval, htag, hrest⟩
  case slot =>
    intro hup hcheck hplace hworld hscope hword
    obtain ⟨hstatus, haddr, hdata, -⟩ := s.dapChosen.dapDone_leaves (some 0)
    exact ⟨_, next_of_eq (s.dapAccess_slot hup hcheck hplace hworld hscope hword), hstatus, haddr, hdata⟩
  case scope =>
    intro hworld hscope hplace
    exact State.dapCheck_slot s0 hworld hscope hplace

end Sys2Proof.Machine

namespace Sys2Proof.Machine

/-! What the resets leave (R513 to R518, R536, Tables 16-10, 17-1). -/

/-- A register that is not kept reads its reset value. -/
theorem State.regW_keepRegs_cleared (s : State) {keep : Nat → Nat → Bool} (w : World) {slot off : Nat} (hslot : slot < 0x1000) (hoff : off < 0x10000)
    (hkeep : keep slot off = false) : (s.keepRegs keep).regW w slot off = keyReset (regKey w slot off) := by
  have hkeySlot : slotOfKey (regKey w slot off) = slot := by rw [slotOfKey, regKey]; omega
  have hkeyOff : offOfKey (regKey w slot off) = off := by rw [offOfKey, regKey]; omega
  have hread := Sparse.get_filter_key (keyReset (regKey w slot off)) (fun k => keep (slotOfKey k) (offOfKey k)) (regKey w slot off) s.regs
  rw [hkeySlot, hkeyOff, hkeep] at hread
  exact hread

/-- What a device reset with a code, or without one, leaves of a state. -/
def State.resetLeaves (s r : State) (code : Option Nat) (held : Bool) : Prop :=
  r.boot.rst = (if held = true then .held else .running) ∧ r.boot.burned = s.boot.burned ∧ r.boot.revoked = s.boot.revoked ∧ r.dev.st = .run
  ∧ r.dev.resets = s.dev.resets + (if code.isSome = true then 1 else 0) ∧ (code = none → r.dev.resetCode = s.dev.resetCode)
  ∧ (∀ c, code = some c → s.boot.rst = .off → s.boot.tinder ≠ .ready → r.dev.resetCode = c)
  ∧ r.rtc = s.rtc ∧ r.bus = s.bus ∧ r.ledger = s.ledger ∧ (∀ p, p < 16 → r.pst p = s.pst p)
  ∧ (∀ a, inEmram a = true ∨ inScratch a = true → r.mem.byte a = s.mem.byte a)
  ∧ (∀ a, 0x10000 ≤ a → inEmram a = false → inScratch a = false → r.mem.byte a = 0)
  ∧ r.dict = Dict.reset ∧ r.irq = Irq.reset ∧ r.store = CtxStore.reset ∧ r.dap.unlockEnd = none
  ∧ (∀ u, (r.tile u).run = none ∧ (r.tile u).sys.mccount = (s.tile u).sys.mccount)
  ∧ r.reg 0x00D 0x1000 = 0x80000000 ∧ r.reg 0x00D 0x1004 = 5000 ∧ vget r.boot.left 0 0 = 5000000 ∧ r.pending = s.pending

section
variable (s : State) (code : Option Nat) (held : Bool)

theorem State.deviceReset_regs : (s.deviceReset code held).regs = (s.keepRegs keptByDevice).regs := rfl
theorem State.deviceReset_bytes : (s.deviceReset code held).mem.bytes = s.mem.bytes.filter (fun p => inEmram p.1 || inScratch p.1) := rfl
theorem State.deviceReset_tile (u : TileId) : (s.deviceReset code held).tile u = (s.tile u).afterReset true := s.tile_mapTiles (·.afterReset true) u
theorem State.deviceReset_dev : (s.deviceReset code held).dev = (s.noteReset code false).dev := rfl

/-- Memory that a reset filters by address keeps the bytes that pass, and holds zero elsewhere beyond the ROM. -/
theorem Mem.byte_filtered {m m' : Mem} {keep : Nat → Bool} (h : m'.bytes = m.bytes.filter (fun p => keep p.1)) (a : Nat) :
    (keep a = true → m'.byte a = m.byte a) ∧ (0x10000 ≤ a → keep a = false → m'.byte a = 0) := by
  have hread : Sparse.get 0 a m'.bytes = if keep a = true then Sparse.get 0 a m.bytes else 0 := by rw [h]; exact Sparse.get_filter_key 0 keep a m.bytes
  constructor
  · intro hkeep
    rw [Mem.byte, Mem.byte, hread, if_pos hkeep]
  · intro ha hkeep
    rw [Mem.byte, hread, if_neg (by omega), if_neg (by simp [hkeep])]

theorem State.deviceReset_pst {p : Nat} (hp : p < 16) : (s.deviceReset code held).pst p = s.pst p := by
  refine congrArg (fun v => fld v 31 29) ((State.regW_congr (s.deviceReset_regs code held)).trans ?_)
  exact s.regW_keepRegs .trade (by omega) (by decide) (by simp [keptByDevice, busDieSlot, within]; omega)

theorem State.deviceReset_cleared {slot off : Nat} (hslot : slot < 0x1000) (hoff : off < 0x10000) (hkeep : keptByDevice slot off = false) :
    (s.deviceReset code held).reg slot off = keyReset (regKey .trade slot off) :=
  (State.regW_congr (s.deviceReset_regs code held)).trans (s.regW_keepRegs_cleared .trade hslot hoff hkeep)

/-- A device reset, whatever its source (R516, R518). -/
theorem State.deviceReset_leaves : s.resetLeaves (s.deviceReset code held) code held := by
  have hbyte := Mem.byte_filtered (keep := fun a => inEmram a || inScratch a) (s.deviceReset_bytes code held)
  refine ⟨rfl, rfl, rfl, rfl, ?count, ?nocode, ?code, rfl, rfl, rfl, fun p hp => s.deviceReset_pst code held hp, fun a ha => (hbyte a).1 ?_,
    fun a ha he hs => (hbyte a).2 ha (by simp [he, hs]), rfl, rfl, rfl, rfl, fun u => ?_, ?ctl, ?time, rfl, s.deviceReset_pending code held⟩
  case count => cases code <;> rfl
  case nocode =>
    rintro rfl
    rfl
  case code =>
    rintro c rfl hrst htinder
    exact if_pos ⟨hrst, htinder⟩
  case ctl => exact (s.deviceReset_cleared code held (by decide) (by decide) (by decide)).trans (by decide)
  case time => exact (s.deviceReset_cleared code held (by decide) (by decide) (by decide)).trans (by decide)
  · simpa using ha
  · rw [s.deviceReset_tile code held u]
    exact ⟨rfl, rfl⟩

/-! The bus power-on reset (R515). -/

/-- The lines in programming as the supply is lost touch memory and the counter of free choices alone (R451). -/
theorem State.progsLost_onlyIn : s.onlyIn s.progsLost [.free, .mem] := by
  refine State.onlyIn_foldl (fun u b => ?_) (List.range 4) s
  dsimp only
  split
  · exact u.onlyIn_refl _
  · intro p hp
    split <;> cases p <;> simp [State.agrees, State.markDamaged] at hp ⊢

/-- With no line in programming nothing is lost. -/
theorem State.progsLost_idle (h : ∀ b, b < 4 → vget s.mem.progs b none = none) : s.progsLost = s := by
  have h0 := h 0 (by decide)
  have h1 := h 1 (by decide)
  have h2 := h 2 (by decide)
  have h3 := h 3 (by decide)
  simp [State.progsLost, List.range_succ, h0, h1, h2, h3]

theorem State.tile_of_replicate {x : Tile} (h : s.tiles = Vector.replicate 16 x) (u : TileId) : s.tile u = x := by
  have hu : u.toNat < 16 := u.isLt
  simp [State.tile, h, vget, Vector.getD, hu]

theorem State.busReset_bytes (started : Bool) : (s.busReset started).mem.bytes = s.progsLost.mem.bytes.filter (fun p => inEmram p.1) := rfl
theorem State.busReset_burned (started : Bool) : (s.busReset started).boot.burned = s.boot.burned := by
  have hboot : s.progsLost.boot = s.boot := s.progsLost_onlyIn .boot (by decide)
  simp [State.busReset, State.newNonce, hboot]

end

/-- A write of slot 0x00D that its gate admits and the boot block answers without an error. -/
theorem regWrite_boot {s t : State} {q : Req} {off : Nat} {v : Word} (hadmits : s.admits q 0x00D off) (hlo : 0x1000 ≤ off)
    (haligned : off % 4 = 0) (hblock : s.bootWrite q 0x00D off v = (t, .ok 0)) :
    (Host.Outcome.next (s.regWrite q 0x00D off v) : Host.Outcome State Fault Refusal) = .next t.done :=
  State.regWrite_next hadmits (by decide) haligned ((s.slotWrite_boot q off v hlo).trans hblock)

theorem State.bootWrite_devrst (s : State) (q : Req) (v : Word) : s.bootWrite q 0x00D 0x1128 v = s.devRst v := rfl

/-- A write of slot 0x00D that its gate admits and the boot block refuses. -/
theorem regWrite_bootRefuses {s : State} {q : Req} {off : Nat} {v : Word} (hadmits : s.admits q 0x00D off) (hlo : 0x1000 ≤ off)
    (haligned : off % 4 = 0) (hblock : s.bootWrite q 0x00D off v = (s, .err busErr)) :
    (Host.Outcome.next (s.regWrite q 0x00D off v) : Host.Outcome State Fault Refusal) = .next { s with resp := some (.err busErr) } :=
  State.regWrite_blockRefuses hadmits (by decide) haligned ((s.slotWrite_boot q off v hlo).trans hblock)

/-- Settles O55: every source of a device reset ends in `State.deviceReset`. -/
theorem resetsLeave : Obligations.ResetsLeave := by
  unfold Obligations.ResetsLeave
  intro s q v reset
  refine ⟨⟨_, rfl, s.deviceReset_leaves (some 2) true⟩, ?rises, ?watchdog, ?quiet, ?devrst, ?none,
    ?locked, ?dreset, ?power⟩
  case rises =>
    intro hheld hstarted
    have hrun : s.resetN false = { s with dap := { s.dap with lands := none }, boot := { s.boot with rst := .running } } := by
      simp [State.resetN, State.modBoot, hheld, hstarted]
    exact next_of_eq hrun
  case watchdog =>
    intro hruns hleft
    exact ⟨_, next_of_eq (if_pos (by simp [hruns, hleft, World.idx])), s.deviceReset_leaves (some 3) false⟩
  case quiet =>
    intro h
    exact next_of_eq (if_neg (by rcases h with h | h <;> simp [h, World.idx]))
  case devrst =>
    intro hok hlock hb
    have hreset : s.devRst v = (s.deviceReset none false, .ok 0) := by simp [State.devRst, State.vecLocked, hlock, hb]
    exact ⟨_, regWrite_boot hok (by decide) rfl ((s.bootWrite_devrst q v).trans hreset), s.deviceReset_leaves none false⟩
  case none =>
    intro hok hlock hb
    exact regWrite_boot hok (by decide) rfl ((s.bootWrite_devrst q v).trans (by simp [State.devRst, State.vecLocked, hlock, hb]))
  case locked =>
    intro hok hlock
    exact regWrite_bootRefuses hok (by decide) rfl ((s.bootWrite_devrst q v).trans (if_pos hlock))
  case dreset =>
    intro hb
    exact ⟨_, next_of_eq (if_pos hb), (s.dapCtl 0).deviceReset_leaves (some 5) false⟩
  case power =>
    have hbyte := Mem.byte_filtered (keep := inEmram) (s.busReset_bytes true)
    refine ⟨s.busReset true, rfl, rfl, rfl, rfl, rfl, rfl, rfl, s.busReset_burned true, fun u => ?_, fun hidle a ha => ?_, (hbyte · |>.2), fun g => ⟨rfl, rfl⟩,
      s.busReset_pending true⟩
    · exact (s.busReset true).tile_of_replicate rfl u
    · exact ((hbyte a).1 ha).trans (by rw [s.progsLost_idle hidle])

end Sys2Proof.Machine

namespace Sys2Proof.Machine

/-! The boot controls and the burns (R522, R524). -/

section
variable (s : State) (v : Word)

theorem State.modBoot_onlyIn (f : Boot → Boot) : s.onlyIn (s.modBoot f) [.boot] := by
  intro p hp
  cases p <;> simp [State.agrees, State.modBoot] at hp ⊢

/-- VECLOCK set: the lock holds, and both copies' starts and the choice of a copy begin anew (R522). -/
theorem State.vecLock_locks (hb : bit v 0 = true) : bit ((s.vecLock v).reg 0x00D 0x1118) 0 = true ∧ fld ((s.vecLock v).reg 0x00D 0x1124) 3 0 = 0
    ∧ s.regsBut (s.vecLock v) [(0x00D, 0x1118), (0x00D, 0x1124)] ∧ s.onlyIn (s.vecLock v) [.regs] := by
  have heq : s.vecLock v = (s.modReg 0x00D 0x1118 (· ||| 1)).setReg 0x00D 0x1124 (setFld s.bootTry 3 0 0) := if_pos hb
  rw [heq]
  refine ⟨?_, ?_, ?_, State.onlyIn_after (s.modReg_onlyIn _ _ _) (State.setReg_onlyIn _ _ _ _)⟩
  · rw [State.reg_setReg _ _ (by decide) (by decide) (by decide) (by decide), if_neg (by decide), State.reg_modReg_self]
    simp [bit]
  · rw [State.reg_setReg_self, fld_setFld_self _ _ _ _ (by decide) (by decide), Nat.zero_mod]
  · exact State.regsBut_setReg (State.regsBut_setReg (State.regsBut_of_eq _ rfl) _ (by decide) (by decide) (by simp)) _ (by decide) (by decide) (by simp)

/-- TILEEXCL acts on a tile that does not run (R522): at once, the model's choice (log 23). -/
def Tile.excludedBy (x : Tile) (b : Bool) : Tile := if x.run.isSome then x else x.modSys (fun y => { y with excluded := b })

/-- Every tile as a write of TILEEXCL leaves it. -/
def State.excludeTiles (s : State) (v : Word) : State := allTiles.foldl (fun s t => s.modTile t (·.excludedBy (bit v t.toNat))) s

theorem State.excludeTiles_onlyIn : s.onlyIn (s.excludeTiles v) [.tiles] := State.onlyIn_foldl (fun u t => u.modTile_onlyIn t _) allTiles s

theorem State.excludeTiles_tile {u : TileId} (hrun : (s.tile u).run = none) : ((s.excludeTiles v).tile u).sys.excluded = bit v u.toNat := by
  have hfold := State.foldl_tile (f := fun s t => s.modTile t (·.excludedBy (bit v t.toNat))) (P := fun x y => y = x.excludedBy (bit v u.toNat))
    (fun x => x.tile_modTile u _) (fun x t w h => x.tile_modTile_ne t w _ h) allTiles (by decide) s
  have htile : (s.excludeTiles v).tile u = (s.tile u).excludedBy (bit v u.toNat) := hfold.1 (mem_allTiles u)
  rw [htile, Tile.excludedBy, hrun]
  rfl

/-- A boot control's write while VECLOCK is clear: the register takes the bits it has (R522). -/
theorem State.bootControl_open {off : Nat} {m : Word} (hlock : s.vecLocked = false) (hmask : rowMask 0x00D off = some m) :
    s.bootControl off v = ((if off = 0x1120 then (s.takeBits 0x00D off m v).excludeTiles v else s.takeBits 0x00D off m v), .ok 0) := by
  unfold State.bootControl
  rw [hlock, s.plainWrite_of_rowMask .trade v hmask]
  split
  · contradiction
  · dsimp only
    split <;> rfl

/-- What a boot control's write leaves. -/
theorem State.bootControl_leaves {off : Nat} {m : Word} (hoff : off < 0x10000) :
    let r := if off = 0x1120 then (s.takeBits 0x00D off m v).excludeTiles v else s.takeBits 0x00D off m v
    r.reg 0x00D off = (s.takeBits 0x00D off m v).reg 0x00D off ∧ s.regsBut r [(0x00D, off)] ∧ s.onlyIn r [.regs, .tiles] := by
  have htaken : s.regsBut (s.takeBits 0x00D off m v) [(0x00D, off)] := State.regsBut_setReg (State.regsBut_of_eq _ rfl) _ (by decide) hoff (by simp)
  have honly : s.onlyIn (s.takeBits 0x00D off m v) [.regs, .tiles] := State.onlyIn_mono (s.setReg_onlyIn _ _ _) (by decide)
  have hexcl := (s.takeBits 0x00D off m v).excludeTiles_onlyIn v
  have hregs : ((s.takeBits 0x00D off m v).excludeTiles v).regs = (s.takeBits 0x00D off m v).regs := hexcl .regs (by decide)
  dsimp only
  split
  · exact ⟨State.regW_congr hregs, State.regsBut_congr htaken hregs, State.onlyIn_after honly (State.onlyIn_mono hexcl (by decide))⟩
  · exact ⟨rfl, htaken, honly⟩

/-! A tile's reset and its self-test (R534). -/

/-- A tile whose reset has begun: empty, nothing recorded, its self-test running. -/
def Tile.resetBegun (x : Tile) : Tile :=
  { x.emptied with
    caches := { Caches.reset with wbuf := x.caches.wbuf, wbacks := x.caches.wbacks }
    sys := { x.sys with resetting := true, powered := true, gated := false, gateReq := false, halted := false, haltReq := false, haltAny := false
                        recorded := none, dvfs := .steady } }

/-- The boot context that a tile runs or has recorded, which restarts there after the reset. -/
def Tile.bootCtxOf (x : Tile) : Option CtxId :=
  let n := match x.runNum with
    | some n => some n
    | none => x.sys.recorded
  if n = some 0 ∨ n = some 8 then n else none

/-- The machine as the reset of a tile begins (R534). -/
def State.resetting (s : State) (t : TileId) : State :=
  ((s.tileFlush t).setTile t ((s.tileFlush t).tile t).resetBegun).modBoot
    (fun b => { b with selfTest := (t.toNat, s.now, (s.tile t).bootCtxOf) :: b.selfTest.filter (fun e => e.1 != t.toNat) })

/-- A tile that is not ashed begins its reset (R534). -/
theorem State.treset_begins {q : Req} (hworld : q.world = .trade) (hsup : q.sup = true) {t : TileId} (ht : t = BitVec.ofNat 4 (fld v 3 0))
    (hashed : (s.tile t).sys.ashed = false) : s.treset q v = (s.resetting t, .ok 0) := by
  unfold State.treset
  rw [← ht]
  dsimp only
  rw [hworld, hsup, hashed]
  rfl

theorem State.tile_modBoot (f : Boot → Boot) (t : TileId) : (s.modBoot f).tile t = s.tile t := rfl

theorem State.resetting_tile (t : TileId) : (s.resetting t).tile t = ((s.tileFlush t).tile t).resetBegun := by
  rw [State.resetting, State.tile_modBoot, State.tile_setTile]
theorem State.resetting_tilesBut (t : TileId) : s.tilesBut (s.resetting t) t := by
  intro u hu
  rw [State.resetting, State.tile_modBoot, State.tile_setTile_ne _ t u _ hu, s.tileFlush_tile_ne hu]
theorem State.resetting_onlyIn (t : TileId) : s.onlyIn (s.resetting t) [.tiles, .store, .boot] :=
  State.onlyIn_after (State.onlyIn_after (State.onlyIn_mono (s.tileFlush_onlyIn t) (by decide)) (State.onlyIn_mono (State.setTile_onlyIn _ t _) (by decide)))
    (State.onlyIn_mono (State.modBoot_onlyIn _ _) (by decide))

/-- What the beginning of a tile's reset leaves: the tile empty and in reset, the other tiles and the registers as they were, its self-test noted. -/
theorem State.resetting_leaves (t : TileId) : ((s.resetting t).tile t).run = none ∧ ((s.resetting t).tile t).sys.resetting = true
    ∧ ((s.resetting t).tile t).sys.recorded = none ∧ ((s.resetting t).tile t).float = FloatState.reset ∧ ((s.resetting t).tile t).link = .none
    ∧ s.tilesBut (s.resetting t) t ∧ (t.toNat, s.now, (s.tile t).bootCtxOf) ∈ (s.resetting t).boot.selfTest ∧ (s.resetting t).regs = s.regs := by
  rw [s.resetting_tile t]
  refine ⟨rfl, rfl, rfl, rfl, rfl, s.resetting_tilesBut t, ?_, s.resetting_onlyIn t .regs (by decide)⟩
  rw [State.resetting]
  exact List.mem_cons_self

end

end Sys2Proof.Machine

namespace Sys2Proof.Machine

/-! TSTART, the end of a tile's self-test and IMAGE_VERIFY (R531, R534, R535). -/

section
variable (s : State)

/-- A tile that resumes its recorded context, or waits with it, changes in its flow alone (R502). -/
theorem State.tileResume_flow (t : TileId) : ∃ f, s.tileResume t = s.modFlow t f ∨ s.tileResume t = s := by
  unfold State.tileResume
  dsimp only
  split
  · split
    · exact ⟨_, .inl rfl⟩
    · exact ⟨id, .inr rfl⟩
  · exact ⟨id, .inr rfl⟩

theorem State.tileResume_tile (t u : TileId) : ∃ f, (s.tileResume t).tile u = (s.tile u).modFlow f := by
  obtain ⟨f, heq | heq⟩ := s.tileResume_flow t
  · rw [heq, State.modFlow]
    by_cases hu : u = t
    · subst hu
      exact ⟨f, s.tile_modTile u _⟩
    · exact ⟨id, s.tile_modTile_ne t u _ hu⟩
  · exact ⟨id, by rw [heq]; rfl⟩
theorem State.tileResume_tile_ne {t u : TileId} (h : u ≠ t) : (s.tileResume t).tile u = s.tile u := by
  obtain ⟨f, heq | heq⟩ := s.tileResume_flow t
  · rw [heq]
    exact s.tile_modTile_ne t u _ h
  · rw [heq]
theorem State.tileResume_onlyIn (t : TileId) : s.onlyIn (s.tileResume t) [.tiles] := by
  obtain ⟨f, heq | heq⟩ := s.tileResume_flow t
  · rw [heq]
    exact s.modTile_onlyIn t _
  · rw [heq]
    exact s.onlyIn_refl _

/-! TSTART. -/

/-- A tile that a context starts on: powered, its clock on, the context recorded (R535). -/
def State.started (s : State) (t : TileId) (n : CtxId) : State :=
  s.modTile t (·.modSys (fun y => { y with recorded := some n, powered := true, gated := false, gateReq := false }))

/-- Whether a context stands in no tile, as TSTART asks. -/
def State.unplaced (s : State) (n : CtxId) : Bool :=
  match s.dir n with
  | .running _ _ | .recorded _ => false
  | _ => true

theorem State.unplaced_of_dir {n : CtxId} (hrun : ∀ u b, s.dir n ≠ .running u b) (hrec : ∀ u, s.dir n ≠ .recorded u) : s.unplaced n = true := by
  unfold State.unplaced
  split
  next h => exact absurd h (hrun _ _)
  next h => exact absurd h (hrec _)
  next => rfl

/-- What TSTART asks of the tile and of the context (R535). -/
def State.tstartOk (s : State) (q : Req) (t : TileId) (n : CtxId) : Bool :=
  (s.tile t).tidle && (s.tile t).flow.freeze == .none && (s.ctx n).claimed && (s.ctx n).world == q.world && !(s.ctx n).parked && s.unplaced n

theorem State.tstart_eq (q : Req) (v : Word) : s.tstart q v = if s.tstartOk q (BitVec.ofNat 4 (fld v 3 0)) (BitVec.ofNat 12 (fld v 27 16)) then
    ((s.started (BitVec.ofNat 4 (fld v 3 0)) (BitVec.ofNat 12 (fld v 27 16))).tileResume (BitVec.ofNat 4 (fld v 3 0)), .ok 0) else (s, .err busErr) := rfl

/-- A tile that is idle serves, is reset and runs nothing. -/
theorem Tile.tidle_parts {x : Tile} (h : x.tidle = true) : x.inService = true ∧ x.sys.resetting = false ∧ x.run = none := by
  simp only [Tile.tidle, Bool.and_eq_true, Bool.not_eq_true', Option.isNone_iff_eq_none] at h
  obtain ⟨⟨⟨⟨⟨hserv, -⟩, hreset⟩, hrun⟩, -⟩, -⟩ := h
  exact ⟨hserv, hreset, hrun⟩

/-- A context that starts on an idle tile is recorded there, and filled at once where the tile is not halted (R535). -/
theorem State.started_resumes {t : TileId} {n : CtxId} (hidle : (s.tile t).tidle = true) (hfreeze : (s.tile t).flow.freeze = .none) :
    let r := (s.started t n).tileResume t
    (r.tile t).sys.recorded = some n ∧ (r.tile t).sys.powered = true ∧ s.tilesBut r t
      ∧ ((s.tile t).sys.halted = false → (r.tile t).flow.freeze = .fill n .run) := by
  intro r
  obtain ⟨hserv, hreset, hrun⟩ := Tile.tidle_parts hidle
  have htile : (s.started t n).tile t = (s.tile t).modSys (fun y => { y with recorded := some n, powered := true, gated := false, gateReq := false }) :=
    s.tile_modTile t _
  obtain ⟨f, hf⟩ := (s.started t n).tileResume_tile t t
  have hsys : (r.tile t).sys = { (s.tile t).sys with recorded := some n, powered := true, gated := false, gateReq := false } := by
    rw [hf, htile]
    rfl
  refine ⟨by rw [hsys], by rw [hsys], fun u hu => (State.tileResume_tile_ne _ hu).trans (s.tile_modTile_ne t u _ hu), fun hhalt => ?_⟩
  have hfill : r = (s.started t n).modFlow t (fun f => { f with freeze := .fill n .run }) :=
    State.tileResume_fills (by rw [htile]; rfl) (by rw [htile]; exact hserv) (by rw [htile]; rfl) (by rw [htile]; exact hreset) (by rw [htile]; exact hhalt)
      (by rw [htile]; exact hrun) (by rw [htile]; exact hfreeze)
  rw [hfill, State.modFlow, State.tile_modTile]
  rfl

/-! The self-test's end. -/

/-- The end of a self-test that restarts no boot context (R534). -/
theorem State.tresetDone_plain {u : TileId} {t0 : Nat} (bist : BitVec 4)
    (htest : s.boot.selfTest.find? (fun e => e.1 == u.toNat) = some (u.toNat, t0, none)) (hdue : t0 + 2000 ≤ s.now) :
    ∃ r, s.tresetDone u bist = r ∧ (r.tile u).sys.resetting = false ∧ (r.tile u).sys.bist = bist ∧ (r.tile u).run = (s.tile u).run ∧ s.tilesBut r u
      ∧ (∀ e ∈ r.boot.selfTest, e.1 ≠ u.toNat) := by
  refine ⟨_, rfl, ?_⟩
  have hlate : ¬ s.now < t0 + 2000 := by omega
  have hrun : s.tresetDone u bist = ({ s.modBoot (fun b => { b with selfTest := b.selfTest.filter (fun e => e.1 != u.toNat) }) with
      regs := s.regs.filter (fun p => slotOfKey p.1 != tileSlot u) } : State).modTile u (fun x =>
        ({ x with cfg := x.cfg.map (fun g => { g with wcfg := setBit g.wcfg 27 false }) } : Tile).modSys
          (fun z => { z with resetting := false, bist := bist })) := by
    unfold State.tresetDone
    rw [htest]
    exact if_neg hlate
  rw [hrun]
  refine ⟨?_, ?_, ?_, fun x hx => State.tile_modTile_ne _ u x _ hx, fun e he => ?_⟩
  · rw [State.tile_modTile]
    rfl
  · rw [State.tile_modTile]
    rfl
  · rw [State.tile_modTile]
    rfl
  · rw [State.modTile_boot] at he
    simpa using (List.mem_filter.mp he).2

theorem State.tresetDone_early {u : TileId} {t0 : Nat} {e : Option CtxId} (bist : BitVec 4)
    (htest : s.boot.selfTest.find? (fun e => e.1 == u.toNat) = some (u.toNat, t0, e)) (hearly : s.now < t0 + 2000) : s.tresetDone u bist = s := by
  unfold State.tresetDone
  rw [htest]
  exact if_pos hearly

end

end Sys2Proof.Machine

namespace Sys2Proof.Machine

/-! IMAGE_VERIFY in one step: the model's choice (log 30); a truncated image has reason 1 (log 89). -/

section
variable {s : State} {g : Grant}

/-- The argument of IMAGE_VERIFY names one of the four images, and nothing else. -/
def verifyArgOk (arg : List Byte) : Prop := frameByte arg 0 ≤ 3 ∧ ∀ b ∈ arg.drop 1, b = 0

theorem verifyArgOk_iff (arg : List Byte) : ¬ verifyArgOk arg ↔ 3 < frameByte arg 0 ∨ (arg.drop 1).any (· != 0) = true := by
  rw [verifyArgOk, not_and_or, Nat.not_le]
  simp

theorem State.imageVerify_badArg (hgranted : s.dict.granted .trade = some (2, g)) (harg : ¬ verifyArgOk (s.dict.cmd 2).arg) :
    s.imageVerify = s.stepDone .trade (BitVec.ofNat 32 (1 + 5 * 2 ^ 16)) := by
  unfold State.imageVerify
  rw [hgranted]
  exact if_pos ((verifyArgOk_iff _).mp harg)

/-- The record of an image in order: its version, its SVN and its key, and the start of its digest. -/
def State.verified (s : State) (m : List Byte) : State :=
  ((s.modDict (fun d => d.setCmd 2 { d.cmd 2 with
    result := (m.drop 8).take 4 ++ [m.getD 7 0, m.getD 6 0, 0, 0] ++ (sha256 (m.take 128 ++ m.drop 192)).take 24 })).stepN .trade 1).stepDone .trade 0

theorem State.imageVerify_good (hgranted : s.dict.granted .trade = some (2, g)) (harg : verifyArgOk (s.dict.cmd 2).arg)
    (hgood : s.imageBad (frameByte (s.dict.cmd 2).arg 0) = none) : s.imageVerify = s.verified (s.imageBytes (frameByte (s.dict.cmd 2).arg 0)) := by
  unfold State.imageVerify
  rw [hgranted]
  refine (if_neg fun h => (verifyArgOk_iff _).mpr h harg).trans ?_
  rw [hgood]
  rfl

theorem State.imageVerify_bad {r : Nat} (hgranted : s.dict.granted .trade = some (2, g)) (harg : verifyArgOk (s.dict.cmd 2).arg)
    (hbad : s.imageBad (frameByte (s.dict.cmd 2).arg 0) = some r) :
    s.imageVerify = s.stepDone .trade (BitVec.ofNat 32 (1 + (if r = 5 then 1 else r) * 2 ^ 16)) := by
  unfold State.imageVerify
  rw [hgranted]
  refine (if_neg fun h => (verifyArgOk_iff _).mpr h harg).trans ?_
  rw [hbad]
  by_cases h : r = 5
  · rw [if_pos h, h]
    rfl
  · rw [if_neg h]
    split
    next heq => exact absurd (Option.some.inj heq) h
    next heq => rw [← Option.some.inj heq]; rfl
    next heq => cases heq

end

/-- The three boot controls of slot 0x00D, with the bits that each takes (R522). -/
theorem bootControl_row (k : BitVec 2) : (if k = 0 then 0x1110 else if k = 1 then 0x1114 else 0x1120) ∈ [0x1110, 0x1114, 0x1120]
    ∧ (k ≠ 3 → rowMask 0x00D (if k = 0 then 0x1110 else if k = 1 then 0x1114 else 0x1120) = some (if k = 2 then 0xFFFF else 0xFFFFFFFC))
    ∧ (k = 2 → (if k = 0 then 0x1110 else if k = 1 then 0x1114 else 0x1120) = 0x1120) := by
  revert k
  decide

theorem bootControl_range {off : Nat} (h : off ∈ [0x1110, 0x1114, 0x1120]) : 0x1000 ≤ off ∧ off % 4 = 0 ∧ off < 0x10000 := by
  simp only [List.mem_cons, List.not_mem_nil, or_false] at h
  omega

theorem State.bootWrite_control (s : State) (q : Req) {off : Nat} (v : Word) (h : off ∈ [0x1110, 0x1114, 0x1120]) :
    s.bootWrite q 0x00D off v = s.bootControl off v := by
  simp only [List.mem_cons, List.not_mem_nil, or_false] at h
  rcases h with rfl | rfl | rfl <;> rfl

/-- TSTART in either slot is the same write (R535). -/
theorem regWrite_tstart {s t : State} {q : Req} {pdc : Bool} {v : Word} (hadmits : s.admits q (if pdc = true then 0x02B else 0x00D) 0x1108)
    (hblock : s.tstart q v = (t, .ok 0)) : exec (.tstart q pdc v) s = .next t.done := by
  cases pdc
  · exact regWrite_boot hadmits (by decide) rfl hblock
  · exact regWrite_pdc hadmits (by decide) (by decide) hblock
theorem regWrite_tstartRefuses {s : State} {q : Req} {pdc : Bool} {v : Word} (hadmits : s.admits q (if pdc = true then 0x02B else 0x00D) 0x1108)
    (hblock : s.tstart q v = (s, .err busErr)) : exec (.tstart q pdc v) s = .next { s with resp := some (.err busErr) } := by
  cases pdc
  · exact regWrite_bootRefuses hadmits (by decide) rfl hblock
  · exact regWrite_pdcRefuses hadmits (by decide) (by decide) hblock

theorem State.bootWrite_treset (s : State) (q : Req) (v : Word) : s.bootWrite q 0x00D 0x1104 v = s.treset q v := rfl
theorem State.tile_done (s : State) (u : TileId) : s.done.tile u = s.tile u := rfl

/-- A TRESET of a tile that is not ashed (R534). -/
theorem exec_treset {s : State} {q : Req} {v : Word} {t : TileId} (ht : t = BitVec.ofNat 4 (fld v 3 0)) (hadmits : s.admits q 0x00D 0x1104)
    (hworld : q.world = .trade) (hsup : q.sup = true) (hashed : (s.tile t).sys.ashed = false) : ∃ r, exec (.treset q v) s = .next r
      ∧ (r.tile t).run = none ∧ (r.tile t).sys.resetting = true ∧ (r.tile t).sys.recorded = none ∧ (r.tile t).float = FloatState.reset
      ∧ (r.tile t).link = .none ∧ s.tilesBut r t ∧ (∃ e, (t.toNat, s.now, e) ∈ r.boot.selfTest) ∧ r.regs = s.regs := by
  obtain ⟨hrun, hreset, hrec, hfloat, hlink, hothers, htest, hregs⟩ := s.resetting_leaves t
  refine ⟨(s.resetting t).done, regWrite_boot hadmits (by decide) rfl ((s.bootWrite_treset q v).trans (s.treset_begins v hworld hsup ht hashed)), ?_⟩
  rw [State.tile_done, State.done_boot, State.done_regs]
  exact ⟨hrun, hreset, hrec, hfloat, hlink, fun u hu => (State.tile_done _ u).trans (hothers u hu), ⟨_, htest⟩, hregs⟩

/-- Settles O57, control by control. -/
theorem bootControlsHeld : Obligations.BootControlsHeld := by
  unfold Obligations.BootControlsHeld
  intro s q v k pdc bist locked off refused slot t n key
  refine ⟨?lock, ?nolock, ?control, ?locked, ?burn, ?noburn, ?burned, ?burning, ?revoke, ?reset, ?resetRefused, ?ends, ?testing, ?start, ?startRefused,
    ?verify, ?badArg⟩
  case lock =>
    intro hok hb
    obtain ⟨hlock, hzero, hregs, honly⟩ := s.vecLock_locks v hb
    exact ⟨_, regWrite_boot hok (by decide) rfl rfl, hlock, hzero, State.regsBut_done hregs, State.onlyIn_done honly (by decide) (by decide)⟩
  case nolock =>
    intro hok hb
    exact regWrite_boot hok (by decide) rfl (congrArg (·, BusRes.ok 0) (if_neg (by simp [hb])))
  case control =>
    intro hk hok hopen
    obtain ⟨hoff, hmask, hexcl⟩ := bootControl_row k
    obtain ⟨hlo, haligned, hhi⟩ := bootControl_range hoff
    obtain ⟨hreg, hregs, honly⟩ := s.bootControl_leaves v (m := if k = 2 then 0xFFFF else 0xFFFFFFFC) hhi
    refine ⟨_, regWrite_boot hok hlo haligned ((s.bootWrite_control q v hoff).trans (s.bootControl_open v hopen (hmask hk))), hreg, State.regsBut_done hregs,
      State.onlyIn_done honly (by decide) (by decide), fun u h2 hrun => ?_⟩
    have hexcluded := (s.takeBits 0x00D off (if k = 2 then 0xFFFF else 0xFFFFFFFC) v).excludeTiles_tile v (u := u) hrun
    have hthen : (if off = 0x1120 then (s.takeBits 0x00D off (if k = 2 then 0xFFFF else 0xFFFFFFFC) v).excludeTiles v
        else s.takeBits 0x00D off (if k = 2 then 0xFFFF else 0xFFFFFFFC) v) = _ := if_pos (hexcl h2)
    exact (congrArg (fun r : State => (r.tile u).sys.excluded) hthen).trans hexcluded
  case locked =>
    intro hok hlocked
    obtain ⟨hoff, -, -⟩ := bootControl_row k
    obtain ⟨hlo, haligned, -⟩ := bootControl_range hoff
    exact regWrite_bootRefuses hok hlo haligned ((s.bootWrite_control q v hoff).trans (if_pos hlocked))
  case burn =>
    intro hok hb hidle
    by_cases hfull : 63 ≤ s.svn
    · have hblock : s.svnBurn v = (s, .err busErr) := by simp [State.svnBurn, hb, hfull]
      rw [if_pos hfull]
      exact regWrite_bootRefuses hok (by decide) rfl hblock
    · have hblock : s.svnBurn v = (s.modBoot (fun b => { b with burn := some s.now }), .ok 0) := by simp [State.svnBurn, hb, hfull, hidle]
      rw [if_neg hfull]
      exact regWrite_boot hok (by decide) rfl hblock
  case noburn =>
    intro hok hb
    have hblock : s.svnBurn v = (s, .ok 0) := by simp [State.svnBurn, hb]
    exact regWrite_boot hok (by decide) rfl hblock
  case burned =>
    intro t0 hburn hdue
    have hrun : s.svnBurned = s.modBoot (fun b => { b with burn := none, burned := b.burned + 1 }) := if_pos (by simpa [hburn] using hdue)
    exact ⟨_, next_of_eq hrun, rfl, rfl, s.modBoot_onlyIn _⟩
  case burning =>
    intro t0 hburn hearly
    exact next_of_eq (if_neg (by simpa [hburn] using hearly))
  case revoke =>
    intro hok
    by_cases hall : s.keyrev ||| key = 0xF
    · have hblock : s.keyrevBurn v = (s, .err busErr) := if_pos hall
      exact ⟨_, regWrite_bootRefuses hok (by decide) rfl hblock, fun _ => rfl, fun h => absurd hall h⟩
    · have hblock : s.keyrevBurn v = (s.modBoot (fun b => { b with revoked := b.revoked ||| key }), .ok 0) := if_neg hall
      exact ⟨_, regWrite_boot hok (by decide) rfl hblock, fun h => absurd h hall,
        fun _ => ⟨(BitVec.or_assoc _ _ _).symm, rfl, State.onlyIn_done (s.modBoot_onlyIn _) (by decide) (by decide)⟩⟩
  case reset =>
    exact exec_treset rfl
  case resetRefused =>
    intro hok hno
    have hblock : s.treset q v = (s, .err busErr) := if_pos (by simpa [imp_iff_not_or] using hno)
    exact regWrite_bootRefuses hok (by decide) rfl hblock
  case ends =>
    intro u t0 htest hdue
    obtain ⟨r, hr, hfacts⟩ := s.tresetDone_plain bist htest hdue
    exact ⟨r, next_of_eq hr, hfacts⟩
  case testing =>
    intro u t0 e htest hearly
    exact next_of_eq (s.tresetDone_early bist htest hearly)
  case start =>
    intro hok hidle hfreeze hclaimed hworld hparked hrun hrec
    have hstart : s.tstartOk q t n = true := by
      simp [State.tstartOk, hidle, hfreeze, hclaimed, hworld, hparked, s.unplaced_of_dir hrun hrec]
    obtain ⟨hrecorded, hpowered, hothers, hfill⟩ := s.started_resumes (t := t) (n := n) hidle hfreeze
    exact ⟨_, regWrite_tstart hok ((s.tstart_eq q v).trans (if_pos hstart)), hrecorded, hpowered, hothers, rfl, hfill⟩
  case startRefused =>
    intro hok hno
    have hstart : ¬ s.tstartOk q t n = true := by
      rcases hno with h | h | h | h <;> simp [State.tstartOk, h]
    exact regWrite_tstartRefuses hok ((s.tstart_eq q v).trans (if_neg hstart))
  case verify =>
    intro g hgranted hk hrest m
    split
    next r hbad => exact next_of_eq (State.imageVerify_bad hgranted ⟨hk, hrest⟩ hbad)
    next hgood => exact next_of_eq (State.imageVerify_good hgranted ⟨hk, hrest⟩ hgood)
  case badArg =>
    intro g hgranted harg
    refine next_of_eq (State.imageVerify_badArg hgranted fun h => ?_)
    rcases harg with harg | ⟨b, hb, hne⟩
    · exact absurd h.1 (by omega)
    · exact hne (h.2 b hb)

end Sys2Proof.Machine

namespace Sys2Proof.Machine

/-! A start of a kindling copy on a damaged unit of shared SRAM (R527, R566). -/

/-- A machine whose first kindling copy has a body of one byte, 1, and whose first check unit of shared SRAM holds an uncorrectable error. -/
def shortCopyDamaged : State :=
  { State.reset with mem := { Mem.reset with bytes := [(0x800000C, 1), (0x80000C0, 1)], damaged := [(0x1000000, true)] } }

/-- The copy's body is the one byte. -/
theorem shortCopyDamaged_body : ((shortCopyDamaged.imageBytes 0).drop 192).take (frameVal (shortCopyDamaged.imageBytes 0) 12 4) = [1] := by decide +kernel

/-- The ROM's write of that byte covers a part of the damaged unit alone, and is not merged (R566): shared SRAM still reads zero there. -/
theorem shortCopyDamaged_runCopy : (shortCopyDamaged.runCopy 0).mem.byte 0x1000000 = 0 := by decide +kernel

/-- Refutes O56: `State.runCopy` of a copy whose body is no whole number of check units loses the bytes that meet a damaged unit, and the clause on a chosen
copy asks neither for a sound image nor for sound memory; `shortCopyDamaged` is such a state. -/
theorem not_bootRuns : ¬ Obligations.BootRuns := by
  unfold Obligations.BootRuns
  intro h
  obtain ⟨-, -, -, -, -, -, hcopy, -⟩ := h shortCopyDamaged [] 0 false false []
  obtain ⟨-, -, -, -, hbody⟩ := hcopy 0 (by decide)
  have hfirst := hbody 0 (by rw [shortCopyDamaged_body]; decide)
  rw [shortCopyDamaged_body] at hfirst
  exact absurd (shortCopyDamaged_runCopy.symm.trans hfirst) (by decide)

end Sys2Proof.Machine

namespace Sys2Proof.Machine

/-! What the dictionary and step engines change of the machine as they serve requests, answers and commands (R337 to R374). -/

/-- The parts that the engines may change. -/
def engineParts : List Part := [.seq, .regs, .mem, .irq, .sweep, .dict, .dev, .out, .tiles, .errRows, .errCount]

/-- The registers that the engines may change: LDONE, STEPOVER and, for an abort, the sweep's state. -/
def engineWords : List (Nat × Nat) := [(0x028, 0x1008), (0x02C, 0x1014), (0x021, 0x1208)]

/-- The machine t is s after work of the engines: the interrupt enables, the worlds' starts and all of a tile but its caches are as they were. -/
structure State.Serves (s t : State) : Prop where
  only : s.onlyIn t engineParts
  regs : s.regsBut t engineWords
  en : t.irq.en = s.irq.en
  started : t.dev.started = s.dev.started
  tile : ∀ u, ∃ c, t.tile u = { s.tile u with caches := c }

theorem State.Serves.refl (s : State) : s.Serves s :=
  ⟨s.onlyIn_refl _, State.regsBut_of_eq _ rfl, rfl, rfl, fun u => ⟨(s.tile u).caches, rfl⟩⟩

theorem State.Serves.trans {s t r : State} (h : s.Serves t) (h' : t.Serves r) : s.Serves r := by
  refine ⟨State.onlyIn_after h.only h'.only, State.regsBut_trans h.regs h'.regs (List.Subset.refl _) (List.Subset.refl _), h'.en.trans h.en,
    h'.started.trans h.started, fun u => ?_⟩
  obtain ⟨c, hc⟩ := h.tile u
  obtain ⟨d, hd⟩ := h'.tile u
  exact ⟨d, by rw [hd, hc]⟩

theorem State.Serves.foldl {α : Type} {f : State → α → State} (hf : ∀ s a, State.Serves s (f s a)) (l : List α) (s : State) : s.Serves (l.foldl f s) := by
  induction l generalizing s with
  | nil => exact .refl s
  | cons a l ih => exact .trans (hf s a) (ih _)

theorem State.Serves.ite {s a b : State} {c : Prop} [Decidable c] (h : s.Serves a) (h' : s.Serves b) : s.Serves (if c then a else b) := by
  split
  · exact h
  · exact h'

/-- A change of parts other than registers, interrupts, tiles and the device. -/
theorem State.Serves.ofParts {s t : State} (h : s.onlyIn t [.seq, .mem, .sweep, .dict, .out, .errRows, .errCount]) : s.Serves t :=
  ⟨State.onlyIn_mono h (by decide), State.regsBut_of_eq _ (h .regs (by decide)), congrArg Irq.en (h .irq (by decide)),
    congrArg Dev.started (h .dev (by decide)), fun u => ⟨(s.tile u).caches, State.tile_congr (h .tiles (by decide))⟩⟩

section
variable (s : State)

theorem State.modDict_serves (f : Dict → Dict) : s.Serves (s.modDict f) :=
  .ofParts (by
    intro p hp
    cases p <;> simp [State.agrees] at hp ⊢)
theorem State.modSess_serves (n : Nat) (f : Session → Session) : s.Serves (s.modSess n f) := s.modDict_serves _
theorem State.SessionsOnly.serves {t : State} (h : s.SessionsOnly t) : s.Serves t := by
  obtain ⟨l, o, rfl⟩ := h
  refine .ofParts ?_
  intro p hp
  cases p <;> simp [State.agrees] at hp ⊢

/-! Interrupts and registers. -/

theorem State.irqEdge_en (i : Nat) : (s.irqEdge i).irq.en = s.irq.en := by
  unfold State.irqEdge
  split <;> rfl
theorem State.raise_en (i : Nat) : (s.raise i).irq.en = s.irq.en := by
  unfold State.raise
  split
  · rfl
  · rw [State.irqEdge_en, State.irqEdge_en]
  · exact s.irqEdge_en i
theorem State.raiseNotify_en (i : Nat) : (s.raiseNotify i).irq.en = s.irq.en := by
  unfold State.raiseNotify
  split
  · rfl
  · exact s.raise_en i

theorem State.Serves.ofIrq {x : Irq} (hen : x.en = s.irq.en) : s.Serves { s with irq := x } := by
  refine ⟨?_, State.regsBut_of_eq _ rfl, hen, rfl, fun u => ⟨(s.tile u).caches, rfl⟩⟩
  intro p hp
  cases p <;> simp [State.agrees, engineParts] at hp ⊢
theorem State.raise_serves (i : Nat) : s.Serves (s.raise i) := by
  have hen := s.raise_en i
  obtain ⟨x, hx⟩ := s.raise_eq i
  rw [hx] at hen ⊢
  exact .ofIrq s hen
theorem State.notifyWorld_serves (slot : Nat) (w : World) : s.Serves (s.notifyWorld slot w) := by
  refine .ite ?_ (.refl s)
  generalize fld (s.regW w slot (if slot = 0x028 then 0x1020 else 0x1010)) 8 0 = i
  have hen := s.raiseNotify_en i
  obtain ⟨x, hx⟩ := s.raiseNotify_eq i
  rw [hx] at hen ⊢
  exact .ofIrq s hen

theorem State.setRegW_onlyIn (w : World) (slot off : Nat) (v : Word) : s.onlyIn (s.setRegW w slot off v) [.regs] := by
  intro p hp
  cases p <;> simp [State.agrees] at hp ⊢
theorem State.setRegW_serves (w : World) {slot off : Nat} (v : Word) (hslot : slot < 0x1000) (hoff : off < 0x10000) (hword : (slot, off) ∈ engineWords) :
    s.Serves (s.setRegW w slot off v) :=
  ⟨State.onlyIn_mono (s.setRegW_onlyIn w slot off v) (by decide), State.regsBut_setRegW (State.regsBut_of_eq _ rfl) v hslot hoff hword,
    congrArg Irq.en (State.setRegW_irq ..), congrArg Dev.started (State.setRegW_dev ..), fun u => ⟨(s.tile u).caches, State.tile_congr (State.setRegW_tiles ..)⟩⟩

/-! Memory, by way of the caches. -/

theorem State.dropCopies_tile (pa n : Nat) (u : TileId) : ∃ c, (s.dropCopies pa n).tile u = { s.tile u with caches := c } :=
  ⟨_, s.tile_mapTiles _ u⟩
theorem State.emberWrite_serves (pa : Nat) (bs : List Byte) : s.Serves (s.emberWrite pa bs) := by
  have honly : s.onlyIn (s.emberWrite pa bs) [.mem, .tiles] := s.masterWriteMem_onlyIn pa bs
  refine ⟨State.onlyIn_mono honly (by decide), State.regsBut_of_eq _ (honly .regs (by decide)), congrArg Irq.en (honly .irq (by decide)),
    congrArg Dev.started (honly .dev (by decide)), fun u => ?_⟩
  obtain ⟨c, hc⟩ := s.dropCopies_tile pa bs.length u
  exact ⟨c, (State.tile_congr (State.memWrite_tiles ..)).trans hc⟩

/-! Answers, events and notices. -/

theorem State.ferrySend_serves (n type : Nat) (payload : List Byte) : s.Serves (s.ferrySend n type payload) :=
  State.SessionsOnly.serves s (.ferrySend s n type payload)
theorem State.ferryEvent_serves (n subid flags key : Nat) (v : List Byte) : s.Serves (s.ferryEvent n subid flags key v) :=
  State.SessionsOnly.serves s (.ferryEvent s n subid flags key v)
theorem State.ferryAnswer_serves (n tag type : Nat) (payload : List Byte) : s.Serves (s.ferryAnswer n tag type payload) :=
  (s.ferrySend_serves n type payload).trans (State.modSess_serves _ n _)
theorem State.notifySub_serves (n : Nat) (b : Subn) (v : List Byte) : s.Serves (s.notifySub n b v) := by
  unfold State.notifySub
  dsimp only
  split
  · exact .ite (s.modSess_serves n _) ((s.ferryEvent_serves ..).trans (State.modSess_serves _ n _))
  · exact .ite (s.modSess_serves n _) ((s.ferryEvent_serves ..).trans (State.modSess_serves _ n _))
theorem State.publish_serves (key : Nat) (v : List Byte) : s.Serves (s.publish key v) :=
  State.Serves.foldl (fun t (x : Session) => State.Serves.foldl (fun r b => r.notifySub_serves x.num b v) _ t) _ s
theorem State.localAnswer_serves (w : World) (slot status : Nat) (v : List Byte) : s.Serves (s.localAnswer w slot status v) := by
  have hvalue : ∀ t : State, s.Serves t → s.Serves ((t.emberWrite (mailboxOf w + 64 * slot + 5) (toBytes 1 status)).setRegW w 0x028 0x1008
      (setBit ((t.emberWrite (mailboxOf w + 64 * slot + 5) (toBytes 1 status)).regW w 0x028 0x1008) slot true)) := fun t ht =>
    (ht.trans (t.emberWrite_serves _ _)).trans (State.setRegW_serves _ w _ (by decide) (by decide) (by decide))
  refine hvalue _ ?_
  split
  · exact .refl s
  · dsimp only
    split
    · exact ((s.emberWrite_serves _ _).trans (State.emberWrite_serves _ _ _)).trans (State.emberWrite_serves _ _ _)
    · exact ((s.emberWrite_serves _ _).trans (State.emberWrite_serves _ _ _)).trans (State.emberWrite_serves _ _ _)
theorem State.segStart_serves (n x tag key status : Nat) (v : List Byte) : s.Serves (s.segStart n x tag key status v) :=
  (s.ferryAnswer_serves n tag 0x25 _).trans (State.modSess_serves _ n _)
theorem State.answer_serves (r : DReq) (status : Nat) (v : List Byte) : s.Serves (s.answer r status v) := by
  unfold State.answer
  split
  · exact s.localAnswer_serves ..
  · exact .ite (s.ferryAnswer_serves ..) (s.ferryAnswer_serves ..)
  · exact s.ferryAnswer_serves ..
  · exact s.segStart_serves ..
  · split
    · exact s.ferryAnswer_serves ..
    · exact s.ferryAnswer_serves ..
  · exact (s.ferryAnswer_serves ..).trans (State.modSess_serves _ _ _)

/-! Commands. -/

theorem State.putCmd_serves (i : Nat) (c : Cmd) : s.Serves (s.putCmd i c) :=
  (s.modDict_serves _).trans (State.SessionsOnly.serves _ (.cmdNotices _ i _ c))
theorem State.cmdEnd_serves (i st reason : Nat) : s.Serves (s.cmdEnd i st reason) := (s.modDict_serves _).trans (State.putCmd_serves _ i _)
theorem State.cmdStart_serves (i role : Nat) : s.Serves (s.cmdStart i role).1 := by
  unfold State.cmdStart
  dsimp only
  repeat' split
  all_goals dsimp only
  · exact s.modDict_serves _
  · exact .refl s
  · exact .refl s
  · exact .refl s
  · exact .refl s
  · exact (s.modDict_serves _).trans (State.putCmd_serves _ i _)
theorem State.modSweep_serves (f : Sweep → Sweep) : s.Serves (s.modSweep f) :=
  .ofParts (by
    intro p hp
    cases p <;> simp [State.agrees, State.modSweep] at hp ⊢)
theorem State.sweepEnd_serves (st reason : Nat) : s.Serves (s.sweepEnd st reason) :=
  ((s.setRegW_serves .trade _ (by decide) (by decide) (by decide)).trans (State.modSweep_serves _ _)).trans (State.raise_serves _ _)
theorem State.sweepAbort_serves : s.Serves s.sweepAbort := .ite (.refl s) (.ite (s.sweepEnd_serves 3 1) (s.modSweep_serves _))
theorem State.cmdAbort_serves (i : Nat) : s.Serves (s.cmdAbort i) := by
  refine .ite (.refl s) (.ite (s.cmdEnd_serves i 3 0x8001) (.ite s.sweepAbort_serves ?_))
  split
  · exact s.modDict_serves _
  · exact s.cmdEnd_serves i 3 0x8001
theorem State.cmdAck_serves (i : Nat) : s.Serves (s.cmdAck i) := .ite (s.putCmd_serves i _) (.refl s)
theorem State.cmdControl_serves (i v role : Nat) : s.Serves (s.cmdControl i v role).1 := by
  unfold State.cmdControl
  split
  · exact s.cmdStart_serves i role
  · exact s.cmdAbort_serves i
  · exact s.cmdAck_serves i

/-- A step's end (R367, R369, R374). -/
theorem State.stepCount_serves (w : World) (elapsed : Nat) : s.Serves (s.stepCount w elapsed) :=
  .ite ((s.modDict_serves _).trans (State.setRegW_serves _ w _ (by decide) (by decide) (by decide))) (s.modDict_serves _)
theorem State.stepDone_serves (w : World) (v : Word) : s.Serves (s.stepDone w v) := by
  unfold State.stepDone
  split
  · exact .refl s
  · dsimp only
    refine .trans ((s.stepCount_serves w _).trans (State.modDict_serves _ _)) (.ite (State.cmdEnd_serves _ _ _ _) (.ite (.ite ?_ (State.modDict_serves _ _)) ?_))
    · exact (State.modDict_serves _ _).trans (State.sweepAbort_serves _)
    · exact .trans (State.putCmd_serves _ _ _) (.ite (State.cmdEnd_serves _ _ _ _) (.ite (State.cmdEnd_serves _ _ _ _) (.refl _)))
theorem State.stepN_serves (w : World) (v : Word) : s.Serves (s.stepN w v) := by
  unfold State.stepN
  split
  · exact .ite (s.putCmd_serves _ _) (.refl s)
  · exact .refl s

end

end Sys2Proof.Machine

namespace Sys2Proof.Machine

/-! A request served (R338, R343, R349 to R352). -/

section
variable (s : State)

/-- The device changes in its permits alone. -/
theorem State.openPermit_serves (k : Nat) : s.Serves (s.openPermit k) := by
  refine ⟨?_, State.regsBut_of_eq _ rfl, rfl, rfl, fun u => ⟨(s.tile u).caches, rfl⟩⟩
  intro p hp
  cases p <;> simp [State.agrees, engineParts, State.openPermit] at hp ⊢
theorem State.permitWrite_serves (key : Nat) (v : List Byte) : s.Serves (s.permitWrite key v) :=
  .ite (s.openPermit_serves _) (.ite (s.openPermit_serves _) (.refl s))
theorem State.setUnlock_serves (q : DSrc) (e : Option Nat) : s.Serves (s.setUnlock q e) := by
  unfold State.setUnlock
  split
  · exact s.modDict_serves _
  · exact s.modSess_serves _ _
theorem State.accepted_serves (r : DReq) (e : DictDesc) : s.Serves (s.accepted r e) :=
  .trans (.ite (s.setUnlock_serves _ _) (.refl s)) (State.permitWrite_serves _ _ _)
theorem State.noteRws_serves (e : DictDesc) : s.Serves (s.noteRws e) := .ite (s.modDict_serves _) (.refl s)
theorem State.sessionEnd_serves (n : Nat) : s.Serves (s.sessionEnd n) := s.modDict_serves _
theorem State.afterWrite_serves (e : DictDesc) (old v : List Byte) : s.Serves (s.afterWrite e old v) :=
  .ite (.foldl (fun t (y : Session) => t.sessionEnd_serves y.num) _ s) (.ite (s.sessionEnd_serves _) (.refl s))
theorem State.clearErrors_serves : s.Serves { s with errRows := [], errCount := 0 } :=
  .ofParts (by
    intro p hp
    cases p <;> simp [State.agrees] at hp ⊢)

theorem State.builtinWrite_serves (r : DReq) (e : DictDesc) (role : Nat) : s.Serves (s.builtinWrite r e role).1 := by
  unfold State.builtinWrite
  dsimp only
  split
  · split
    · exact s.cmdControl_serves _ _ _
    · dsimp only
      exact s.modDict_serves _
  · repeat' split
    all_goals dsimp only
    · exact s.setUnlock_serves _ _
    · exact s.setUnlock_serves _ _
    · exact s.clearErrors_serves
    · exact .refl s
    · exact s.modDict_serves _
    · exact .refl s
    · exact (s.modDict_serves _).trans (State.publish_serves _ _ _)

theorem State.queueWrite_serves (r : DReq) (e : DictDesc) (role : Nat) : s.Serves (s.queueWrite r e role).1 := by
  unfold State.queueWrite
  dsimp only
  split
  · exact .refl s
  · exact (((s.modDict_serves _).trans (State.emberWrite_serves _ _ _)).trans (State.publish_serves _ _ _)).trans (State.notifyWorld_serves _ _ _)

theorem State.bumpSeq_serves (n : Nat) : s.Serves { s with seq := n } :=
  .ofParts (by
    intro p hp
    cases p <;> simp [State.agrees] at hp ⊢)

theorem State.forward_serves {r : DReq} {e : DictDesc} {role : Nat} {p : State × Nat} (h : s.forward r e role = some p) : s.Serves p.1 := by
  unfold State.forward at h
  dsimp only at h
  cases hslot : s.dict.fwdSlot (ownerWorld e.owner) with
  | none =>
    rw [hslot] at h
    obtain rfl := Option.some.inj h
    exact .refl s
  | some j =>
    rw [hslot] at h
    obtain ⟨-, h⟩ := Option.ite_none_left_eq_some.mp h
    obtain rfl := Option.some.inj h
    refine .trans (.trans ?_ (State.emberWrite_serves _ _ _)) (.trans (.trans (State.modDict_serves _ _) (State.bumpSeq_serves _ _)) (State.notifyWorld_serves _ _ _))
    exact .ite (s.emberWrite_serves _ _) (.refl s)

theorem State.tryAnswer_serves {r : DReq} {status : Nat} {v : List Byte} {t : State} (h : s.tryAnswer r status v = some t) : s.Serves t := by
  unfold State.tryAnswer at h
  split at h
  · split at h
    · cases h
    · cases h
      exact s.answer_serves r status v
  · cases h
    exact s.answer_serves r status v

theorem State.ownWrite_serves (r : DReq) (e : DictDesc) (role : Nat) :
    s.Serves (if e.owner = 0 then s.builtinWrite r e role else s.queueWrite r e role).1 := by
  split
  · exact s.builtinWrite_serves r e role
  · exact s.queueWrite_serves r e role

/-- A write that the engine answers itself. -/
theorem State.emberWritten_serves (r : DReq) (e : DictDesc) (p : State × Nat) (hp : s.Serves p.1) :
    s.Serves ((if p.2 = 0 then (p.1.accepted r e).noteRws e else p.1).answer r p.2 []) :=
  .trans (.ite ((hp.trans (State.accepted_serves _ r e)).trans (State.noteRws_serves _ e)) hp) (State.answer_serves _ _ _ _)

theorem State.readWrite_serves {r : DReq} {role : Nat} {t : State} (h : s.readWrite r role = some t) : s.Serves t := by
  unfold State.readWrite at h
  dsimp only at h
  split at h
  · exact s.tryAnswer_serves h
  · split at h
    · split at h
      · cases h
      · split at h
        · split at h
          · exact s.tryAnswer_serves h
          · obtain ⟨p, hp, hq⟩ := Option.bind_eq_some_iff.mp h
            have hserves := s.forward_serves hp
            split at hq
            · cases hq
              exact hserves
            · cases hq
              exact s.answer_serves _ _ _
        · split at h
          · cases h
            exact .ite ((s.emberWritten_serves r _ _ (s.ownWrite_serves r _ role)).trans (State.afterWrite_serves _ _ _ _))
              (s.emberWritten_serves r _ _ (s.ownWrite_serves r _ role))
          · obtain ⟨p, hp, hq⟩ := Option.bind_eq_some_iff.mp h
            have hserves := s.forward_serves hp
            cases hq
            exact .ite (hserves.trans (State.accepted_serves _ _ _)) (hserves.trans (State.answer_serves _ _ _ _))
    · exact s.tryAnswer_serves h

theorem State.register_serves (w : World) (b : List Byte) : s.Serves (s.register w b).1 := by
  unfold State.register
  repeat' split
  all_goals dsimp only
  · exact .refl s
  · exact .refl s
  · exact .refl s
  · exact s.modDict_serves _
theorem State.unregister_serves (w : World) (key : Nat) : s.Serves (s.unregister w key).1 := by
  unfold State.unregister
  repeat' split
  all_goals dsimp only
  · exact .refl s
  · exact .refl s
  · exact s.modDict_serves _
theorem State.update_serves (w : World) (key : Nat) (v : List Byte) : s.Serves (s.update w key v).1 := by
  unfold State.update
  dsimp only
  repeat' split
  all_goals dsimp only
  · exact .refl s
  · exact .refl s
  · exact .refl s
  · exact .refl s
  · exact .refl s
  · exact s.modDict_serves _
  · exact (s.modDict_serves _).trans (State.publish_serves _ _ _)

theorem State.commandReq_serves (r : DReq) (role : Nat) : s.Serves (s.commandReq r role).1 := by
  unfold State.commandReq
  dsimp only
  split
  · rename_i i e7 e1 _ _ _
    generalize hst7 : (if r.value = [] then 0 else s.checkReq { r with op := 2, key := e7.key } e7 role) = st7
    have harg : s.Serves (if r.value = [] then s else (s.builtinWrite { r with op := 2, key := e7.key } e7 role).1) :=
      .ite (.refl s) (s.builtinWrite_serves _ _ _)
    generalize (if r.value = [] then s else (s.builtinWrite { r with op := 2, key := e7.key } e7 role).1) = s1 at harg
    split
    · exact .refl s
    · split
      · exact .refl s
      · have hnoted : ∀ t : State, s.Serves t → ∀ r1, s.Serves (if (t.builtinWrite r1 e1 role).2 = 0 then t.builtinWrite r1 e1 role
            else (s, (t.builtinWrite r1 e1 role).2)).1 := by
          intro t ht r1
          split
          · exact ht.trans (t.builtinWrite_serves _ _ _)
          · exact .refl s
        refine hnoted _ ?_ _
        split
        · exact harg.trans (State.modSess_serves _ _ _)
        · exact harg
  · exact .refl s

theorem State.dictReq_serves {r : DReq} {t : State} (h : s.dictReq r = some t) : s.Serves t := by
  unfold State.dictReq at h
  dsimp only at h
  split at h
  · cases h
    exact .refl s
  · split at h
    · exact s.readWrite_serves h
    · exact s.readWrite_serves h
    · split at h
      · exact s.tryAnswer_serves h
      · exact s.tryAnswer_serves h
    · cases h
      exact (s.update_serves _ _ _).trans (State.answer_serves _ _ _ _)
    · cases h
      exact (s.register_serves _ _).trans (State.answer_serves _ _ _ _)
    · cases h
      exact (s.unregister_serves _ _).trans (State.answer_serves _ _ _ _)
    · cases h
      exact (s.commandReq_serves _ _).trans (State.answer_serves _ _ _ _)
    · exact s.readWrite_serves h
    · exact s.readWrite_serves h
    · cases h
      exact s.answer_serves _ _ _

theorem State.submit_serves (r : DReq) : s.Serves (s.submit r) := by
  refine .ite (s.modDict_serves _) ?_
  cases h : s.dictReq r with
  | none =>
    rw [Option.getD_none]
    exact s.modDict_serves _
  | some t =>
    rw [Option.getD_some]
    exact s.dictReq_serves h
theorem State.resubmit_serves : s.Serves s.resubmit := (s.modDict_serves _).trans (.foldl (fun t r => t.submit_serves r) _ _)

/-- The engines' part of a world reset (R372, R533 step 6). -/
theorem State.cmdsWorldReset_serves (w : World) : s.Serves (s.cmdsWorldReset w) := .foldl (fun t i => t.cmdEnd_serves i 3 0x8004) _ s
theorem State.dictWorldReset_serves (w : World) : s.Serves (s.dictWorldReset w) :=
  .trans (.trans (.trans ((s.modDict_serves _).trans (State.modDict_serves _ _)) (.foldl (fun t (f : Fwd) => t.answer_serves f.req 8 []) _ _))
    (State.resubmit_serves _)) (State.cmdsWorldReset_serves _ w)

end

end Sys2Proof.Machine

namespace Sys2Proof.Machine

/-! The commands of the parameter store (R510 to R512). RESTORE_DEFAULTS in one step is the model's choice (log 30). -/

section
variable (s : State)

/-- An argument of zeros. -/
theorem zeros_iff (l : List Byte) : l.any (· != 0) = false ↔ ∀ b ∈ l, b = 0 := by simp [List.any_eq_false]

/-- The steps of a STORE that write the payload, 256 bytes each. -/
theorem storeParts_eq (n : Nat) : cdiv (cdiv n 64) 4 = ((n + 63) / 64 + 3) / 4 := rfl

/-- What a STORE keeps in hand stays as its step ends. -/
theorem State.Serves.job {s t : State} (h : s.Serves t) : t.job = s.job := h.only .job (by decide)
theorem State.masterStore_job (pa : Nat) (bs : List Byte) : (s.masterStore pa bs).1.job = s.job := s.masterStore_onlyIn pa bs .job (by decide)
theorem State.storeNote_job (sub : Nat) (v : List Byte) : (s.storeNote sub v).job = s.job := (s.update_serves _ _ _).job
theorem State.stepDone_job (w : World) (v : Word) : (s.stepDone w v).job = s.job := (s.stepDone_serves w v).job
theorem State.modDict_keepsJob (f : Dict → Dict) : (s.modDict f).job = s.job := rfl
theorem State.stepFail_job (w : World) (reason : Nat) : (s.stepFail w reason).job = s.job := s.stepDone_job w _

theorem State.storePart_job (fail : Bool) : (s.storePart fail).job = s.job := by
  unfold State.storePart
  dsimp only
  repeat' split
  all_goals simp only [State.stepFail_job, State.stepDone_job, State.storeNote_job, State.modDict_keepsJob, State.masterStore_job]

theorem State.storeBegin_job (own : List (Nat × List Byte)) : (s.storeBegin own).job.payload = s.storeGather own
    ∧ (s.storeInUse = none → (s.storeBegin own).job.bank = 0 ∧ (s.storeBegin own).job.seq = 1)
    ∧ (∀ b q, s.storeInUse = some (b, q) → (s.storeBegin own).job.bank = 1 - b ∧ (s.storeBegin own).job.seq = (q + 1) % 2 ^ 32) := by
  unfold State.storeBegin
  dsimp only
  rw [(State.stepN_serves _ .opn _).job]
  refine ⟨rfl, fun h => ?_, fun b q h => ?_⟩
  · rw [h]
    exact ⟨rfl, rfl⟩
  · rw [h]
    exact ⟨rfl, rfl⟩

/-! The steps of STORE. -/

variable {s} {g : Grant} (own : List (Nat × List Byte)) {fail : Bool}

theorem State.storeStep_badArg (hgranted : s.dict.granted .opn = some (0, g)) (harg : ∃ b ∈ (s.dict.cmd 0).arg, b ≠ 0) :
    s.storeStep own fail = s.stepFail .opn 2 := by
  unfold State.storeStep
  rw [hgranted]
  exact if_pos (by simpa using harg)

/-- The first step gathers the payload; where it fits, the step goes on with the first part. -/
theorem State.storeStep_first (hgranted : s.dict.granted .opn = some (0, g)) (harg : ∀ b ∈ (s.dict.cmd 0).arg, b = 0) (hfirst : g.first = true) :
    s.storeStep own fail
      = if storeMax < (s.storeBegin own).job.payload.length then (s.storeBegin own).stepFail .opn 1 else (s.storeBegin own).storePart fail := by
  have hzeros := (zeros_iff _).mpr harg
  unfold State.storeStep
  rw [hgranted]
  dsimp only
  rw [hzeros]
  simp [hfirst]

theorem State.storeStep_later (hgranted : s.dict.granted .opn = some (0, g)) (harg : ∀ b ∈ (s.dict.cmd 0).arg, b = 0) (hfirst : g.first = false) :
    s.storeStep own fail = s.storePart fail := by
  have hzeros := (zeros_iff _).mpr harg
  unfold State.storeStep
  rw [hgranted]
  dsimp only
  rw [hzeros]
  simp [hfirst]

/-- What the first step of STORE fixes stays to its end. -/
theorem State.storeStep_job (hgranted : s.dict.granted .opn = some (0, g)) (harg : ∀ b ∈ (s.dict.cmd 0).arg, b = 0) (hfirst : g.first = true) :
    (s.storeStep own fail).job = (s.storeBegin own).job := by
  rw [State.storeStep_first own hgranted harg hfirst]
  split
  · exact State.stepFail_job _ _ _
  · exact State.storePart_job _ _

end

section
variable (s : State)

/-- The write of the part of the payload that a step stands at. -/
def State.partWrite (s : State) : State × Bool :=
  s.masterStore (storeBase s.job.bank + 32 + 256 * (s.dict.cmd 0).k) ((s.job.payload.drop (256 * (s.dict.cmd 0).k)).take 256)

/-- The write of the bank's header. -/
def State.headWrite (s : State) : State × Bool :=
  s.masterStore (storeBase s.job.bank) (toBytes 4 0x53505A4B ++ toBytes 2 1 ++ [0, 0] ++ toBytes 4 s.job.seq ++ toBytes 4 s.job.payload.length
    ++ toBytes 4 (crc32c s.job.payload).toNat ++ List.replicate 12 0)

variable {s} {fail : Bool} {parts : Nat} (hparts : parts = ((s.job.payload.length + 63) / 64 + 3) / 4)
include hparts

/-- A step that stands at a part of the payload (R510). -/
theorem State.storePart_payload (hk : (s.dict.cmd 0).k < parts) : s.storePart fail
    = if s.partWrite.2 || fail || s.sectorAshed (storeBase s.job.bank + 32 + 256 * (s.dict.cmd 0).k) 256 then s.partWrite.1.stepFail .opn 3
      else if (s.dict.cmd 0).k + 1 = parts ∧ (s.partWrite.1.isDamaged (storeBase s.job.bank + 32) s.job.payload.length = true
          ∨ s.partWrite.1.mem.read (storeBase s.job.bank + 32) s.job.payload.length ≠ s.job.payload) then s.partWrite.1.stepFail .opn 4
      else s.partWrite.1.stepDone .opn 0 := by
  subst hparts
  exact if_pos hk

/-- A step past the payload writes the header (R510). -/
theorem State.storePart_header (hk : parts ≤ (s.dict.cmd 0).k) : s.storePart fail
    = if s.headWrite.2 || fail || s.sectorAshed (storeBase s.job.bank) 32 then s.headWrite.1.stepFail .opn 3
      else ((((((s.headWrite.1.modDict (fun x => x.setCmd 0 { x.cmd 0 with
          result := toBytes 1 s.job.bank ++ [0, 0, 0] ++ toBytes 4 s.job.seq ++ toBytes 4 s.job.payload.length })).stepDone .opn 0).storeNote 1
            (toBytes 1 s.job.bank)).storeNote 2 (toBytes 4 s.job.seq)).storeNote 3 (toBytes 4 s.job.payload.length)).storeNote 4 [0]) := by
  subst hparts
  exact if_neg (Nat.not_lt.mpr hk)

end

section
variable {s : State} {g : Grant}

/-! RESTORE_DEFAULTS and the automatic store. -/

theorem State.restoreDefaults_badArg (hgranted : s.dict.granted .opn = some (1, g))
    (harg : 1 < frameByte (s.dict.cmd 1).arg 0 ∨ ∃ b ∈ (s.dict.cmd 1).arg.drop 1, b ≠ 0) : s.restoreDefaults = s.stepFail .opn 2 := by
  unfold State.restoreDefaults
  rw [hgranted]
  exact if_pos (by simpa using harg)

theorem State.restoreDefaults_values (hgranted : s.dict.granted .opn = some (1, g)) (hmode : frameByte (s.dict.cmd 1).arg 0 = 0)
    (hrest : ∀ b ∈ (s.dict.cmd 1).arg.drop 1, b = 0) : s.restoreDefaults
      = ((((s.dict.defaultEntries.filter (·.ember)).foldl (fun t e =>
          (t.modDict (fun x => { x with vals := Sparse.erase e.key x.vals })).publish e.key e.defaultBytes) s).modDict (fun x => x.setCmd 1 { x.cmd 1 with
            result := toBytes 2 s.dict.defaultEntries.length })).stepN .opn 1).stepDone .opn 0 := by
  have hzeros := (zeros_iff _).mpr hrest
  unfold State.restoreDefaults
  rw [hgranted]
  dsimp only
  rw [hmode, hzeros]
  rfl

/-- An argument of zeros given to STORE, and the note of an RWS write taken away (R512). -/
def State.storeAsked (s : State) : State := s.modDict (fun d => { d.setCmd 0 { d.cmd 0 with arg := List.replicate 32 0 } with rws := none })

theorem State.storeAsked_cmd (s : State) : s.storeAsked.dict.cmd 0 = { s.dict.cmd 0 with arg := List.replicate 32 0 } := Dict.cmd_setCmd s.dict (by decide) _

/-- A command queued, as the sessions that asked for notices leave it. -/
theorem State.queued_dict (s : State) (c : Cmd) : ∃ l, ((s.modDict (fun d => { d with queue := d.queue ++ [0] })).putCmd 0 c).dict
    = { ({ s.dict with queue := s.dict.queue ++ [0] } : Dict).setCmd 0 c with sess := l } := State.putCmd_dict _ 0 c

theorem State.autoStore_due {t0 : Nat} (hdelay : s.dict.num 0x160007 ≠ 0) (hst : (s.dict.cmd 0).st ≠ 1) (hnoted : s.dict.rws = some t0)
    (hdue : t0 + s.dict.num 0x160007 * 1000000 ≤ s.now) : s.autoStore = (s.storeAsked.cmdStart 0 4).1 := by
  unfold State.autoStore
  exact if_pos ⟨hdelay, hst, any_due hnoted hdue⟩

/-- The automatic store queues STORE with an argument of zeros (R512). -/
theorem State.autoStore_starts {t0 : Nat} (hdelay : s.dict.num 0x160007 ≠ 0) (hst : (s.dict.cmd 0).st ≠ 1) (hnoted : s.dict.rws = some t0)
    (hdue : t0 + s.dict.num 0x160007 * 1000000 ≤ s.now) (hroom : s.dict.queue.length < 8) :
    s.autoStore.dict.queue = s.dict.queue ++ [0] ∧ (s.autoStore.dict.cmd 0).st = 1 ∧ (s.autoStore.dict.cmd 0).arg = List.replicate 32 0
      ∧ s.autoStore.dict.rws = none := by
  rw [State.autoStore_due hdelay hst hnoted hdue,
    State.cmdStart_queues 4 (by decide) (by decide) (by rw [s.storeAsked_cmd]; exact hst) (show s.storeAsked.dict.queue.length < 8 from hroom)]
  obtain ⟨l, hl⟩ := s.storeAsked.queued_dict { s.storeAsked.dict.cmd 0 with st := 1, k := 0, n := 0, reason := 0, result := [] }
  have hput : ∀ (d : Dict) (c : Cmd), ({ d.setCmd 0 c with sess := l } : Dict).cmd 0 = c := fun d c => d.cmd_setCmd (by decide) c
  rw [hl, hput, s.storeAsked_cmd]
  exact ⟨rfl, rfl, rfl, rfl⟩

theorem State.autoStore_waits (h : s.dict.num 0x160007 = 0 ∨ s.dict.rws = none) : s.autoStore = s := by
  unfold State.autoStore
  refine if_neg fun hdue => ?_
  rcases h with h | h
  · exact hdue.1 h
  · rw [h] at hdue
    simp at hdue

end

end Sys2Proof.Machine

namespace Sys2Proof.Machine

/-! The records of the store at the load (R507, R509). -/

/-- The head of a record: INDEX, SUB, type, LEN and two reserved bytes. -/
def recordHead (key ty len : Nat) : List Byte := toBytes 2 (key / 256) ++ toBytes 1 (key % 256) ++ toBytes 1 ty ++ toBytes 2 len ++ [0, 0]

theorem recordHead_length (key ty len : Nat) : (recordHead key ty len).length = 8 := by simp [recordHead, toBytes_len]

/-- What the load reads back from a record's head. -/
theorem recordHead_reads {key ty len : Nat} (hkey : key < 2 ^ 24) (hty : ty < 256) (hlen : len < 2 ^ 16) (rest : List Byte) :
    frameVal (recordHead key ty len ++ rest) 0 2 * 256 + frameByte (recordHead key ty len ++ rest) 2 = key
    ∧ frameByte (recordHead key ty len ++ rest) 3 = ty ∧ frameVal (recordHead key ty len ++ rest) 4 2 = len := by
  simp [recordHead, frameVal, frameByte, toBytes, ofBytes]
  omega

section
variable (s : State) (refused : List Nat)

/-- One record is applied, and the load goes on behind its padding. -/
theorem State.storeRecords_record {key ty : Nat} {v rest : List Byte} (n k : Nat) (hkey : key < 2 ^ 24) (hty : ty < 256) (hlen : v.length < 2 ^ 16) :
    s.storeRecords refused (n + 1) (recordHead key ty v.length ++ (v ++ (List.replicate ((4 - v.length % 4) % 4) 0 ++ rest))) k
      = (s.storeApply refused key ty v).1.storeRecords refused n rest (k + b2n (s.storeApply refused key ty v).2) := by
  have hlength := recordHead_length key ty v.length
  obtain ⟨hreadKey, hreadTy, hreadLen⟩ := recordHead_reads hkey hty hlen (v ++ (List.replicate ((4 - v.length % 4) % 4) 0 ++ rest))
  have hvalue : ((recordHead key ty v.length ++ (v ++ (List.replicate ((4 - v.length % 4) % 4) 0 ++ rest))).drop 8).take v.length = v := by
    rw [List.drop_left' hlength, List.take_left]
  have hnext : (recordHead key ty v.length ++ (v ++ (List.replicate ((4 - v.length % 4) % 4) 0 ++ rest))).drop (8 + cdiv v.length 4 * 4) = rest := by
    have hpad : 8 + cdiv v.length 4 * 4 = (recordHead key ty v.length ++ (v ++ List.replicate ((4 - v.length % 4) % 4) 0)).length := by
      simp only [List.length_append, List.length_replicate, hlength, cdiv]
      omega
    rw [← List.append_assoc v, ← List.append_assoc]
    exact List.drop_left' hpad.symm
  rw [State.storeRecords, if_neg (by simp [hlength])]
  dsimp only
  rw [hreadKey, hreadTy, hreadLen, hvalue, hnext]

variable {s} {key ty : Nat} {v : List Byte}

theorem State.storeApply_gone (h : s.dict.entry key = none) : s.storeApply refused key ty v = (s, true) := by
  rw [State.storeApply, h]

theorem State.storeApply_other {e : DictDesc} (hentry : s.dict.entry key = some e) (h : e.type ≠ ty ∨ e.owner = 1 ∨ key ∈ refused) :
    s.storeApply refused key ty v = (s, true) := by
  rw [State.storeApply, hentry]
  exact if_pos (by simpa using h)

/-- A record of an entry that a world registered: checked, then kept in the engine where it is ember-served. -/
theorem State.storeApply_registered {e : DictDesc} (hentry : s.dict.entry key = some e) (htype : e.type = ty) (howner : 2 ≤ e.owner) (hmay : key ∉ refused) :
    s.storeApply refused key ty v = if !(e.typeOk v && e.rangeOk v) then (s, true)
      else ((if e.ember then s.modDict (·.setVal key v) else s).lanePolicy key v, false) := by
  have htakes : ¬ (e.type ≠ ty ∨ e.owner = 1 ∨ refused.contains key = true) := by
    rintro (h | h | h)
    · exact h htype
    · omega
    · exact hmay (by simpa using h)
  rw [State.storeApply, hentry]
  exact (if_neg htakes).trans (if_neg (by omega))

/-! The load. -/

theorem State.storeLoad_bank {b q n : Nat} {t : State} (hbank : s.storeInUse = some (b, q))
    (hrecords : s.storeRecords refused ((s.mem.val (storeBase b + 12) 4 + 7) / 8) (s.mem.read (storeBase b + 32) (s.mem.val (storeBase b + 12) 4)) 0
      = (t, n)) : s.storeLoad refused = ((((t.storeNote 1 (toBytes 1 b)).storeNote 2 (toBytes 4 q)).storeNote 3
        (toBytes 4 (s.mem.val (storeBase b + 12) 4))).storeNote 5 (toBytes 1 b)).storeNote 6 (toBytes 2 (min n 65535)) := by
  have hrun : s.storeRecords refused (cdiv (s.mem.val (storeBase b + 12) 4) 8) (s.mem.read (storeBase b + 32) (s.mem.val (storeBase b + 12) 4)) 0 = (t, n) :=
    hrecords
  rw [State.storeLoad, hbank]
  dsimp only
  rw [hrun]

end

/-- Settles O54: STORE step by step, RESTORE_DEFAULTS, the automatic store, and the load record by record. -/
theorem parametersStored : Obligations.ParametersStored := by
  unfold Obligations.ParametersStored
  refine ⟨fun s own fail refused g => ?_, fun s refused n k key v rest ty => ?_⟩
  · intro c j a parts wr hd failed d
    refine ⟨fun hgranted => ⟨?badArg, ?first, ?partFails, ?part, ?last, ?headFails, ?head⟩, ?defaultsBad, ?defaults, ?auto, ?noAuto, ?noBank, ?load⟩
    case badArg =>
      intro harg
      exact next_of_eq (State.storeStep_badArg own hgranted harg)
    case first =>
      intro harg hfirst
      obtain ⟨hpayload, hnone, hsome⟩ := s.storeBegin_job own
      have hjob : (s.storeStep own fail).job = (s.storeBegin own).job := State.storeStep_job own hgranted harg hfirst
      refine ⟨s.storeStep own fail, rfl, ?_, ?_, ?_, fun hlong => ?_⟩
      · rw [hjob, hpayload]
      · rw [hjob]
        exact hnone
      · rw [hjob]
        exact hsome
      · rw [State.storeStep_first own hgranted harg hfirst, if_pos (by rw [hpayload]; exact hlong)]
        rfl
    case partFails =>
      intro harg hfirst hk hfail
      refine next_of_eq ((State.storeStep_later own hgranted harg hfirst).trans ((State.storePart_payload rfl hk).trans (if_pos ?_)))
      simp [hfail]
    case part =>
      intro harg hfirst hk hfail hwrite hsector
      have hgood : ¬ (s.partWrite.2 || fail || s.sectorAshed (storeBase s.job.bank + 32 + 256 * (s.dict.cmd 0).k) 256) = true := by
        rw [show s.partWrite.2 = false from hwrite, hfail, show s.sectorAshed (storeBase s.job.bank + 32 + 256 * (s.dict.cmd 0).k) 256 = false from hsector]
        decide
      refine next_of_eq ((State.storeStep_later own hgranted harg hfirst).trans ((State.storePart_payload rfl (Nat.lt_of_succ_lt hk)).trans
        ((if_neg hgood).trans (if_neg fun h => ?_))))
      exact absurd h.1 (Nat.ne_of_lt hk)
    case last =>
      intro harg hfirst hk hfail hwrite hsector
      have hgood : ¬ (s.partWrite.2 || fail || s.sectorAshed (storeBase s.job.bank + 32 + 256 * (s.dict.cmd 0).k) 256) = true := by
        rw [show s.partWrite.2 = false from hwrite, hfail, show s.sectorAshed (storeBase s.job.bank + 32 + 256 * (s.dict.cmd 0).k) 256 = false from hsector]
        decide
      have hrun := (State.storeStep_later own hgranted harg hfirst).trans
        ((State.storePart_payload (fail := fail) rfl (Nat.lt_of_succ_le (Nat.le_of_eq hk))).trans (if_neg hgood))
      exact ⟨fun hread => next_of_eq (hrun.trans (if_pos ⟨hk, .inr hread⟩)),
        fun hsound hread => next_of_eq (hrun.trans (if_neg fun h => h.2.elim (fun hbad => Bool.false_ne_true (hsound.symm.trans hbad)) fun hne => hne hread))⟩
    case headFails =>
      intro harg hfirst hk hfail
      refine next_of_eq ((State.storeStep_later own hgranted harg hfirst).trans ((State.storePart_header rfl hk).trans (if_pos ?_)))
      rcases hfail with hfail | hwrite
      · simp [hfail]
      · rw [show s.headWrite.2 = true from hwrite]
        rfl
    case head =>
      intro harg hfirst hk hfail hwrite hsector
      refine next_of_eq ((State.storeStep_later own hgranted harg hfirst).trans ((State.storePart_header rfl hk).trans (if_neg ?_)))
      rw [show s.headWrite.2 = false from hwrite, hfail, show s.sectorAshed (storeBase s.job.bank) 32 = false from hsector]
      decide
    case defaultsBad =>
      intro hgranted harg
      exact next_of_eq (State.restoreDefaults_badArg hgranted harg)
    case defaults =>
      intro hgranted hmode hrest
      exact next_of_eq (State.restoreDefaults_values hgranted hmode hrest)
    case auto =>
      intro t0 hdelay hst hnoted hdue hroom
      exact ⟨s.autoStore, rfl, State.autoStore_starts hdelay hst hnoted hdue hroom⟩
    case noAuto =>
      intro h
      exact next_of_eq (State.autoStore_waits h)
    case noBank =>
      intro h
      exact next_of_eq (State.storeLoad_none h refused)
    case load =>
      intro b q t n hbank len hrecords
      exact next_of_eq (State.storeLoad_bank refused hbank hrecords)
  · intro t pad hkey hlen
    refine ⟨?record, fun h => State.storeApply_gone refused h, fun e hentry h => State.storeApply_other refused hentry h, ?refused, ?kept⟩
    case record =>
      have hrecord := s.storeRecords_record refused (v := v) (rest := rest) n k hkey ty.isLt hlen
      simp only [recordHead, List.append_assoc] at hrecord ⊢
      exact hrecord
    case refused =>
      intro e hentry htype howner hmay hbad
      refine (State.storeApply_registered refused hentry htype howner hmay).trans (if_pos ?_)
      rcases hbad with h | h <;> simp [h]
    case kept =>
      intro e hentry htype howner hmay htypeOk hrange hember
      refine (State.storeApply_registered refused hentry htype howner hmay).trans ((if_neg (by simp [htypeOk, hrange])).trans ?_)
      rw [if_pos hember]

end Sys2Proof.Machine

namespace Sys2Proof.Machine

/-! The steps of a world reset (R533). -/

section
variable (s : State) (w : World)

/-! Links and waits: tiles alone, but for the order in which banks were used. -/

theorem State.bumped_onlyIn (n : Nat) : s.onlyIn { s with seq := n } [.seq] := by
  intro p hp
  cases p <;> simp [State.agrees] at hp ⊢
theorem State.runBank_onlyIn (t : TileId) (b : Nat) : s.onlyIn (s.runBank t b) [.tiles, .seq] :=
  State.onlyIn_after (State.onlyIn_mono (s.setTile_onlyIn t _) (by decide)) (State.onlyIn_mono (State.bumped_onlyIn _ _) (by decide))
theorem State.resume_onlyIn (t : TileId) (n : CtxId) : s.onlyIn (s.resume t n) [.tiles, .seq] := by
  unfold State.resume
  split
  · exact s.runBank_onlyIn t _
  · exact s.onlyIn_refl _
theorem State.resetLinks_onlyIn (t : TileId) : s.onlyIn (s.resetLinks w t) [.tiles, .seq] := by
  have hmod : ∀ (u : State) (f : Tile → Tile), u.onlyIn (u.modTile t f) [.tiles, .seq] := fun u f => State.onlyIn_mono (u.modTile_onlyIn t f) (by decide)
  have hclosed : ∀ n, s.onlyIn ((s.modTile t (fun x => { x.switched with link := .none })).resume t n) [.tiles, .seq] := fun n =>
    State.onlyIn_after (hmod s _) (State.resume_onlyIn _ t n)
  unfold State.resetLinks
  dsimp only
  split
  · exact s.onlyIn_refl _
  · refine State.onlyIn_ite (hmod s _) ?_
    split
    · exact State.onlyIn_after (hclosed _) (hmod _ _)
    · exact State.onlyIn_after (hclosed _) (hmod _ _)
theorem State.forgetWaits_onlyIn (t : TileId) : s.onlyIn (s.forgetWaits w t) [.tiles, .seq] := State.onlyIn_mono (s.modTile_onlyIn t _) (by decide)

/-- The links closed and the waits forgotten, on every tile (R533 steps 1 to 3). -/
def State.linksReset (s : State) (w : World) : State := allTiles.foldl (fun s t => (s.resetLinks w t).forgetWaits w t) s
theorem State.linksReset_onlyIn : s.onlyIn (s.linksReset w) [.tiles, .seq] :=
  State.onlyIn_foldl (fun u t => State.onlyIn_after (u.resetLinks_onlyIn w t) (State.forgetWaits_onlyIn _ w t)) allTiles s

/-! The tiles cleared. -/

/-- A tile holds no bank with a context of world w, and w's items stand at reset. -/
def Tile.clearedOf (x : Tile) (w : World) : Prop :=
  (∀ b, b < 7 → (vget x.banks b Bank.reset).st ≠ .empty → (vget x.banks b Bank.reset).ctx.world ≠ w) ∧ vget x.cfg w.idx WorldCfg.reset = WorldCfg.reset

theorem worldIdx_lt : w.idx < 2 := by cases w <;> decide

theorem Tile.worldCleared_clears (x : Tile) : (x.worldCleared w).clearedOf w := by
  have hbanks : ∀ y : Tile, y = (if x.run.any (fun b => (vget x.banks b Bank.reset).st != .empty && (vget x.banks b Bank.reset).ctx.world == w) then
      { x.switched with run := none } else x) → y.banks = x.banks := by
    rintro y rfl
    split <;> rfl
  refine ⟨fun b hb hfull => ?_, ?_⟩
  · have hbank : vget (x.worldCleared w).banks b Bank.reset = (fun k : Bank => if k.st != .empty && k.ctx.world == w then Bank.reset else k)
        (vget x.banks b Bank.reset) := by
      unfold Tile.worldCleared
      dsimp only
      rw [hbanks _ rfl]
      simp [vget, Vector.getD, hb]
    rw [hbank] at hfull ⊢
    dsimp only at hfull ⊢
    split at hfull
    · exact absurd rfl hfull
    · rename_i hkept
      rw [if_neg hkept]
      intro hworld
      refine hkept ?_
      rw [hworld]
      simpa using hfull
  · have hcfg : vget (x.worldCleared w).cfg w.idx WorldCfg.reset
        = vget (vset (if x.run.any (fun b => (vget x.banks b Bank.reset).st != .empty && (vget x.banks b Bank.reset).ctx.world == w) then
          ({ x.switched with run := none } : Tile) else x).cfg w.idx WorldCfg.reset) w.idx WorldCfg.reset := rfl
    rw [hcfg, vget_vset _ _ _ _ _ (worldIdx_lt w), if_pos rfl]

/-- A tile that keeps its banks and its items keeps clear. -/
theorem Tile.clearedOf_congr {x y : Tile} {w : World} (h : x.clearedOf w) (hbanks : y.banks = x.banks) (hcfg : y.cfg = x.cfg) : y.clearedOf w := by
  rw [Tile.clearedOf, hbanks, hcfg]
  exact h

/-! The context store. -/

/-- A context of the store released: reserved ones zeroed and claimed, the others free (R533 step 4). -/
def State.releaseOne (s : State) (n : Nat) : State :=
  s.modStore (fun x => { x.setSlot (BitVec.ofNat 12 n) (ctxReleased n) with damaged := x.damaged.filter (fun p => p.1 / 48 != n) })

theorem State.releaseOne_slot (n : Nat) (m : CtxId) :
    (s.releaseOne n).store.slot m = if m = BitVec.ofNat 12 n then ctxReleased n else s.store.slot m := CtxStore.slot_setSlot s.store _ m _

theorem State.foldl_releaseOne (l : List Nat) (m : CtxId) (hl : ∀ n ∈ l, n < 4096) : (l.foldl State.releaseOne s).store.slot m
    = if m.toNat ∈ l then ctxReleased m.toNat else s.store.slot m := by
  induction l generalizing s with
  | nil => rfl
  | cons n l ih =>
    have hn := hl n List.mem_cons_self
    have hm : m = BitVec.ofNat 12 n ↔ m.toNat = n := by
      constructor
      · rintro rfl
        exact BitVec.toNat_ofNat n 12 ▸ Nat.mod_eq_of_lt hn
      · rintro rfl
        exact (BitVec.ofNat_toNat 12 m).symm ▸ rfl
    rw [List.foldl_cons, ih (s.releaseOne n) fun k hk => hl k (List.mem_cons_of_mem n hk), s.releaseOne_slot]
    by_cases heq : m.toNat = n
    · rw [if_pos (hm.mpr heq), if_pos (show m.toNat ∈ n :: l from heq ▸ List.mem_cons_self), heq]
      split <;> rfl
    · simp only [List.mem_cons, heq, false_or, if_neg (fun h => heq (hm.mp h))]

/-- A context beyond the reserved ones is free once released. -/
theorem ctxReleased_free {n : Nat} (h : 16 ≤ n) : (ctxReleased n).claimed = false := by
  rw [ctxReleased, if_neg (by omega)]
  decide

/-- No claimed context of world w beyond the reserved ones is left (R533 step 4). -/
theorem State.releaseAll_slot (n : CtxId) (hn : 16 ≤ n.toNat) (hclaimed : ((s.releaseAll w).store.slot n).claimed = true) :
    ((s.releaseAll w).store.slot n).world ≠ w := by
  have hall : s.releaseAll w = ((List.range 4096).filter (fun n => (s.store.slot (BitVec.ofNat 12 n)).claimed && (s.store.slot (BitVec.ofNat 12 n)).world == w)).foldl
      State.releaseOne s := rfl
  rw [hall, State.foldl_releaseOne _ _ _ (fun k hk => List.mem_range.mp (List.mem_filter.mp hk).1)] at hclaimed ⊢
  split at hclaimed
  · rw [ctxReleased_free hn] at hclaimed
    cases hclaimed
  · rename_i hkept
    rw [if_neg hkept]
    intro hworld
    refine hkept (List.mem_filter.mpr ⟨List.mem_range.mpr n.isLt, ?_⟩)
    rw [BitVec.ofNat_toNat, BitVec.setWidth_eq, hclaimed, hworld]
    simp

theorem State.releaseAll_onlyIn : s.onlyIn (s.releaseAll w) [.store] := State.onlyIn_foldl (fun u _ => u.modStore_onlyIn _) _ s

/-- The isles of a world go; slots, banks and items stay. -/
theorem State.dropWorldIsles_onlyIn : s.onlyIn (s.dropWorldIsles w) [.tiles, .store] :=
  State.onlyIn_after (State.onlyIn_mono (s.modStore_onlyIn _) (by decide)) (State.onlyIn_mono (State.mapTiles_onlyIn _ _) (by decide))
theorem State.dropWorldIsles_slot (n : CtxId) : (s.dropWorldIsles w).store.slot n = s.store.slot n := rfl
theorem State.dropWorldIsles_tile (u : TileId) : ∃ y, (s.dropWorldIsles w).tile u = { s.tile u with sys := y } :=
  ⟨_, State.tile_mapTiles (s.modStore _) _ u⟩

/-! Interrupts and translation registers. -/

theorem getLsbD_irqMaskFrom {n : Nat} (hn : n ≤ 512) (i : Nat) : (irqMaskFrom s w n).getLsbD i = (decide (i < n) && s.irqWorld i == w) := by
  induction n with
  | zero => simp [irqMaskFrom]
  | succ n ih =>
    rw [irqMaskFrom, getLsbD_setIrqBit, ih (by omega)]
    by_cases hi : i = n
    · rw [if_pos ⟨hi, by omega⟩, hi]
      simp
    · rw [if_neg (fun h => hi h.1)]
      congr 1
      exact decide_eq_decide.mpr ⟨fun h => by omega, fun h => by omega⟩

theorem State.irqReset_en {i : Nat} (hi : i < 512) (hworld : s.irqWorld i = w) : (s.irqReset w).irq.en.getLsbD i = false := by
  have hen : (s.irqReset w).irq.en = s.irq.en &&& ~~~ irqMaskFrom s w 512 := rfl
  rw [hen, BitVec.getLsbD_and, BitVec.getLsbD_not, getLsbD_irqMaskFrom s w (Nat.le_refl 512), hworld]
  simp [hi]
theorem State.irqReset_onlyIn : s.onlyIn (s.irqReset w) [.irq] := by
  intro p hp
  cases p <;> simp [State.agrees, State.irqReset] at hp ⊢

theorem State.xlateReset_onlyIn (t : TileId) : s.onlyIn (s.xlateReset w t) [.regs] := by
  intro p hp
  cases p <;> simp [State.agrees, State.xlateReset] at hp ⊢

/-- A register outside the tiles' slots stays. -/
theorem State.xlateReset_reg (t : TileId) (u : World) {slot off : Nat} (hslot : slot < 0x1000) (hoff : off < 0x10000) (hout : slot < 0x010 ∨ 0x020 ≤ slot) :
    (s.xlateReset w t).regW u slot off = s.regW u slot off := by
  have hkeySlot : slotOfKey (regKey u slot off) = slot := by rw [slotOfKey, regKey]; omega
  have htile : (slot == tileSlot t) = false := by
    have ht := t.isLt
    rw [beq_eq_false_iff_ne, tileSlot]
    omega
  have hread := Sparse.get_filter_key (keyReset (regKey u slot off)) (fun k =>
    !(k / 0x10000000 % 2 == w.idx && slotOfKey k == tileSlot t && decide (0x1100 ≤ offOfKey k) && decide (offOfKey k < 0x1190))) (regKey u slot off) s.regs
  rw [hkeySlot, htile] at hread
  exact hread.trans (if_pos (by simp))

/-- The translation registers of a world at reset on every tile (R309). -/
def State.xlatesReset (s : State) (w : World) : State := allTiles.foldl (fun s t => s.xlateReset w t) s
theorem State.xlatesReset_onlyIn : s.onlyIn (s.xlatesReset w) [.regs] := State.onlyIn_foldl (fun u t => u.xlateReset_onlyIn w t) allTiles s
theorem State.xlatesReset_reg (u : World) {slot off : Nat} (hslot : slot < 0x1000) (hoff : off < 0x10000) (hout : slot < 0x010 ∨ 0x020 ≤ slot) :
    (s.xlatesReset w).regW u slot off = s.regW u slot off :=
  State.foldl_keeps (g := fun r : State => r.regW u slot off) (fun r t => r.xlateReset_reg w t u hslot hoff hout) allTiles s

/-! The start of a world's boot context. -/

/-- A world's boot context in its slot, and recorded on its boot tile (R533 step 7). -/
def State.bootPlaced (s : State) (w : World) : State :=
  (s.modStore (fun x => { x.setSlot (bootCtxNum w) (bootCtx w (s.vector w)) with damaged := x.damaged.filter (fun p => p.1 / 48 != (bootCtxNum w).toNat) })).modTile
    (s.bootTile w) (·.modSys (fun y =>
      { y with powered := y.powered || !(y.ashed || y.excluded), gated := false, gateReq := false, recorded := some (bootCtxNum w) }))

theorem State.bootStart_eq : s.bootStart w = (s.bootPlaced w).tileResume (s.bootTile w) := rfl
theorem State.bootStart_onlyIn : s.onlyIn (s.bootStart w) [.tiles, .store] :=
  State.onlyIn_after (State.onlyIn_after (State.onlyIn_mono (s.modStore_onlyIn _) (by decide)) (State.onlyIn_mono (State.modTile_onlyIn _ _ _) (by decide)))
    (State.onlyIn_mono (State.tileResume_onlyIn _ _) (by decide))

theorem State.bootStart_slot (n : CtxId) : (s.bootStart w).store.slot n = if n = bootCtxNum w then bootCtx w (s.vector w) else s.store.slot n := by
  have hstore : (s.bootStart w).store = (s.bootPlaced w).store := State.tileResume_onlyIn _ _ .store (by decide)
  rw [hstore, State.bootPlaced, State.modTile_store]
  generalize bootCtx w (s.vector w) = c
  exact CtxStore.slot_setSlot s.store _ n c

theorem State.bootStart_recorded : ((s.bootStart w).tile (s.bootTile w)).sys.recorded = some (bootCtxNum w) := by
  obtain ⟨f, hf⟩ := (s.bootPlaced w).tileResume_tile (s.bootTile w) (s.bootTile w)
  rw [s.bootStart_eq, hf, State.bootPlaced, State.tile_modTile]
  rfl

/-- The boot context waits for its tile: no bank and no item changes. -/
theorem State.bootStart_banks (u : TileId) : ((s.bootStart w).tile u).banks = (s.tile u).banks ∧ ((s.bootStart w).tile u).cfg = (s.tile u).cfg := by
  obtain ⟨f, hf⟩ := (s.bootPlaced w).tileResume_tile (s.bootTile w) u
  rw [s.bootStart_eq, hf]
  by_cases hu : u = s.bootTile w
  · rw [State.bootPlaced, hu, State.tile_modTile, State.modStore_tile]
    exact ⟨rfl, rfl⟩
  · rw [State.bootPlaced, State.tile_modTile_ne _ _ u _ hu, State.modStore_tile]
    exact ⟨rfl, rfl⟩

end

end Sys2Proof.Machine

namespace Sys2Proof.Machine

/-! A world reset as a whole (R532, R533). -/

section
variable (s : State) (w : World)

/-- The tiles without the world: links closed, waits forgotten, banks and items cleared. -/
def State.tilesCleared (s : State) (w : World) : State := (s.linksReset w).mapTiles (·.worldCleared w)

/-- The machine without the world, before the engines drop its entries and commands. -/
def State.worldDropped (s : State) (w : World) : State := ((((s.tilesCleared w).releaseAll w).dropWorldIsles w).irqReset w).xlatesReset w

theorem State.tilesCleared_onlyIn : s.onlyIn (s.tilesCleared w) [.tiles, .seq] :=
  State.onlyIn_after (s.linksReset_onlyIn w) (State.onlyIn_mono (State.mapTiles_onlyIn _ _) (by decide))
theorem State.worldDropped_onlyIn : s.onlyIn (s.worldDropped w) [.tiles, .seq, .store, .irq, .regs] :=
  State.onlyIn_after (State.onlyIn_after (State.onlyIn_after (State.onlyIn_after (State.onlyIn_mono (s.tilesCleared_onlyIn w) (by decide))
    (State.onlyIn_mono (State.releaseAll_onlyIn _ w) (by decide))) (State.onlyIn_mono (State.dropWorldIsles_onlyIn _ w) (by decide)))
    (State.onlyIn_mono (State.irqReset_onlyIn _ w) (by decide))) (State.onlyIn_mono (State.xlatesReset_onlyIn _ w) (by decide))

/-- What a world reset does of its own keeps every register outside the tiles' slots. -/
theorem State.worldDropped_reg (u : World) {slot off : Nat} (hslot : slot < 0x1000) (hoff : off < 0x10000) (hout : slot < 0x010 ∨ 0x020 ≤ slot) :
    (s.worldDropped w).regW u slot off = s.regW u slot off := by
  have hregs : ((((s.tilesCleared w).releaseAll w).dropWorldIsles w).irqReset w).regs = s.regs :=
    State.onlyIn_after (State.onlyIn_after (State.onlyIn_after (State.onlyIn_mono (s.tilesCleared_onlyIn w) (by decide))
      (State.onlyIn_mono (State.releaseAll_onlyIn _ w) (by decide))) (State.onlyIn_mono (State.dropWorldIsles_onlyIn _ w) (by decide)))
      (State.onlyIn_mono (l := [.irq]) (n := [.tiles, .seq, .store, .irq]) (State.irqReset_onlyIn _ w) (by decide)) .regs (by decide)
  exact (State.xlatesReset_reg _ w u hslot hoff hout).trans (State.regW_congr hregs)

theorem Tile.clearedOf_withSys {x : Tile} {v : World} (y : TileSys) (h : x.clearedOf v) : ({ x with sys := y } : Tile).clearedOf v :=
  Tile.clearedOf_congr h rfl rfl

theorem State.releaseAll_tile (u : TileId) : (s.releaseAll w).tile u = s.tile u := State.tile_congr (s.releaseAll_onlyIn w .tiles (by decide))

theorem State.worldDropped_tile (u : TileId) : ((s.worldDropped w).tile u).clearedOf w := by
  have htail : ((((s.tilesCleared w).releaseAll w).dropWorldIsles w).irqReset w).onlyIn (s.worldDropped w) [.irq, .regs] :=
    State.onlyIn_mono (State.xlatesReset_onlyIn _ w) (by decide)
  have hirq := State.onlyIn_after (State.onlyIn_mono (State.irqReset_onlyIn (((s.tilesCleared w).releaseAll w).dropWorldIsles w) w) (by decide)) htail
  obtain ⟨y, hy⟩ := ((s.tilesCleared w).releaseAll w).dropWorldIsles_tile w u
  have hreleased : ((s.tilesCleared w).releaseAll w).tile u = (s.tilesCleared w).tile u := State.releaseAll_tile _ w u
  have hcleared : (s.tilesCleared w).tile u = ((s.linksReset w).tile u).worldCleared w := State.tile_mapTiles _ _ u
  have htile : (s.worldDropped w).tile u = { ((s.linksReset w).tile u).worldCleared w with sys := y } := by
    rw [State.tile_congr (hirq .tiles (by decide)), hy, hreleased, hcleared]
  rw [htile]
  exact Tile.clearedOf_withSys y (Tile.worldCleared_clears w _)

theorem State.worldDropped_slot (n : CtxId) (hn : 16 ≤ n.toNat) (hclaimed : ((s.worldDropped w).store.slot n).claimed = true) :
    ((s.worldDropped w).store.slot n).world ≠ w := by
  have hstore : (s.worldDropped w).store = (((s.tilesCleared w).releaseAll w).dropWorldIsles w).store :=
    State.onlyIn_after (State.onlyIn_mono (State.irqReset_onlyIn (((s.tilesCleared w).releaseAll w).dropWorldIsles w) w) (by decide))
      (State.onlyIn_mono (l := [.regs]) (n := [.irq, .regs]) (State.xlatesReset_onlyIn _ w) (by decide)) .store (by decide)
  rw [hstore, State.dropWorldIsles_slot] at hclaimed ⊢
  exact State.releaseAll_slot _ w n hn hclaimed

theorem State.worldDropped_en {i : Nat} (hi : i < 512) (hworld : s.irqWorld i = w) : (s.worldDropped w).irq.en.getLsbD i = false := by
  have hirq : (s.worldDropped w).irq = ((((s.tilesCleared w).releaseAll w).dropWorldIsles w).irqReset w).irq := State.xlatesReset_onlyIn _ w .irq (by decide)
  have hregs : (((s.tilesCleared w).releaseAll w).dropWorldIsles w).regs = s.regs :=
    State.onlyIn_after (State.onlyIn_after (State.onlyIn_mono (s.tilesCleared_onlyIn w) (by decide))
      (State.onlyIn_mono (State.releaseAll_onlyIn _ w) (by decide)))
      (State.onlyIn_mono (l := [.tiles, .store]) (n := [.tiles, .seq, .store]) (State.dropWorldIsles_onlyIn _ w) (by decide)) .regs (by decide)
  rw [hirq]
  refine State.irqReset_en _ w hi (Eq.trans ?_ hworld)
  rw [State.irqWorld, State.irqWorld, State.scfg, State.scfg, State.reg, State.reg, State.regW_congr hregs]

/-! The engines after it, and what the world itself held. -/

/-- The machine without the world, its entries and its commands. -/
def State.worldEmptied (s : State) (w : World) : State := (s.worldDropped w).dictWorldReset w

/-- What only one world holds: the seal engine's keys and the debug unlock, or the wait of an Open reset. -/
def State.worldClosed (s : State) (w : World) : State :=
  match w with
  | .trade => ((s.worldEmptied .trade).modSeal (fun e => { e with slots := [], jobs := [], pairing := none, shown := false })).relock
  | .opn => (s.worldEmptied .opn).modBoot (fun b => { b with waitOpen := false })

theorem State.worldResetNow_eq : s.worldResetNow w = ((s.worldClosed w).bootStart w).modDev (fun d => { d with started := vset d.started w.idx true }) := by
  cases w <;> rfl

theorem State.worldEmptied_serves : (s.worldDropped w).Serves (s.worldEmptied w) := State.dictWorldReset_serves _ w

theorem State.worldEmptied_onlyIn : s.onlyIn (s.worldEmptied w) (engineParts ++ [.store]) :=
  State.onlyIn_after (State.onlyIn_mono (s.worldDropped_onlyIn w) (by decide)) (State.onlyIn_mono (s.worldEmptied_serves w).only (by decide))

/-- The seal engine without the Trade world's keys and jobs. -/
def State.sealEmptied (s : State) : State := s.modSeal (fun e => { e with slots := [], jobs := [], pairing := none, shown := false })

theorem State.worldClosed_tradeEq : s.worldClosed .trade = (s.worldEmptied .trade).sealEmptied.relock := rfl
theorem State.worldClosed_opnEq : s.worldClosed .opn = (s.worldEmptied .opn).modBoot (fun b => { b with waitOpen := false }) := rfl

theorem State.sealEmptied_onlyIn : s.onlyIn s.sealEmptied [.sealEng] := s.modSeal_onlyIn _

theorem State.relock_en : s.relock.irq.en = s.irq.en := by
  cases h : s.dap.unlockEnd with
  | none => rw [s.relock_closed h]
  | some t =>
    rw [s.relock_open (by rw [h]; rfl), State.raise_en]
    rfl
theorem State.relock_unlockEnd : s.relock.dap.unlockEnd = none := by
  cases h : s.dap.unlockEnd with
  | none => rw [s.relock_closed h, h]
  | some t => exact (s.relock_closes (by rw [h]; rfl)).1

/-- The end of a world's keys, jobs and unlock. -/
theorem State.sealRelocked (u : State) : u.onlyIn u.sealEmptied.relock [.sealEng, .dap, .free, .irq] ∧ u.sealEmptied.relock.irq.en = u.irq.en
    ∧ u.sealEmptied.relock.sealEng.slots = [] ∧ u.sealEmptied.relock.dap.unlockEnd = none := by
  have hrelock := u.sealEmptied.relock_onlyIn
  have hseal : u.sealEmptied.relock.sealEng = u.sealEmptied.sealEng := hrelock .sealEng (by decide)
  refine ⟨State.onlyIn_after (State.onlyIn_mono u.sealEmptied_onlyIn (by decide)) (State.onlyIn_mono hrelock (by decide)), u.sealEmptied.relock_en, ?_,
    u.sealEmptied.relock_unlockEnd⟩
  rw [hseal]
  rfl

theorem State.waitEnded_onlyIn : s.onlyIn (s.modBoot (fun b => { b with waitOpen := false })) [.sealEng, .dap, .free, .irq, .boot] :=
  State.onlyIn_mono (s.modBoot_onlyIn _) (by decide)
theorem State.sealRelocked_onlyIn : s.onlyIn s.sealEmptied.relock [.sealEng, .dap, .free, .irq, .boot] := State.onlyIn_mono s.sealRelocked.1 (by decide)

theorem State.worldClosed_onlyIn : (s.worldEmptied w).onlyIn (s.worldClosed w) [.sealEng, .dap, .free, .irq, .boot] := by
  cases w
  · rw [s.worldClosed_tradeEq]
    exact (s.worldEmptied .trade).sealRelocked_onlyIn
  · rw [s.worldClosed_opnEq]
    exact (s.worldEmptied .opn).waitEnded_onlyIn

theorem State.worldClosed_en : (s.worldClosed w).irq.en = (s.worldEmptied w).irq.en := by
  cases w
  · rw [s.worldClosed_tradeEq]
    exact (s.worldEmptied .trade).sealRelocked.2.1
  · rw [s.worldClosed_opnEq, State.modBoot_irq]

theorem State.worldClosed_trade : (s.worldClosed .trade).sealEng.slots = [] ∧ (s.worldClosed .trade).dap.unlockEnd = none := by
  rw [s.worldClosed_tradeEq]
  exact (s.worldEmptied .trade).sealRelocked.2.2

/-- The boot state after a world reset: an Open one waits no longer. -/
def Boot.afterWorld (b : Boot) : World → Boot
  | .trade => b
  | .opn => { b with waitOpen := false }

theorem State.sealRelocked_boot : s.sealEmptied.relock.boot = s.boot := s.sealRelocked.1 .boot (by decide)

theorem State.worldClosed_boot : (s.worldClosed w).boot = s.boot.afterWorld w := by
  have hboot : ∀ v, (s.worldEmptied v).boot = s.boot := fun v => s.worldEmptied_onlyIn v .boot (by decide)
  cases w
  · rw [s.worldClosed_tradeEq]
    rw [State.sealRelocked_boot, hboot]
    rfl
  · rw [s.worldClosed_opnEq, State.modBoot_boot, hboot]
    rfl

/-! The whole reset. -/

/-- The parts that a world reset may change. -/
def worldParts : List Part := engineParts ++ [.store, .sealEng, .dap, .free, .boot]

theorem State.worldResetNow_onlyIn : s.onlyIn (s.worldResetNow w) worldParts := by
  rw [s.worldResetNow_eq w]
  refine State.onlyIn_after (State.onlyIn_after (State.onlyIn_after (State.onlyIn_mono (s.worldEmptied_onlyIn w) (by decide))
    (State.onlyIn_mono (s.worldClosed_onlyIn w) (by decide))) (State.onlyIn_mono (State.bootStart_onlyIn _ w) (by decide))) ?_
  intro p hp
  cases p <;> simp [State.agrees, worldParts, engineParts] at hp ⊢

theorem State.worldClosed_reg (u : World) {slot off : Nat} (hslot : slot < 0x1000) (hoff : off < 0x10000) (hout : slot < 0x010 ∨ 0x020 ≤ slot)
    (hword : (slot, off) ∉ engineWords) : (s.worldClosed w).regW u slot off = s.regW u slot off := by
  have hregs : (s.worldClosed w).regs = (s.worldEmptied w).regs := s.worldClosed_onlyIn w .regs (by decide)
  rw [State.regW_congr hregs, (s.worldEmptied_serves w).regs u slot off hslot hoff hword]
  exact s.worldDropped_reg w u hslot hoff hout

theorem State.worldResetNow_reg (u : World) {slot off : Nat} (hslot : slot < 0x1000) (hoff : off < 0x10000) (hout : slot < 0x010 ∨ 0x020 ≤ slot)
    (hword : (slot, off) ∉ engineWords) : (s.worldResetNow w).regW u slot off = s.regW u slot off := by
  have hregs : ((s.worldClosed w).bootStart w).regs = (s.worldClosed w).regs := (s.worldClosed w).bootStart_onlyIn w .regs (by decide)
  rw [s.worldResetNow_eq w, State.modDev_regW, State.regW_congr hregs]
  exact s.worldClosed_reg w u hslot hoff hout hword

theorem State.worldResetNow_boot : (s.worldResetNow w).boot = s.boot.afterWorld w := by
  have hboot : ((s.worldClosed w).bootStart w).boot = (s.worldClosed w).boot := (s.worldClosed w).bootStart_onlyIn w .boot (by decide)
  rw [s.worldResetNow_eq w, State.modDev_boot, hboot]
  exact s.worldClosed_boot w

/-- What a world reset leaves (R533): no bank, no claimed context beyond the reserved ones, no enabled source, no item of the world; its boot context on its
boot tile; of the Trade world no key and no debug unlock. -/
def State.worldIsReset (s r : State) (w : World) : Prop :=
  (∀ u b, b < 7 → (vget (r.tile u).banks b Bank.reset).st ≠ .empty → (vget (r.tile u).banks b Bank.reset).ctx.world ≠ w)
  ∧ (∀ n : CtxId, 16 ≤ n.toNat → (r.store.slot n).claimed = true → (r.store.slot n).world ≠ w)
  ∧ (∀ i, i < 512 → s.irqWorld i = w → r.irq.en.getLsbD i = false)
  ∧ (r.tile (s.bootTile w)).sys.recorded = some (bootCtxNum w) ∧ r.store.slot (bootCtxNum w) = bootCtx w (s.vector w)
  ∧ vget r.dev.started w.idx false = true ∧ (∀ u, vget (r.tile u).cfg w.idx WorldCfg.reset = WorldCfg.reset)
  ∧ (w = .trade → r.sealEng.slots = [] ∧ r.dap.unlockEnd = none)

theorem State.worldClosed_tile (u : TileId) : ((s.worldClosed w).tile u).clearedOf w := by
  obtain ⟨c, hc⟩ := (s.worldEmptied_serves w).tile u
  have htiles : (s.worldClosed w).tiles = (s.worldEmptied w).tiles := s.worldClosed_onlyIn w .tiles (by decide)
  rw [State.tile_congr htiles, hc]
  exact Tile.clearedOf_congr (s.worldDropped_tile w u) rfl rfl

theorem State.worldClosed_store : (s.worldClosed w).store = (s.worldDropped w).store :=
  (s.worldClosed_onlyIn w .store (by decide)).trans ((s.worldEmptied_serves w).only .store (by decide))

theorem State.worldClosed_bootTile : (s.worldClosed w).bootTile w = s.bootTile w := by
  have hreg : (s.worldClosed w).reg 0x00D 0x111C = s.reg 0x00D 0x111C := s.worldClosed_reg w .trade (by decide) (by decide) (by decide) (by decide)
  unfold State.bootTile
  rw [hreg]
theorem State.vector_congr {t : State} (htrade : t.reg 0x00D 0x1110 = s.reg 0x00D 0x1110) (hopn : t.reg 0x00D 0x1114 = s.reg 0x00D 0x1114) :
    t.vector w = s.vector w := by
  cases w
  · exact htrade
  · exact hopn
theorem State.worldClosed_vector : (s.worldClosed w).vector w = s.vector w :=
  State.vector_congr s w (s.worldClosed_reg w .trade (by decide) (by decide) (by decide) (by decide))
    (s.worldClosed_reg w .trade (by decide) (by decide) (by decide) (by decide))

theorem bootCtxNum_reserved : (bootCtxNum w).toNat < 16 := by cases w <;> decide

theorem State.bootStart_locks : (s.bootStart w).sealEng = s.sealEng ∧ (s.bootStart w).dap = s.dap ∧ (s.bootStart w).irq = s.irq := by
  have honly := s.bootStart_onlyIn w
  exact ⟨honly .sealEng (by decide), honly .dap (by decide), honly .irq (by decide)⟩

theorem State.worldResetNow_resets : s.worldIsReset (s.worldResetNow w) w := by
  rw [s.worldResetNow_eq w]
  have hclear := fun u => s.worldClosed_tile w u
  have hbanks := fun u => (s.worldClosed w).bootStart_banks w u
  refine ⟨fun u b hb => ?_, fun n hn => ?_, fun i hi hworld => ?_, ?_, ?_, ?_, fun u => ?_, ?_⟩
  · rw [State.modDev_tile, (hbanks u).1]
    exact (hclear u).1 b hb
  · rw [State.modDev_store, State.bootStart_slot, if_neg (fun h => by have hlow := bootCtxNum_reserved w; rw [← h] at hlow; omega), s.worldClosed_store w]
    exact s.worldDropped_slot w n hn
  · rw [State.modDev_irq, ((s.worldClosed w).bootStart_locks w).2.2, s.worldClosed_en w, (s.worldEmptied_serves w).en]
    exact s.worldDropped_en w hi hworld
  · rw [State.modDev_tile, ← s.worldClosed_bootTile w]
    exact State.bootStart_recorded _ w
  · rw [State.modDev_store, State.bootStart_slot, if_pos rfl, s.worldClosed_vector w]
  · rw [State.modDev_dev, vget_vset _ _ _ _ _ (worldIdx_lt w), if_pos rfl]
  · rw [State.modDev_tile, (hbanks u).2]
    exact (hclear u).2
  · rintro rfl
    obtain ⟨hseal, hdap, -⟩ := (s.worldClosed .trade).bootStart_locks .trade
    rw [State.modDev_sealEng, State.modDev_dap, hseal, hdap]
    exact s.worldClosed_trade

end

end Sys2Proof.Machine

namespace Sys2Proof.Machine

/-! WRESET, the expiry of the Open watchdog, and the watchdogs' registers (R532, R536). -/

section
variable (s : State) (w : World)

/-! A world reset that does not wait. -/

theorem State.worldReset_now (hfree : w = .opn → ¬ ∃ t, s.openCaller t = true) : s.worldReset w = s.worldResetNow w := by
  refine if_neg ?_
  rw [Bool.and_eq_true, List.any_eq_true, beq_iff_eq]
  rintro ⟨hopn, t, -, ht⟩
  exact hfree hopn ⟨t, ht⟩

theorem State.worldReset_waits (hheld : ∃ t, s.openCaller t = true) : s.worldReset .opn = s.modBoot (fun b => { b with waitOpen := true }) := by
  obtain ⟨t, ht⟩ := hheld
  refine if_pos ?_
  rw [Bool.and_eq_true, List.any_eq_true]
  exact ⟨rfl, t, mem_allTiles t, ht⟩

theorem State.done_resets {u r : State} (h : u.worldIsReset r w) : u.worldIsReset r.done w := h

/-! WRESET (R532). -/

theorem regWrite_wreset {t : State} {q : Req} {v : Word} {pdc : Bool} (hadmits : s.admits q (if pdc = true then 0x02B else 0x00D) 0x1100)
    (hblock : s.wreset q (if pdc = true then 0x02B else 0x00D) v = (t, .ok 0)) : exec (.wreset q pdc v) s = .next t.done := by
  cases pdc
  · exact regWrite_boot hadmits (by decide) (by decide) hblock
  · exact regWrite_pdc hadmits (by decide) (by decide) hblock

theorem regWrite_wresetRefuses {q : Req} {v : Word} {pdc : Bool} (hadmits : s.admits q (if pdc = true then 0x02B else 0x00D) 0x1100)
    (hblock : s.wreset q (if pdc = true then 0x02B else 0x00D) v = (s, .err busErr)) :
    exec (.wreset q pdc v) s = .next { s with resp := some (.err busErr) } := by
  cases pdc
  · exact regWrite_bootRefuses hadmits (by decide) (by decide) hblock
  · exact regWrite_pdcRefuses hadmits (by decide) (by decide) hblock

theorem State.wreset_resets {q : Req} {v : Word} {pdc : Bool} (hsup : q.sup = true) (hwriter : (q.world = .trade ∧ pdc = false) ∨ (pdc = true ∧ bit v 0 = false)) :
    s.wreset q (if pdc = true then 0x02B else 0x00D) v = (s.worldReset (World.ofBit (bit v 0)), .ok 0) := by
  refine if_neg ?_
  obtain ⟨hworld, rfl⟩ | ⟨rfl, hbit⟩ := hwriter
  · simp [hsup, hworld]
  · simp [hsup, hbit, World.ofBit]

theorem State.wreset_refuses {q : Req} {v : Word} {pdc : Bool} (hwriter : q.sup = false ∨ (pdc = false ∧ q.world ≠ .trade) ∨ (pdc = true ∧ bit v 0 = true)) :
    s.wreset q (if pdc = true then 0x02B else 0x00D) v = (s, .err busErr) := by
  refine if_pos ?_
  obtain hsup | ⟨rfl, hworld⟩ | ⟨rfl, hbit⟩ := hwriter
  · simp [hsup]
  · simp [hworld]
  · simp [hbit, World.ofBit]

/-! The watchdogs' registers. -/

theorem regWrite_wd {q : Req} {off : Nat} {v : Word} (hadmits : s.admits q (wdSlot w) off) (hlo : 0x1000 ≤ off) (hhi : off < 0x1020) (haligned : off % 4 = 0) :
    (Host.Outcome.next (s.regWrite q (wdSlot w) off v) : Host.Outcome State Fault Refusal) = .next (s.wdWrite w off v).done := by
  cases w
  · exact regWrite_boot hadmits hlo haligned (if_pos hhi)
  · exact State.regWrite_next hadmits (by decide) haligned ((s.slotWrite_wdo q off v hlo).trans (if_pos hhi))

theorem wdSlot_lt : wdSlot w < 0x1000 := by cases w <;> decide

theorem State.wdWrite_ctl (v : Word) : s.wdWrite w 0x1000 v = if bit (s.reg (wdSlot w) 0x1000) 30 = true then s else
    if (bit v 31 && !bit (s.reg (wdSlot w) 0x1000) 31) = true then (s.setReg (wdSlot w) 0x1000 (v &&& 0xC0000000)).wdReload w
    else s.setReg (wdSlot w) 0x1000 (v &&& 0xC0000000) := rfl
theorem State.wdWrite_time (v : Word) : s.wdWrite w 0x1004 v
    = if bit (s.reg (wdSlot w) 0x1000) 30 = true then s else s.plainWrite .trade (wdSlot w) 0x1004 v := rfl
theorem State.wdWrite_warn (v : Word) : s.wdWrite w 0x1008 v = s.plainWrite .trade (wdSlot w) 0x1008 v := rfl
theorem State.wdWrite_kick (v : Word) : s.wdWrite w 0x100C v = s.wdKick w v := rfl

theorem wdSlot_rowMask : rowMask (wdSlot w) 0x1004 = some 0xFFFFF ∧ rowMask (wdSlot w) 0x1008 = some 0xFFFFF := by cases w <;> decide

theorem State.wdReload_left : vget (s.wdReload w).boot.left w.idx 0 = fld (s.reg (wdSlot w) 0x1004) 19 0 * 1000 := by
  rw [State.wdReload, State.modBoot_boot, vget_vset _ _ _ _ _ (worldIdx_lt w), if_pos rfl]
theorem State.wdReload_onlyIn : s.onlyIn (s.wdReload w) [.boot] := s.modBoot_onlyIn _
theorem State.wdReload_regs : (s.wdReload w).regs = s.regs := s.wdReload_onlyIn w .regs (by decide)
theorem State.wdReload_primed : (s.wdReload w).boot.primed = s.boot.primed := rfl

theorem State.wdWarn_eq : s.wdWarn w = if (s.wdRuns w && fld (s.reg (wdSlot w) 0x1008) 19 0 != 0 && !vget s.boot.warned w.idx false
      && decide (vget s.boot.left w.idx 0 ≤ fld (s.reg (wdSlot w) 0x1008) 19 0 * 1000)) = true
    then (s.modBoot (fun b => { b with warned := vset b.warned w.idx true })).raise (if w = .trade then 32 else 33) else s := by
  cases w <;> rfl

/-- A watchdog's kick by the value written: the first key primes, the second reloads, another disturbs. -/
def State.wdPrime (s : State) (w : World) (b : Bool) : State := s.modBoot (fun x => { x with primed := vset x.primed w.idx b })

theorem State.wdKick_eq (v : Word) : s.wdKick w v = if v = 0xA5C3 then s.wdPrime w true
    else if v = 0x3C5A ∧ vget s.boot.primed w.idx false = true then (s.wdPrime w false).wdReload w
    else if (bit (s.reg (wdSlot w) 0x1000) 30 && bit (s.reg (wdSlot w) 0x1000) 31) = true then (s.wdPrime w false).wdExpire w
    else s.wdPrime w false := rfl

theorem State.wdPrime_primed (b : Bool) : vget (s.wdPrime w b).boot.primed w.idx false = b := by
  rw [State.wdPrime, State.modBoot_boot, vget_vset _ _ _ _ _ (worldIdx_lt w), if_pos rfl]
theorem State.wdPrime_reg (b : Bool) (slot off : Nat) : (s.wdPrime w b).reg slot off = s.reg slot off := s.modBoot_regW _ _ _ _

/-! The expiry of the Open watchdog (R536). -/

/-- The Open watchdog's expiry before its world reset: WDEXP counts, the count is reloaded. -/
def State.wdCounted (s : State) : State := (s.modReg 0x00E 0x1014 (· + 1)).wdReload .opn

theorem State.wdExpire_opn : s.wdExpire .opn = s.wdCounted.worldReset .opn := rfl

theorem State.wdCounted_onlyIn : s.onlyIn s.wdCounted [.regs, .boot] :=
  State.onlyIn_after (State.onlyIn_mono (s.modReg_onlyIn _ _ _) (by decide)) (State.onlyIn_mono (State.wdReload_onlyIn _ .opn) (by decide))

theorem State.wdCounted_reg {slot off : Nat} (hslot : slot < 0x1000) (hoff : off < 0x10000) (hne : ¬ (slot = 0x00E ∧ off = 0x1014)) :
    s.wdCounted.reg slot off = s.reg slot off := by
  have hregs : s.wdCounted.regs = (s.modReg 0x00E 0x1014 (· + 1)).regs := State.wdReload_regs _ .opn
  rw [State.reg, State.regW_congr hregs]
  exact (State.reg_modReg s _ (by decide) hslot (by decide) hoff).trans (if_neg (fun h => hne h))

theorem State.wdCounted_count : s.wdCounted.reg 0x00E 0x1014 = s.reg 0x00E 0x1014 + 1 := by
  have hregs : s.wdCounted.regs = (s.modReg 0x00E 0x1014 (· + 1)).regs := State.wdReload_regs _ .opn
  rw [State.reg, State.regW_congr hregs]
  exact s.reg_modReg_self _ _ _

theorem State.wdCounted_left : vget s.wdCounted.boot.left 1 0 = fld (s.reg 0x00E 0x1004) 19 0 * 1000 := by
  have hleft := (s.modReg 0x00E 0x1014 (· + 1)).wdReload_left .opn
  have htime : (s.modReg 0x00E 0x1014 (· + 1)).reg 0x00E 0x1004 = s.reg 0x00E 0x1004 :=
    (State.reg_modReg s _ (by decide) (by decide) (by decide) (by decide)).trans (if_neg (by decide))
  exact hleft.trans (by rw [← htime]; rfl)

theorem State.openCaller_congr {t : State} (htiles : t.tiles = s.tiles) (hstore : t.store = s.store) (u : TileId) : t.openCaller u = s.openCaller u := by
  have hctx : ∀ n, t.ctx n = s.ctx n := fun n => by
    simp only [State.ctx, State.dir, State.tile, htiles, hstore]
    rfl
  simp only [State.openCaller, State.tile_congr htiles, hctx]

theorem State.worldIsReset_congr {u r : State} (hreg : ∀ slot off, slot < 0x00E → off < 0x10000 → u.reg slot off = s.reg slot off)
    (h : u.worldIsReset r w) : s.worldIsReset r w := by
  obtain ⟨hbanks, hslots, hen, hrecorded, hboot, hrest⟩ := h
  have htile : u.bootTile w = s.bootTile w := by
    unfold State.bootTile
    rw [hreg _ _ (by decide) (by decide)]
  have hvector : u.vector w = s.vector w := State.vector_congr s w (hreg _ _ (by decide) (by decide)) (hreg _ _ (by decide) (by decide))
  refine ⟨hbanks, hslots, fun i hi hworld => hen i hi ?_, htile ▸ hrecorded, hvector ▸ hboot, hrest⟩
  rw [State.irqWorld, State.scfg, hreg _ _ (by decide) (by omega)]
  exact hworld

/-- An Open watchdog that expires with no link in the way resets its world, and counts again. -/
theorem State.wdExpire_resets (hfree : ¬ ∃ t, s.openCaller t = true) :
    let r := s.wdExpire .opn
    s.worldIsReset r .opn ∧ r.reg 0x00E 0x1014 = s.reg 0x00E 0x1014 + 1 ∧ vget r.boot.left 1 0 = fld (s.reg 0x00E 0x1004) 19 0 * 1000 := by
  have hcallers := s.openCaller_congr (s.wdCounted_onlyIn .tiles (by decide)) (s.wdCounted_onlyIn .store (by decide))
  have hnow : s.wdExpire .opn = s.wdCounted.worldResetNow .opn := by
    rw [s.wdExpire_opn]
    exact s.wdCounted.worldReset_now .opn (fun _ ⟨t, ht⟩ => hfree ⟨t, (hcallers t).symm.trans ht⟩)
  rw [hnow]
  refine ⟨State.worldIsReset_congr s .opn (fun slot off hslot hoff => s.wdCounted_reg (by omega) hoff (by omega)) (s.wdCounted.worldResetNow_resets .opn), ?_, ?_⟩
  · exact (s.wdCounted.worldResetNow_reg .opn .trade (by decide) (by decide) (by decide) (by decide)).trans s.wdCounted_count
  · rw [State.worldResetNow_boot]
    exact s.wdCounted_left

end

/-- Settles O58: a world reset part by part, and the watchdogs' writes, warnings and expiry. -/
theorem worldsReset : Obligations.WorldsReset := by
  intro s q v pdc w
  refine ⟨?write, ?refuse, ?expires, ?still, ?warns, ?quiet, ?prime, ?kick, ?disturb, ?expire, ?ctl, ?ctlLocked, ?time, ?timeLocked, ?warn⟩
  case write =>
    intro hadmits hsup hwriter
    have hblock := s.wreset_resets hsup hwriter
    refine ⟨fun hbit => ⟨_, regWrite_wreset s hadmits hblock, ?_, rfl⟩, fun hbit hfree => ⟨_, regWrite_wreset s hadmits hblock, ?_, rfl⟩, fun hbit hheld => ?_⟩
    · rw [hbit]
      refine State.done_resets .trade ?_
      rw [show World.ofBit true = .trade from rfl, s.worldReset_now .trade nofun]
      exact s.worldResetNow_resets .trade
    · rw [hbit]
      refine State.done_resets .opn ?_
      rw [show World.ofBit false = .opn from rfl, s.worldReset_now .opn (fun _ => hfree)]
      exact s.worldResetNow_resets .opn
    · rw [hbit, show World.ofBit false = .opn from rfl, s.worldReset_waits hheld] at hblock
      exact regWrite_wreset s hadmits hblock
  case refuse => exact fun hadmits hwriter => regWrite_wresetRefuses s hadmits (s.wreset_refuses hwriter)
  case expires =>
    intro hruns hzero hfree
    obtain ⟨hreset, hcount, hleft⟩ := s.wdExpire_resets hfree
    have hdue : s.wdDue .opn = s.wdExpire .opn := if_pos (by
      rw [Bool.and_eq_true, beq_iff_eq]
      exact ⟨hruns, hzero⟩)
    exact ⟨s.wdExpire .opn, congrArg Host.Outcome.next hdue, hreset, hcount, hleft⟩
  case still =>
    intro h
    refine congrArg Host.Outcome.next (if_neg ?_)
    rw [Bool.and_eq_true, beq_iff_eq]
    rintro ⟨hruns, hzero⟩
    obtain hstopped | hcounts := h
    · rw [hstopped] at hruns
      cases hruns
    · exact hcounts hzero
  case warns =>
    intro hruns hlead hquiet hlate
    refine congrArg Host.Outcome.next ((s.wdWarn_eq w).trans (if_pos ?_))
    simp [hruns, hlead, hquiet, hlate]
  case quiet =>
    intro h
    refine congrArg Host.Outcome.next ((s.wdWarn_eq w).trans (if_neg ?_))
    simp only [Bool.and_eq_true, bne_iff_ne, ne_eq, Bool.not_eq_true', decide_eq_true_eq]
    rintro ⟨⟨⟨-, hlead⟩, hquiet⟩, hlate⟩
    obtain hwarned | hnone | hearly := h
    · rw [hwarned] at hquiet
      cases hquiet
    · exact hlead hnone
    · omega
  case prime =>
    intro hadmits hkey
    refine (regWrite_wd s w hadmits (by decide) (by decide) (by decide)).trans ?_
    rw [State.wdWrite_kick, State.wdKick_eq, if_pos hkey]
    rfl
  case kick =>
    intro hadmits hkey hprimed
    refine ⟨_, regWrite_wd s w hadmits (by decide) (by decide) (by decide), ?_⟩
    rw [State.wdWrite_kick, State.wdKick_eq, if_neg (by rw [hkey]; decide), if_pos ⟨hkey, hprimed⟩, State.done_boot]
    refine ⟨?_, ?_, ?_⟩
    · rw [State.wdReload_left, State.wdPrime_reg]
    · rw [State.wdReload_primed, State.wdPrime_primed]
    · exact State.onlyIn_done (State.onlyIn_after (s.modBoot_onlyIn _) ((s.wdPrime w false).wdReload_onlyIn w)) (by decide) (by decide)
  case disturb =>
    intro hadmits hfirst hsecond hopen
    refine (regWrite_wd s w hadmits (by decide) (by decide) (by decide)).trans ?_
    rw [State.wdWrite_kick, State.wdKick_eq, if_neg hfirst, if_neg (fun h => by rw [hsecond h.1] at h; exact absurd h.2 (by decide)), if_neg (by simp [hopen])]
    rfl
  case expire =>
    intro hadmits hfirst hsecond hlocked hen
    refine (regWrite_wd s w hadmits (by decide) (by decide) (by decide)).trans ?_
    rw [State.wdWrite_kick, State.wdKick_eq, if_neg hfirst, if_neg (fun h => by rw [hsecond h.1] at h; exact absurd h.2 (by decide)),
      if_pos (by rw [hlocked, hen]; rfl)]
    rfl
  case ctl =>
    intro hadmits hopen hstart hstopped
    refine ⟨(s.wdWrite w 0x1000 v).done, regWrite_wd s w hadmits (by decide) (by decide) (by decide), ?_⟩
    rw [State.wdWrite_ctl, if_neg (by simp [hopen]), if_pos (by simp [hstart, hstopped])]
    have hregs := (s.setReg (wdSlot w) 0x1000 (v &&& 0xC0000000)).wdReload_regs w
    refine ⟨?_, ?_, ?_⟩
    · refine (State.regW_congr hregs).trans ?_
      exact s.reg_setReg_self _ _ _
    · rw [State.done_boot, State.wdReload_left, State.reg_setReg _ _ (wdSlot_lt w) (wdSlot_lt w) (by decide) (by decide), if_neg (fun h => absurd h.2 (by decide))]
    · exact State.regsBut_done (State.regsBut_congr (State.regsBut_setReg (State.regsBut_of_eq _ rfl) _ (wdSlot_lt w) (by decide) (by simp)) hregs)
  case ctlLocked =>
    intro hadmits hlocked
    refine (regWrite_wd s w hadmits (by decide) (by decide) (by decide)).trans ?_
    rw [State.wdWrite_ctl, if_pos hlocked]
  case time =>
    intro hadmits hopen
    refine (regWrite_wd s w hadmits (by decide) (by decide) (by decide)).trans ?_
    rw [State.wdWrite_time, if_neg (by simp [hopen]), s.plainWrite_of_rowMask .trade v (wdSlot_rowMask w).1]
  case timeLocked =>
    intro hadmits hlocked
    refine (regWrite_wd s w hadmits (by decide) (by decide) (by decide)).trans ?_
    rw [State.wdWrite_time, if_pos hlocked]
  case warn =>
    intro hadmits
    refine (regWrite_wd s w hadmits (by decide) (by decide) (by decide)).trans ?_
    rw [State.wdWrite_warn, s.plainWrite_of_rowMask .trade v (wdSlot_rowMask w).2]

end Sys2Proof.Machine

namespace Sys2Proof.Machine

/-! One microsecond on an empty queue (log 2, R493, R517, R536). -/

/-! The watchdogs' count. -/

/-- One watchdog counts a microsecond where it runs (R493, R536). -/
def State.wdCount (s : State) (w : World) : State :=
  if s.wdRuns w then s.modBoot (fun b => { b with left := vset b.left w.idx (vget b.left w.idx 0 - 1) }) else s

theorem State.wdCount_left (s : State) (w u : World) : vget (s.wdCount w).boot.left u.idx 0
    = if u = w ∧ s.wdRuns w = true then vget s.boot.left w.idx 0 - 1 else vget s.boot.left u.idx 0 := by
  unfold State.wdCount
  have hw : w.idx < 2 := by cases w <;> decide
  split
  · rw [State.modBoot_boot, vget_vset _ _ _ _ _ hw]
    cases u <;> cases w <;> simp [World.idx, *]
  · simp [*]

theorem State.wdCount_kept (s : State) (w : World) : ∃ l, s.wdCount w = s.modBoot (fun b => { b with left := l }) := by
  unfold State.wdCount
  split
  · exact ⟨_, rfl⟩
  · exact ⟨s.boot.left, rfl⟩

theorem State.wdRuns_wdCount (s : State) (w u : World) : (s.wdCount w).wdRuns u = s.wdRuns u := by
  obtain ⟨l, hl⟩ := s.wdCount_kept w
  rw [hl]
  simp [State.wdRuns]

/-- Outside the recovery of the tinder ROM the watchdogs count one after the other. -/
theorem State.wdTick_eq {s : State} (hboot : s.boot.tinder ≠ .recovery) : s.wdTick = (s.wdCount .trade).wdCount .opn := by
  obtain ⟨l, hl⟩ := s.wdCount_kept .trade
  obtain ⟨m, hm⟩ := (s.wdCount .trade).wdCount_kept .opn
  refine if_neg (fun h : ((s.wdCount .trade).wdCount .opn).boot.tinder = .recovery => hboot ?_)
  rwa [hm, hl] at h

/-- A running watchdog counts down by the microsecond. -/
theorem State.wdTick_left {s : State} {w : World} (hruns : s.wdRuns w = true) (hboot : s.boot.tinder ≠ .recovery) :
    vget s.wdTick.boot.left w.idx 0 = vget s.boot.left w.idx 0 - 1 := by
  rw [State.wdTick_eq hboot, State.wdCount_left, State.wdRuns_wdCount, State.wdCount_left, State.wdCount_left]
  cases w <;> simp [hruns]

/-- The watchdogs touch the boot state alone. -/
theorem State.wdCount_onlyIn (s : State) (w : World) : s.onlyIn (s.wdCount w) [.boot] := State.onlyIn_ite (s.modBoot_onlyIn _) (s.onlyIn_refl _)

theorem State.wdTick_onlyIn (s : State) : s.onlyIn s.wdTick [.boot] := by
  have hcounts := State.onlyIn_after (s.wdCount_onlyIn .trade) ((s.wdCount .trade).wdCount_onlyIn .opn)
  exact State.onlyIn_ite (State.onlyIn_after hcounts (State.wdReload_onlyIn _ .trade)) hcounts

/-! The other counters. -/

section
variable (s : State)

theorem State.tbTick_onlyIn : s.onlyIn s.tbTick [.tb, .ptp] := by
  intro p hp
  cases p <;> simp [State.agrees, State.tbTick] at hp ⊢

theorem State.timerTick_onlyIn (k : Nat) : s.onlyIn (s.timerTick k) [.regs] := State.onlyIn_ite (s.setReg_onlyIn _ _ _) (s.onlyIn_refl _)

theorem State.tileCycles_onlyIn (t : TileId) : s.onlyIn (s.tileCycles t) [.regs] :=
  State.onlyIn_ite (State.onlyIn_ite (State.onlyIn_after (s.modReg_onlyIn _ _ _) (State.modReg_onlyIn _ _ _ _)) (s.modReg_onlyIn _ _ _)) (s.onlyIn_refl _)

theorem State.usbTick_onlyIn (u : Nat) : s.onlyIn (s.usbTick u) [.usb] := by
  intro p hp
  cases p <;> simp [State.agrees, State.usbTick] at hp ⊢

theorem State.fwdStarts_onlyIn : s.onlyIn s.fwdStarts [.dict] := by
  intro p hp
  cases p <;> simp [State.agrees, State.fwdStarts] at hp ⊢

/-- What the timers, the tiles and the ports count once the watchdogs have. -/
def State.unitsTick (s : State) : State :=
  ((allTiles.foldl (fun s t => (s.tileCycles t).settleTile t) ((List.range 32).foldl (fun s k => s.timerTick k) s)).usbTick 0).usbTick 1

theorem State.logicTick_eq : s.logicTick = s.tbTick.wdTick.unitsTick.worldResetWaits := rfl

theorem State.unitsTick_onlyIn : s.onlyIn s.unitsTick [.regs, .tiles, .store, .usb] := by
  have htimers := State.onlyIn_foldl (fun u k => State.timerTick_onlyIn u k) (List.range 32) s
  have htiles := fun u => State.onlyIn_foldl (l := [.regs, .tiles, .store]) (fun v t =>
    State.onlyIn_after (State.onlyIn_mono (State.tileCycles_onlyIn v t) (by decide)) (State.onlyIn_mono (State.settleTile_onlyIn _ t) (by decide))) allTiles u
  have hports : ∀ u : State, u.onlyIn ((u.usbTick 0).usbTick 1) [.usb] := fun u => State.onlyIn_after (u.usbTick_onlyIn 0) (State.usbTick_onlyIn _ 1)
  exact State.onlyIn_after (State.onlyIn_after (State.onlyIn_mono htimers (by decide)) (State.onlyIn_mono (htiles _) (by decide)))
    (State.onlyIn_mono (hports _) (by decide))

/-! The waiting Open world reset. -/

theorem State.worldResetWaits_onlyIn : s.onlyIn s.worldResetWaits worldParts :=
  State.onlyIn_ite (State.onlyIn_ite (State.onlyIn_mono (s.modBoot_onlyIn _) (by decide)) (s.worldResetNow_onlyIn .opn)) (s.onlyIn_refl _)

theorem State.worldResetWaits_none (hwait : s.boot.waitOpen = false) : s.worldResetWaits = s := if_neg (by simp [hwait])

/-! The microsecond. -/

/-- The parts that a microsecond of the logic side may change: not the clock, not the queue, not the bus die. -/
def tickParts : List Part := worldParts ++ [.tb, .ptp, .usb]

theorem State.logicTick_onlyIn : s.onlyIn s.logicTick tickParts := by
  rw [s.logicTick_eq]
  exact State.onlyIn_after (State.onlyIn_after (State.onlyIn_after (State.onlyIn_mono s.tbTick_onlyIn (by decide)) (State.onlyIn_mono (State.wdTick_onlyIn _) (by decide)))
    (State.onlyIn_mono (State.unitsTick_onlyIn _) (by decide))) (State.onlyIn_mono (State.worldResetWaits_onlyIn _) (by decide))

/-- With no world reset waiting, a running watchdog counts the microsecond down. -/
theorem State.logicTick_left {w : World} (hruns : s.wdRuns w = true) (hboot : s.boot.tinder ≠ .recovery) (hwait : s.boot.waitOpen = false) :
    vget s.logicTick.boot.left w.idx 0 = vget s.boot.left w.idx 0 - 1 := by
  have hunits : s.tbTick.wdTick.unitsTick.boot = s.tbTick.wdTick.boot := State.unitsTick_onlyIn _ .boot (by decide)
  have hleft : vget s.tbTick.wdTick.boot.left w.idx 0 = vget s.boot.left w.idx 0 - 1 := State.wdTick_left (s := s.tbTick) hruns hboot
  have hwait' : s.tbTick.wdTick.unitsTick.boot.waitOpen = false := by
    obtain ⟨l, hl⟩ := State.wdCount_kept s.tbTick .trade
    obtain ⟨m, hm⟩ := State.wdCount_kept (s.tbTick.wdCount .trade) .opn
    rw [hunits, State.wdTick_eq (s := s.tbTick) hboot, hm, hl]
    exact hwait
  rw [s.logicTick_eq, State.worldResetWaits_none _ hwait', hunits, hleft]

/-- The clock of the next microsecond. -/
def State.nextMicro (s : State) : State := { s with now := s.now + 1 }

/-- The microsecond of the logic side, where it runs. -/
def State.sideTick (s : State) : State := if s.logicRuns then s.logicTick else s

/-- The RTC's note of the last microsecond in which it followed the time block. -/
def State.holdNoted (s : State) : State := if s.rtcLocked then s.modRtc (fun r => { r with hold := some s.now }) else s

theorem State.tick_eq : s.tick = s.nextMicro.sideTick.fwdStarts.holdNoted := rfl

theorem State.nextMicro_onlyIn : s.onlyIn s.nextMicro [.now] := by
  intro p hp
  cases p <;> simp [State.agrees, State.nextMicro] at hp ⊢

theorem State.sideTick_onlyIn : s.onlyIn s.sideTick tickParts := State.onlyIn_ite s.logicTick_onlyIn (s.onlyIn_refl _)

theorem State.sideTick_still (hstill : s.boot.rst = .held ∨ s.bridgeDown = true) : s.sideTick = s := by
  refine if_neg ?_
  obtain hheld | hdown := hstill
  · simp [State.logicRuns, hheld]
  · simp [State.logicRuns, hdown]

/-- A watchdog runs only on a side that is out of reset. -/
theorem State.logicRuns_of_wdRuns {w : World} (hruns : s.wdRuns w = true) (hup : s.bridgeDown = false) : s.logicRuns = true := by
  rw [State.wdRuns, Bool.and_eq_true, beq_iff_eq] at hruns
  obtain ⟨-, hrst⟩ := hruns
  simp [State.logicRuns, hrst, hup]

theorem State.holdNoted_onlyIn : s.onlyIn s.holdNoted [.rtc] := State.onlyIn_ite (s.modRtc_onlyIn _) (s.onlyIn_refl _)

theorem State.noted_onlyIn : s.onlyIn s.fwdStarts.holdNoted [.dict, .rtc] :=
  State.onlyIn_after (State.onlyIn_mono s.fwdStarts_onlyIn (by decide)) (State.onlyIn_mono (State.holdNoted_onlyIn _) (by decide))

end

/-- Settles O2: the parts that each counter may change, one after the other. -/
theorem emptyQueueTicks : Obligations.EmptyQueueTicks := by
  intro s hempty
  have hstep : step s = .next s.tick := by rw [step, hempty]
  have hnoted := s.nextMicro.sideTick.noted_onlyIn
  rw [← s.tick_eq] at hnoted
  have htick : s.nextMicro.onlyIn s.tick (tickParts ++ [.rtc]) := State.onlyIn_trans s.nextMicro.sideTick_onlyIn hnoted (by decide) (by decide)
  refine ⟨s.tick, hstep, htick .now (by decide), (htick .pending (by decide)).trans hempty, htick .bus (by decide), ?still, ?counts⟩
  case still =>
    intro hstill
    rw [s.nextMicro.sideTick_still hstill] at hnoted
    exact State.onlyIn_after (State.onlyIn_mono s.nextMicro_onlyIn (by decide)) (State.onlyIn_mono hnoted (by decide))
  case counts =>
    intro w hruns hup hboot hwait
    have hboot' : s.tick.boot = s.nextMicro.sideTick.boot := hnoted .boot (by decide)
    have hlogic : s.nextMicro.logicRuns = true := s.logicRuns_of_wdRuns hruns hup
    rw [hboot', State.sideTick, if_pos hlogic]
    exact s.nextMicro.logicTick_left hruns hboot hwait

end Sys2Proof.Machine
